-- ==== Sys2Proof/Word.lean ====
section
/-! DEFINITION. The plainest types of the model: a byte, a fraction, a sparse table.

Quantities that the manual adds, saturates and compares are `Nat` or `Int` (instants in ns, lengths in mm, counts); a byte on
a wire or in a bank is a `Byte`; a value that the manual computes exactly before it rounds (R11) is a `Frac`. -/

namespace Sys2Proof

/-- One byte of a message, an image or a record (00_scope R13). -/
abbrev Byte := BitVec 8

/-- A byte string, lowest address first. -/
abbrev Bytes := List Byte

/-- An exact fraction: what a stage holds before it rounds (00_scope R11). The denominator of every fraction that the model
builds is at least 1. -/
structure Frac where
  num : Int
  den : Nat
  deriving DecidableEq, Repr

namespace Frac

/-- The fraction `n / d` in lowest terms; `d = 0` counts as 1. -/
def norm (n : Int) (d : Nat) : Frac :=
  let d' := if d = 0 then 1 else d
  let g := Nat.gcd n.natAbs d'
  if g = 0 then ⟨n, d'⟩ else ⟨n / (g : Int), d' / g⟩

def ofInt (n : Int) : Frac := ⟨n, 1⟩
def ofNat (n : Nat) : Frac := ⟨(n : Int), 1⟩
def add (a b : Frac) : Frac := norm (a.num * b.den + b.num * a.den) (a.den * b.den)
def neg (a : Frac) : Frac := ⟨-a.num, a.den⟩
def sub (a b : Frac) : Frac := add a (neg b)
def mul (a b : Frac) : Frac := norm (a.num * b.num) (a.den * b.den)
/-- The reciprocal; that of 0 is 0. -/
def inv (a : Frac) : Frac :=
  if 0 < a.num then ⟨a.den, a.num.natAbs⟩ else if a.num < 0 then ⟨-(a.den : Int), a.num.natAbs⟩ else ⟨0, 1⟩
def div (a b : Frac) : Frac := mul a (inv b)
def lt (a b : Frac) : Bool := decide (a.num * b.den < b.num * a.den)
def le (a b : Frac) : Bool := decide (a.num * b.den ≤ b.num * a.den)
def max (a b : Frac) : Frac := if le a b then b else a
def min (a b : Frac) : Frac := if le a b then a else b
def abs (a : Frac) : Frac := ⟨(a.num.natAbs : Int), a.den⟩
def floor (a : Frac) : Int := a.num / (if a.den = 0 then 1 else a.den : Nat)
/-- `2 ^ e` for any integer exponent. -/
def pow2 (e : Int) : Frac := if 0 ≤ e then ⟨2 ^ e.toNat, 1⟩ else ⟨1, 2 ^ (-e).toNat⟩
def zero : Frac := ⟨0, 1⟩
def one : Frac := ⟨1, 1⟩
def sum : List Frac → Frac
  | [] => zero
  | x :: xs => add x (sum xs)

end Frac

/-- A sparse table: pairs of a key and a value, keys strictly rising. -/
abbrev Table (β : Type) := List (Nat × β)

namespace Table

/-- The value at a key, or `d` where the table lists none. -/
def get {β : Type} (d : β) : Table β → Nat → β
  | [], _ => d
  | (k, v) :: r, i => if k = i then v else get d r i

/-- The value at a key, if the table lists one. -/
def find {β : Type} : Table β → Nat → Option β
  | [], _ => none
  | (k, v) :: r, i => if k = i then some v else find r i

/-- The table with `v` at key `i`; the keys stay strictly rising. -/
def set {β : Type} : Table β → Nat → β → Table β
  | [], i, v => [(i, v)]
  | (k, w) :: r, i, v => if i = k then (i, v) :: r else if i < k then (i, v) :: (k, w) :: r else (k, w) :: set r i v

/-- The table without key `i`. -/
def erase {β : Type} : Table β → Nat → Table β
  | [], _ => []
  | (k, w) :: r, i => if i = k then r else (k, w) :: erase r i

/-- The keys, in rising order. -/
def keys {β : Type} (t : Table β) : List Nat := t.map Prod.fst

/-- The canonical form: keys strictly rising. -/
def sorted {β : Type} : Table β → Bool
  | [] => true
  | [_] => true
  | (k, _) :: (l, w) :: r => decide (k < l) && sorted ((l, w) :: r)

end Table

end Sys2Proof
end

