-- ==== Sys2Proof/Syntax.lean ====
section
/-! DEFINITION. The commands of the block: one constructor of `Instr` for each row of spec/opcode_table.json, in the table's order.

The first operand `dt` of every command is the number of 250 MHz clocks (4 ns each, 14_timebase_rtc R372) since the command
before it. Further operands are what reaches the module from outside at that instant (bytes on a wire, a measured current, a
supply voltage) and what the manual leaves to the time its engines take (how much of a phase's work was finished). Notes:
notes/assumptions/1.md and 2.md. -/

namespace Sys2Proof

/-- The engines that R30 can stop at a tick. -/
inductive Engine where
  | saA | saB | fce | host
  deriving DecidableEq, Repr

/-- The two solver arrays (10_solver R269). -/
inductive Arr where
  | A | B
  deriving DecidableEq, Repr

/-- Ports that carry host messages (02_mailbox R45, R46). -/
inductive HostPort where
  | h1 | h2 | x5
  deriving DecidableEq, Repr

/-- Where a request came from: IPv4 address and UDP port; (0, 0) on X5. -/
structure Src where
  addr : Nat := 0
  port : Nat := 0
  deriving DecidableEq, Repr

/-- Where an IPv4 datagram was sent to: destination address and UDP port, and whether it is a fragment (02 R45, 04 R110). -/
structure IpDst where
  addr : Nat := 0
  port : Nat := 48000
  fragment : Bool := false
  deriving DecidableEq, Repr

/-- An IPv4 datagram, or a message on X5, as it arrives: where it was sent to, and its bytes. -/
structure Datagram where
  dst : IpDst := {}
  data : Bytes := []
  deriving DecidableEq, Repr

/-- An Ethernet frame as it arrives on an L port: its Ethertype and the Rafoger message it carries (12 R323). -/
structure EtherFrame where
  ethertype : Nat := 0x88B5
  msg : Bytes := []
  deriving DecidableEq, Repr

/-- The input of an analog channel when its modulator runs out of range, in µV or pA (05 R130). -/
structure TerminalIn where
  ch : Nat := 1
  input : Int := 0
  deriving DecidableEq, Repr

/-- What the end of the logic supply does: whether VBAK holds PD-BK, and the bytes of a commit record cut short, none where none was being
written (03 R92, 13 R354). -/
structure PowerLoss where
  vbak : Bool := true
  cut : Bytes := []
  deriving DecidableEq, Repr

/-- What one array did in P4 when its boundary came: completed iterations of the solve in progress and busy time. -/
structure ArrIn where
  iters : Nat := 0
  busyUs : Nat := 0
  deriving DecidableEq, Repr

/-- What the environment and the engines give at a phase boundary. -/
structure PhaseIn where
  /-- The phase's work was not finished at its boundary (01_frame R27). -/
  late : Bool := false
  /-- Margin in µs between completion and the boundary (FREE_US, Table 1-6). -/
  marginUs : Nat := 0
  /-- P2: how many of the six steps of Table 7-1 were committed (07 R186); read only when late. -/
  stepsDone : Nat := 0
  /-- P3: the primary was assembled, and how many shadows of the schedule were (01 Table 1-5); read only when late. -/
  primaryDone : Bool := false
  shadowsDone : Nat := 0
  /-- P4: the two arrays at the end of P4 (10 R283). -/
  arrA : ArrIn := {}
  arrB : ArrIn := {}
  /-- With the boundary that begins P5: entries of the SCHEDULE section of KIND 1 whose content P5 does not place by its slot's start, and
  whether one more was not placed within 40 µs of the start of P5 (01 Table 1-5, 16 R427). -/
  unplaced : List Nat := []
  kind1Late : Bool := false
  /-- P5: entries of KIND 2 whose content was placed whole, and how many of its datagrams were queued, in their order; read only when
  late (01 Table 1-5). -/
  placed : List Nat := []
  datagrams : Nat := 0
  /-- With the boundary that ends P5: mean logic power of the last completed frame in mW (11 R303), the two sensors of the base plate in 0.1 °C (R304), power per domain in units
  of 10 mW. P4: array energies of the shadows refreshed and of the primary solve in this frame in µJ (R308; 0 none). -/
  pInMw : Nat := 0
  plate1 : Int := 0
  plate2 : Int := 0
  pDomain : List Nat := []
  eShadowUj : List Nat := []
  ePrimaryUj : Nat := 0
  deriving DecidableEq, Repr

/-- How a serial message ended (04_intake R543). -/
inductive MsgEnd where
  | lf | startChar | lineBreak | framing | overlong
  deriving DecidableEq, Repr

/-- One input window (18 R470, R480): currents in µA of DI1 to DI32 and SX1 to SX8, the two field supplies in mV. -/
structure WindowIn where
  di : List Nat := []
  sx : List Nat := []
  fs1Mv : Nat := 24000
  fs2Mv : Nat := 24000
  deriving DecidableEq, Repr

/-- One tracking channel at a measurement epoch (15 Tables 15-2 and 15-4). -/
structure ChanMeas where
  chan : Nat := 1
  prn : Nat := 1
  pseudorangeMm : Int := 0
  dopplerMhz : Int := 0
  carrier : Int := 0
  cn0 : Nat := 0
  codeLock : Bool := false
  carrierLock : Bool := false
  bitSync : Bool := false
  subframeSync : Bool := false
  eph : Bool := false
  used : Bool := false
  masked : Bool := false
  deriving DecidableEq, Repr

/-- A navigation word as demodulated (15 R405): the 30 bits as received, D1 in bit 29. `first`: the first word after bit sync. -/
structure NavWord where
  chan : Nat := 1
  prn : Nat := 1
  word : Nat := 0
  bits : Nat := 0
  first : Bool := false
  deriving DecidableEq, Repr

/-- The receiver's least-squares result of an epoch (15 R406). Angles in 10⁻⁹ degree; `thetaNs` is receiver time minus
timebase (R407); `gpsNs` the solved GPS time; `utcKnown` the GPS-UTC offset once decoded. -/
structure NavSol where
  sats : Nat := 0
  pdop : Nat := 0
  lat : Int := 0
  lon : Int := 0
  thetaNs : Int := 0
  gpsNs : Int := 0
  utcOffset : Option Int := none
  deriving DecidableEq, Repr

/-- PTP messages the module handles (14 R378, R380), with the raw MAC stamp taken at the command's instant. Times are ns on the
PTP epoch; corrections are correctionField values in ns. -/
inductive PtpMsg where
  /-- Announce: clock data set of the sender, its identity, and the UTC offset it carries. -/
  | announce (ident prio1 cls accuracy variance prio2 steps : Nat) (utcOffset : Int) (utcValid : Bool)
  /-- Sync, one-step (`origin` in it) or two-step (`origin` unused until Follow_Up). -/
  | sync (ident : Nat) (twoStep : Bool) (origin corr : Int) (logInterval : Int)
  | followUp (ident : Nat) (origin corr : Int)
  /-- Delay_Resp or Pdelay_Resp pair: the time the other side gives for the module's own request (t4, or t2 and t3). -/
  | delayResp (ident : Nat) (t4 corr : Int)
  | pdelayResp (ident : Nat) (t2 t3 corr : Int)
  /-- A request from a slave, which a port in the master role answers. -/
  | delayReq (ident : Nat)
  | pdelayReq (ident : Nat)
  /-- Management and every other message: dropped unanswered (Table 14-3). -/
  | other
  deriving DecidableEq, Repr

/-- What the module itself sends on PTP (14 R378). -/
inductive PtpSend where
  | sync | announce | delayReq | pdelayReq
  deriving DecidableEq, Repr

/-- Field supply conditions that end by a recovery (18 Table 18-2). -/
inductive FsLevel where
  | below192 | below160 | below120
  deriving DecidableEq, Repr

/-- Owners of SRAM words (19 Table 19-4; the numbers of 20 Table 20-9, event 0x1306). -/
inductive SramOwner where
  | checkpoint | host | safety | saA | saB | fce | gnss
  deriving DecidableEq, Repr

/-- Blocks that a reaction can reset (19 Table 19-1; the numbers of 20 Table 20-9, event 0x1307). -/
inductive Block where
  | host | saA | saB | analog (g : Nat) | gnss | can (c : Nat)
  deriving DecidableEq, Repr

/-- The commands. -/
inductive Instr where
  | frameTick (dt : Nat) (stopped : List Engine)
  | phaseBoundary (dt : Nat) (r : PhaseIn)
  | lateRunFault (dt : Nat)
  | timebaseStep (dt : Nat)
  | modeChangeTick (dt : Nat)
  | trigPulse (dt n : Nat)
  | trigPulseEnd (dt n : Nat)
  | solveComplete (dt : Nat) (arr : Arr) (busyUs : Nat)
  | oxmpRequestArrival (dt : Nat) (port : HostPort) (src : Src) (msg : Datagram)
  | tagCacheExpiry (dt mbox : Nat)
  | hello (dt mbox : Nat)
  | stateRead (dt mbox : Nat)
  | modeSet (dt mbox : Nat)
  | frameRead (dt mbox : Nat)
  | frameSubscribe (dt mbox : Nat)
  | targetSet (dt mbox : Nat)
  | targetStop (dt mbox : Nat)
  | targetRead (dt mbox : Nat)
  | pushSet (dt mbox : Nat)
  | configStage (dt mbox : Nat)
  | stagingGrantExpiry (dt : Nat)
  | configCommit (dt mbox : Nat) (writeOk : Bool)
  | configRead (dt mbox : Nat)
  | configAbort (dt mbox : Nat)
  | imageVerificationComplete (dt : Nat) (bankErr : Bool)
  | imageEffect (dt : Nat)
  | ledgerWindow (dt mbox : Nat)
  | ledgerRead (dt mbox : Nat) (readErr : List Nat)
  | timeRead (dt mbox : Nat)
  | timeSet (dt mbox : Nat)
  | snap (dt : Nat)
  | commit (dt : Nat)
  | stDate (dt v : Nat)
  | stTime (dt v : Nat)
  | status (dt v : Nat)
  | rawWindowWrite (dt ofs v : Nat)
  | timeAdjust (dt mbox : Nat)
  | alarmSet (dt mbox : Nat)
  | faultRead (dt mbox : Nat)
  | faultAck (dt mbox : Nat)
  | lockChange (dt mbox : Nat)
  | fwStage (dt mbox : Nat) (readBackOk : Bool)
  | fwActivate (dt mbox : Nat)
  | serviceChallenge (dt mbox : Nat)
  | serviceRespond (dt mbox : Nat)
  | serviceLock (dt mbox : Nat)
  | serviceUnlockTimeout (dt : Nat)
  | serviceLockoutExpiry (dt : Nat)
  | usbDetach (dt : Nat)
  | sentenceReceive (dt port baud : Nat) (chars : Bytes) (ending : MsgEnd)
  | serialUnlock (dt port : Nat)
  | serialUnlockedFault (dt port : Nat)
  | floodFault (dt port : Nat)
  | malformedRateFault (dt port : Nat)
  | datagram450Receive (dt port : Nat) (data : Datagram)
  | udpBinaryReceive (dt port : Nat) (dst : IpDst) (src : Src) (data : Bytes)
  | canFrameReceive (dt ctrl idWord : Nat) (remote : Bool) (data : Bytes)
  | inputWindowEnd (dt : Nat) (w : WindowIn)
  | captureEdge (dt unit : Nat) (rising : Bool)
  | groupStart (dt g : Nat)
  | analogSample (dt ch : Nat) (mods : List Bool)
  | modulatorOverload (dt : Nat) (ch : TerminalIn)
  | modulatorRestart (dt ch : Nat)
  | analogChannelFault (dt ch : Nat)
  | intakeCounterSecond (dt : Nat)
  | gnssMeasurementEpoch (dt : Nat) (meas : List ChanMeas)
  | navigationWord (dt : Nat) (w : NavWord)
  | navSolutionComplete (dt : Nat) (sol : NavSol)
  | gnssBurst (dt : Nat)
  | gnssSleep (dt : Nat) (ephFresh : Bool)
  | gnssWake (dt : Nat)
  | noFullSolutionFault (dt : Nat)
  | antennaOpen (dt : Nat)
  | antennaShort (dt : Nat)
  | biasRetry (dt : Nat)
  | skewRelearn (dt ref : Nat)
  | awaitTimeout (dt ref : Nat)
  | drLimit (dt : Nat) (heading : Bool)
  | kindNotValidFault (dt : Nat) (wind : Bool)
  | blendEnd (dt : Nat)
  | controlPersistFault (dt : Nat) (noRegion : Bool)
  | moveAtRest (dt : Nat)
  | pushRampEnd (dt : Nat)
  | slackFault (dt : Nat)
  | exceedFault (dt bus : Nat)
  | holdShiftFault (dt : Nat)
  | solverRunFault (dt : Nat) (epsMax : Bool)
  | conseqFault (dt : Nat)
  | coverAgeFault (dt : Nat)
  | shadowCutFault (dt : Nat)
  | beatReceive (dt port : Nat) (msg : EtherFrame)
  | checkpointFragment (dt port : Nat) (msg : EtherFrame)
  | rafogerForward (dt port : Nat) (msg : Bytes) (etherOk : Bool)
  | rafogerDropSecond (dt : Nat)
  | pathDown (dt peer port : Nat) (linkDown : Bool)
  | discoveryEnd (dt : Nat)
  | electionClaim (dt failed : Nat)
  | leaseEnd (dt : Nat)
  | leaseClaim (dt failed : Nat)
  | leasePass (dt : Nat)
  | leaseYield (dt : Nat)
  | lockChangePrepare (dt : Nat)
  | lockChangeRelease (dt : Nat)
  | targetClaim (dt failed : Nat)
  | checkpointFallback (dt : Nat)
  | periodAdopt (dt : Nat)
  | lockDrillOverdue (dt : Nat)
  | powerGood (dt lvA lvB : Nat) (h1Fast h2Fast : Bool)
  | powerFail (dt lvA lvB : Nat) (started : List Nat)
  | powerOff (dt : Nat) (left : PowerLoss)
  | moduleReset (dt : Nat)
  | selftestComplete (dt failed : Nat)
  | timeLockTimeout (dt : Nat)
  | oscSetupTimeout (dt : Nat)
  | bringupTimeout (dt : Nat)
  | ptpMessage (dt port : Nat) (m : PtpMsg)
  | sourceLoss (dt : Nat) (ptpPort : Option Nat) (gnss : Bool)
  | permitExpiry (dt : Nat)
  | timeNotLockedFault (dt : Nat)
  | rtcSecondCarry (dt : Nat)
  | oscillatorStop (dt : Nat)
  | pdBkReset (dt : Nat)
  | rtcFollowCheck (dt : Nat)
  | ppsOutPulse (dt : Nat)
  | ppsOutPulseEnd (dt : Nat)
  | slotStart (dt e : Nat) (sof : Bool)
  | slotEnd (dt e : Nat) (sof : Bool) (arbLost : Nat)
  | safetySlotStart (dt ctrl : Nat)
  | canTxComplete (dt ctrl : Nat) (entry : Option Nat) (acked : Bool) (arbLost : Nat)
  | busoffHoldExpiry (dt ctrl : Nat)
  | busoffRecovered (dt ctrl : Nat)
  | canCounterSecond (dt : Nat)
  | slotRunFault (dt ctrl : Nat) (entry : Option Nat)
  | safetyCycle (dt fs1Mv fs2Mv : Nat) (started : List Nat)
  | soRefreshTimeout (dt so : Nat)
  | lockstepMismatch (dt : Nat)
  | discrepancy (dt pair : Nat)
  | stuckReset (dt di : Nat)
  | edmCheck (dt f : Nat)
  | soTestPulse (dt so : Nat) (readBackOk : Bool)
  | proofTestOverdue (dt f : Nat)
  | fieldSupplyRecovered (dt supply : Nat) (level : FsLevel)
  | oscTelegramReceive (dt conn : Nat) (data : Bytes)
  | setupAck (dt conn : Nat) (data : Bytes)
  | oscWatchdogExpiry (dt conn : Nat)
  | outputOverload (dt ch : Nat)
  | outputOverheat (dt ch : Nat)
  | groupOvercurrent (dt g : Nat) (still : Bool)
  | firmwareAck (dt code : Nat)
  | sluiceExpiry (dt code : Nat)
  | blockResetComplete (dt : Nat) (b : Block) (pass : Bool)
  | classRecovery (dt cls : Nat)
  | fltNHoldExpiry (dt : Nat)
  | sramScrub (dt : Nat) (owner : SramOwner) (bitErrors : Nat)
  | eccRateWindow (dt : Nat)
  | ledgerRecordWrite (dt : Nat) (failedTwice : Bool)
  | canReceiveError (dt ctrl : Nat)
  | canProtocolException (dt ctrl : Nat)
  | operatingSecondsSave (dt : Nat)
  | ptpMessageSend (dt port : Nat) (m : PtpSend)
  deriving DecidableEq, Repr

end Sys2Proof
end

