-- ==== Sys2Proof/Config.lean ====
section
/-! DEFINITION. Free values: what the manual leaves open. No constant here has a body, so nothing can be proved of a value; each is
named in the assumption log (notes/assumptions/4.md lists them). -/

namespace Sys2Proof.Config

/-- The proportional-integral loop of the timebase: addend after a measurement of θ (14 R372: "Its design is not configurable";
the gains are not stated). Arguments: addend before, θ in ns, counter. -/
opaque loopAddend : Int → Int → Nat → Int

/-- The filter of |θ| that EST_ERR_NS reports (14 Table 14-1). Arguments: value before, |θ|, counter. -/
opaque thetaFilter : Nat → Nat → Nat → Nat

/-- The length of a month whose number is out of range after a raw write (14 R385). Arguments: month, year. -/
opaque badMonthLen : Nat → Nat → Nat

/-- Time in ns that intake takes to serve one datagram of a host port, where it is below the 50 µs of 20,000 datagrams/s
(04 R125: "20,000 datagrams/s or more"). -/
opaque intakeServiceNs : Nat

/-- Time in ns from an edge to its commit, where it is below the 100 µs of 04 R120. -/
opaque captureServiceNs : Nat

/-- The built-in 47-tap half-band set (05 R132): the tap at odd offset 2i + 1, as Q1.31; no tap value is stated. The caller keeps the set to
Q1.31 and to a DC gain of 1. -/
opaque builtinTap : Nat → Int

/-- Fraction bits of the 48-bit accumulator of the chain (05 R134), which are not stated: 31 and this modulo 16. -/
opaque accFracPick : Nat

/-- Factory calibration of an analog channel in fuses (05 R129), by channel and range; no value is stated: native units at full scale of the
modulator, and native units at zero, both in units of 2⁻¹⁶. -/
opaque calGain : Nat → Nat → Int
opaque calOffset : Nat → Nat → Int

/-- How far a reading of an internal zero or reference lies from it (05 Table 5-4, INPUT_SEL); the caller keeps it within 21 Table 21-6.
Argument: counter. -/
opaque internalErr : Nat → Int

/-- Time in ns from the end of an analog window to the commit of its sample, past the 2 µs of 05 R139; the caller keeps it to 20 µs. -/
opaque analogCommitPick : Nat

/-- Whether the retained ephemerides are of satellites now in view and the last full position lies within 10 km, at a start of the
receiver (15 Table 15-1): where the module is. Argument: counter. -/
opaque startInView : Nat → Bool

/-- Whether a transmission that an error passive controller lost met no acknowledge and nothing else, so that its transmit counter
stays (16 R436, ISO 11898-1). Argument: counter. -/
opaque ackErrorOnly : Nat → Bool

/-- The receive error counter after a good frame when it stood above 127: a value from 119 to 127 (16 R436, ISO 11898-1). -/
opaque recAfterGood : Nat → Nat

/-- How far a fused position output, N or E in mm, lies from exact arithmetic: the callers keep it within the 2 mm of 06 R158.
Argument: counter. -/
opaque fusionErrMm : Nat → Int

/-- How far a fused angle lies from exact arithmetic, within the 256 binary-angle units of 06 R158. Argument: counter. -/
opaque fusionErrAngle : Nat → Int

/-- Dead-reckoning time in ns of a kind that has never been VALID (06 R176 counts from the last frame in which it was). Argument: the
frame's T_IC. -/
opaque drNever : Nat → Nat

/-- The heading by which a lever arm with no x or y part is turned where no heading exists (06 R156 still uses such a reference).
Argument: the frame's T_IC. -/
opaque psiUnknown : Nat → Nat

/-- Errors of the FCE's sine and cosine in units of 2⁻⁶⁰, within the 2⁻²⁸ of 07 R189. Argument: the angle, 48 bits. -/
opaque sinErr : Nat → Int
opaque cosErr : Nat → Int

/-- How far a profile value lies from exact arithmetic, within the 1 mm (units of 2⁻¹⁶ mm) or 256 binary-angle units of 08 R219.
Argument: counter. -/
opaque profErrMm : Nat → Int
opaque profErrAngle : Nat → Int

/-- The Chandler's temperature model, by which the nominal costs and energies are scaled, in units of 2⁻¹⁶ (11 R308, which does not state
it). Argument: case temperature in 0.1 °C. -/
opaque tempScale : Int → Nat

/-- Whether a row with this slack and this multiplier counts as active or binding (09 Tables 9-8, 9-10: no threshold is stated). -/
opaque rowActive : Frac → Frac → Bool

/-- Which of the admissible powers of two P3 takes for a variable or row (09 R258). Arguments: counter, index. -/
opaque scalePick : Nat → Nat → Nat

/-- The clamp of the ratio z/w (10 R273, R274), in units of 2⁻²¹; bounded by its callers. Argument: counter. -/
opaque sigmaClamp : Nat → Nat

/-- The share of the mean complementarity that the corrected direction of an iteration aims at, and the share of the affine direction's
second-order term that it takes into account, in units of 2⁻¹⁶ and at most 1 (10 R273 states neither). Argument: counter. -/
opaque centring : Nat → Nat
opaque secondOrder : Nat → Nat

/-- λ at a cold start in raw Q10.21 (10 R289 does not state it). -/
opaque coldLambda : Int

/-- Whether an ECDSA P-256 signature over a SHA-256 digest is valid against a key (03 R84, 02 R78, R80): the keys are in fuses. Arguments:
key (0 to 3 configuration slots, 4 service, 5 firmware), digest, signature. -/
opaque sigValid : Nat → Bytes → Bytes → Bool

/-- How a read takes an SRAM word with four or more bit errors (19 R503): 0 uncorrectable, 1 corrected to a wrong value and counted, else
unseen. Argument: counter. -/
opaque eccWide : Nat → Nat

/-- Whether the staged firmware image is signed for the firmware key (02 R81): where the signature stands in the image is not stated.
Arguments: TOTAL_LEN, the bank. -/
opaque fwValid : Nat → List Host.Cell → Bool

/-- The firmware version that a staged firmware image carries (02 R81, Table 2-6): where it stands in the image is not stated. -/
opaque fwVersionOf : List Host.Cell → Nat

/-- The order in which the bytes of a checkpoint's part stand (12 Table 12-6 gives what a part carries and not where): of the bytes left,
the one that comes next. Argument: 4096 × part + number left. -/
opaque cpOrder : Nat → Nat

/-- A byte of a nonce (02 R76: from a true random generator). Arguments: counter, index. -/
opaque nonceByte : Nat → Nat → Byte

end Sys2Proof.Config
end

