-- ==== Sys2Proof/Machine/Arith.lean ====
section
/-! DEFINITION. Exact arithmetic, rounding and saturation (00_scope R10, R11), integer square root and the angle functions that
fusion and allocation need.

Angles are binary angles: one turn is 2³² (R7). The angle functions work in fixed point with 60 fraction bits; what the manual
allows of error around them is added by their callers (notes/assumptions/12.md). -/

namespace Sys2Proof.Machine

/-- `n / d` rounded to nearest, ties to even (R11); `d = 0` counts as 1. -/
def divEven (n : Int) (d : Nat) : Int :=
  let d' : Int := if d = 0 then 1 else (d : Int)
  let q := n.fdiv d'
  let r := n - q * d'
  if 2 * r < d' then q else if d' < 2 * r then q + 1 else if q % 2 = 0 then q else q + 1

/-- A fraction rounded to nearest, ties to even (R11). -/
def roundEven (f : Frac) : Int := divEven f.num f.den

/-- Saturation into an interval (R11). -/
def clamp (lo hi v : Int) : Int := if v < lo then lo else if hi < v then hi else v

/-- Saturation into a signed container of `n` bits (R11). -/
def satS (n : Nat) (v : Int) : Int := clamp (-(2 ^ (n - 1) : Nat)) ((2 ^ (n - 1) : Nat) - 1) v

/-- Saturation into an unsigned container of `n` bits (R11, R9). -/
def satU (n v : Nat) : Nat := if 2 ^ n ≤ v then 2 ^ n - 1 else v

/-- A signed value as a word of `n` bits, two's complement. -/
def toWord (n : Nat) (v : Int) : Nat := (v % (2 ^ n : Nat)).toNat

/-- The signed value of a word of `n` bits, two's complement. -/
def ofWord (n : Nat) (w : Nat) : Int :=
  let w' := w % 2 ^ n
  if w' < 2 ^ (n - 1) then (w' : Int) else (w' : Int) - (2 ^ n : Nat)

/-- A difference of two headings, formed modulo 2³² and read as int32 (R7). -/
def angDiff (a b : Int) : Int := ofWord 32 (toWord 32 (a - b))

/-- A heading from any integer (modulo one turn). -/
def angWrap (a : Int) : Nat := toWord 32 a

/-- Search for the integer square root from bit `k - 1` down. -/
def isqrtAux : Nat → Nat → Nat → Nat
  | 0, _, acc => acc
  | k + 1, n, acc => if (acc + 2 ^ k) * (acc + 2 ^ k) ≤ n then isqrtAux k n (acc + 2 ^ k) else isqrtAux k n acc

/-- Integer square root, rounded down. -/
def isqrt (n : Nat) : Nat := isqrtAux (Nat.log2 n / 2 + 1) n 0

/-- Square root rounded to nearest (R11): no square of an integer plus one half is an integer, so no tie arises. -/
def sqrtNear (n : Nat) : Nat := let r := isqrt n; if n - r * r ≤ r then r else r + 1

/-- Square root of a fraction, rounded to nearest, ties to even (R11): the half above the integer root `r` is the tie, and
`(2r+1)² · d` against `4n` decides. -/
def sqrtFrac (f : Frac) : Nat :=
  let n := f.num.toNat
  let d := if f.den = 0 then 1 else f.den
  let r := isqrt (n / d)
  let half := (2 * r + 1) * (2 * r + 1) * d
  if 4 * n < half then r else if half < 4 * n then r + 1 else if r % 2 = 0 then r else r + 1

/-- Fraction bits of the angle functions. -/
def fixBits : Nat := 60

/-- One in the fixed point of the angle functions. -/
def fixOne : Int := (2 ^ 60 : Nat)

/-- 2π in the fixed point of the angle functions. -/
def fixTwoPi : Int := 7244019458077122842

/-- Terms of the sine and cosine series: `t` the current term, `x2` the square of the angle, `k` the next divisor's first
factor; alternating signs are in `t`. -/
def trigSeries : Nat → Int → Int → Nat → Int → Int
  | 0, _, _, _, acc => acc
  | f + 1, t, x2, k, acc =>
    let t' := -(t * x2 / fixOne) / ((k * (k + 1) : Nat) : Int)
    trigSeries f t' x2 (k + 2) (acc + t')

/-- Sine of a binary angle in fixed point with 60 fraction bits. -/
def sinFix (a : Nat) : Int :=
  let x := ofWord 32 a * fixTwoPi / (2 ^ 32 : Nat)
  trigSeries 16 x (x * x / fixOne) 2 x

/-- Cosine of a binary angle in fixed point with 60 fraction bits. -/
def cosFix (a : Nat) : Int :=
  let x := ofWord 32 a * fixTwoPi / (2 ^ 32 : Nat)
  trigSeries 16 fixOne (x * x / fixOne) 1 fixOne

/-- Sine and cosine as fractions. -/
def sinF (a : Nat) : Frac := Frac.norm (sinFix a) (2 ^ 60)
def cosF (a : Nat) : Frac := Frac.norm (cosFix a) (2 ^ 60)

/-- Search for the first-quadrant angle (0 to 2³⁰) whose direction is that of `(x, y)`, `x, y ≥ 0`, from bit `k - 1` down: the
greatest angle whose sine over cosine does not exceed `y / x`. -/
def atanAux : Nat → Nat → Nat → Nat → Nat
  | 0, _, _, acc => acc
  | k + 1, x, y, acc =>
    let a := acc + 2 ^ k
    if sinFix a * (x : Int) ≤ cosFix a * (y : Int) then atanAux k x y a else atanAux k x y acc

/-- Direction of the vector with components `n` (along angle 0) and `e` (along a quarter turn), as a binary angle rounded to
nearest; the zero vector gives 0. -/
def atan2Bin (e n : Int) : Nat :=
  if e = 0 ∧ n = 0 then 0 else
  -- two more bits than a binary angle carries decide the rounding
  let q := atanAux 30 n.natAbs e.natAbs 0
  let q1 := if sinFix (q + 1) * (n.natAbs : Int) ≤ cosFix (q + 1) * (e.natAbs : Int) then q + 1 else q
  let half := sinFix q1 + sinFix (q1 + 1)
  let halfc := cosFix q1 + cosFix (q1 + 1)
  let r := if half * (n.natAbs : Int) ≤ halfc * (e.natAbs : Int) ∧ q1 < 2 ^ 30 then q1 + 1 else q1
  if 0 ≤ n then (if 0 ≤ e then angWrap r else angWrap (-(r : Int)))
  else if 0 ≤ e then angWrap ((2 ^ 31 : Nat) - (r : Int)) else angWrap ((2 ^ 31 : Nat) + (r : Int))

/-- Greatest of a list of naturals (0 for none). -/
def maxL : List Nat → Nat
  | [] => 0
  | x :: r => Nat.max x (maxL r)

/-- Sum of a list of integers. -/
def sumI : List Int → Int
  | [] => 0
  | x :: r => x + sumI r

/-- The `i`-th entry of a list, or a default. -/
def nth {α : Type} (d : α) : List α → Nat → α
  | [], _ => d
  | x :: _, 0 => x
  | _ :: r, i + 1 => nth d r i

/-- The list with its `i`-th entry changed by `f`; unchanged when there is none. -/
def upd {α : Type} (f : α → α) : List α → Nat → List α
  | [], _ => []
  | x :: r, 0 => f x :: r
  | x :: r, i + 1 => x :: upd f r i

/-- The list numbered from `k`. -/
def enumFrom {α : Type} : Nat → List α → List (Nat × α)
  | _, [] => []
  | k, x :: r => (k, x) :: enumFrom (k + 1) r

/-- Bit mask of the indices at which a list of booleans holds. -/
def maskOf : List Bool → Nat
  | [] => 0
  | b :: r => (if b then 1 else 0) + 2 * maskOf r

/-- The indices below `n` whose bit is set in `m`, in rising order. -/
def bitsOf (n m : Nat) : List Nat := (List.range n).filter (fun i => m.testBit i)

/-- Insertion of a value into a list ordered by `lt`, after equals. -/
def insertBy {α : Type} (lt : α → α → Bool) (x : α) : List α → List α
  | [] => [x]
  | y :: r => if lt x y then x :: y :: r else y :: insertBy lt x r

/-- Stable insertion sort. -/
def sortBy {α : Type} (lt : α → α → Bool) : List α → List α
  | [] => []
  | x :: r => insertBy (fun a b => !lt b a) x (sortBy lt r)

end Sys2Proof.Machine
end

