-- ==== Sys2Proof/Machine/Operands.lean ====
section
/-! DEFINITION. Fields of byte strings (00_scope R12 to R14): the module's own structures are little-endian (R13), integrator and
network values may be big-endian (03_configuration Table 3-11). -/

namespace Sys2Proof.Machine

/-- The unsigned value of bytes, lowest first. -/
def leVal : Bytes → Nat
  | [] => 0
  | b :: r => b.toNat + 256 * leVal r

/-- The unsigned value of bytes, highest first. -/
def beVal (bs : Bytes) : Nat := leVal bs.reverse

/-- `n` bytes of a value, lowest first; higher bits are lost. -/
def leBytes : Nat → Nat → Bytes
  | 0, _ => []
  | n + 1, v => BitVec.ofNat 8 v :: leBytes n (v / 256)

/-- `n` bytes of a signed value in two's complement, lowest first. -/
def leInt (n : Nat) (v : Int) : Bytes := leBytes n (toWord (8 * n) v)

def u8 (v : Nat) : Bytes := leBytes 1 v
def u16 (v : Nat) : Bytes := leBytes 2 v
def u32 (v : Nat) : Bytes := leBytes 4 v
def u48 (v : Nat) : Bytes := leBytes 6 v
def u64 (v : Nat) : Bytes := leBytes 8 v
def i8 (v : Int) : Bytes := leInt 1 v
def i16 (v : Int) : Bytes := leInt 2 v
def i32 (v : Int) : Bytes := leInt 4 v
def i64 (v : Int) : Bytes := leInt 8 v
/-- A flag as a byte (R541). -/
def flag (b : Bool) : Bytes := u8 (if b then 1 else 0)
/-- `n` zero bytes (reserved fields, R14). -/
def zeros (n : Nat) : Bytes := List.replicate n 0

/-- `n` bytes from offset `o`; shorter at the end of the string. -/
def slice (bs : Bytes) (o n : Nat) : Bytes := (bs.drop o).take n

/-- Unsigned field of `n` bytes at offset `o`, little-endian. -/
def fld (bs : Bytes) (o n : Nat) : Nat := leVal (slice bs o n)

/-- Signed field of `n` bytes at offset `o`, little-endian. -/
def fldI (bs : Bytes) (o n : Nat) : Int := ofWord (8 * n) (fld bs o n)

/-- The byte at an offset, 0 beyond the end. -/
def byteAt (bs : Bytes) (o : Nat) : Nat := fld bs o 1

/-- All bytes of a stretch are zero (R14). -/
def allZero (bs : Bytes) (o n : Nat) : Bool := (slice bs o n).all (· == 0)

/-- A time as TB_S (uint48) and TB_NS (uint32) (20_ledger R512). -/
def timeBytes (ns : Nat) : Bytes := u48 (ns / 1000000000) ++ u32 (ns % 1000000000)

/-- The bytes of a text of characters below 128. -/
def ascii (t : String) : Bytes := t.toList.map (fun c => BitVec.ofNat 8 c.toNat)

/-- Bytes padded with zeros to a length, or cut to it. -/
def padTo (n : Nat) (bs : Bytes) : Bytes := (bs ++ zeros n).take n

/-- A string cut into pieces of `n` bytes, at most `f` of them. -/
def chunks (n : Nat) : Nat → Bytes → List Bytes
  | 0, _ => []
  | f + 1, bs => if bs.isEmpty then [] else bs.take n :: chunks n f (bs.drop n)

/-- Lexicographic order of equal-length byte strings read as little-endian numbers does not matter to the module; equality does. -/
def bytesEq (a b : Bytes) : Bool := decide (a = b)

/-- A value of a byte that is an ASCII digit. -/
def digitOf (b : Byte) : Option Nat :=
  let n := b.toNat
  if 48 ≤ n ∧ n ≤ 57 then some (n - 48) else none

/-- A value of a byte that is an ASCII hexadecimal digit, either case. -/
def hexOf (b : Byte) : Option Nat :=
  let n := b.toNat
  if 48 ≤ n ∧ n ≤ 57 then some (n - 48)
  else if 65 ≤ n ∧ n ≤ 70 then some (n - 55)
  else if 97 ≤ n ∧ n ≤ 102 then some (n - 87) else none

end Sys2Proof.Machine
end

