-- ==== Sys2Proof/Machine/Crc.lean ====
section
/-! DEFINITION. Cyclic redundancy codes and the digest: CRC-32 of OXMP, images, checkpoints and link messages (02_mailbox R51),
SCRC of the safe channel (17_safety R459), SHA-256 (03_configuration R84, 02 R77). -/

namespace Sys2Proof.Machine

/-- One bit of a reflected CRC of polynomial `p` (bit-reversed). -/
def crcBit (p c : Nat) : Nat := if c % 2 = 1 then Nat.xor (c / 2) p else c / 2

/-- One byte of a reflected CRC. -/
def crcByte (p c : Nat) (b : Byte) : Nat :=
  let c0 := Nat.xor c b.toNat
  crcBit p (crcBit p (crcBit p (crcBit p (crcBit p (crcBit p (crcBit p (crcBit p c0)))))))

/-- CRC-32, polynomial 0x04C11DB7 reflected, initial value and final XOR 0xFFFFFFFF (R51). -/
def crc32 (bs : Bytes) : Nat := Nat.xor (bs.foldl (crcByte 0xEDB88320) 0xFFFFFFFF) 0xFFFFFFFF

/-- SCRC, polynomial 0xF4ACFB13 reflected, initial value and final XOR 0xFFFFFFFF (17 R459). -/
def scrc (bs : Bytes) : Nat := Nat.xor (bs.foldl (crcByte 0xC8DF352F) 0xFFFFFFFF) 0xFFFFFFFF

/-- The primes below 312, of which there are 64: FIPS 180-4 takes its constants from their roots. -/
def shaPrimes : List Nat := (List.range 312).filter (fun n => 2 ≤ n && ([2, 3, 5, 7, 11, 13, 17].all (fun d => n = d || n % d ≠ 0)))

/-- Search for the integer cube root from bit `k - 1` down. -/
def icbrtAux : Nat → Nat → Nat → Nat
  | 0, _, acc => acc
  | k + 1, n, acc => let t := acc + 2 ^ k; icbrtAux k n (if t * t * t ≤ n then t else acc)

/-- Round constants of SHA-256: the first 32 fraction bits of the cube roots of the first 64 primes (FIPS 180-4). -/
def shaK : List Nat := shaPrimes.map (fun p => icbrtAux 36 (p * 2 ^ 96) 0 % 2 ^ 32)

/-- The initial hash value: the first 32 fraction bits of the square roots of the first eight primes (FIPS 180-4). -/
def shaH0 : List Nat := (shaPrimes.take 8).map (fun p => isqrt (p * 2 ^ 64) % 2 ^ 32)

/-- Rotation of a 32-bit word to the right. -/
def rotr (n x : Nat) : Nat := Nat.lor (x / 2 ^ n) (x % 2 ^ n * 2 ^ (32 - n))

def w32 (x : Nat) : Nat := x % 2 ^ 32

/-- The exclusive or of the rotations of a word by the amounts listed. -/
def xorRot (rs : List Nat) (x : Nat) : Nat := rs.foldl (fun a r => Nat.xor a (rotr r x)) 0

/-- One more word of the message schedule; the words so far stand newest first. -/
def shaExtend (ws : List Nat) : List Nat :=
  let old := nth 0 ws 14
  let new := nth 0 ws 1
  w32 (nth 0 ws 15 + nth 0 ws 6 + Nat.xor (xorRot [7, 18] old) (old / 8) + Nat.xor (xorRot [17, 19] new) (new / 1024)) :: ws

/-- One round with its constant and schedule word, on the eight working words. -/
def shaRound (v : List Nat) (kw : Nat × Nat) : List Nat :=
  let pick (x y z : Nat) : Nat := Nat.lor (Nat.land x y) (Nat.land (2 ^ 32 - 1 - x) z)
  let most (x y z : Nat) : Nat := Nat.lor (Nat.land x y) (Nat.land z (Nat.lor x y))
  let at_ := nth 0 v
  let t := at_ 7 + xorRot [6, 11, 25] (at_ 4) + pick (at_ 4) (at_ 5) (at_ 6) + kw.1 + kw.2
  let m := xorRot [2, 13, 22] (at_ 0) + most (at_ 0) (at_ 1) (at_ 2)
  w32 (t + m) :: (v.take 3 ++ w32 (at_ 3 + t) :: (v.drop 4).take 3)

/-- One block of 64 bytes. -/
def shaBlock (h : List Nat) (blk : Bytes) : List Nat :=
  let first := ((List.range 16).map (fun i => beVal (slice blk (4 * i) 4))).reverse
  let ws := ((List.range 48).foldl (fun ws _ => shaExtend ws) first).reverse
  List.zipWith (fun a b => w32 (a + b)) h ((shaK.zip ws).foldl shaRound h)

/-- SHA-256 of a byte string (FIPS 180-4): padded with 0x80, zeros and its length in bits to whole blocks. -/
def sha256 (bs : Bytes) : Bytes :=
  let n := bs.length
  let blocks := (n + 72) / 64
  let msg := bs ++ (0x80 : Byte) :: zeros (64 * blocks - n - 9) ++ (leBytes 8 (8 * n)).reverse
  ((chunks 64 blocks msg).foldl shaBlock shaH0).flatMap (fun w => (leBytes 4 w).reverse)

end Sys2Proof.Machine
end

