-- ==== Sys2Proof/Image.lean ====
section
/-! DEFINITION. The configuration image as the module executes it: one structure per section of Table 3-3, its fields under the
manual's names. A field's default value is the default that the owning chapter states (03_configuration R85); a field of an
optional section takes it when the section is absent. -/

namespace Sys2Proof.Image

/-- NETWORK section, Table 3-4. -/
structure Network where
  h1Addr : Nat := 0
  h1Mask : Nat := 0
  h1Gw : Nat := 0
  h2Addr : Nat := 0
  h2Mask : Nat := 0
  h2Gw : Nat := 0
  ctrlMboxMask : Nat := 0x03
  deriving DecidableEq, Repr

/-- FRAME section, Tables 1-2, 1-3 and 3-5. `phaseUs[p][q]`: period p, phase q, guard last. -/
structure FrameSec where
  startMode : Nat := 0
  modesAllowed : Nat := 0x0F
  tickTrig : Nat := 0
  phaseUs : List (List Nat) :=
    [[300, 500, 500, 300, 2600, 400, 300, 100], [600, 1000, 1000, 600, 5200, 800, 600, 200],
     [1200, 2000, 2000, 1200, 10400, 1600, 1200, 400], [2400, 4000, 4000, 2400, 20800, 3200, 2400, 800]]
  deriving DecidableEq, Repr

/-- MATCH of a Channel Map entry, Table 3-16: the bytes 8 to 19 of the entry. -/
abbrev Match := Bytes

/-- One Channel Map entry, Table 3-9. -/
structure Entry where
  kind : Nat := 0
  port : Nat := 0
  decode : Nat := 0
  destType : Nat := 0
  dest : Nat := 0
  qpol : Nat := 0
  mtch : Match := []
  field : Nat := 0
  width : Nat := 0
  gainE : Int := 0
  gainM : Int := 0
  offset : Int := 0
  limLo : Int := 0
  limHi : Int := 0
  maxAgeUs : Nat := 0
  qref : Nat := 0xFFFF
  deriving DecidableEq, Repr

namespace Entry
/-- QPOL bits, Table 3-15. -/
def rangeEn (e : Entry) : Bool := e.qpol.testBit 7
def srcqEn (e : Entry) : Bool := e.qpol.testBit 6
def holdoverSrc (e : Entry) : Bool := e.qpol.testBit 5
def unsettledIn (e : Entry) : Bool := e.qpol.testBit 4
def staleAct (e : Entry) : Nat := (e.qpol / 4) % 4
def cksumReq (e : Entry) : Bool := e.qpol.testBit 1
end Entry

/-- Bus block, Table 9-4. A slot 0xFFFF is unconfigured. -/
structure Bus where
  genSlot : Nat := 0xFFFF
  battSlot : Nat := 0xFFFF
  resSlot : Nat := 0xFFFF
  loadSlot : Nat := 0xFFFF
  rampSlot : Nat := 0xFFFF
  okSlot : Nat := 0xFFFF
  reserveW : Int := 0
  staticW : Int := 0
  busPmax : Int := 1
  marginW : Int := 0
  deriving DecidableEq, Repr

/-- Thruster block, Table 9-5. -/
structure Thruster where
  kind : Nat := 0
  bus : Nat := 0
  oscConn : Nat := 0
  cmdForm : Nat := 0
  posX : Int := 0
  posY : Int := 0
  tMax : Nat := 1
  revRatio : Nat := 0
  pexp : Nat := 384
  pRated : Nat := 1
  pIdle : Nat := 0
  wP : Nat := 1
  wD : Nat := 0
  rate : Nat := 1
  availSlot : Nat := 0xFFFF
  nSec : Nat := 0
  sideInit : Nat := 0
  sec1From : Nat := 0
  sec1To : Nat := 0
  sec2From : Nat := 0
  sec2To : Nat := 0
  rudK : Nat := 0
  rudMax : Nat := 0
  rudAngle : Nat := 0
  rpmMax : Nat := 0
  azHoldMag : Nat := 0
  deriving DecidableEq, Repr

/-- VESSEL section, Tables 9-3 to 9-5. -/
structure Vessel where
  nFacets : Nat := 16
  tauRefX : Int := 1
  tauRefY : Int := 1
  tauRefN : Int := 1
  buses : List Bus := []
  thrusters : List Thruster := []
  deriving DecidableEq, Repr

/-- Kind block of FUSION, Table 6-5. The defaults are those of position in Table 6-6. -/
structure KindBlk where
  medGate : Nat := 3000
  confGate : Nat := 3000
  freezeMs : Nat := 5000
  innovGate : Nat := 1024
  skewBoundMs : Nat := 100
  cInit : Nat := 0
  cRise : Nat := 2
  cDropSrc : Nat := 64
  cDropHold : Nat := 2
  cDropFreeze : Nat := 64
  cDropInnov : Nat := 32
  cDropMed : Nat := 64
  maskThr : Nat := 64
  cRejoin : Nat := 128
  cStale : Nat := 32
  unmaskRun : Nat := 10
  holdMult : Nat := 4
  skewLearn : Nat := 20
  deriving DecidableEq, Repr

/-- Reference block of FUSION, Table 6-7. -/
structure Ref where
  kind : Nat := 0
  format : Nat := 0
  skewAct : Bool := false
  skewEn : Bool := false
  number : Nat := 1
  slot0 : Nat := 0xFFFF
  slot1 : Nat := 0xFFFF
  slot2 : Nat := 0xFFFF
  slot3 : Nat := 0xFFFF
  sigmaA : Nat := 1
  sigmaB : Nat := 0
  lever : Int × Int × Int := (0, 0, 0)
  targetN : Int := 0
  targetE : Int := 0
  angleOfs : Nat := 0
  intMaxAgeUs : Nat := 0
  lever2 : Int × Int × Int := (0, 0, 0)
  lever3 : Int × Int × Int := (0, 0, 0)
  deriving DecidableEq, Repr

/-- FUSION section, Tables 6-4 to 6-7. -/
structure Fusion where
  minPosIn : Nat := 2
  minHdgIn : Nat := 2
  originLat : Int := 0
  originLon : Int := 0
  geoHMm : Int := 0
  drLimitS : Nat := 120
  hdgDrLimitS : Nat := 30
  obsSigmaPosMm : Nat := 300
  drGrowthMmS : Nat := 50
  obsSigmaHdg : Nat := 2386093
  hdgDrGrowth : Nat := 596523
  kinds : List KindBlk :=
    [{}, { medGate := 23860929, confGate := 23860929, freezeMs := 30000 },
     { medGate := 11930465, confGate := 11930465, innovGate := 0, cDropInnov := 0 },
     { confGate := 5000, freezeMs := 10000, innovGate := 0, cDropInnov := 0 }]
  refs : List Ref := []
  deriving DecidableEq, Repr

/-- One matrix row of OBSERVER (Table 7-5) or of G (Table 7-7). -/
structure Row where
  rowExp : Int := 0
  m : List Int := []
  deriving DecidableEq, Repr

/-- OBSERVER section, Table 7-4. `rows[p][g][i]`. -/
structure Observer where
  nRegions : Nat := 1
  periods : Nat := 0x0F
  windInObs : Nat := 0
  ageLimitUs : Nat := 1000000
  rows : List (List (List Row)) := []
  deriving DecidableEq, Repr

/-- Region block of GAINS, Table 7-7. `g[p][c]`. -/
structure Region where
  windLo : Nat := 0
  windHi : Nat := 0xFFFFFFFF
  sogLo : Nat := 0
  sogHi : Nat := 0xFFFFFFFF
  waveLo : Nat := 0
  waveHi : Nat := 0xFFFF
  pwrLo : Nat := 0
  pwrHi : Nat := 1
  ffGain : List Nat := [0, 0, 0]
  g : List (List Row) := []
  deriving DecidableEq, Repr

/-- GAINS section, Table 7-6. -/
structure Gains where
  nRegions : Nat := 1
  defaultRegion : Nat := 0
  selEn : Nat := 0
  periods : Nat := 0x0F
  pwrSlot : Nat := 0xFFFF
  blendFrames : Nat := 100
  selDefWind : Nat := 0
  selDefSog : Nat := 0
  selDefWave : Nat := 0
  selDefPwr : Nat := 0
  hystWind : Nat := 1000
  hystSog : Nat := 200
  hystWave : Nat := 10
  waveHystMm : Nat := 50
  waveWinS : Nat := 120
  windFadeMs : Nat := 10000
  demandLim : List Int := [1, 1, 1]
  cw : List (List Int) := []
  regions : List Region := [{}]
  deriving DecidableEq, Repr

/-- One biquad, Table 7-8. -/
structure Biquad where
  en : Nat := 0
  b0 : Int := 0
  b1 : Int := 0
  b2 : Int := 0
  a1 : Int := 0
  a2 : Int := 0
  deriving DecidableEq, Repr

/-- NOTCH section, Table 7-8. `n[p][c][i]`; absent: every notch passes its input. -/
structure Notch where
  periods : Nat := 0x0F
  n : List (List (List Biquad)) := []
  deriving DecidableEq, Repr

/-- Profile block, Table 8-7. -/
structure ProfBlk where
  vStart : Nat := 0
  vBreak : Nat := 0
  vCruise : Nat := 1
  vStop : Nat := 0
  a1 : Nat := 1
  a2 : Nat := 1
  d2 : Nat := 1
  d1 : Nat := 1
  stopDec : Nat := 1
  deriving DecidableEq, Repr

/-- PROFILE section, Tables 8-6 and 8-7. Each set: translation, heading. -/
structure Profile where
  maxMoveMm : Nat := 1
  pushLim : List Int := [0, 0, 0]
  pushRampMs : Nat := 100
  pushRampMinMs : Nat := 100
  sets : List (ProfBlk × ProfBlk) := [({}, {})]
  deriving DecidableEq, Repr

/-- Failure group block, Table 9-7. -/
structure Group where
  thrMask : Nat := 0
  busMask : Nat := 0
  priority : Nat := 1
  deriving DecidableEq, Repr

/-- ALLOCATION section, Tables 9-6 and 9-7. -/
structure Allocation where
  nSteps : Nat := 1
  nShadowMax : Nat := 0
  stepMs : Nat := 500
  qSlack : List Nat := [1, 1, 1]
  swMu : Nat := 65536
  swapHoldMs : Nat := 5000
  slackRep : List Nat := [0, 0, 0]
  slackFaultMs : Nat := 2000
  groups : List Group := []
  deriving DecidableEq, Repr

/-- SOLVER section, Table 10-3. -/
structure Solver where
  iterCap : Nat := 12
  fixedShadows : Nat := 0xFF
  epsPivot : Nat := 2
  epsReg : Nat := 32
  epsRegMax : Nat := 131072
  tolPrimary : Nat := 32
  tolAccept : Nat := 2048
  wsPush : Nat := 512
  shadowUseMs : Nat := 1000
  coverAgeMs : Nat := 2000
  conseqLim : List Nat := [0, 0, 0]
  conseqMs : Nat := 2000
  deriving DecidableEq, Repr

/-- BUDGET section, Table 11-4. -/
structure Budget where
  budgetW : Nat := 280
  hMin : Nat := 4
  derateStart : Nat := 70
  derateSlope : Nat := 4
  hystW : Nat := 10
  restoreMs : Nat := 1000
  deriving DecidableEq, Repr

/-- LOCK section, Table 12-14. -/
structure Lock where
  nSlots : Nat := 1
  leaseLen : Nat := 4
  peerMokDi : List Nat := [0, 0, 0]
  slotSerial : List Bytes := []
  lockDrillDays : Nat := 30
  deriving DecidableEq, Repr

/-- One TRIG block of TIME, Table 14-10. -/
structure Trig where
  periodUs : Nat := 0
  phaseNs : Nat := 0
  widthNs : Nat := 0
  deriving DecidableEq, Repr

/-- TIME section, Table 14-10. -/
structure Time where
  sourcePri : Nat := 2
  sourceSec : Nat := 0xFF
  ptpRole : Nat := 0
  ptpDomain : Nat := 0
  ptpProfile : Nat := 0
  ptpTransport : Nat := 0
  slaveOnly : Bool := false
  priority1 : Nat := 128
  priority2 : Nat := 128
  stepPolicy : Nat := 0
  rtcFollow : Nat := 1
  lockThrNs : Nat := 1000
  lockCount : Nat := 16
  utcOffsetDef : Int := 37
  asymH1Ns : Int := 0
  asymH2Ns : Int := 0
  holdDriftPpb : Nat := 5
  errLimitUs : Nat := 500
  trigs : List Trig := [{}, {}, {}, {}]
  capSrc : List Nat := []
  deriving DecidableEq, Repr

/-- GNSS section, Table 15-7. -/
structure Gnss where
  measHz : Nat := 10
  elevMaskDeg : Nat := 5
  pdopMax : Nat := 60
  measOfsUs : Nat := 2000
  biasEn : Nat := 1
  sleepMin : Nat := 10
  awakeS : Nat := 30
  wakeMaxS : Nat := 120
  ppsWidthMs : Nat := 100
  ppsMsgSel : Nat := 0
  ppsMsgPort : Nat := 0
  ppsMsgAddr : Nat := 0
  deriving DecidableEq, Repr

/-- Controller block of SCHEDULE, Table 16-3, with its filter table (id, mask). -/
structure Ctrl where
  mode : Nat := 0
  fdEn : Nat := 0
  termEn : Nat := 0
  tdcEn : Nat := 0
  nbrp : Nat := 1
  nsjw : Nat := 1
  ntseg1 : Nat := 2
  ntseg2 : Nat := 2
  dbrp : Nat := 0
  dtseg1 : Nat := 0
  dtseg2 : Nat := 0
  dsjw : Nat := 0
  tdco : Nat := 0
  nCycles : Nat := 1
  safeId : Nat := 0
  safeLen : Nat := 0
  safeRef : Nat := 0
  busoffHoldMs : Nat := 100
  safeOfsUs : Nat := 0
  filters : List (Nat × Nat) := []
  deriving DecidableEq, Repr

/-- Slot entry of SCHEDULE, Table 16-4. -/
structure Slot where
  ctrl : Nat := 0
  kind : Nat := 1
  conn : Nat := 0
  ref : Nat := 0
  ofsUs : Nat := 0
  windowUs : Nat := 1
  txId : Nat := 0
  len : Nat := 0
  cycleMask : Nat := 1
  deriving DecidableEq, Repr

/-- SCHEDULE section, 16_can R437. -/
structure Schedule where
  ctrls : List Ctrl := [{}, {}, {}, {}]
  slots : List Slot := []
  deriving DecidableEq, Repr

/-- Connection block of OSC, Table 17-8. -/
structure Conn where
  ctrl : Nat := 0
  verMax : Nat := 1
  tExpMs : Nat := 100
  connId : Nat := 1
  connId16 : Nat := 1
  safeCtrl : Nat := 0
  rxId : Nat := 0
  dstAddr : Nat := 0
  dstPort : Nat := 0
  deriving DecidableEq, Repr

/-- OSC section, Table 17-8. -/
structure Osc where
  safeConnId : List Nat := [0, 0, 0, 0]
  safeTExpMs : Nat := 100
  conns : List Conn := []
  deriving DecidableEq, Repr

/-- Function block of SAFETY, Table 17-7. -/
structure Func where
  fkind : Nat := 1
  pair : Nat := 1
  polarity : Nat := 0
  resetDi : Nat := 1
  thrMask : Nat := 0
  soMask : Nat := 0
  autoArm : Nat := 0
  discMs : Nat := 100
  edmDi : Nat := 0
  deriving DecidableEq, Repr

/-- SAFETY section, Table 17-7. -/
structure Safety where
  proofDays : Nat := 365
  funcs : List Func := []
  deriving DecidableEq, Repr

/-- Input block of FIELD_IO, Table 18-5. -/
structure DiBlk where
  filtN : Nat := 9
  wbEn : Bool := false
  deriving DecidableEq, Repr

/-- Output block of FIELD_IO, Table 18-6. -/
structure DoBlk where
  src : Nat := 0
  demag : Nat := 0
  failVal : Nat := 0
  sagRank : Nat := 0
  sel : Nat := 0
  ovlMs : Nat := 5
  deriving DecidableEq, Repr

/-- FIELD_IO section, 18_field_io R486. -/
structure FieldIo where
  fsArmSlot : List Nat := [0xFFFF, 0xFFFF]
  inputs : List DiBlk := []
  outputs : List DoBlk := []
  deriving DecidableEq, Repr

/-- Group block of ANALOG, Table 5-3. -/
structure AnaGroup where
  stages : Nat := 8
  startOfsNs : Nat := 0
  taps : List Nat := [0, 0, 0, 0, 0, 0, 0, 0]
  coef : List (List Int) := []
  deriving DecidableEq, Repr

/-- Channel block of ANALOG, Table 5-4. -/
structure AnaChan where
  enable : Nat := 0
  range : Nat := 0
  inputSel : Nat := 0
  dcbEn : Nat := 0
  dcbShift : Nat := 0
  freezeSrc : Nat := 0
  deriving DecidableEq, Repr

/-- ANALOG section, 05_analog_chain R146. -/
structure Analog where
  groups : List AnaGroup := [{}, {}, {}, {}]
  chans : List AnaChan := []
  deriving DecidableEq, Repr

/-- Fault map entry, Table 19-9. -/
structure FaultEntry where
  severity : Nat := 0xFF
  cls : Nat := 0xFF
  react : Nat := 0
  noFlt : Bool := false
  deriving DecidableEq, Repr

/-- FAULT_MAP section, Tables 19-8 and 19-9; an index that the table does not list has the default entry. -/
structure FaultMap where
  sluiceSer : Nat := 3
  sluiceCrit : Nat := 1
  fltSev : Nat := 2
  fltHold : Nat := 1
  quietMs : Nat := 2000
  eccRate : Nat := 64
  entries : Table FaultEntry := []
  deriving DecidableEq, Repr

/-- The whole image in force. `digest` is the DIGEST of its bytes (03_configuration R84), `format` the image format. -/
structure Img where
  format : Nat := 3
  issue : Nat := 0
  variants : Nat := 3
  digest : Bytes := []
  network : Network := {}
  frame : FrameSec := {}
  map : List Entry := []
  vessel : Vessel := {}
  fusion : Fusion := {}
  observer : Observer := {}
  gains : Gains := {}
  notch : Option Notch := none
  profile : Profile := {}
  alloc : Allocation := {}
  solver : Solver := {}
  budget : Budget := {}
  lock : Lock := {}
  time : Time := {}
  gnss : Gnss := {}
  schedule : Schedule := {}
  osc : Osc := {}
  safety : Safety := {}
  fieldIo : FieldIo := {}
  analog : Analog := {}
  faultMap : FaultMap := {}
  deriving DecidableEq, Repr

end Sys2Proof.Image
end

