-- ==== Sys2Proof/Machine/State.lean ====
section
/-! DEFINITION. The state of one OX-4800 module, as plain data, and the state after reset.

One structure per unit of the module; the docstring of each names the rules of spec/ that give its fields. Instants on the
timebase are ns since the PTP epoch; instants counted in elapsed time (timeouts, "for 10 s") are ns of the oscillator
(14_timebase_rtc R372). -/

namespace Sys2Proof.Machine

/-- Reasons for a fault. The manual gives every command an effect, so no meaning raises one: the one constructor stands for
stress beyond the operating range (21_electrical R533), which no command expresses. Safe: it is never answered. -/
inductive Fault where
  /-- Raised by no command. Operation outside the operating ratings of Table 21-5 is not specified (R533). -/
  | outsideRatings
  deriving DecidableEq, Repr

/-- Reasons for a refusal. -/
inductive Refusal where
  /-- Answered only by an arm of `exec` for a command that has no meaning yet. Safe: nothing is claimed of it. -/
  | notModelled (mnemonic : String)
  deriving DecidableEq, Repr

/-- Module states, Table 0-3. -/
inductive ModState where
  | off | selftest | held | standby | ready | active | tripped
  deriving DecidableEq, Repr

/-- What the factory fixed in the unit: variant, issue, firmware, serial (00 R1, R2; 02 Table 2-6) and the fuses that hold keys
(03 R84, 02 R76). `keyState`: fuse slot of a configuration key, 0 unprogrammed, 1 programmed, 2 revoked. -/
structure UnitId where
  variantN : Bool := false
  hwIssue : Nat := 0x43
  fwVersion : Nat := 0x03020000
  serial : Bytes := []
  keyState : List Nat := [1, 0, 0, 0]
  serviceKeySlot : Nat := 0
  deriving DecidableEq, Repr

/-- The clocks. `el`: elapsed ns of the 250 MHz clock since power was first applied. `tb`: the timebase in units of 2⁻³² ns
(14 R372). `addend`: units of 2⁻³² ns added at each clock beside the 4 ns. `slewLeft`: part of θ still to be removed by a slew
(14 R375), same units as `tb`. -/
structure Clock where
  el : Nat := 0
  tb : Nat := 0
  addend : Int := 0
  slewLeft : Int := 0
  deriving DecidableEq, Repr

/-- Timebase states, Table 14-1. -/
inductive TbState where
  | noTime | free | locking | locked | holdover
  deriving DecidableEq, Repr

/-- A PTP master as a port hears it (14 R378): its data set as an announce carries it. -/
structure PtpMaster where
  port : Nat := 0
  ident : Nat := 0
  prio1 : Nat := 128
  cls : Nat := 248
  accuracy : Nat := 0xFE
  variance : Nat := 0xFFFF
  prio2 : Nat := 128
  steps : Nat := 0
  utcOffset : Int := 37
  utcValid : Bool := false
  deriving DecidableEq, Repr

/-- One PTP port: the best announced master and when, the pending two-step Sync (identity, t2, correction), the last
master-to-slave difference, the path delay once measured, the stamp of the module's own last request, and the instant of the last Sync (14 R374, R378, R380). -/
structure PtpPort where
  best : Option PtpMaster := none
  announceEl : Nat := 0
  syncT2 : Option (Nat × Int × Int) := none
  ms : Option Int := none
  delayNs : Option Int := none
  reqT3 : Option Int := none
  syncEl : Nat := 0
  logInterval : Int := 0
  deriving DecidableEq, Repr

/-- Timebase and network time, chapter 14 first part. `source`: 0 PTP on H1, 1 PTP on H2, 2 GNSS. `stepPending`: θ of a step that
awaits permission; `stepQueued`: a step to be applied in the next guard window, `stepFree`: it leaves the timebase in FREE
(R394). `lateFire`: by compare unit (R377). `captures`: by
unit, stamps not yet committed with the elapsed instant of their commit (R382). `trigLast`: the last instant pulsed. `link100`: H1, H2 linked at 100BASE-TX.
`deferTo`: instant of a pulse already announced, until which changes of the addend and steps wait (15 R415). -/
structure TimeSt where
  state : TbState := .noTime
  source : Option Nat := none
  gnssUsable : Bool := false
  theta : Int := 0
  estErr : Nat := 0xFFFFFFFF
  everLocked : Bool := false
  lockRun : Nat := 0
  overRun : Nat := 0
  lossEl : Nat := 0
  e0 : Nat := 0
  holdGnss : Bool := false
  stepPending : Option Int := none
  permitUntil : Option Nat := none
  stepQueued : Option Int := none
  stepFree : Bool := false
  utcOffset : Int := 37
  utcValid : Bool := false
  ports : List PtpPort := [{}, {}]
  rateLog : List (Nat × Int) := []
  notLockedEl : Nat := 0
  lateFire : List Bool := List.replicate 16 false
  captures : List (List (Nat × Nat)) := List.replicate 16 []
  capDrops : Nat := 0
  ppsInOfs : Option (Int × Nat) := none
  trigHigh : List Bool := [false, false, false, false]
  trigEndEl : List Nat := [0, 0, 0, 0]
  trigLast : List Nat := [0, 0, 0, 0]
  link100 : List Bool := [false, false]
  deferTo : Option Nat := none
  deferAddend : Option Int := none
  deriving DecidableEq, Repr

/-- An alarm slot (14 R395, R396). -/
structure Alarm where
  armed : Bool := false
  date : Nat := 0
  time : Nat := 0
  fired : Bool := false
  skipped : Bool := false
  deriving DecidableEq, Repr

/-- The real-time clock in PD-BK (14 R384 to R391), reset values of R386 and Table 14-6. `subEl`: elapsed time at which the
sub-second counter last stood at 0. `bkExt`: BK_EXT, PD-BK was on VBAK at the last loss of logic supply (Table 14-8). -/
structure Rtc where
  year : Nat := 0
  month : Nat := 1
  day : Nat := 1
  weekday : Nat := 5
  hour : Nat := 0
  minute : Nat := 0
  second : Nat := 0
  subEl : Nat := 0
  osf : Bool := true
  calValid : Bool := false
  bkExt : Bool := false
  stageDirty : Bool := false
  shDate : Nat := 0
  shTime : Nat := 0
  shSubsec : Nat := 0
  stDate : Nat := 0
  stTime : Nat := 0
  backup : List Nat := List.replicate 16 0
  alarms : List Alarm := [{}, {}, {}, {}]
  deriving DecidableEq, Repr

/-- FRAME_STATUS of one frame, Table 1-6. `late`: LATE_P0 to LATE_P6. -/
structure FrameStatus where
  mode : Nat := 0
  modePending : Bool := false
  stretch : Bool := false
  overrun : Bool := false
  late : List Bool := [false, false, false, false, false, false, false]
  freeUs : Option Nat := none
  deriving DecidableEq, Repr

/-- Frames and modes, chapter 01. `phase`: 0 to 6 for P0 to P6, 7 the guard window. `nextTick`: target of CU0, ns. `lateRun`:
consecutive late frames per phase (R29). `history`: FRAME_INDEX and FRAME_STATUS of completed frames, newest first, at most
64 (R31). `pendingMode`: mode and change tick (R37). `p5Done`, `cpHanded`: conditions of R331 for the frame before. `kind1Miss`: a KIND 1
content of this frame was not placed (Table 1-5). `sec7`: section 7 as it stood at the start of P5 (19 R508). `sf1At`, `sf2At`: a function
of that kind was tripped at T_IC (17 R448). `dpOk`: what R368 of 13 asks of the last completed frame. -/
structure FrameSt where
  running : Bool := false
  index : Nat := 0
  tic : Nat := 0
  ticEl : Nat := 0
  nextTick : Nat := 0
  phase : Nat := 7
  mode : Nat := 0
  pendingMode : Option (Nat × Nat) := none
  status : FrameStatus := {}
  history : List (Nat × Nat) := []
  lateRun : List Nat := [0, 0, 0, 0, 0, 0, 0]
  p5Done : Bool := false
  cpHanded : Bool := false
  p5Start : Nat := 0
  emitSuppressed : Bool := false
  kind1Miss : Bool := false
  sec7 : Bytes := []
  sf1At : Bool := false
  sf2At : Bool := false
  dpOk : Bool := false
  deriving DecidableEq, Repr

/-- A request as it arrived (02 Table 2-1): arrival stamp on the timebase and in elapsed time. `applyTic`: T_IC of the frame
decided for a frame-bound request (R67, R69). `answer`: its response once it is known; `hold`: it leaves in P5 (R67). -/
structure Request where
  port : HostPort := .h1
  src : Src := {}
  stamp : Nat := 0
  stampEl : Nat := 0
  mbox : Nat := 0
  version : Nat := 1
  tag : Nat := 0
  flags : Nat := 0
  cmd : Nat := 0
  error : Nat := 0
  expiryMs : Nat := 0
  reserved : Nat := 0
  payload : Bytes := []
  crc : Nat := 0
  applyTic : Option Nat := none
  answer : Option Bytes := none
  hold : Bool := false
  deriving DecidableEq, Repr

/-- Tag cache entry (02 R55). -/
structure CacheEntry where
  tag : Nat := 0
  crc : Nat := 0
  resp : Bytes := []
  stampEl : Nat := 0
  deriving DecidableEq, Repr

/-- Frame-report subscription (02 R74). -/
structure Sub where
  decimate : Nat := 1
  portSel : Nat := 1
  sections : Nat := 0
  src : Src := {}
  port : HostPort := .h1
  deriving DecidableEq, Repr

/-- Ledger window of a mailbox (20 R521). -/
structure Window where
  first : Nat := 0
  last : Nat := 0
  cursor : Nat := 0
  deriving DecidableEq, Repr

/-- One mailbox (02 R55 to R66). The queue's head is the request whose turn it is. -/
structure Mbox where
  session : Option Nat := none
  cache : List CacheEntry := []
  queue : List Request := []
  fullStartEl : Nat := 0
  fullCount : Nat := 0
  sub : Option Sub := none
  window : Option Window := none
  deriving DecidableEq, Repr

/-- Mailboxes and service access (02 R52, R71, R76 to R81). `boxes` has nine entries, the service mailbox first. -/
structure MboxSt where
  boxes : List Mbox := List.replicate 9 {}
  formatDrops : Nat := 0
  crcDrops : Nat := 0
  queueDrops : Nat := 0
  serviceFails : Nat := 0
  unlock : Nat := 0
  nonce : Option (Bytes × Nat × Nat) := none
  failRun : Nat := 0
  lockoutUntil : Option Nat := none
  lastServiceEl : Nat := 0
  usbAttached : Bool := true
  /-- MODE.SET's DP request: value in force, and (T_IC of EFFECT_FRAME, value) not yet in effect (R72). -/
  dpReq : Bool := false
  dpNext : Option (Nat × Bool) := none
  /-- Inactive firmware bank as addressed bytes, canonical; which bank starts next (R80, R81). -/
  fwBank : List Host.Cell := []
  fwActive : Nat := 0
  fwNext : Nat := 0
  fwFails : Nat := 0
  deriving DecidableEq, Repr

/-- One configuration bank (03 R92, R93). `state`: Table 3-7. -/
structure Bank where
  bytes : Bytes := []
  state : Nat := 0
  totalLen : Nat := 0
  verdict : Nat := 0
  detail : Nat := 0
  deriving DecidableEq, Repr

/-- One copy of the commit record as it stands in MRAM (03 R92); it is valid while its CRC holds. -/
structure CommitCopy where
  seq : Nat := 0
  bank : Nat := 0
  reserved : Bytes := []
  digest : Bytes := []
  crc : Nat := 0
  deriving DecidableEq, Repr

/-- Configuration (03). `img`: the image in force. `netOpen`: an image has passed verification; `addrH1`,
`addrH2`: its addresses with this module's slot in it, which H1 and H2 use in HELD (R48, 12 R327).
`verifying`: the bank under verification. `effect`: the tick that a committed image waits for, ns (R96). `grantUntil`: PD-HC grant in
STANDBY (R94). -/
structure CfgSt where
  bank0 : Bank := {}
  bank1 : Bank := {}
  copy0 : CommitCopy := {}
  copy1 : CommitCopy := {}
  active : Nat := 0
  owner : Option Nat := none
  nextOffset : Nat := 0
  verifying : Option Nat := none
  img : Image.Img := {}
  heldReason : Nat := 0
  heldDetail : Nat := 0
  netOpen : Bool := false
  addrH1 : Nat := 0
  addrH2 : Nat := 0
  effect : Option Nat := none
  grantUntil : Option Nat := none
  deriving DecidableEq, Repr

/-- A slot of the latest-value store, Table 3-17; `live`: a value has arrived since start (R103, 00 R9). Quality codes of Table
4-2. -/
structure Slot where
  value : Int := 0
  stamp : Nat := 0
  quality : Nat := 2
  seq : Nat := 0
  live : Bool := false
  deriving DecidableEq, Repr

/-- Intake counters of one port, Table 4-3. -/
structure Counters where
  rx : Nat := 0
  unmatched : Nat := 0
  malformed : Nat := 0
  cksumFail : Nat := 0
  rangeReject : Nat := 0
  dupDrops : Nat := 0
  floodDrops : Nat := 0
  deriving DecidableEq, Repr

/-- What waits in an intake queue: an integrator datagram, one of IEC 61162-450, a CAN frame. -/
inductive PendKind where
  | udp | nmea | can
  deriving DecidableEq, Repr

/-- A message that waits in the intake queue of its port (04 R125): `key`, the destination port of a datagram or the identity word of a CAN
frame; its stamp, and the elapsed instants of its arrival and of the end of its service. -/
structure Pend where
  kind : PendKind := .udp
  key : Nat := 0
  stamp : Nat := 0
  arrEl : Nat := 0
  doneEl : Nat := 0
  data : Bytes := []
  deriving DecidableEq, Repr

/-- One intake port (04): counters now, at the last second and at the last tick, its flood run (R127), whether the last second
passed the rate of fault 0x0411, the intake queue of a host port or a CAN controller, and for S1 to S8 the
locked rate (0 unlocked), the instants of the last well-formed sentence and of unlocking (R107). -/
structure PortSt where
  cnt : Counters := {}
  last : Counters := {}
  tickFlood : Nat := 0
  floodRun : Nat := 0
  baud : Nat := 0
  goodEl : Nat := 0
  unlockEl : Nat := 0
  rateBad : Bool := false
  waiting : List Pend := []
  deriving DecidableEq, Repr

/-- Intake (04): ports in the order of event 0x0401 (1 to 8 S1 to S8, 9 H1, 10 H2, 11 to 14 CAN1 to CAN4), and what the
duplicate rules of R112 remember: each with the port and the elapsed instant of its arrival. -/
structure IntakeSt where
  ports : List PortSt := List.replicate 15 {}
  dup450 : List (Bytes × Bytes × Nat × Nat) := []
  dupUdp : List (Image.Match × Bytes × Nat × Nat) := []
  deriving DecidableEq, Repr

/-- An analog group (05 R135 to R137): running, since which elapsed instant, or waiting for its trigger (ns on the timebase); whether it has
delivered its first VALID sample. -/
structure AnaGroupSt where
  running : Bool := false
  startAt : Option Nat := none
  startEl : Nat := 0
  firstValid : Bool := false
  deriving DecidableEq, Repr

/-- A sample delivered and not yet committed (05 R139): value, stamp, quality, elapsed instant of its commit. -/
structure AnaSample where
  v : Int := 0
  stamp : Nat := 0
  quality : Nat := 2
  doneEl : Nat := 0
  deriving DecidableEq, Repr

/-- An analog channel (05 R130, R131, R137 to R141). `n`: samples delivered since the start; `mods`: the modulator outputs still in the sinc
filter, `stages`: the inputs still in each half-band stage, all newest first. `left`: samples until settled; `m`: the DC-blocking estimate
with 32 fraction bits. `ovl`: an overload in the delivery interval in progress, `ovlHigh`: beyond the upper end of the span; `inReset`: the
modulator is held in reset since `resetEl`. -/
structure AnaChanSt where
  n : Nat := 0
  mods : List Int := []
  stages : List (List Int) := []
  waiting : List AnaSample := []
  left : Nat := 0
  preloaded : Bool := false
  m : Int := 0
  ovl : Bool := false
  ovlHigh : Bool := false
  inReset : Bool := false
  resetEl : Nat := 0
  ovlEl : Option Nat := none
  lowEl : Option Nat := none
  highEl : Option Nat := none
  deriving DecidableEq, Repr

/-- Analog chain (05). -/
structure AnalogSt where
  powered : Bool := false
  powerEl : Nat := 0
  failed : Bool := false
  groups : List AnaGroupSt := List.replicate 4 {}
  chans : List AnaChanSt := List.replicate 16 {}
  deriving DecidableEq, Repr

/-- State of a reference: Table 6-10. -/
inductive RefState where
  | isIn | masked | conflict
  deriving DecidableEq, Repr

/-- One reference (06 R160 to R172, R179 to R181). `reasons` and the gate results are those of its latest evaluation. -/
structure RefSt where
  state : RefState := .masked
  c : Nat := 0
  run : Nat := 0
  evalStamp : Option Nat := none
  freezeStamp : Nat := 0
  freezeVals : List Int := []
  sRef : Option Int := none
  learn : Nat := 0
  learnMin : Int := 0
  skew : Bool := false
  skewEl : Nat := 0
  skewGood : Nat := 0
  lastSkew : Int := 0
  awaiting : Bool := false
  awaitUntil : Nat := 0
  partner : Option Nat := none
  srcFail : Bool := false
  srcSoft : Bool := false
  freezeFail : Bool := false
  innovFail : Bool := false
  medFail : Bool := false
  noPred : Bool := false
  unusable : Bool := false
  stale : Bool := false
  innov : Nat := 0
  share : Nat := 0
  ageUs : Nat := 0xFFFFFFFF
  deriving DecidableEq, Repr

/-- Flags of a fused output, Table 6-9. -/
structure OutFlags where
  warmup : Bool := false
  headingPred : Bool := false
  motionUncomp : Bool := false
  noPred : Bool := false
  skew : Bool := false
  holdoverUsed : Bool := false
  conflict : Bool := false
  redundancyLow : Bool := false
  drLimit : Bool := false
  dr : Bool := false
  fresh : Bool := false
  valid : Bool := false
  deriving DecidableEq, Repr

/-- A fused output: up to three values (position N, E; heading; roll, pitch, heave; speed, direction), the oldest stamp used,
σ, counts (06 R150, R174, R175, Table 6-8). -/
structure Fused where
  v : List Int := [0, 0, 0]
  stamp : Option Nat := none
  ageUs : Nat := 0xFFFFFFFF
  sigma : Nat := 0xFFFFFFFF
  flags : OutFlags := {}
  used : Nat := 0
  nIn : Nat := 0
  lastValidTic : Option Nat := none
  drMs : Nat := 0
  sinceEl : Option Nat := none
  deriving DecidableEq, Repr

/-- The internal receiver's solution latched in P0 (06 R154): epoch, quality code, latitude, longitude. -/
structure NavLatch where
  epoch : Nat := 0
  quality : Nat := 2
  lat : Int := 0
  lon : Int := 0
  deriving DecidableEq, Repr

/-- Reference fusion (06). -/
structure FusionSt where
  running : Bool := false
  warmup : Bool := true
  refs : List RefSt := []
  heading : Fused := {}
  motion : Fused := {}
  position : Fused := {}
  wind : Fused := {}
  nav : Option NavLatch := none
  tov : Nat := 0
  deriving DecidableEq, Repr

/-- One notch: input and output histories in Q48.16 (07 R203). -/
structure NotchSt where
  x1 : Int := 0
  x2 : Int := 0
  y1 : Int := 0
  y2 : Int := 0
  deriving DecidableEq, Repr

/-- What an update of the observer takes as inputs (07 R186, R190 to R193). -/
structure ObsInputs where
  uIn : List Int := [0, 0, 0]
  period : Nat := 0
  weights : List (Frac × Nat) := []
  deriving DecidableEq, Repr

/-- Observer and control law (07). `x`: the 15 states of Table 7-2 as raw integers. `pred`: the prediction handed to fusion,
for the tick named (R195). `rows`: whether rows are blended follows from `blend`. -/
structure ObsSt where
  x : List Int := List.replicate 15 0
  init : Bool := false
  missed : List ObsInputs := []
  /-- Steps of Table 7-1 committed so far in P2 of the frame in progress. -/
  steps : Nat := 0
  pred : Option (Nat × Int × Int × Nat) := none
  tauEmit : List Int := [0, 0, 0]
  region : Nat := 0
  blend : Option (Nat × Nat) := none
  selWind : Nat := 0
  selSog : Nat := 0
  selWave : Nat := 0
  selPwr : Nat := 0
  selHeld : Nat := 0
  waveHeave : Bool := false
  waveLow : Bool := false
  waveUps : List Nat := []
  waveStart : Nat := 0
  waveF : Option Nat := none
  fade : Frac := ⟨0, 1⟩
  tauWind : List Int := [0, 0, 0]
  notch : List (List NotchSt) := []
  notchPrime : Bool := true
  tauFb : List Int := [0, 0, 0]
  tauWff : List Int := [0, 0, 0]
  tauPush : List Int := [0, 0, 0]
  tauDem : List Int := [0, 0, 0]
  innov : List Int := [0, 0, 0]
  ctrlFlags : Nat := 0
  tov : Nat := 0
  demLimEl : Option Nat := none
  noRegionEl : Option Nat := none
  deriving DecidableEq, Repr

/-- How one profile runs: from its start to its target, or braking (08 R216 to R225). Lengths with 16 fraction bits;
`kind`: 0 absent, 1 running, 2 braking for a pending target, 3 stopping, 4 ended. -/
structure ProfRun where
  kind : Nat := 0
  blk : Image.ProfBlk := {}
  len : Frac := ⟨0, 1⟩
  dirNeg : Bool := false
  t0 : Nat := 0
  vPeak : Frac := ⟨0, 1⟩
  vStart : Frac := ⟨0, 1⟩
  vStop : Frac := ⟨0, 1⟩
  s0 : Frac := ⟨0, 1⟩
  v0 : Frac := ⟨0, 1⟩
  tBrake : Nat := 0
  deriving DecidableEq, Repr

/-- The running move (08 R216, R224). -/
structure Move where
  p0N : Frac := ⟨0, 1⟩
  p0E : Frac := ⟨0, 1⟩
  tgtN : Int := 0
  tgtE : Int := 0
  psi0 : Nat := 0
  tgtHdg : Nat := 0
  trans : ProfRun := {}
  head : ProfRun := {}
  sel : Nat := 0
  limit : Bool := false
  stopping : Bool := false
  braking : Bool := false
  deriving DecidableEq, Repr

/-- A target with the fields of its request (08 Table 8-1). -/
structure Target where
  n : Int := 0
  e : Int := 0
  hdg : Nat := 0
  tflags : Nat := 0
  sel : Nat := 0
  vReq : Nat := 0
  rReq : Nat := 0
  deriving DecidableEq, Repr

/-- Berth push (08 R228 to R232): ramp start and end values and instants, FREE, the FREE bits to clear at the ramp's end, the bits
whose Z the next step 4 latches, Z per axis; `announce`: event 0x0806 is due. -/
structure Push where
  inForce : Bool := false
  from_ : List Frac := [⟨0, 1⟩, ⟨0, 1⟩, ⟨0, 1⟩]
  to_ : List Int := [0, 0, 0]
  t0 : Nat := 0
  t1 : Nat := 0
  free : List Bool := [false, false, false]
  clearing : List Bool := [false, false, false]
  latch : List Bool := [false, false, false]
  z : List Int := [0, 0, 0]
  release : Bool := false
  ramping : Bool := false
  limit : Bool := false
  announce : Bool := false
  deriving DecidableEq, Repr

/-- Set-point stage (08). η_d with 16 fraction bits of a mm, ψ_d a binary angle. -/
structure SpSt where
  n : Int := 0
  e : Int := 0
  psi : Nat := 0
  speed : Nat := 0
  rate : Int := 0
  nu : List Int := [0, 0, 0]
  tE : Nat := 0
  move : Option Move := none
  pending : Option Target := none
  push : Push := {}
  deriving DecidableEq, Repr

/-- The command last emitted to a thruster, Table 9-2. -/
structure ThrCmd where
  thrust : Int := 0
  angle : Nat := 0
  rpm : Int := 0
  cflags : Nat := 0
  pCmd : Nat := 0
  deriving DecidableEq, Repr

/-- One thruster (09 R242 to R246, R250, R253, R261). Variables in Q2.29. `crossing`: the regime that crosses, 1 or 2 a sector,
3 the rudder. `muLeft` with the T_IC of the frame in which its crossing ended. -/
structure ThrSt where
  avail : Bool := false
  side1 : Bool := false
  side2 : Bool := false
  astern : Bool := false
  crossing : Option Nat := none
  muLeft : Frac := ⟨0, 1⟩
  muEndTic : Option Nat := none
  dir : Int × Int := (536870912, 0)
  fEmit : Int × Int := (0, 0)
  cmd : ThrCmd := {}
  tstate : Nat := 1
  deriving DecidableEq, Repr

/-- One power bus (09 R248 to R254, Table 9-10). -/
structure BusSt where
  inService : Bool := true
  fallback : Bool := false
  hold : Bool := false
  rateRaised : Bool := false
  exceed : Bool := false
  exceedRun : Nat := 0
  bind : Bool := false
  pAv : Int := 0
  ramp : Int := 0
  pRhs : Int := 0
  pLin : Int := 0
  pStep0 : Int := 0
  pPeak : Int := 0
  marginal : Nat := 0
  ageUs : Nat := 0
  deriving DecidableEq, Repr

/-- Thrust allocation (09). `lostNow`: L_k; `emitGroup`: the shadow chosen for emission in this frame (10 R295, R296). -/
structure AllocSt where
  thr : List ThrSt := []
  bus : List BusSt := []
  prevUnavail : Nat := 0
  lostNow : Nat := 0
  emitGroup : Option Nat := none
  solSource : Nat := 2
  tauDem : List Int := [0, 0, 0]
  slack : List Int := [0, 0, 0]
  slackPeak : List Int := [0, 0, 0]
  slackSet : Bool := false
  slackEl : Option Nat := none
  pwrBind : Bool := false
  steps : Nat := 1
  deriving DecidableEq, Repr

/-- A solution over the horizon (10 R272, R287; 12 Table 12-7): per step the thruster variables in Q2.29 by key 2 × thruster + axis
(axis 0 x, 1 y), the three slack variables in Q2.29, λ in Q10.21, and the inequality multipliers by the row's tag, unscaled. -/
structure Solution where
  x : List (Table Int) := []
  slack : List (List Int) := []
  lam : List (List Int) := []
  z : List (Table Frac) := []
  resid : Nat := 0xFFFFFFFF
  deriving DecidableEq, Repr

/-- One inequality row of a step, a · x_j + a' · x_{j−1} ≤ b: coefficients of the step's variables and of the step before (none for
most rows), right side, and what it bounds. -/
structure IneqRow where
  cur : List Frac := []
  prev : List Frac := []
  rhs : Frac := ⟨0, 1⟩
  tag : Nat := 0
  deriving DecidableEq, Repr

/-- One step of an assembled programme (09 R238 to R251), unscaled: variables (thruster, axis), the three slack last with thruster 100;
Hessian diagonal, diagonal coupling with the step before, linear term, balance rows and their right side, inequality rows; and the powers
of two of R258 by variable, inequality row and balance row. -/
structure StepProb where
  vars : List (Nat × Nat) := []
  hess : List Frac := []
  coup : List Frac := []
  lin : List Frac := []
  bal : List (List Frac) := []
  d : List Frac := []
  rows : List IneqRow := []
  varExp : List Int := []
  rowExp : List Int := []
  balExp : List Int := []
  deriving DecidableEq, Repr

/-- An iterate (10 R273, Table 10-2): by step the variables in Q2.29, unscaled; λ, w and z in Q10.21, scaled; residual in Q10.21. -/
structure Iter where
  x : List (List Int) := []
  lam : List (List Int) := []
  w : List (List Int) := []
  z : List (List Int) := []
  resid : Nat := 0x7FFFFFFF
  deriving DecidableEq, Repr

/-- An assembled programme: the primary (`group` none) or a shadow, with its start. -/
structure Problem where
  group : Option Nat := none
  steps : List StepProb := []
  start : Iter := {}
  cold : Bool := false
  deriving DecidableEq, Repr

/-- A solve on an array (10 R273 to R283). `flags`: SOLV_FLAGS of Table 10-5; `marks`: iterations of event 0x0A04 with their ε_reg. -/
structure Solve where
  prob : Problem := {}
  iters : Nat := 0
  cur : Iter := {}
  best : Iter := {}
  epsReg : Nat := 0
  epsPeak : Nat := 0
  flags : Nat := 0
  marks : List (Nat × Nat) := []
  deriving DecidableEq, Repr

/-- A failure group's shadow (10 R290 to R294, Table 10-6). `iters`, `gflags`: of this frame. `fresh`: refreshed in this frame;
`foreignImg`: the image has changed since its refresh. `lossFinal` and `loss` in N, N, N·m. -/
structure Shadow where
  sol : Option Solution := none
  steps : Nat := 0
  basisThr : Nat := 0
  basisBus : Nat := 0
  refreshTic : Nat := 0
  loss : List Int := [-2147483648, -2147483648, -2147483648]
  lossFinal : List Int := [-2147483648, -2147483648, -2147483648]
  resid : Nat := 0xFFFFFFFF
  iters : Nat := 0
  accepted : Bool := false
  fresh : Bool := false
  gflags : Nat := 0
  foreignImg : Bool := false
  deriving DecidableEq, Repr

/-- Solver (10). `standing`: the solution that stood in the frame before. `queue`: assembled shadows not
yet started; `primary`: assembled and not yet started; `emitSol`: the solution whose step 0 P5 emits. `refreshed`: groups refreshed in
this frame; `sched`: groups scheduled; `unimaged`: shadows refreshed before the image in force took effect. -/
structure SolverSt where
  standing : Option Solution := none
  cold : Bool := true
  shadows : List Shadow := []
  primary : Option Problem := none
  queue : List Problem := []
  onA : Option Solve := none
  onB : Option Solve := none
  primSol : Option Solution := none
  primResult : Nat := 3
  primIters : Nat := 0
  primResid : Nat := 0xFFFFFFFF
  solvFlags : Nat := 0
  epsPeak : Nat := 0
  busyA : Nat := 0
  busyB : Nat := 0
  sched : List Nat := []
  fixed : List Nat := []
  holdRun : Nat := 0
  accRun : Nat := 0
  epsRun : Nat := 0
  conseq : Bool := false
  conseqEl : Option Nat := none
  shadowEmitted : Bool := false
  emitSol : Option Solution := none
  emitSource : Nat := 2
  deriving DecidableEq, Repr

/-- The Chandler (11). `sbOn`: PD-SB is powered, and from `sbReadyAt` on SA-B takes solves (R310). Shed now, and decided for the next
frame: DIAG, GNSS, shadow slots, horizon cuts, SB_OFF (Table 11-2). `hist`: P_in and the cost of the stages granted, by frame, newest
first, in mW; `grantedMw`: that cost for the frame in progress; `eSh`, `ePr`: array energies in µJ, newest first, at most 32. `plates`: the higher
of the two base-plate readings with its elapsed instant, over the last 1 s, newest first (R304). -/
structure ChandlerSt where
  sbOn : Bool := false
  sbReadyAt : Option Nat := none
  diagShed : Bool := false
  gnssShed : Bool := false
  shadowShed : Nat := 0
  cutShed : Nat := 0
  sbShed : Bool := false
  nextDiag : Bool := false
  nextGnss : Bool := false
  nextShadow : Nat := 0
  nextCut : Nat := 0
  nextSb : Bool := false
  hist : List (Int × Int) := []
  grantedMw : Int := 0
  eSh : List Nat := []
  ePr : List Nat := []
  changeEl : Option Nat := none
  dMw : Int := 0
  bEffMw : Nat := 0
  pInMw : Nat := 0
  plates : List (Nat × Int) := []
  tCase : Int := 0
  derate : Bool := false
  over_ : Bool := false
  caseHot : Bool := false
  pDomain : List Nat := List.replicate 12 0
  shadowCutEl : Option Nat := none
  lostA : Bool := false
  lostB : Bool := false
  deriving DecidableEq, Repr

/-- A beat as received (12 Table 12-3), with its header's frame and the receiver's frame at arrival. -/
structure Beat where
  slot : Nat := 1
  frame : Nat := 0
  state : Nat := 1
  lflags : Nat := 0
  mode : Nat := 0
  verMax : Nat := 2
  groupVer : Nat := 0
  succ : List Nat := [0, 0, 0]
  expiry : Nat := 0
  cpFrame : Nat := 0
  digest8 : Bytes := []
  serial : Bytes := []
  atFrame : Nat := 0
  deriving DecidableEq, Repr

/-- A peer slot (12 R322, R333, R337): for L1 and L2 the frame of the last valid beat while the path is up; its last beat and
its last in-step beat; frame since which it has been unreachable with its MOK energised. -/
structure Peer where
  pathL1 : Option Nat := none
  pathL2 : Option Nat := none
  last : Option Beat := none
  inStep : Option Beat := none
  heard : Bool := false
  lostSince : Option Nat := none
  holdAt : Option Nat := none
  deriving DecidableEq, Repr

/-- An OSC connection (17 R460 to R463). `st`: 0 closed, 1 opening, 2 open. -/
structure OscConn where
  st : Nat := 0
  ver : Nat := 0
  txSeq : Nat := 1
  rxLast : Nat := 0
  rxEl : Nat := 0
  rxExpMs : Nat := 0
  setupEl : Option Nat := none
  watchPending : Bool := false
  deriving DecidableEq, Repr

/-- The part of a safety function that a checkpoint carries (17 R454): 0 unused, 1 armed, 2 tripped, 3 tripped and reset refused. -/
abbrev FState := Nat

/-- A checkpoint as composed or as committed (12 R341 to R343, Tables 12-5 to 12-7; 06 R172, 07 R197, 08 R233, 09 R246). -/
structure Checkpoint where
  version : Nat := 2
  srcSlot : Nat := 0
  frame : Nat := 0
  ledgerSeq : Nat := 0
  digest : Bytes := []
  state : Nat := 4
  dpReq : Bool := false
  mode : Nat := 0
  pendingMode : Option (Nat × Nat) := none
  fstates : List FState := []
  tripCount : Nat := 0
  osc : List OscConn := []
  safeSeq : List Nat := []
  fusion : FusionSt := {}
  obs : ObsSt := {}
  sp : SpSt := {}
  alloc : AllocSt := {}
  holdRun : Nat := 0
  standing : Option Solution := none
  shadows : List Shadow := []
  deriving DecidableEq, Repr

/-- A checkpoint being assembled (12 R340): source slot, frame, number of fragments, fragments received by index. -/
structure Assembly where
  src : Nat := 0
  frame : Nat := 0
  count : Nat := 0
  parts : Table Bytes := []
  deriving DecidableEq, Repr

/-- Lock group and Rafoger link (12). `expiry`: the last EXPIRY sent. `renewal`: the last in-step beat with LEASE_HELD, CLAIM or
RELEASE set (R333); `shift`: by how much FRAME_INDEX moved at the last tick; `laterClaim`: since it, another slot's beat has shown a greater EXPIRY (condition 1). `claim`: (tick of the claim, kind: 0 election, 1 takeover, 2 lock change). `change`: a lock change: target and
the frame in which it was applied (R347). `cpBad`: the outgoing checkpoint of this frame has an uncorrectable word (19 Table 19-4). -/
structure LockSt where
  slot : Nat := 0
  held : Bool := false
  expiry : Nat := 0
  groupVer : Nat := 0
  claim : Option (Nat × Nat) := none
  claimOk : Bool := false
  change : Option (Nat × Nat) := none
  prepared : Option Nat := none
  release : Bool := false
  yielding : Bool := false
  yieldTick : Nat := 0
  aborted : Bool := false
  peers : List Peer := [{}, {}, {}, {}]
  renewal : Option Beat := none
  laterClaim : Bool := false
  frameSlip : Bool := false
  discStart : Option Nat := none
  discEnd : Option Nat := none
  asm : Option Assembly := none
  shift : Int := 0
  committed : Option Checkpoint := none
  cpArr : Option Nat := none
  foreign : Bool := false
  cpGood : Bool := false
  cpSent : Nat := 0
  cpBad : Bool := false
  cpLoaded : Option Nat := none
  firstDuty : Option Nat := none
  drops : List Nat := [0, 0]
  seqTx : Nat := 0
  drillOp : Option Nat := none
  periodDiff : Bool := false
  deriving DecidableEq, Repr

/-- Bring-up and supplies (13). `step`: 0 before self-test, 1 to 8 the steps of Table 13-1, 9 complete. -/
structure BringSt where
  step : Nat := 0
  stepEl : Nat := 0
  goodEl : Nat := 0
  analogDone : Bool := false
  /-- Step 7 has ended (13 R358). -/
  done7 : Bool := false
  complete : Bool := false
  powerFailEl : Option Nat := none
  lvA : Nat := 0
  lvB : Nat := 0
  resetHold : Bool := true
  timeDone : Bool := false
  oscDone : Bool := false
  obsAtTick : Bool := false
  boundFrom : Nat := 0
  deriving DecidableEq, Repr

/-- Tracking regimes, Table 15-5. -/
inductive Regime where
  | continuous | burst | longSleep
  deriving DecidableEq, Repr

/-- The receiver's retained set (15 R402): navigation data words by key (PRN × 8 + subframe) × 16 + word, the instant of the latest
almanac page, the GPS-UTC offset, the last full position. -/
structure Retained where
  nav : Table Nat := []
  almanac : Option Nat := none
  utc : Option Int := none
  pos : Option (Int × Int) := none
  deriving DecidableEq, Repr

/-- The receiver (15). `ret` in PD-CK, `saved` in MRAM. `epoch`: the last measurement epoch. `fullSince`: elapsed instant since
which a full solution has held without break; `fullEl`: that of the last full solution. By channel: slip counts, code lock, the
last two bits of the last word, the subframe in progress. `burst`: the front end runs for a burst (R410). PPS_OUT: level, elapsed
instant of the last pulse; `msgSkip`, `msgStepped`: flags of the next pulse message. -/
structure GnssSt where
  powered : Bool := false
  failed : Bool := false
  regime : Regime := .continuous
  burst : Bool := false
  asleep : Bool := false
  sleepEl : Nat := 0
  wakeEl : Nat := 0
  fullSince : Option Nat := none
  fullEl : Nat := 0
  grade : Nat := 0
  sol : Option NavSol := none
  solEpoch : Nat := 0
  epoch : Nat := 0
  slip : List Nat := List.replicate 33 0
  codeLock : List Bool := List.replicate 33 false
  lastWord : List (Nat × Nat) := List.replicate 33 (0, 0)
  subframe : List Nat := List.replicate 33 0
  ret : Retained := {}
  saved : Retained := {}
  startClass : Nat := 2
  bias : Bool := false
  shortEl : Option Nat := none
  ppsHigh : Bool := false
  ppsEl : Option Nat := none
  msgSkip : Bool := false
  msgStepped : Bool := false
  deriving DecidableEq, Repr

/-- Error states of a CAN controller (16 R436). -/
inductive CanState where
  | active | passive | busOff
  deriving DecidableEq, Repr

/-- Counters of a controller, Table 16-5. -/
structure CanCounters where
  txOk : Nat := 0
  txErr : Nat := 0
  arbLost : Nat := 0
  slotMissed : Nat := 0
  slotEmpty : Nat := 0
  cancelRefused : Nat := 0
  rxOk : Nat := 0
  rxErr : Nat := 0
  protExc : Nat := 0
  deriving DecidableEq, Repr

/-- A slot of the matrix, or the safety slot. `content`: content that stands for the slot, with the frame of the P5 that placed it (R427). `st`: message state of Table 16-1, 0 idle, 1 pending, 2 transmitting;
`openMsg`: that message; `opened`: frame of the last opening; `run`: consecutive frames missed or failed (R439). -/
structure SlotMsg where
  content : Option Bytes := none
  frame : Nat := 0
  st : Nat := 0
  openMsg : Option Bytes := none
  opened : Option Nat := none
  run : Nat := 0
  deriving DecidableEq, Repr

/-- One CAN controller (16). -/
structure CanSt where
  st : CanState := .active
  tec : Nat := 0
  rec_ : Nat := 0
  busOffEl : Nat := 0
  recovering : Bool := false
  withdrawn : Bool := false
  cnt : CanCounters := {}
  last : CanCounters := {}
  safe : SlotMsg := {}
  deriving DecidableEq, Repr

/-- A safety channel SX or a digital input DI: the last sample and whether it was broken, the run towards a level,
filtered level, wire (18 R470 to R472, 17 R443). -/
structure InSt where
  prev : Bool := false
  prevBr : Bool := false
  cand : Bool := false
  candRun : Nat := 0
  level : Option Bool := none
  brokenRun : Nat := 0
  wholeRun : Nat := 0
  broken : Option Bool := none
  deriving DecidableEq, Repr

/-- A safety function (17 R446 to R453). `st`: FSTATE of Table 17-5. -/
structure FuncSt where
  st : FState := 0
  autoUsed : Bool := false
  edmUntil : Option Nat := none
  lastTripOp : Nat := 0
  deriving DecidableEq, Repr

/-- An input pair (17 R443, R444). -/
structure PairSt where
  runEl : Option Nat := none
  disEl : Option Nat := none
  discrepant : Bool := false
  deriving DecidableEq, Repr

/-- A reset input (17 R449): level and the instants of its last changes; `stuck` until a new low period. -/
structure ResetIn where
  level : Option Bool := none
  lowEl : Nat := 0
  highEl : Nat := 0
  lowOk : Bool := false
  stuck : Bool := false
  deriving DecidableEq, Repr

/-- One safe output channel: energised, last refresh (17 R441). -/
structure SoChan where
  on : Bool := false
  refreshEl : Nat := 0
  deriving DecidableEq, Repr

/-- The safety pair (17). `latch`: read-back latch per output pair, in PD-AO (R456). `supply`: supply fault per supply (18 R482).
`sf2Gate`: gate of a tripped SF2 until the next tick (R447). `rdSx`, `rdDi`, `rdEl`: what step 1 of the cycle in progress read
(R440), digital inputs by number. `lastTripOp` of a function is kept through resets. -/
structure SafetySt where
  running : Bool := false
  stopped : Bool := false
  funcs : List FuncSt := []
  pairs : List PairSt := List.replicate 4 {}
  sx : List InSt := List.replicate 8 {}
  resets : List ResetIn := List.replicate 33 {}
  so : List SoChan := List.replicate 8 {}
  latch : List Bool := [false, false, false, false]
  supply : List Bool := [false, false]
  rdSx : List InSt := List.replicate 8 {}
  rdDi : List (Option Bool) := List.replicate 33 none
  rdEl : Nat := 0
  tripCount : Nat := 0
  sf2Gate : Bool := false
  seq : List Nat := [1, 1, 1, 1]
  deriving DecidableEq, Repr

/-- One digital output (18 R476, R478, R481). `pin`: switched on; `latch`: 0 none, 1 OVERLOAD, 2 OVERHEAT; `offEl`: elapsed instant at
which the staged switch-off of its sagging group reaches it. -/
structure DoSt where
  value : Bool := false
  pin : Bool := false
  latch : Nat := 0
  offEl : Option Nat := none
  deriving DecidableEq, Repr

/-- A field supply (18 R480, R481): last measurement, runs below each threshold, condition set, recovery, group latch, its
re-arm steps (R481), and excess current of the group (R479). -/
structure SupplySt where
  mv : Nat := 24000
  below : List Nat := [0, 0, 0]
  cond : List Bool := [false, false, false]
  goodRun : Nat := 0
  okEl : Option Nat := none
  latched : Bool := false
  armLow : Bool := false
  armed : Bool := false
  over_ : Bool := false
  deriving DecidableEq, Repr

/-- Digital inputs, outputs and status outputs (18). -/
structure FieldSt where
  di : List InSt := List.replicate 32 {}
  dout : List DoSt := List.replicate 24 {}
  supply : List SupplySt := [{}, {}]
  mok : Bool := false
  fltN : Bool := false
  fltEl : Nat := 0
  repl : Bool := false
  deriving DecidableEq, Repr

/-- One fault source (19 R488 to R500, Table 19-7). `sluiceTick`: FRAME_INDEX of its expiry tick. -/
structure FaultSt where
  active : Bool := false
  oneShot : Bool := false
  latched : Bool := false
  pending : Bool := false
  withheld : Bool := false
  sev : Nat := 0
  raised : Nat := 0
  lastEl : Nat := 0
  sluiceTick : Option Nat := none
  fltCounts : Bool := false
  blocks : List Block := []
  deriving DecidableEq, Repr

/-- One class (19 R499). -/
structure ClassSt where
  inFault : Bool := false
  lastEl : Nat := 0
  recovery : Nat := 0
  deriving DecidableEq, Repr

/-- Fault collection (19). `src` by source index, `cls` by class. `blkReset`, `blkWork`: by block number of event 0x1307, held in
reset, the first frame in which it takes work again, and the fault code that had it reset (R495). `ecc`: corrected words by operating
second, newest first (R502). -/
structure FaultsSt where
  src : Table FaultSt := []
  cls : Table ClassSt := []
  degraded : Bool := false
  degrCause : Nat := 0
  ecc : List (Nat × Nat) := []
  eccTotal : Nat := 0
  blkReset : List Bool := List.replicate 12 false
  blkWork : List Nat := List.replicate 12 0
  blkBy : List Nat := List.replicate 12 0
  lastResetA : Option Nat := none
  lastResetB : Option Nat := none
  hostStop : Bool := false
  criticalAt : Option Nat := none
  mustReset : Bool := false
  deriving DecidableEq, Repr

/-- A Ledger record, Table 20-1, in occurrence form: `data` up to 44 bytes stands for the head and its continuations (20 R513).
`seq` is the SEQ of the head. -/
structure Rec where
  seq : Nat := 0
  opS : Nat := 0
  opUs : Nat := 0
  boot : Nat := 0
  code : Nat := 0
  fault : Bool := false
  sev : Nat := 0
  cls : Nat := 0xFF
  repeats : Nat := 0
  lastS : Nat := 0
  data : Bytes := []
  deriving DecidableEq, Repr

/-- The Ledger (20). `recs`: newest first. `next`: the SEQ the next record takes; `total`: 32-byte records written (saturating
at the region's size). -/
structure LedgerSt where
  recs : List Rec := []
  next : Nat := 0
  total : Nat := 0
  queue : List Rec := []
  lost : Nat := 0
  lostSince : Nat := 0
  opS : Nat := 0
  opNs : Nat := 0
  counting : Bool := false
  savedOp : Nat := 0
  boot : Nat := 0
  discarded : Nat := 0
  deriving DecidableEq, Repr

/-- What leaves the module while a command runs. -/
inductive Out where
  /-- A datagram or USB transfer to a host, or a datagram to an integrator's address. -/
  | msg (port : HostPort) (dst : Src) (data : Bytes)
  /-- A CAN frame whose slot opened with content: controller, identity word, data. -/
  | can (ctrl idWord : Nat) (data : Bytes)
  /-- A Rafoger frame on L1 (0) or L2 (1); `badFcs`: ended with a wrong frame check sequence (12 R321). -/
  | raf (port dst ethertype : Nat) (data : Bytes) (badFcs : Bool)
  /-- A PTP message sent on a host port. -/
  | ptp (port : Nat) (m : PtpSend) (clockClass : Nat)
  /-- The answer of a port in the master role to a delay request: requester, and the two times it gives (14 Table 14-3). -/
  | ptpResp (port ident : Nat) (t2 t3 : Nat)
  deriving DecidableEq, Repr

/-- What read commands return: values as they stood at the end of P6 of the last completed frame (02 R66): the payloads of
STATE.READ, TARGET.READ and the summary of CONFIG.READ, the bytes of both banks and which was active, the snapshot, and the
fault sources with the instant. -/
structure View where
  stateRead : Bytes := []
  targetRead : Bytes := []
  configRead : Bytes := []
  bank0 : Bytes := []
  bank1 : Bytes := []
  active : Nat := 0
  snap : Table Slot := []
  faults : FaultsSt := {}
  fltN : Bool := false
  el : Nat := 0
  deriving DecidableEq, Repr

/-- The module. `pending`: the commands that wait, first in, first out. `out`: what the last command sent. `nFree`: counter of
the free values drawn so far (the model's own field). `store`, `snap`: latest-value store and snapshot
(03 Table 3-17, 01 R25); `close`: what the snapshot of the frame in progress will hold. `viewNext`: the view captured at the end of P6 of the frame in progress. -/
structure State where
  pending : List Instr := []
  out : List Out := []
  nFree : Nat := 0
  unit : UnitId := {}
  clk : Clock := {}
  st : ModState := .off
  frame : FrameSt := {}
  time : TimeSt := {}
  rtc : Rtc := {}
  mb : MboxSt := {}
  view : Option View := none
  viewNext : Option View := none
  cfg : CfgSt := {}
  store : Table Slot := []
  close : Table Slot := []
  snap : Table Slot := []
  intake : IntakeSt := {}
  analog : AnalogSt := {}
  fusion : FusionSt := {}
  obs : ObsSt := {}
  sp : SpSt := {}
  alloc : AllocSt := {}
  solver : SolverSt := {}
  chandler : ChandlerSt := {}
  lock : LockSt := {}
  bring : BringSt := {}
  gnss : GnssSt := {}
  can : List CanSt := [{}, {}, {}, {}]
  slots : List SlotMsg := []
  osc : List OscConn := []
  safety : SafetySt := {}
  field : FieldSt := {}
  faults : FaultsSt := {}
  ledger : LedgerSt := {}
  deriving DecidableEq, Repr

/-- The module before it first gets its logic supply: OFF, every bank and the Ledger empty, no commands waiting. Values the manual
does not state are those of notes/assumptions/3.md. -/
def State.reset : State := {}

end Sys2Proof.Machine
end

