-- ==== Sys2Proof/Machine/Ops.lean ====
section
/-! DEFINITION. Operations that every family uses: the passing of time between two commands, sending, the Ledger's write queue. -/

namespace Sys2Proof.Machine

/-- Units of the timebase accumulator in one ns (14 R372). -/
def tbUnit : Nat := 2 ^ 32

/-- The instant on the timebase, ns since the PTP epoch. -/
def nowNs (s : State) : Nat := s.clk.tb / tbUnit

/-- Elapsed ns of the oscillator. -/
def elNs (s : State) : Nat := s.clk.el

/-- The divisor of the slew limit: 1 µs/s on ACTIVE and TRIPPED, 100 µs/s otherwise (14 Table 14-2). -/
def slewDiv (m : ModState) : Nat :=
  match m with
  | .active => 1000000
  | .tripped => 1000000
  | _ => 10000

/-- The part of a slew removed in `d` clocks, in timebase units, with the sign of what is left. -/
def slewPart (m : ModState) (left : Int) (d : Nat) : Int :=
  let lim : Int := (d * 4 * tbUnit / slewDiv m : Nat)
  clamp (-lim) lim left

/-- `d` clocks of 4 ns pass: elapsed time, and, unless the module is OFF, the timebase with its addend and slew (14 R372, R375). -/
def Clock.tick (c : Clock) (m : ModState) (d : Nat) : Clock :=
  match m with
  | .off => { c with el := c.el + 4 * d }
  | _ =>
    let sl := slewPart m c.slewLeft d
    { c with el := c.el + 4 * d, slewLeft := c.slewLeft - sl
             tb := ((c.tb : Int) + (d : Int) * (4 * (tbUnit : Int) + c.addend) + sl).toNat }

/-- Operating seconds while the supply stands at power-good, saturating (20 R514). -/
def LedgerSt.tick (l : LedgerSt) (d : Nat) : LedgerSt :=
  if l.counting then
    let ns := l.opNs + 4 * d
    { l with opS := Nat.min 0xFFFFFFFF (l.opS + ns / 1000000000), opNs := ns % 1000000000 }
  else l

/-- The time since the command before passes, and what that command sent is no longer shown. -/
def advance (s : State) (d : Nat) : State :=
  { s with out := [], clk := s.clk.tick s.st d, ledger := s.ledger.tick d }

/-- Send something out of the module. -/
def emit (o : Out) (s : State) : State := { s with out := s.out ++ [o] }

/-- Send several things in order. -/
def emitAll (os : List Out) (s : State) : State := { s with out := s.out ++ os }

/-- Number of 32-byte records that an occurrence takes (20 R513). -/
def Rec.size (r : Rec) : Nat := if r.data.length ≤ 8 then 1 else 1 + (r.data.length - 8 + 11) / 12

/-- Records in a queue. -/
def queueSize : List Rec → Nat
  | [] => 0
  | r :: q => r.size + queueSize q

/-- Capacity of the write queue in records (20 R517). -/
def queueCap : Nat := 64

/-- The queue without its newest event occurrence, and that occurrence; the list is oldest first (20 R518). -/
def dropNewestEvent (q : List Rec) : Option (Rec × List Rec) :=
  let rev := q.reverse
  match rev.find? (fun r => !r.fault) with
  | none => none
  | some r =>
    let before := rev.takeWhile (fun x => x.fault)
    let after := (rev.dropWhile (fun x => x.fault)).drop 1
    some (r, (before ++ after).reverse)

/-- `n` records are lost (20 R518). -/
def LedgerSt.lose (l : LedgerSt) (n : Nat) : LedgerSt :=
  { l with lost := Nat.min 0xFFFFFFFF (l.lost + n), lostSince := Nat.min 0xFFFFFFFF (l.lostSince + n) }

/-- An occurrence arrives at the write queue (20 R517, R518). -/
def LedgerSt.enqueue (l : LedgerSt) (r : Rec) : LedgerSt :=
  if queueSize l.queue + r.size ≤ queueCap then { l with queue := l.queue ++ [r] }
  else if r.fault then
    match dropNewestEvent l.queue with
    | some (e, q) => ({ l with queue := q ++ [r] }).lose e.size
    | none => l.lose r.size
  else l.lose r.size

/-- An occurrence stamped with operating time and BOOT (20 Table 20-1). -/
def stampRec (s : State) (r : Rec) : Rec :=
  { r with opS := s.ledger.opS, opUs := s.ledger.opNs / 1000, boot := s.ledger.boot }

/-- Queue an occurrence without looking at loss; in OFF nothing is written (chapter 20, first paragraph). -/
def recordRaw (r : Rec) (s : State) : State :=
  match s.st with
  | .off => s
  | _ => { s with ledger := s.ledger.enqueue (stampRec s r) }

/-- FRAME_INDEX of the frame in progress. -/
def frameIndex (s : State) : Nat := s.frame.index

/-- Frame period of a mode in ns (01 Table 1-7). -/
def periodNs (mode : Nat) : Nat := 5000000 * 2 ^ (mode % 4)

/-- The module is on duty: READY, ACTIVE or TRIPPED (00 Table 0-3). -/
def onDuty (m : ModState) : Bool :=
  match m with
  | .ready => true
  | .active => true
  | .tripped => true
  | _ => false

/-- State codes, 02 Table 2-11. -/
def stateCode (m : ModState) : Nat :=
  match m with
  | .off => 0
  | .selftest => 1
  | .held => 2
  | .standby => 3
  | .ready => 4
  | .active => 5
  | .tripped => 6

/-- A block (number of event 0x1307) does no work: it is held in reset, or its first working frame is still to come (19 R495). -/
def blockIdle (s : State) (k : Nat) : Bool := nth false s.faults.blkReset k || decide (frameIndex s < nth 0 s.faults.blkWork k)

/-- A tripped function of a kind: 1 SF1, 2 SF2. -/
def kindTripped (s : State) (k : Nat) : Bool :=
  (List.zip s.safety.funcs s.cfg.img.safety.funcs).any (fun p => decide (2 ≤ p.1.st) && p.2.fkind == k)

/-- IPv4 address of a host port, 0 H1, 1 H2 (02 R45, 12 R327): slot s adds s − 1 to the address of the image in force; in HELD the addresses are
those of the image that last passed verification (02 R48). -/
def hostAddr (s : State) (p : Nat) : Nat :=
  match s.st with
  | .held => if p = 0 then s.cfg.addrH1 else s.cfg.addrH2
  | _ => ((if p = 0 then s.cfg.img.network.h1Addr else s.cfg.img.network.h2Addr) + s.lock.slot - 1) % 2 ^ 32

/-- A free value: the counter moves on, so that the next one is another (notes/assumptions/4.md). -/
def nextFree (s : State) : State := { s with nFree := s.nFree + 1 }

end Sys2Proof.Machine
end

