-- ==== Sys2Proof/Machine/Link.lean ====
section
/-! DEFINITION. Rafoger messages: what a module knows of its peers, and the beats it sends (12_lock_group R322 to R336). -/

namespace Sys2Proof.Machine

/-- What is known of a slot (1 to 3). -/
def peerOf (s : State) (slot : Nat) : Peer := nth {} s.lock.peers slot

/-- The configured slots other than the module's own, ascending. -/
def otherSlots (s : State) : List Nat :=
  (List.range s.cfg.img.lock.nSlots).map (· + 1) |>.filter (fun x => x ≠ s.lock.slot)

/-- A frame of arrival lies within the last 2 frames (R322, R333; notes/assumptions/7.md). -/
def recent (s : State) (f : Nat) : Bool := decide (frameIndex s ≤ f + 2)

/-- A peer is reachable while one of its two paths is up (R322). -/
def reachable (p : Peer) : Bool := p.pathL1.isSome || p.pathL2.isSome

/-- At least one Rafoger path is up (00 R5). -/
def anyPathUp (s : State) : Bool := (otherSlots s).any (fun x => reachable (peerOf s x))

/-- The input that reads the MOK of a slot (Table 12-14). -/
def mokInput (s : State) (slot : Nat) : Option InSt :=
  match nth 0 s.cfg.img.lock.peerMokDi (slot - 1) with
  | 0 => none
  | d + 1 => some (nth {} s.field.di d)

/-- The MOK of a slot reads de-energised: its input shows low and its wire whole (R333, 18 R471). -/
def mokDead (s : State) (slot : Nat) : Bool :=
  match mokInput s slot with
  | some i => i.level = some false ∧ i.broken = some false
  | none => false

/-- The MOK of a slot reads energised: also while its input has no level, no wire state or a broken wire (18 R471, R472). -/
def mokAlive (s : State) (slot : Nat) : Bool :=
  match mokInput s slot with
  | some _ => !mokDead s slot
  | none => false

/-- The latest in-step beat of a slot, if it arrived within the last 2 frames (R325, R333). -/
def freshBeat (s : State) (slot : Nat) : Option Beat :=
  match (peerOf s slot).inStep with
  | some b => if recent s b.atFrame then some b else none
  | none => none

namespace Beat
/-- LFLAGS bits, Table 12-3. -/
def foreign (b : Beat) : Bool := b.lflags.testBit 6
def prepare (b : Beat) : Bool := b.lflags.testBit 5
def release (b : Beat) : Bool := b.lflags.testBit 4
def claim (b : Beat) : Bool := b.lflags.testBit 3
def good (b : Beat) : Bool := b.lflags.testBit 2
def held (b : Beat) : Bool := b.lflags.testBit 1
end Beat

/-- A source of effective severity Serious or Critical is PENDING (00 R5). -/
def seriousPending (s : State) : Bool := s.faults.src.any (fun p => p.2.pending && decide (2 ≤ p.2.sev))

/-- Bring-up has not yet decided a state: steps 1 to 4 of Table 13-1 (12 Table 12-3 STATE). -/
def undecided (s : State) : Bool := decide (s.bring.step ≤ 4)

/-- Standby is good (00 R5, 12 R329, Table 12-8, R350, 13 R359). -/
def goodStandby (s : State) : Bool :=
  decide (s.st = .standby) && !undecided s && anyPathUp s && s.lock.cpGood && s.lock.committed.isSome &&
  (match s.lock.cpArr with | some f => decide (frameIndex s ≤ f + s.cfg.img.lock.leaseLen) | none => false) &&
  !seriousPending s && decide (s.lock.groupVer ≤ 2) && !s.lock.periodDiff && !s.lock.aborted

/-- A slot is a good standby by its latest in-step beat (R335, R347). -/
def goodSlot (s : State) (slot : Nat) : Bool :=
  match freshBeat s slot with | some b => b.good | none => false

/-- First eight bytes of the DIGEST of the active image. -/
def digest8 (s : State) : Bytes := padTo 8 (s.cfg.img.digest.take 8)

/-- Rank of a slot in SUCC by the four groups of R335. -/
def succRank (s : State) (slot : Nat) : Nat :=
  match s.lock.change with
  | some (t, _) => if t = slot then 0 else succRank' s slot
  | none => succRank' s slot
where
  succRank' (s : State) (slot : Nat) : Nat :=
    match freshBeat s slot with
    | some b => if b.good then (if b.digest8 = digest8 s ∧ s.lock.groupVer ≤ b.verMax then 1 else 2) else 3
    | none => 3

/-- The successor order of R335, three places, 0 in the unused ones; `last`: the sender places itself last (R336). -/
def succOrder (s : State) (last : Bool) : List Nat :=
  let os := sortBy (fun a b => decide (succRank s a < succRank s b)) (otherSlots s)
  ((if last then os ++ [s.lock.slot] else os) ++ [0, 0, 0]).take 3

/-- DST_MASK of every other configured slot. -/
def dstMask (s : State) : Nat := maskOf ([1, 2, 3].map (fun x => (otherSlots s).contains x))

/-- RVERSION in force: 1 while GROUP_VER is 0 (R329). -/
def rVersion (s : State) : Nat := if s.lock.groupVer = 0 then 1 else s.lock.groupVer

/-- A Rafoger message: header of Table 12-2, body, CRC (R323). -/
def rafMessage (s : State) (type frame : Nat) (body : Bytes) : Bytes :=
  let m := u8 (rVersion s) ++ u8 type ++ u8 s.lock.slot ++ u8 0 ++ u8 (dstMask s) ++ u8 0 ++ u16 body.length ++
    u64 frame ++ u32 s.lock.seqTx ++ u32 0 ++ body
  m ++ u32 (crc32 m)

/-- A Rafoger frame on an L port: destination address and Ethertype of R323. -/
def rafOut (port : Nat) (m : Bytes) (badFcs : Bool) : Out := .raf port 0xFFFFFFFFFFFF 0x88B5 m badFcs

/-- Send one message on both L ports; SEQ counts messages (Table 12-2). -/
def sendRaf (type frame : Nat) (body : Bytes) (s : State) : State :=
  let m := rafMessage s type frame body
  emitAll [rafOut 0 m false, rafOut 1 m false]
    { s with lock := { s.lock with seqTx := (s.lock.seqTx + 1) % 2 ^ 32 } }

/-- CP_FRAME of a beat: the last checkpoint sent on duty, the last one committed otherwise (Table 12-3). -/
def beatCpFrame (s : State) : Nat :=
  if onDuty s.st then s.lock.cpSent
  else match s.lock.committed with | some c => c.frame | none => 0

/-- Beat body, Table 12-3. -/
def beatBody (s : State) (prepare release claim held : Bool) (expiry : Nat) (succ : List Nat) : Bytes :=
  u8 (if undecided s then 1 else stateCode s.st) ++
  u8 (maskOf [s.faults.degraded, held, goodStandby s, claim, release, prepare, s.lock.foreign && decide (s.st = .standby)]) ++
  u8 s.frame.mode ++ u8 2 ++ u8 s.lock.groupVer ++ succ.flatMap u8 ++ u64 expiry ++ u64 (beatCpFrame s) ++ digest8 s ++
  padTo 12 s.unit.serial ++ zeros 20

/-- The release beat of R336 and R357: RELEASE set, LEASE_HELD and CLAIM clear, the sender last in SUCC. -/
def sendRelease (frame expiry : Nat) (s : State) : State :=
  sendRaf 1 frame (beatBody s false true false false expiry (succOrder s true)) s

/-- A release made between ticks (R336, R357): the beat names frame k and EXPIRY k + 1; emission is suppressed from then on. The
lease is given up. On a module that holds no lease nothing is sent. -/
def releaseBetweenTicks (s : State) : State :=
  if s.lock.held then
    let s1 := sendRelease (frameIndex s) (frameIndex s + 1) s
    { s1 with lock := { s1.lock with held := false, expiry := frameIndex s + 1, release := true }
              frame := { s1.frame with emitSuppressed := true } }
  else s

/-- The release beat at a tick (R336): EXPIRY is the tick's own index; nothing is emitted in that frame or later. -/
def releaseAtTick (s : State) : State :=
  if s.lock.held then
    let s1 := sendRelease (frameIndex s) (frameIndex s) s
    { s1 with lock := { s1.lock with held := false, expiry := frameIndex s, release := true }
              frame := { s1.frame with emitSuppressed := true } }
  else s

end Sys2Proof.Machine
end

