-- ==== Sys2Proof/Machine/Raise.lean ====
section
/-! DEFINITION. Recording events and raising faults (19_faults R488 to R500, R505; 20_ledger R512, R518). -/

namespace Sys2Proof.Machine

/-- Fault codes of the manual with the default severity that the owning chapter states: 0 Notice, 1 Warning, 2 Serious,
3 Critical (R489). -/
def faultTable : List (Nat × Nat) :=
  [(0x0110, 1), (0x0111, 1), (0x0112, 1), (0x0113, 1), (0x0114, 0), (0x0115, 1), (0x0116, 1), (0x0117, 2), (0x0118, 2),
   (0x0410, 1), (0x0411, 1), (0x0412, 1), (0x0510, 1), (0x0511, 1), (0x0512, 1), (0x0513, 2),
   (0x0610, 2), (0x0611, 2), (0x0612, 1), (0x0613, 1), (0x0614, 1), (0x0615, 1), (0x0616, 1), (0x0617, 0)]
  ++
  [(0x0710, 2), (0x0711, 1), (0x0712, 1), (0x0910, 1), (0x0911, 1), (0x0912, 1), (0x0913, 0), (0x0914, 1),
   (0x0A10, 2), (0x0A11, 1), (0x0A12, 1), (0x0A13, 1), (0x0A14, 1), (0x0A15, 1), (0x0B10, 1), (0x0B11, 2), (0x0B12, 0),
   (0x0C10, 1), (0x0C11, 2), (0x0C12, 0), (0x0C13, 3), (0x0C15, 2), (0x0C16, 1), (0x0C17, 1), (0x0C18, 1), (0x0C19, 1)]
  ++
  [(0x0D10, 1), (0x0D11, 2), (0x0D12, 1), (0x0D13, 1), (0x0E10, 1), (0x0E11, 1), (0x0E12, 1), (0x0E13, 1), (0x0E14, 0),
   (0x0F10, 1), (0x0F11, 1), (0x0F12, 1), (0x0F13, 1), (0x1010, 1), (0x1011, 2), (0x1012, 1), (0x1013, 2)]
  ++
  [(0x1110, 2), (0x1111, 2), (0x1112, 2), (0x1113, 1), (0x1114, 3), (0x1115, 1), (0x1116, 0), (0x1117, 2),
   (0x1210, 1), (0x1211, 1), (0x1212, 1), (0x1213, 1), (0x1214, 1), (0x1215, 2), (0x1216, 2),
   (0x1310, 1), (0x1311, 2), (0x1312, 3), (0x1313, 1), (0x1314, 2), (0x1315, 1), (0x1316, 1), (0x1410, 1), (0x1411, 1)]

/-- The source index of a fault code (R488). -/
def faultIndex (code : Nat) : Nat := 16 * (code / 256) + (code % 256 - 0x10)

/-- The code of a source index (R488). -/
def indexCode (i : Nat) : Nat := 256 * (i / 16) + 0x10 + i % 16

/-- Group of a source index (Table 19-1). -/
def indexGroup (i : Nat) : Nat := i / 16

/-- Default severity of a code, none when it names no fault. -/
def defaultSev (code : Nat) : Option Nat := Table.find faultTable code

/-- The fault map's entry for a code (R509). -/
def mapEntry (s : State) (code : Nat) : Image.FaultEntry := Table.get {} s.cfg.img.faultMap.entries (faultIndex code)

/-- Configured severity (R489). -/
def cfgSev (s : State) (code : Nat) : Nat :=
  let e := mapEntry s code
  if e.severity = 0xFF then (defaultSev code).getD 0 else e.severity

/-- Class (R489). -/
def cfgClass (s : State) (code : Nat) : Nat :=
  let e := mapEntry s code
  if e.cls = 0xFF then code / 256 else e.cls

/-- Reaction mode: 0 native, else Table 19-5. -/
def cfgReact (s : State) (code : Nat) : Nat := (mapEntry s code).react

/-- Sources that always react natively as Critical (R496). -/
def fixedCritical (code : Nat) : Bool := code == 0x0C13 || code == 0x1114 || code == 0x1312

/-- Sources whose acknowledgement firmware 3.2 withholds (Table 19-3). -/
def withheldCode (code : Nat) : Bool := fixedCritical code || code == 0x0117 || code == 0x1311 || code == 0x1314

/-- The state of a source. -/
def srcOf (s : State) (code : Nat) : FaultSt := Table.get {} s.faults.src (faultIndex code)

/-- A source is active. -/
def faultActive (s : State) (code : Nat) : Bool := (srcOf s code).active

def setSrc (code : Nat) (f : FaultSt) (s : State) : State :=
  { s with faults := { s.faults with src := Table.set s.faults.src (faultIndex code) f } }

/-- Queue an event with its data packed (20 R512), loss not looked at. -/
def evRaw (code : Nat) (data : Bytes) (s : State) : State := recordRaw { code := code, data := data } s

/-- Another natively mapped source of a class is PENDING (R497). -/
def classPending (s : State) (cls idx : Nat) : Bool :=
  s.faults.src.any (fun p => decide (p.1 ≠ idx) && p.2.pending && decide (cfgClass s (indexCode p.1) = cls) &&
    decide (cfgReact s (indexCode p.1) = 0))

/-- Block numbers of event 0x1307 (20 Table 20-9). -/
def blockNo : Block → Nat
  | .host => 0
  | .saA => 1
  | .saB => 2
  | .analog g => 3 + g % 4
  | .gnss => 7
  | .can c => 8 + c % 4

/-- The Critical reaction surrenders the lease and then resets the module (R494): the reset itself is MODULE_RESET, which finds
`mustReset` set. -/
def demandReset (s : State) : State := { s with faults := { s.faults with mustReset := true } }

/-- The lease is surrendered at a raise, with a release between ticks and its event 0x0C03, and the module's reset follows (R494, R498, 12 R336,
R353). -/
def surrender (s : State) : State := demandReset (releaseBetweenTicks (if s.lock.held then evRaw 0x0C03 (u8 0) s else s))

/-- A block other than HOST is put into reset until the next tick, and takes work from the tick after that (R495). -/
def holdBlock (code : Nat) (b : Block) (s : State) : State :=
  { s with faults := { s.faults with
      blkReset := upd (fun _ => true) s.faults.blkReset (blockNo b)
      blkBy := upd (fun _ => code) s.faults.blkBy (blockNo b)
      blkWork := upd (fun _ => frameIndex s + 2) s.faults.blkWork (blockNo b) } }

/-- A block reset made at the raise by REACT 3: block HOST takes the Critical reaction with a release between ticks (R495). -/
def resetAtRaise (code : Nat) (b : Block) (s : State) : State :=
  match b with
  | .host => surrender s
  | _ => holdBlock code b s

/-- Severity of a raise: the configured one, plus one while another native source of the class is PENDING (R497). -/
def raiseSev (s : State) (code : Nat) : Nat :=
  let c := cfgSev s code
  if cfgReact s code = 0 ∧ classPending s (cfgClass s code) (faultIndex code) then Nat.min 3 (c + 1) else c

/-- The raise was escalated (R497). -/
def escalated (s : State) (code : Nat) : Bool :=
  cfgReact s code == 0 && classPending s (cfgClass s code) (faultIndex code)

/-- Severity by which a native source reacts (R496). -/
def reactSev (s : State) (code : Nat) : Nat := if fixedCritical code then 3 else raiseSev s code

/-- The source's state after a raise (R490 to R493, R498). In SELFTEST no reaction follows (R490). -/
def raisedSrc (s : State) (code : Nat) (oneShot : Bool) (blks : List Block) : FaultSt :=
  let f := srcOf s code
  let react := cfgReact s code
  let sev := reactSev s code
  let live := decide (s.st ≠ .selftest)
  let sluice : Option Nat :=
    if react = 0 ∧ live then
      (if sev = 2 then some (frameIndex s + s.cfg.img.faultMap.sluiceSer)
       else if sev = 3 then some (frameIndex s + s.cfg.img.faultMap.sluiceCrit) else none)
    else none
  let flt := !(mapEntry s code).noFlt && (decide (s.cfg.img.faultMap.fltSev ≤ raiseSev s code) || decide (react = 5))
  { active := true, oneShot := oneShot, latched := true
    pending := f.pending || (live && (if react = 0 then decide (1 ≤ sev) else decide (react = 1 ∨ react = 2)))
    withheld := (f.pending && f.withheld) || (live && react == 0 && withheldCode code && decide (2 ≤ sev))
    sev := raiseSev s code, raised := Nat.min 0xFFFF (f.raised + 1), lastEl := elNs s
    sluiceTick := (match f.pending, f.sluiceTick, sluice with
      | true, some t, some u => some (Nat.min t u)
      | true, some t, none => some t
      | _, _, x => x)
    fltCounts := flt, blocks := if f.pending then f.blocks ++ blks.filter (fun b => !f.blocks.contains b) else blks }

/-- FRAME_LO of the frame in progress, 0 in SELFTEST (20 R512). -/
def frameLo (s : State) : Nat := if s.st = .selftest then 0 else frameIndex s % 2 ^ 32

/-- The record of a raise (R490, 20 R512). -/
def raiseRec (s : State) (code : Nat) : Rec :=
  { code := code, fault := true, sev := raiseSev s code, cls := cfgClass s code, data := u32 (frameLo s) ++ zeros 4 }

/-- The class enters the fault state (R499). -/
def touchClass (c : Nat) (s : State) : State :=
  let k := Table.get {} s.faults.cls c
  { s with faults := { s.faults with cls := Table.set s.faults.cls c { k with inFault := true, lastEl := elNs s } } }

/-- FLT_N is asserted by a raise that meets R500. -/
def assertFlt (code : Nat) (s : State) : State :=
  if (srcOf s code).fltCounts then { s with field := { s.field with fltN := true, fltEl := elNs s } } else s

/-- Reaction at the raise of a directly mapped source (Table 19-5). -/
def directReact (code : Nat) (blks : List Block) (s : State) : State :=
  if cfgReact s code = 3 ∧ s.st ≠ .selftest then blks.foldl (fun t b => resetAtRaise code b t) s
  else if cfgReact s code = 4 ∧ s.st ≠ .selftest then surrender s
  else s

/-- A raise: recorded, with its reaction. -/
def raiseCore (code : Nat) (oneShot : Bool) (blks : List Block) (s : State) : State :=
  match s.st with
  | .off => s
  | _ =>
    let s1 := recordRaw (raiseRec s code) s
    let s2 := if escalated s code then evRaw 0x1302 (u16 code ++ u8 (raiseSev s code)) s1 else s1
    let s3 := setSrc code (raisedSrc s code oneShot blks) s2
    directReact code blks (assertFlt code (touchClass (cfgClass s code) s3))

/-- Records lost raise fault 0x1410 (20 R518): `before` is the count before the occurrence. -/
def lossCheck (before : Nat) (s : State) : State :=
  if before < s.ledger.lost ∧ (srcOf s 0x1410).active = false then raiseCore 0x1410 true [.host] s else s

/-- An event occurs. -/
def event (code : Nat) (data : Bytes) (s : State) : State := lossCheck s.ledger.lost (evRaw code data s)

/-- A one-shot source occurs: active from its occurrence to the next tick (R490). -/
def faultShot (code : Nat) (blks : List Block) (s : State) : State :=
  if (srcOf s code).active then s else lossCheck s.ledger.lost (raiseCore code true blks s)

/-- A condition source takes the truth of its condition (R490). -/
def faultSet (code : Nat) (on : Bool) (blks : List Block) (s : State) : State :=
  if on then
    (if (srcOf s code).active then s else lossCheck s.ledger.lost (raiseCore code false blks s))
  else if (srcOf s code).active then setSrc code { srcOf s code with active := false } s
  else s

/-- A condition source of block HOST. -/
def faultCond (code : Nat) (on : Bool) (s : State) : State := faultSet code on [.host] s

/-- A one-shot source of block HOST. -/
def faultOnce (code : Nat) (s : State) : State := faultShot code [.host] s

/-- A degrading cause arises (R505): bit 0 ECC rate, 1 solver array, 2 GNSS RF, 3 field supply group. Event 0x1304 comes with the
first of each cause after a start. -/
def degrade (bit : Nat) (s : State) : State :=
  let seen := s.faults.degrCause.testBit bit
  let s1 := { s with faults := { s.faults with degraded := true, degrCause := Nat.lor s.faults.degrCause (2 ^ bit) }
                     field := { s.field with repl := true } }
  if seen then s1 else event 0x1304 (u8 (2 ^ bit)) s1

/-- The condition by which FLT_N stays asserted after its 10 ms (R500). -/
def fltHeld (s : State) : Bool :=
  if s.cfg.img.faultMap.fltHold = 0 then
    s.faults.src.any (fun p => p.2.fltCounts &&
      (p.2.active || (Table.get {} s.faults.cls (cfgClass s (indexCode p.1))).inFault))
  else s.faults.src.any (fun p => p.2.fltCounts && p.2.latched)

/-- FLT_N at the end of its 10 ms or whenever a condition changed (R500). -/
def updateFlt (s : State) : State :=
  if s.field.fltN ∧ s.field.fltEl + 10000000 ≤ elNs s ∧ fltHeld s = false then
    { s with field := { s.field with fltN := false } }
  else s

/-- The condition of Table 0-3 and Table 13-3 for MOK. -/
def mokCond (s : State) : Bool :=
  s.bring.powerFailEl.isNone &&
  (match s.st with
   | .standby => goodStandby s
   | .ready => true
   | .active => true
   | .tripped => true
   | _ => false)

/-- What follows every command at once: MOK drops when its condition ceases (18 R484), FLT_N is released when nothing holds it
(R500). -/
def settle (s : State) : State :=
  let s1 := updateFlt s
  { s1 with field := { s1.field with mok := s1.field.mok && mokCond s1 } }

/-- At a tick MOK is energised when its condition holds (18 R484). -/
def mokAtTick (s : State) : State := { s with field := { s.field with mok := mokCond s } }

end Sys2Proof.Machine
end

