-- ==== Sys2Proof/Machine/Mailbox.lean ====
section
/-! DEFINITION. The Ocrax Mailbox Protocol: messages, drops, checks, tag caches, queues, responses (02_mailbox R45 to R70). -/

namespace Sys2Proof.Machine

/-- A refusal: error code of Table 2-8, OFFSET and DETAIL of Table 2-9. -/
structure Err where
  code : Nat
  ofs : Nat := 0xFFFF
  detail : Nat := 0
  deriving DecidableEq, Repr

/-- How a command answers: with a new state and its response map; with a refusal that changes nothing (R53); or with a refusal that the
module counts or that ends a session (R60, R77). -/
inductive Reply where
  | ok (s : State) (payload : Bytes)
  | refuse (e : Err)
  | fail (s : State) (e : Err)
  deriving DecidableEq, Repr

/-- Offset in the request of a payload field. -/
def pOfs (o : Nat) : Nat := 20 + o

def errRange (o : Nat) : Err := { code := 0x0006, ofs := pOfs o }
def errState (s : State) : Err := { code := 0x0008, detail := stateCode s.st }
def errBusy : Err := { code := 0x0009 }

/-- Command words of Table 2-7 with: word, first version, class (0 any mailbox, 1 read, 2 control, 3 control or service level 2,
4 service level 3, 5 service locked or not), frame-bound, least and greatest LENGTH, reserved stretches of the payload. -/
structure CmdInfo where
  word : Nat
  since : Nat
  cls : Nat
  bound : Bool := false
  lo : Nat
  hi : Nat
  res : List (Nat × Nat) := []
  deriving DecidableEq, Repr

def wHello : Nat := 0x01000001
def wStateRead : Nat := 0x01000002
def wModeSet : Nat := 0x02000001
def wFrameRead : Nat := 0x02000002
def wFrameSubscribe : Nat := 0x02000003
def wFrameReport : Nat := 0x02000004
def wTargetSet : Nat := 0x03000001
def wTargetStop : Nat := 0x03000002
def wTargetRead : Nat := 0x03000003
def wPushSet : Nat := 0x03000004
def wConfigStage : Nat := 0x04000001
def wConfigCommit : Nat := 0x04000002
def wConfigRead : Nat := 0x04000003
def wConfigAbort : Nat := 0x04000004
def wLedgerWindow : Nat := 0x05000001
def wLedgerRead : Nat := 0x05000002
def wTimeRead : Nat := 0x06000001
def wTimeSet : Nat := 0x06000002
def wTimeAdjust : Nat := 0x06000003
def wAlarmSet : Nat := 0x06000004
def wFaultRead : Nat := 0x07000001
def wFaultAck : Nat := 0x07000002
def wLockChange : Nat := 0x08000001
def wFwStage : Nat := 0x09000001
def wFwActivate : Nat := 0x09000002
def wServiceChallenge : Nat := 0x0A000001
def wServiceRespond : Nat := 0x0A000002
def wServiceLock : Nat := 0x0A000003

/-- Table 2-7 with the request maps' lengths and reserved fields. FRAME.REPORT is known but sent by the module only: a host that
sends it is refused at step 8 (notes/assumptions/9.md). R80 states no least LENGTH of FW.STAGE: LENGTH 4, with no data, is taken and
writes nothing (DESIGN CHOICE, notes/assumptions/9.md). -/
def cmdTable : List CmdInfo :=
  [{ word := wHello, since := 1, cls := 0, lo := 8, hi := 8, res := [(2, 2)] },
   { word := wStateRead, since := 1, cls := 1, lo := 0, hi := 0 },
   { word := wModeSet, since := 1, cls := 2, lo := 4, hi := 4, res := [(2, 2)] },
   { word := wFrameRead, since := 2, cls := 1, lo := 4, hi := 4, res := [(1, 3)] },
   { word := wFrameSubscribe, since := 2, cls := 1, lo := 8, hi := 8, res := [(2, 2)] },
   { word := wFrameReport, since := 2, cls := 6, lo := 0, hi := 1440 },
   { word := wTargetSet, since := 1, cls := 2, bound := true, lo := 24, hi := 24, res := [(14, 2)] },
   { word := wTargetStop, since := 1, cls := 2, bound := true, lo := 0, hi := 0 },
   { word := wTargetRead, since := 1, cls := 1, lo := 0, hi := 0 },
   { word := wPushSet, since := 2, cls := 2, bound := true, lo := 16, hi := 16, res := [(13, 1)] }]
  ++
  [{ word := wConfigStage, since := 1, cls := 3, lo := 12, hi := 1440 },
   { word := wConfigCommit, since := 1, cls := 3, lo := 8, hi := 8 },
   { word := wConfigRead, since := 1, cls := 1, lo := 8, hi := 8, res := [(1, 1)] },
   { word := wConfigAbort, since := 2, cls := 3, lo := 0, hi := 0 },
   { word := wLedgerWindow, since := 3, cls := 1, lo := 12, hi := 12, res := [(1, 3)] },
   { word := wLedgerRead, since := 3, cls := 1, lo := 4, hi := 4, res := [(1, 3)] },
   { word := wTimeRead, since := 1, cls := 1, lo := 4, hi := 4, res := [(1, 3)] },
   { word := wTimeSet, since := 2, cls := 2, lo := 12, hi := 12, res := [(1, 3)] },
   { word := wTimeAdjust, since := 2, cls := 2, lo := 12, hi := 12, res := [(1, 3)] },
   { word := wAlarmSet, since := 2, cls := 2, lo := 12, hi := 12, res := [(2, 2)] }]
  ++
  [{ word := wFaultRead, since := 1, cls := 1, lo := 8, hi := 8, res := [(4, 4)] },
   { word := wFaultAck, since := 1, cls := 2, lo := 4, hi := 4, res := [(2, 2)] },
   { word := wLockChange, since := 3, cls := 2, bound := true, lo := 4, hi := 4, res := [(1, 3)] },
   { word := wFwStage, since := 2, cls := 4, lo := 4, hi := 1440 },
   { word := wFwActivate, since := 2, cls := 4, lo := 4, hi := 4 },
   { word := wServiceChallenge, since := 2, cls := 5, lo := 4, hi := 4, res := [(1, 3)] },
   { word := wServiceRespond, since := 2, cls := 5, lo := 64, hi := 64 },
   { word := wServiceLock, since := 2, cls := 5, lo := 0, hi := 0 }]

/-- The row of a command word. -/
def cmdInfo (word : Nat) : Option CmdInfo := cmdTable.find? (fun c => c.word == word)

/-- A mailbox. -/
def boxOf (s : State) (m : Nat) : Mbox := nth {} s.mb.boxes m

def setBox (m : Nat) (b : Mbox) (s : State) : State :=
  { s with mb := { s.mb with boxes := upd (fun _ => b) s.mb.boxes m } }

/-- Session version of a mailbox, 0 if none. -/
def sessionOf (s : State) (m : Nat) : Nat := (boxOf s m).session.getD 0

/-- CTRL_MBOX_MASK grants the control class to a host mailbox (R63). -/
def controlHeld (s : State) (m : Nat) : Bool := decide (1 ≤ m) && s.cfg.img.network.ctrlMboxMask.testBit (m - 1)

/-- Seconds of lockout left (Table 2-8). The rounding is the model's choice, up to whole seconds (DESIGN CHOICE, notes/assumptions/9.md). -/
def lockoutLeft (s : State) : Nat :=
  match s.mb.lockoutUntil with
  | some t => (t - elNs s + 999999999) / 1000000000
  | none => 0

/-- Step 8 of Table 2-4: the class of a command on its mailbox (R63, R64, R76). That OFFSET names MBOX is the model's choice (DESIGN CHOICE,
notes/assumptions/9.md). -/
def classCheck (s : State) (m : Nat) (c : CmdInfo) : Option Err :=
  if m = 0 then
    let ok :=
      if c.cls = 0 ∨ c.cls = 5 then true
      else if c.word = wStateRead ∨ c.word = wFrameRead then true
      else if c.cls = 1 then decide (1 ≤ s.mb.unlock)
      else if c.cls = 3 then decide (2 ≤ s.mb.unlock)
      else if c.cls = 4 then decide (3 ≤ s.mb.unlock)
      else false
    if ok then none else some { code := 0x000D, ofs := 3, detail := lockoutLeft s }
  else if c.cls = 0 ∨ c.cls = 1 then none
  else if (c.cls = 2 ∨ c.cls = 3) ∧ controlHeld s m = true then none
  else some { code := 0x0007, ofs := 3 }

/-- Step 9: LENGTH. The "expected length" of a command with a range of lengths is the model's choice: the least, the greatest, or the next
lower multiple of 4 (DESIGN CHOICE, notes/assumptions/9.md). -/
def lengthCheck (c : CmdInfo) (ver len : Nat) : Option Err :=
  let hi := if ver = 1 then Nat.min c.hi 1024 else c.hi
  if len < c.lo then some { code := 0x0004, ofs := 12, detail := c.lo }
  else if hi < len then some { code := 0x0004, ofs := 12, detail := hi }
  else if len % 4 ≠ 0 then some { code := 0x0004, ofs := 12, detail := len - len % 4 }
  else none

/-- Reserved bits inside payload bytes: FRAME.SUBSCRIBE SECTIONS, TARGET.SET TFLAGS, PUSH.SET FREE, and the calendar words of
TIME.SET KIND 0 and ALARM.SET (Tables 2-14, 8-1, 8-5, 14-7). -/
def reservedBits (word : Nat) (p : Bytes) : Option Nat :=
  let dateRes (o : Nat) : Bool := decide (Nat.land (fld p o 4) 0xF880F0E0 ≠ 0)
  let timeRes (o : Nat) : Bool := decide (Nat.land (fld p o 4) 0xFFE0C0C0 ≠ 0)
  if word = wFrameSubscribe ∧ Nat.land (fld p 4 4) 0xFFFFFF01 ≠ 0 then some 4
  else if word = wTargetSet ∧ 16 ≤ byteAt p 12 then some 12
  else if word = wPushSet ∧ 8 ≤ byteAt p 12 then some 12
  else if word = wTimeSet ∧ byteAt p 0 = 0 ∧ dateRes 4 = true then some 4
  else if word = wTimeSet ∧ byteAt p 0 = 0 ∧ timeRes 8 = true then some 8
  else if word = wAlarmSet ∧ dateRes 4 = true then some 4
  else if word = wAlarmSet ∧ timeRes 8 = true then some 8
  else none

/-- Step 10: reserved payload fields (R14). -/
def reservedCheck (c : CmdInfo) (p : Bytes) : Option Err :=
  match c.res.find? (fun r => !allZero p r.1 r.2) with
  | some r => some { code := 0x0005, ofs := pOfs r.1 }
  | none =>
    match reservedBits c.word p with
    | some o => some { code := 0x0005, ofs := pOfs o }
    | none => none

/-- Step 1 of Table 2-4 (R46). -/
def portCheck (r : Request) : Option Err :=
  if (r.mbox = 0) ≠ (r.port = .x5) then some { code := 0x0007, ofs := 3 } else none

/-- Steps 1 to 4 of Table 2-4. -/
def headerCheck (s : State) (r : Request) : Option Err :=
  let ver := sessionOf s r.mbox
  if (portCheck r).isSome then portCheck r
  else if ver = 0 ∧ r.cmd ≠ wHello then some { code := 0x0003, detail := s.ledger.boot }
  else if r.version ≠ (if r.cmd = wHello then 1 else ver) then some { code := 0x0002, ofs := 2, detail := ver }
  else if r.flags ≠ 0 then some { code := 0x0005, ofs := 6 }
  else if Nat.land r.cmd 0x00FF0000 ≠ 0 then some { code := 0x0005, ofs := 8 }
  else if r.error ≠ 0 then some { code := 0x0005, ofs := 14 }
  else if r.version = 1 ∧ r.expiryMs ≠ 0 then some { code := 0x0005, ofs := 16 }
  else if r.reserved ≠ 0 then some { code := 0x0005, ofs := 18 }
  else none

/-- Steps 6 to 10 of Table 2-4. -/
def commandCheck (s : State) (r : Request) : Option Err :=
  match cmdInfo r.cmd with
  | none => some { code := 0x0001, ofs := 8 }
  | some c =>
    if r.version < c.since then some { code := 0x0002, ofs := 8, detail := sessionOf s r.mbox }
    else match classCheck s r.mbox c with
      | some e => some e
      | none => match lengthCheck c r.version r.payload.length with
        | some e => some e
        | none => reservedCheck c r.payload

/-- Deadline of a request on the timebase, if it has one (R69). -/
def deadline (r : Request) : Option Nat := if r.expiryMs = 0 then none else some (r.stamp + r.expiryMs * 1000000)

/-- Step 14 for an effect instant (R69; equality is in time, R15). DETAIL in whole µs, rounded down, is the model's choice (DESIGN CHOICE,
notes/assumptions/9.md). -/
def expiryCheck (r : Request) (effect : Nat) : Option Err :=
  match deadline r with
  | some d => if d < effect then some { code := 0x000A, ofs := 16, detail := (effect - d) / 1000 } else none
  | none => none

/-- The pending mode and the tick at which it takes effect: the first multiple of 40 ms among the ticks still to come that is at or after
its change tick (01 R37; a timebase step can carry the frame past it, R20). -/
def changeAt (s : State) : Option (Nat × Nat) :=
  s.frame.pendingMode.map (fun p => (p.1, (Nat.max p.2 s.frame.nextTick + 39999999) / 40000000 * 40000000))

/-- The period of the grid that holds at an instant: that of the pending mode from its change tick on (R69). -/
def gridPeriod (s : State) (t : Nat) : Nat :=
  match changeAt s with
  | some (m, ct) => if ct ≤ t then periodNs m else periodNs s.frame.mode
  | none => periodNs s.frame.mode

/-- First tick still to come at or after an instant, on the grid in force (R67, R69). -/
def firstTick (s : State) (t : Nat) : Nat :=
  if t ≤ s.frame.nextTick then s.frame.nextTick
  else
    let up (p : Nat) : Nat := (t + p - 1) / p * p
    let c := up (periodNs s.frame.mode)
    match changeAt s with
    | some (m, ct) => if c ≤ ct then c else up (periodNs m)
    | none => c

/-- T_IC of the frame in which a command that begins its turn now acts (R67, R72): that of the frame in progress while its P0 runs, when it is
at or after the arrival stamp; else the first tick still to come. -/
def applyTick (s : State) (stamp : Nat) : Nat :=
  if s.frame.phase = 0 ∧ stamp ≤ s.frame.tic then s.frame.tic else firstTick s stamp

/-- Index of the frame that begins at a tick. -/
def frameAt (s : State) (tick : Nat) : Nat := tick / gridPeriod s tick

/-- A response message (Table 2-1, R54). -/
def respond (r : Request) (payload : Bytes) (err : Option Err) : Bytes :=
  let (pl, fl, ec) := match err with
    | none => (payload, 1, 0)
    | some e => (u16 e.ofs ++ u16 0 ++ u32 e.detail, 3, e.code)
  let m := u16 0x584F ++ u8 r.version ++ u8 r.mbox ++ u16 r.tag ++ u16 fl ++ u32 r.cmd ++ u16 pl.length ++ u16 ec ++
    u16 r.expiryMs ++ u16 0 ++ pl
  m ++ u32 (crc32 m)

/-- Send a response where its request came from (R47). -/
def sendTo (r : Request) (msg : Bytes) (s : State) : State := emit (.msg r.port r.src msg) s

/-- A response enters the tag cache, which keeps the last 64 (R55). -/
def cacheAdd (r : Request) (msg : Bytes) (b : Mbox) : Mbox :=
  let e : CacheEntry := { tag := r.tag, crc := r.crc, resp := msg, stampEl := r.stampEl }
  let kept := b.cache.filter (fun (c : CacheEntry) => decide (c.tag ≠ r.tag))
  { b with cache := ((kept ++ [e]).reverse.take 64).reverse }

/-- Entries older than 2 s have left the cache (R55). -/
def cacheAge (now : Nat) (b : Mbox) : Mbox := { b with cache := b.cache.filter (fun c => decide (now ≤ c.stampEl + 2000000000)) }

/-- A request waits for its turn. -/
def Request.waiting (r : Request) : Bool := r.answer.isNone && r.applyTic.isNone

/-- Give the first waiting request of a queue its answer. -/
def answerFirst (f : Request → Bool) (g : Request → Request) : List Request → List Request
  | [] => []
  | r :: q => if f r then g r :: q else r :: answerFirst f g q

/-- The answered requests at the head of a queue leave in order (R66). -/
def flushQueue : List Request → List Request × List Request
  | [] => ([], [])
  | r :: q =>
    if r.answer.isSome && !r.hold then
      let (a, b) := flushQueue q
      (r :: a, b)
    else ([], r :: q)

/-- Send the responses at the head of a mailbox's queue and cache them (R55, R66). -/
def flushBox (m : Nat) (s : State) : State :=
  let b := boxOf s m
  let (done, rest) := flushQueue b.queue
  let b1 := { b with queue := rest }
  let b2 := done.foldl (fun x r => cacheAdd r (r.answer.getD []) x) b1
  done.foldl (fun t r => sendTo r (r.answer.getD []) t) (setBox m b2 s)

/-- Static range, state and resource checks of a frame-bound request on its turn (steps 11 to 13; Tables 8-1, 8-5, R70, R215,
R227, R228, R347). What depends on the commands applied before it is checked when it is applied. -/
def boundCheck (s : State) (r : Request) : Option Err :=
  let p := r.payload
  let running := decide (s.st = .active ∨ s.st = .tripped)
  if r.cmd = wTargetSet then
    if (byteAt p 12 / 4) % 4 = 3 then some (errRange 12)
    else if s.cfg.img.profile.sets.length ≤ byteAt p 13 then some (errRange 13)
    else if running then none else some (errState s)
  else if r.cmd = wTargetStop then (if onDuty s.st then none else some (errState s))
  else if r.cmd = wPushSet then
    let lim (i : Nat) : Int := nth 0 s.cfg.img.profile.pushLim i
    let bad (i : Nat) : Bool := decide (lim i < ((fldI p (4 * i) 4).natAbs : Int))
    if bad 0 then some (errRange 0) else if bad 1 then some (errRange 4) else if bad 2 then some (errRange 8)
    else if running then none else some (errState s)
  else if r.cmd = wLockChange then
    let t := byteAt p 0
    if 3 < t ∨ (t ≠ 0 ∧ (t = s.lock.slot ∨ s.cfg.img.lock.nSlots < t)) ∨ s.cfg.img.lock.nSlots = 1 then some (errRange 0)
    else if s.st = .ready ∨ s.st = .active then none else some (errState s)
  else none

/-- A request on its turn: refused, or, frame-bound, accepted for its frame; an immediate one waits for its command (R53, R66,
R67, R69). The second component says whether the turn passes on. -/
def turn (s : State) (r : Request) : Request × Bool :=
  match (match headerCheck s r with | some e => some e | none => commandCheck s r) with
  | some e => ({ r with answer := some (respond r [] (some e)) }, true)
  | none =>
    match cmdInfo r.cmd with
    | none => (r, false)
    | some c =>
      if c.bound then
        match boundCheck s r with
        | some e => ({ r with answer := some (respond r [] (some e)) }, true)
        | none =>
          let tick := applyTick s r.stamp
          match expiryCheck r tick with
          | some e => ({ r with answer := some (respond r [] (some e)) }, true)
          | none => ({ r with applyTic := some tick, hold := true }, true)
      else (r, false)

/-- Turns of the waiting requests of a mailbox until one waits for its command. -/
def pump : Nat → Nat → State → State
  | 0, _, s => s
  | f + 1, m, s =>
    let b := boxOf s m
    match b.queue.find? Request.waiting with
    | none => s
    | some r =>
      match turn s r with
      | (_, false) => s
      | (r', true) => pump f m (setBox m { b with queue := answerFirst Request.waiting (fun _ => r') b.queue } s)

/-- Turns, then responses. -/
def serve (m : Nat) (s : State) : State := flushBox m (pump 6 m s)

/-- Requests a mailbox holds, the one executing included (R65). -/
def boxCap (m : Nat) : Nat := if m = 0 then 1 else 5

/-- A refusal at once, which enters the tag cache like any other response (R55). -/
def refuseNow (e : Err) (r : Request) (s : State) : State :=
  let msg := respond r [] (some e)
  sendTo r msg (setBox r.mbox (cacheAdd r msg (boxOf s r.mbox)) s)

/-- A request at a full queue: refused, at most 100 times a second, else dropped (R65). That the second is a fixed window opened by the first
refusal is the model's choice (DESIGN CHOICE, notes/assumptions/9.md). -/
def refuseFull (r : Request) (s : State) : State :=
  let b := boxOf s r.mbox
  let (st0, n) := if b.fullStartEl + 1000000000 ≤ elNs s ∨ b.fullCount = 0 then (elNs s, 0) else (b.fullStartEl, b.fullCount)
  if 100 ≤ n then
    { s with mb := { s.mb with queueDrops := Nat.min 0xFFFFFFFF (s.mb.queueDrops + 1) } }
  else refuseNow { code := 0x000C } r (setBox r.mbox { b with fullStartEl := st0, fullCount := n + 1 } s)

/-- A message that is not dropped: repeats, port, capacity, turn (R46, R55, R56, R65, R66). -/
def acceptRequest (r : Request) (s0 : State) : State :=
  let s := setBox r.mbox (cacheAge (elNs s0) (boxOf s0 r.mbox)) s0
  let b := boxOf s r.mbox
  match b.cache.find? (fun c => c.tag == r.tag && c.crc == r.crc) with
  | some c => sendTo r c.resp s
  | none =>
    if b.queue.any (fun q => q.tag == r.tag && q.crc == r.crc) then s
    else if b.cache.any (fun c => c.tag == r.tag) || b.queue.any (fun q => q.tag == r.tag) then
      match headerCheck s r with
      | some e => sendTo r (respond r [] (some e)) s
      | none => sendTo r (respond r [] (some { code := 0x000B, ofs := 4 })) s
    else if (portCheck r).isSome then refuseNow ((portCheck r).getD { code := 0x0007 }) r s
    else if boxCap r.mbox ≤ b.queue.length then refuseFull r s
    else serve r.mbox (setBox r.mbox { b with queue := b.queue ++ [r] } s)

/-- Drops without a response (R52): what a message of the given bytes is. -/
inductive Parsed where
  | format
  | crc
  | req (r : Request)
  deriving DecidableEq, Repr

/-- A message as Table 2-1 lays it out, with the drops of R52. -/
def parseMessage (port : HostPort) (src : Src) (stamp stampEl : Nat) (m : Bytes) : Parsed :=
  if m.length < 24 then .format
  else if fld m 0 2 ≠ 0x584F ∨ 8 < byteAt m 3 then .format
  else if m.length ≠ 24 + fld m 12 2 then .format
  else if crc32 (m.take (m.length - 4)) ≠ fld m (m.length - 4) 4 then .crc
  else .req { port := port, src := src, stamp := stamp, stampEl := stampEl, mbox := byteAt m 3, version := byteAt m 2, tag := fld m 4 2, flags := fld m 6 2, cmd := fld m 8 4, error := fld m 14 2, expiryMs := fld m 16 2, reserved := fld m 18 2, payload := slice m 20 (fld m 12 2), crc := fld m (m.length - 4) 4 }

/-- A mailbox port is open: none in OFF and SELFTEST; in HELD H1 and H2 only once an image has passed verification (R48). -/
def portOpen (s : State) (p : HostPort) : Bool :=
  match s.st with
  | .off => false
  | .selftest => false
  | .held => (match p with | .x5 => true | _ => s.cfg.netOpen)
  | _ => true

/-- A datagram is for the host mailboxes: whole, to port 48000, to the address of the port it arrives on; every USB transfer is for X5
(R45, R46). -/
def forMailbox (s : State) (port : HostPort) (dst : IpDst) : Bool :=
  match port with
  | .x5 => true
  | .h1 => !dst.fragment && dst.port == 48000 && dst.addr == hostAddr s 0
  | .h2 => !dst.fragment && dst.port == 48000 && dst.addr == hostAddr s 1

/-- An OXMP message arrives (R45, R48, R49, R52, R53). -/
def arrive (port : HostPort) (src : Src) (dst : IpDst) (m : Bytes) (s : State) : State :=
  if portOpen s port = true ∧ forMailbox s port dst = true then
    match parseMessage port src (nowNs s) (elNs s) m with
    | .format => { s with mb := { s.mb with formatDrops := Nat.min 0xFFFFFFFF (s.mb.formatDrops + 1) } }
    | .crc => { s with mb := { s.mb with crcDrops := Nat.min 0xFFFFFFFF (s.mb.crcDrops + 1) } }
    | .req r =>
      let s1 := if r.mbox = 0 ∧ port = .x5 then { s with mb := { s.mb with lastServiceEl := elNs s, usbAttached := true } } else s
      acceptRequest r s1
  else s

/-- Answer the waiting request whose turn it is. -/
def answerTurn (m : Nat) (msg : Bytes) (s : State) : State :=
  let b := boxOf s m
  setBox m { b with queue := answerFirst Request.waiting (fun r => { r with answer := some msg }) b.queue } s

/-- The request of a mailbox whose turn it is, if it is of the command named and not frame-bound. -/
def turnRequest (s : State) (m word : Nat) : Option Request :=
  match (boxOf s m).queue.find? Request.waiting with
  | some r => if r.cmd = word then some r else none
  | none => none

/-- A refusal that execution itself finds, after every check of Table 2-4: AUTH and STORE. -/
def foundLate (e : Err) : Bool := e.code == 0x000E || e.code == 0x0011

/-- What an immediate command answers once its checks up to step 13 are made: EXPIRED comes before its execution and all that execution
finds (R53, R69). -/
def judgeReply (late : Option Err) (y : Reply) : Reply :=
  match y, late with
  | .refuse e, some x => if foundLate e then .refuse x else .refuse e
  | .fail _ _, some x => .refuse x
  | .ok _ _, some x => .refuse x
  | y, none => y

/-- An immediate command executes on its turn: the checks again with the session in force (R61), its own steps 11 to 13, expiry at the start
of execution (R69), then its effect; its response leaves in order. -/
def runImmediate (word : Nat) (f : Request → State → Reply) (m : Nat) (s : State) : State :=
  match turnRequest s m word with
  | none => s
  | some r =>
    match (match headerCheck s r with | some e => some e | none => commandCheck s r) with
    | some e => serve m (answerTurn m (respond r [] (some e)) s)
    | none =>
      match judgeReply (expiryCheck r (nowNs s)) (f r s) with
      | .refuse e => serve m (answerTurn m (respond r [] (some e)) s)
      | .fail s' e => serve m (answerTurn m (respond r [] (some e)) s')
      | .ok s' payload => serve m (answerTurn m (respond r payload none) s')

/-- Effects of a command that refuses nothing. -/
def always (f : State → State × Bytes) (s : State) : Reply := let (t, p) := f s; .ok t p

end Sys2Proof.Machine
end

