-- ==== Sys2Proof/Machine/Ledger.lean ====
section
/-! DEFINITION. The Ledger: its writer, its counters, its window and reading (20_ledger R511 to R523). -/

namespace Sys2Proof.Machine

/-- Records that the region holds (chapter 20). -/
def ledgerCap : Nat := 1048576

/-- Difference of two sequence numbers modulo 2³², signed (R515). -/
def seqDiff (a b : Nat) : Int := ofWord 32 (toWord 32 ((a : Int) - b))

/-- NEWEST; 0xFFFFFFFF of an empty Ledger (R515). -/
def newestSeq (s : State) : Nat := toWord 32 ((s.ledger.next : Int) - 1)

/-- OLDEST; 0 of an empty Ledger (R515, R520). -/
def oldestSeq (s : State) : Nat :=
  if s.ledger.total = 0 then 0 else toWord 32 ((s.ledger.next : Int) - s.ledger.total)

/-- Events whose repeats are matched on their first value only (R516). -/
def repeatsByFirst (code : Nat) : Bool := code == 0x0502 || code == 0x0A04 || code == 0x1106 || code == 0x1306

/-- The data of an occurrence match those of the newest record (R516). -/
def dataMatch (n r : Rec) : Bool :=
  if r.fault then true
  else if repeatsByFirst r.code then decide (n.data.take 1 = r.data.take 1)
  else decide (n.data = r.data)

/-- An occurrence is merged into the newest record (R516). -/
def mergeable (n r : Rec) : Bool :=
  n.code == r.code && n.fault == r.fault && n.sev == r.sev && n.cls == r.cls && n.boot == r.boot &&
  decide (n.repeats < 65535) && dataMatch n r

/-- Whole seconds between two occurrences, saturating (Table 20-1). -/
def lastSeconds (n r : Rec) : Nat :=
  Nat.min 0xFFFF (((r.opS * 1000000 + r.opUs) - (n.opS * 1000000 + n.opUs)) / 1000000)

/-- The occurrences that still lie in the region, newest first (R520). -/
def trimRecs : Nat → List Rec → List Rec
  | _, [] => []
  | 0, _ => []
  | k, r :: q => r :: trimRecs (k - r.size) q

/-- A new record with the next SEQ; a full region loses its oldest (R515, R520). -/
def LedgerSt.append (l : LedgerSt) (r : Rec) : LedgerSt :=
  { l with recs := trimRecs ledgerCap ({ r with seq := l.next } :: l.recs)
           next := (l.next + r.size) % 2 ^ 32, total := Nat.min ledgerCap (l.total + r.size) }

/-- The writer takes one occurrence: merged, or written with the next SEQ (R515 to R517, R520). -/
def LedgerSt.write (l : LedgerSt) (r : Rec) : LedgerSt :=
  match l.recs with
  | n :: q =>
    if mergeable n r then { l with recs := { n with repeats := n.repeats + 1, lastS := lastSeconds n r } :: q }
    else l.append r
  | [] => l.append r

/-- Everything queued is written, as before a module reset and at power-fail (R517, R519). -/
def drainQueue (s : State) : State :=
  { s with ledger := { (s.ledger.queue.foldl LedgerSt.write s.ledger) with queue := [] } }

/-- Event 0x1401 when the queue has emptied after a loss (R518). -/
def reportLoss (s : State) : State :=
  if s.ledger.queue = [] ∧ 0 < s.ledger.lostSince then
    let n := s.ledger.lostSince
    event 0x1401 (u32 n) { s with ledger := { s.ledger with lostSince := 0 } }
  else s

/-- LEDGER_RECORD_WRITE (R515 to R518): `failedTwice`: the write failed its read-back twice. -/
def writeRecord (failedTwice : Bool) (s : State) : State :=
  match s.st, s.ledger.queue with
  | .off, _ => s
  | _, [] => s
  | _, r :: q =>
    let s1 := { s with ledger := { s.ledger with queue := q } }
    if failedTwice then
      reportLoss (lossCheck s.ledger.lost (faultOnce 0x1411 { s1 with ledger := s1.ledger.lose r.size }))
    else reportLoss { s1 with ledger := s1.ledger.write r }

def execLedgerRecordWrite (dt : Nat) (failedTwice : Bool) (s : State) : Host.Outcome State Fault Refusal :=
  .next (settle (writeRecord failedTwice (advance s dt)))

/-- OP_S is saved at each multiple of 10 (R514). -/
def saveOp (s : State) : State :=
  if s.ledger.counting ∧ s.ledger.opS % 10 = 0 then { s with ledger := { s.ledger with savedOp := s.ledger.opS } } else s

def execOperatingSecondsSave (dt : Nat) (s : State) : Host.Outcome State Fault Refusal :=
  .next (settle (saveOp (advance s dt)))

/-- RFLAGS of a record as stored (Table 20-2). -/
def recFlags (r : Rec) : Nat := (if r.fault then 128 else 0) + r.sev % 4

/-- The stored bytes of record `i` of an occurrence: its head, or a continuation (R511, R513). `err`: READ_ERR of a copy. -/
def recBytes (r : Rec) (i : Nat) (err : Bool) : Bytes :=
  let fl := recFlags r + (if i = 0 then 0 else 64) + (if err then 32 else 0)
  let head := u32 (r.seq + i) ++ u32 r.opS ++ u32 r.opUs ++ u32 r.boot ++ u16 r.code ++ u8 fl ++ u8 r.cls
  if i = 0 then head ++ u16 r.repeats ++ u16 r.lastS ++ padTo 8 (r.data.take 8)
  else head ++ padTo 12 (slice r.data (8 + 12 * (i - 1)) 12)

/-- The copy of the record with a SEQ. -/
def recordAt (s : State) (errs : List Nat) (seq : Nat) : Bytes :=
  match s.ledger.recs.find? (fun r => decide (toWord 32 ((seq : Int) - r.seq) < r.size)) with
  | some r => recBytes r (toWord 32 ((seq : Int) - r.seq)) (errs.contains seq)
  | none => zeros 32

/-- LEDGER.WINDOW (R521, Tables 20-3 and 20-4). -/
def cmdLedgerWindow (r : Request) (s : State) : Reply :=
  let p := r.payload
  let anchor := byteAt p 0
  let from_ := fld p 4 4
  let span := fld p 8 4
  if 2 < anchor then .refuse (errRange 0)
  else if anchor ≠ 0 ∧ from_ ≠ 0 then .refuse (errRange 4)
  else if span = 0 ∨ ledgerCap < span then .refuse (errRange 8)
  else if anchor = 0 ∧ 0 < seqDiff from_ s.ledger.next then .refuse (errRange 4)
  else
    let first := if anchor = 0 then from_ else if anchor = 1 then oldestSeq s
      else toWord 32 ((newestSeq s : Int) - span + 1)
    let last := toWord 32 ((first : Int) + span - 1)
    let s1 := setBox r.mbox { boxOf s r.mbox with window := some { first := first, last := last, cursor := first } } s
    .ok s1 (u32 first ++ u32 last ++ u32 (oldestSeq s) ++ u32 (newestSeq s) ++ u32 s.ledger.boot ++ u32 s.ledger.lost)

def execLedgerWindow (dt mbox : Nat) (s : State) : Host.Outcome State Fault Refusal :=
  .next (settle (runImmediate wLedgerWindow cmdLedgerWindow mbox (advance s dt)))

/-- LEDGER.READ (R522, Table 20-5). `readErr`: SEQs whose MRAM read is uncorrectable (19_faults R504). -/
def cmdLedgerRead (readErr : List Nat) (r : Request) (s : State) : Reply :=
  let count := byteAt r.payload 0
  match (boxOf s r.mbox).window with
  | none => .refuse { code := 0x0006 }
  | some w =>
    if count = 0 ∨ 40 < count then .refuse (errRange 0)
    else
      let gap := decide (0 < seqDiff (oldestSeq s) w.cursor)
      let c := if gap then oldestSeq s else w.cursor
      let avail := (seqDiff (newestSeq s) c + 1).toNat
      let left := (seqDiff w.last c + 1).toNat
      let n := Nat.min count (Nat.min avail left)
      let c' := (c + n) % 2 ^ 32
      let seqs := (List.range n).map (fun i => (c + i) % 2 ^ 32)
      let tail := decide (avail < count) && decide (avail < left)
      let fin := decide (0 < seqDiff c' w.last)
      let s1 := setBox r.mbox { boxOf s r.mbox with window := some { w with cursor := c' } } s
      let s2 := if seqs.any (fun q => readErr.contains q) then faultOnce 0x1315 s1 else s1
      .ok s2 (u8 n ++ u8 (maskOf [tail, gap, fin]) ++ u16 0 ++ u32 (oldestSeq s) ++ u32 (newestSeq s) ++ u32 c' ++
        seqs.flatMap (recordAt s readErr))

def execLedgerRead (dt mbox : Nat) (readErr : List Nat) (s : State) : Host.Outcome State Fault Refusal :=
  .next (settle (runImmediate wLedgerRead (cmdLedgerRead readErr) mbox (advance s dt)))

end Sys2Proof.Machine
end

