-- ==== Sys2Proof/Machine/Rtc.lean ====
section
/-! DEFINITION. The real-time clock, its raw window and its alarms (14_timebase_rtc R384 to R396). -/

namespace Sys2Proof.Machine

/-- A calendar: year since 2000, month, day, weekday (0 Monday), hour, minute, second. -/
structure Cal where
  year : Nat := 0
  month : Nat := 1
  day : Nat := 1
  weekday : Nat := 5
  hour : Nat := 0
  minute : Nat := 0
  second : Nat := 0
  deriving DecidableEq, Repr

def calOf (r : Rtc) : Cal :=
  { year := r.year, month := r.month, day := r.day, weekday := r.weekday, hour := r.hour, minute := r.minute, second := r.second }

def setCal (r : Rtc) (c : Cal) : Rtc :=
  { r with year := c.year, month := c.month, day := c.day, weekday := c.weekday, hour := c.hour, minute := c.minute, second := c.second }

/-- DATE word of Table 14-7. -/
def dateWord (c : Cal) : Nat := c.weekday % 8 * 2 ^ 24 + c.year % 128 * 2 ^ 16 + c.month % 16 * 2 ^ 8 + c.day % 32

/-- TIME word of Table 14-7. -/
def timeWord (c : Cal) : Nat := c.hour % 32 * 2 ^ 16 + c.minute % 64 * 2 ^ 8 + c.second % 64

/-- The calendar that two words hold (Table 14-7). -/
def calOfWords (d t : Nat) : Cal :=
  { weekday := d / 2 ^ 24 % 8, year := d / 2 ^ 16 % 128, month := d / 2 ^ 8 % 16, day := d % 32
    hour := t / 2 ^ 16 % 32, minute := t / 2 ^ 8 % 64, second := t % 64 }

/-- A month's length; every year divisible by 4 is a leap year (R384). -/
def monthLen (m y : Nat) : Nat :=
  if m = 2 then (if y % 4 = 0 then 29 else 28)
  else if m = 4 ∨ m = 6 ∨ m = 9 ∨ m = 11 then 30
  else if 1 ≤ m ∧ m ≤ 12 then 31
  else Config.badMonthLen m y

/-- One counter: at or above its greatest valid value it goes to its least and carries (R385). -/
def advanceField (lo hi v : Nat) : Nat × Bool := if hi ≤ v then (lo, true) else (v + 1, false)

/-- The seconds carry (R385). -/
def carrySecond (c : Cal) : Cal :=
  let (sec, c1) := advanceField 0 59 c.second
  if !c1 then { c with second := sec } else
  let (mi, c2) := advanceField 0 59 c.minute
  if !c2 then { c with second := sec, minute := mi } else
  let (h, c3) := advanceField 0 23 c.hour
  if !c3 then { c with second := sec, minute := mi, hour := h } else
  let (wd, _) := advanceField 0 6 c.weekday
  let (d, c4) := advanceField 1 (monthLen c.month c.year) c.day
  if !c4 then { c with second := sec, minute := mi, hour := h, weekday := wd, day := d } else
  let (mo, c5) := advanceField 1 12 c.month
  if !c5 then { c with second := sec, minute := mi, hour := h, weekday := wd, day := d, month := mo } else
  let (y, _) := advanceField 0 99 c.year
  { year := y, month := mo, day := d, weekday := wd, hour := h, minute := mi, second := sec }

/-- Order of calendars field by field from YEAR down to SECOND, weekday left out (R396). -/
def calKey (c : Cal) : Nat :=
  ((((c.year * 16 + c.month) * 32 + c.day) * 32 + c.hour) * 64 + c.minute) * 64 + c.second

/-- Days from 1970-01-01 to a date of 2000 to 2099. -/
def calDays (c : Cal) : Nat :=
  let before := (List.range (c.month - 1)).map (fun i => monthLen (i + 1) c.year) |>.foldl (· + ·) 0
  10957 + 365 * c.year + (c.year + 3) / 4 + before + (c.day - 1)

/-- Seconds from 1970-01-01 of a calendar. -/
def calSeconds (c : Cal) : Nat := calDays c * 86400 + c.hour * 3600 + c.minute * 60 + c.second

/-- Month and day from the day of a year. -/
def monthDay : Nat → Nat → Nat → Nat → Nat × Nat
  | 0, m, d, _ => (m, d + 1)
  | f + 1, m, d, y => if d < monthLen m y then (m, d + 1) else monthDay f (m + 1) (d - monthLen m y) y

/-- Year of 2000 to 2099 and day of the year from days since 2000-01-01. -/
def yearDay : Nat → Nat → Nat → Nat × Nat
  | 0, y, d => (y, d)
  | f + 1, y, d =>
    let n := if y % 4 = 0 then 366 else 365
    if d < n then (y, d) else yearDay f (y + 1) (d - n)

/-- The calendar of seconds since 1970-01-01, with its weekday (1970-01-01 was a Thursday). -/
def calOfSeconds (t : Nat) : Cal :=
  let days := t / 86400
  let r := t % 86400
  let (y, dy) := yearDay 99 0 (days - 10957)
  let (m, d) := monthDay 11 1 dy y
  { year := y % 100, month := m, day := d, weekday := (days + 3) % 7, hour := r / 3600, minute := r / 60 % 60, second := r % 60 }

/-- A calendar word pair within the valid range of Table 14-7 with WEEKDAY 0 (R393, R395): offset in the payload of the first field
out of range. -/
def calRange (d t o : Nat) : Option Nat :=
  let c := calOfWords d t
  if c.weekday ≠ 0 ∨ 99 < c.year ∨ c.month = 0 ∨ 12 < c.month then some o
  else if c.day = 0 ∨ monthLen c.month c.year < c.day then some o
  else if 23 < c.hour ∨ 59 < c.minute ∨ 59 < c.second then some (o + 4)
  else none

/-- Sub-second counter, 1/32,768 s, from the elapsed time since it stood at 0 (notes/assumptions/14.md). -/
def subsec (s : State) : Nat := Nat.min 32767 ((elNs s - s.rtc.subEl) * 32768 / 1000000000)

/-- Elapsed instant of the next crystal edge, at or after now. -/
def nextEdge (s : State) : Nat :=
  let k := ((elNs s - s.rtc.subEl) * 32768 + 999999999) / 1000000000
  s.rtc.subEl + k * 1000000000 / 32768

/-- Instant of the timebase at the next crystal edge. -/
def edgeNs (s : State) : Nat := nowNs s + (nextEdge s - elNs s)

/-- The follower of R389 is in force. -/
def following (s : State) : Bool := s.cfg.img.time.rtcFollow == 1

/-- An alarm fires (R396). -/
def fireAlarm (i : Nat) (skipped : Bool) (s : State) : State :=
  let s1 := { s with rtc := { s.rtc with alarms := upd (fun a => { a with armed := false, fired := true, skipped := skipped }) s.rtc.alarms i } }
  event 0x0E03 (u8 i ++ flag skipped ++ u32 (dateWord (calOf s.rtc)) ++ u32 (timeWord (calOf s.rtc))) s1

/-- Alarms at the seconds carry: fire at the alarm's time (R396, roll-over). -/
def alarmsAtCarry (s : State) : State :=
  (enumFrom 0 s.rtc.alarms).foldl (fun t p =>
    if p.2.armed ∧ calKey (calOfWords p.2.date p.2.time) = calKey (calOf s.rtc) then fireAlarm p.1 false t else t) s

/-- Alarms at a load of the calendar from `old` (R396, forward adjustment). -/
def alarmsAtLoad (old : Cal) (s : State) : State :=
  (enumFrom 0 s.rtc.alarms).foldl (fun t p =>
    let a := calKey (calOfWords p.2.date p.2.time)
    if p.2.armed ∧ calKey old < a ∧ a < calKey (calOf s.rtc) then fireAlarm p.1 true t
    else if p.2.armed ∧ calKey old < a ∧ a = calKey (calOf s.rtc) then fireAlarm p.1 false t else t) s

/-- The calendar is loaded (R387, R396; event 0x0E04 with who loaded it: 0 TIME.SET, 1 COMMIT, 2 TIME.ADJUST, 3 follower). `subEl`:
elapsed instant at which the sub-second stands at 0. -/
def loadCal (who : Nat) (c : Cal) (subEl : Nat) (s : State) : State :=
  let old := calOf s.rtc
  let s1 := { s with rtc := { setCal s.rtc c with subEl := subEl, calValid := true } }
  alarmsAtLoad old (event 0x0E04 (u8 who ++ u32 (dateWord old) ++ u32 (timeWord old) ++ u32 (dateWord c) ++ u32 (timeWord c)) s1)

/-- SNAP (R390, R391). -/
def opSnap (s : State) : State :=
  let c := calOf s.rtc
  let r := { s.rtc with shDate := dateWord c, shTime := timeWord c, shSubsec := subsec s }
  { s with rtc := if s.rtc.stageDirty then r else { r with stDate := dateWord c, stTime := timeWord c } }

/-- COMMIT (R390): at the next crystal edge, when STAGE_DIRTY is set. -/
def opCommit (s : State) : State :=
  if s.rtc.stageDirty then
    loadCal 1 (calOfWords s.rtc.stDate s.rtc.stTime) (nextEdge s) { s with rtc := { s.rtc with stageDirty := false } }
  else s

/-- Valid bits of DATE and TIME words; a reserved bit written non-zero is ignored (R14). -/
def dateMask : Nat := 0x077F0F1F
def timeMask : Nat := 0x001F3F3F

def opStDate (v : Nat) (s : State) : State := { s with rtc := { s.rtc with stDate := Nat.land v dateMask, stageDirty := true } }
def opStTime (v : Nat) (s : State) : State := { s with rtc := { s.rtc with stTime := Nat.land v timeMask, stageDirty := true } }

/-- STATUS: OSF is cleared by a 1 (Table 14-8, R387). -/
def opStatus (v : Nat) (s : State) : State :=
  if v % 2 = 1 then faultCond 0x0E13 false { s with rtc := { s.rtc with osf := false } } else s

/-- A write to one register of the raw window (Table 14-6); RO registers ignore it. -/
def opRaw (ofs v : Nat) (s : State) : State :=
  if ofs = 0x00 then opSnap s
  else if ofs = 0x04 then opCommit s
  else if ofs = 0x08 then opStatus v s
  else if ofs = 0x18 then opStDate v s
  else if ofs = 0x1C then opStTime v s
  else if 0x40 ≤ ofs ∧ ofs ≤ 0x7C ∧ ofs % 4 = 0 then
    { s with rtc := { s.rtc with backup := upd (fun _ => v % 2 ^ 32) s.rtc.backup ((ofs - 0x40) / 4) } }
  else s

/-- STATUS word, Table 14-8. -/
def rtcStatus (s : State) : Nat := maskOf [s.rtc.osf, s.rtc.bkExt, s.rtc.calValid, following s, s.rtc.stageDirty]

/-- The 128 bytes of the raw window (Table 14-6). -/
def rawWindow (s : State) : Bytes :=
  u32 0 ++ u32 0 ++ u32 (rtcStatus s) ++ u32 s.rtc.shDate ++ u32 s.rtc.shTime ++ u32 s.rtc.shSubsec ++
  u32 s.rtc.stDate ++ u32 s.rtc.stTime ++ zeros 32 ++ s.rtc.backup.flatMap u32

/-- ALM_ARMED and ALM_FIRED (Table 14-9). -/
def almArmed (s : State) : Nat := maskOf (s.rtc.alarms.map (·.armed))
def almFired (s : State) : Nat := maskOf (s.rtc.alarms.map (·.fired)) + 16 * maskOf (s.rtc.alarms.map (fun a => a.fired && a.skipped))

/-- TIME.SET (R393). -/
def cmdTimeSet (r : Request) (s : State) : Reply :=
  let p := r.payload
  let kind := byteAt p 0
  let a := fld p 4 4
  let b := fld p 8 4
  if kind = 0 then
    match calRange a b 4 with
    | some o => .refuse (errRange o)
    | none =>
      if following s then .refuse (errState s)
      else
        let c := calOfWords a b
        .ok (loadCal 0 { c with weekday := (calDays c + 3) % 7 } (nextEdge s) s) (timeBytes48 (edgeNs s))
  else if kind = 1 then
    if 0x7C < a ∨ a % 4 ≠ 0 then .refuse (errRange 4)
    else if following s ∧ (a = 0x18 ∨ a = 0x1C ∨ a = 0x04) then .refuse (errState s)
    else .ok (opRaw a b s) (if a = 0x04 ∧ s.rtc.stageDirty then timeBytes48 (edgeNs s) else zeros 12)
  else .refuse (errRange 0)
where
  /-- LOAD_S, reserved, LOAD_NS. -/
  timeBytes48 (t : Nat) : Bytes := u48 (t / 1000000000) ++ u16 0 ++ u32 (t % 1000000000)

def execTimeSet (dt mbox : Nat) (s : State) : Host.Outcome State Fault Refusal :=
  .next (settle (runImmediate wTimeSet cmdTimeSet mbox (advance s dt)))

def execSnap (dt : Nat) (s : State) : Host.Outcome State Fault Refusal :=
  .next (settle (opSnap (advance s dt)))

/-- A raw write that FOLLOW refuses never reaches the window (R393). -/
def unlessFollowing (f : State → State) (s : State) : State := if following s then s else f s

def execCommit (dt : Nat) (s : State) : Host.Outcome State Fault Refusal :=
  .next (settle (unlessFollowing opCommit (advance s dt)))

def execStDate (dt v : Nat) (s : State) : Host.Outcome State Fault Refusal :=
  .next (settle (unlessFollowing (opStDate v) (advance s dt)))

def execStTime (dt v : Nat) (s : State) : Host.Outcome State Fault Refusal :=
  .next (settle (unlessFollowing (opStTime v) (advance s dt)))

def execStatus (dt v : Nat) (s : State) : Host.Outcome State Fault Refusal :=
  .next (settle (opStatus v (advance s dt)))

/-- RAW_WINDOW_WRITE: a register without behaviour of its own stores or ignores the value (R390); the five with behaviour have
their own commands. -/
def rawPlain (ofs v : Nat) (s : State) : State := if ofs < 0x20 then s else opRaw ofs v s

def execRawWindowWrite (dt ofs v : Nat) (s : State) : Host.Outcome State Fault Refusal :=
  .next (settle (rawPlain ofs v (advance s dt)))

/-- ALARM.SET (R395). -/
def cmdAlarmSet (r : Request) (s : State) : Reply :=
  let p := r.payload
  let slot := byteAt p 0
  let arm := byteAt p 1
  let d := fld p 4 4
  let t := fld p 8 4
  let done (a : Alarm) : Reply :=
    let s1 := { s with rtc := { s.rtc with alarms := upd (fun _ => a) s.rtc.alarms slot } }
    .ok s1 (u8 (almArmed s1) ++ zeros 3)
  if 3 < slot then .refuse (errRange 0)
  else if 1 < arm then .refuse (errRange 1)
  else match calRange d t 4 with
    | some o => if arm = 1 then .refuse (errRange o) else done { nth {} s.rtc.alarms slot with armed := false }
    | none =>
      if arm = 0 then done { nth {} s.rtc.alarms slot with armed := false }
      else if calKey (calOfWords d t) ≤ calKey (calOf s.rtc) then .refuse (errRange 4)
      else if s.rtc.calValid = false then .refuse (errState s)
      else done { armed := true, date := d, time := t, fired := false, skipped := false }

def execAlarmSet (dt mbox : Nat) (s : State) : Host.Outcome State Fault Refusal :=
  .next (settle (runImmediate wAlarmSet cmdAlarmSet mbox (advance s dt)))

/-- RTC_SECOND_CARRY (R385, R396): the sub-second counter carries one second after it stood at 0. -/
def secondCarry (s : State) : State :=
  if s.rtc.subEl + 999969482 ≤ elNs s then
    alarmsAtCarry { s with rtc := { setCal s.rtc (carrySecond (calOf s.rtc)) with subEl := elNs s } }
  else s

def execRtcSecondCarry (dt : Nat) (s : State) : Host.Outcome State Fault Refusal :=
  .next (settle (secondCarry (advance s dt)))

/-- OSCILLATOR_STOP (R387). -/
def oscStop (s : State) : State :=
  faultCond 0x0E13 true { s with rtc := { s.rtc with osf := true, calValid := false } }

def execOscillatorStop (dt : Nat) (s : State) : Host.Outcome State Fault Refusal :=
  .next (settle (oscStop (advance s dt)))

/-- PD_BK_RESET (R386): only while no logic supply is present; the alarms lie in PD-AO (R395). -/
def bkReset (s : State) : State :=
  match s.st with
  | .off => { s with rtc := { subEl := elNs s, alarms := s.rtc.alarms } }
  | _ => s

def execPdBkReset (dt : Nat) (s : State) : Host.Outcome State Fault Refusal :=
  .next (settle (bkReset (advance s dt)))

/-- The timebase's UTC in ns since 1970-01-01 (R389). -/
def utcNs (s : State) : Nat := ((nowNs s : Int) - s.time.utcOffset * 1000000000).toNat

/-- The calendar's instant in ns since 1970-01-01. -/
def calNs (s : State) : Nat := calSeconds (calOf s.rtc) * 1000000000 + subsec s * 1000000000 / 32768

/-- RTC_FOLLOW_CHECK (R389): the load takes the whole UTC second nearest to now, with sub-second 0 at it
(notes/assumptions/14.md). -/
def followCheck (s : State) : State :=
  let u := utcNs s
  let sec := (u + 500000000) / 1000000000
  if following s ∧ s.time.state = .locked ∧ 2000000 < ((calNs s : Int) - u).natAbs then
    loadCal 3 (calOfSeconds sec) ((elNs s : Int) + (sec * 1000000000 : Nat) - u).toNat s
  else s

def execRtcFollowCheck (dt : Nat) (s : State) : Host.Outcome State Fault Refusal :=
  .next (settle (followCheck (advance s dt)))

end Sys2Proof.Machine
end

