-- ==== Sys2Proof/Machine/Steps.lean ====
section
/-! DEFINITION. The order of bring-up on the holder: steps 5 to 8 of Table 13-1 (13_bringup R358, R362 to R364). -/

namespace Sys2Proof.Machine

/-- Milliseconds since power-good, as events 0x0D01 and 0x0D02 carry them. -/
def msSinceGood (s : State) : Nat := Nat.min 0xFFFFFFFF ((elNs s - s.bring.goodEl) / 1000000)

/-- A step ends: event 0x0D01, and the next begins (R358). -/
def endStep (n : Nat) (s : State) : State :=
  event 0x0D01 (u8 n ++ u32 (msSinceGood s)) { s with bring := { s.bring with step := n + 1, stepEl := elNs s } }

/-- OSC connections of the configured thrusters (17 R462), by index. -/
def thrusterConns (s : State) : List Nat :=
  s.cfg.img.vessel.thrusters.map (·.oscConn)

/-- Every configured thruster's connection is open (R363). -/
def allConnsOpen (s : State) : Bool := (thrusterConns s).all (fun c => (nth {} s.osc c).st == 2)

/-- Step 5: the timebase is locked, or the bound has passed (R362). -/
def advance5 (s : State) : State :=
  if s.bring.step = 5 ∧ (s.time.state = .locked ∨ s.bring.timeDone = true) then endStep 5 s else s

/-- Step 6: every connection is open, or the bound has passed (R363). -/
def advance6 (s : State) : State :=
  if s.bring.step = 6 ∧ (allConnsOpen s = true ∨ s.bring.oscDone = true) then endStep 6 s else s

/-- Step 7 runs beside the others from the end of step 2 and ends when the analog groups have settled (R358, 05 R144), on the holder and in a
module whose step 4 is still to come. -/
def note7 (s : State) : State :=
  if s.bring.analogDone = true ∧ s.bring.done7 = false ∧ s.bring.step ≤ 7 ∧ (onDuty s.st = true ∨ s.bring.step = 3 ∨ s.bring.step = 4) then
    event 0x0D01 (u8 7 ++ u32 (msSinceGood s)) { s with bring := { s.bring with done7 := true } }
  else s

/-- Step 8 begins when steps 5 to 7 have ended (R364). -/
def advance7 (s : State) : State :=
  if s.bring.step = 7 ∧ s.bring.done7 = true then { s with bring := { s.bring with step := 8, stepEl := elNs s } } else s

/-- Fault 0x0D11 lasts until the timebase reports lock. -/
def lockFault (s : State) : State := if s.time.state = .locked then faultCond 0x0D11 false s else s

/-- Steps 5 to 7 end as their conditions hold, steps 5 and 6 on duty only (R358, R359). -/
def bringProgress (s : State) : State :=
  let t := note7 s
  if onDuty t.st then advance7 (advance6 (advance5 (lockFault t))) else t

end Sys2Proof.Machine
end

