-- ==== Sys2Proof/Machine/Timebase.lean ====
section
/-! DEFINITION. The timebase, its sources and their correction, PTP, compare outputs, and the commands that act on them
(14_timebase_rtc R372 to R383, R392, R394, R398). -/

namespace Sys2Proof.Machine

/-- Timebase state codes, Table 14-1. -/
def tbCode (t : TbState) : Nat :=
  match t with
  | .noTime => 0
  | .free => 1
  | .locking => 2
  | .locked => 3
  | .holdover => 4

/-- The timebase has time: any state but NO_TIME (R373). -/
def hasTime (s : State) : Bool := decide (s.time.state ≠ .noTime)

/-- EST_ERR_NS, saturating (Table 14-1). -/
def estErrNs (s : State) : Nat :=
  match s.time.state with
  | .noTime => 0xFFFFFFFF
  | .free => 0xFFFFFFFF
  | .locking => Nat.min 0xFFFFFFFF s.time.estErr
  | .locked => Nat.min 0xFFFFFFFF s.time.estErr
  | .holdover => Nat.min 0xFFFFFFFF (s.time.e0 + s.cfg.img.time.holdDriftPpb * (elNs s - s.time.lossEl) / 1000000000)

/-- Conditions of the time faults that follow from the state (Table 14-11). -/
def timeFaults (s : State) : State :=
  let est := decide (s.cfg.img.time.errLimitUs * 1000 < estErrNs s) &&
    decide (s.time.state = .locking ∨ s.time.state = .locked ∨ s.time.state = .holdover)
  let s1 := faultCond 0x0E11 est s
  let s2 := faultCond 0x0E12 s1.time.stepPending.isSome s1
  let s3 := faultCond 0x0E13 s2.rtc.osf s2
  if s3.time.state = .locked then faultCond 0x0E10 false s3 else s3

/-- The timebase enters a state; a change is event 0x0E01 (R374). -/
def setTb (t : TbState) (s : State) : State :=
  if s.time.state = t then s
  else
    let nl := if s.time.state = .locked then elNs s else s.time.notLockedEl
    let s1 := { s with time := { s.time with state := t, notLockedEl := nl, lockRun := 0, overRun := 0
                                             everLocked := s.time.everLocked || decide (t = .locked) } }
    timeFaults (event 0x0E01 [] s1)

/-- A source is configured (R398). -/
def sourceConfigured (s : State) : Bool := decide (s.cfg.img.time.sourcePri ≠ 2)

/-- The PTP role of the image takes in a port: 0 H1, 1 H2 (Table 14-10). -/
def rolePort (s : State) (p : Nat) : Bool := s.cfg.img.time.ptpRole == 2 || s.cfg.img.time.ptpRole == p

/-- Order of announced data sets: lower is better (IEEE 1588 default algorithm; notes/assumptions/15.md). -/
def masterKey (m : PtpMaster) : List Nat := [m.prio1, m.cls, m.accuracy, m.variance, m.prio2, m.ident, m.steps]

/-- Lexicographic order of keys. -/
def keyLt : List Nat → List Nat → Bool
  | a :: r, b :: q => decide (a < b) || (decide (a = b) && keyLt r q)
  | _, _ => false

/-- The master that a port hears, once its delay has been measured (R374). -/
def usableMaster (s : State) (p : Nat) : Option PtpMaster :=
  let q := nth {} s.time.ports p
  if rolePort s p && q.delayNs.isSome then q.best else none

/-- Port of the best usable PTP master (R374). -/
def bestPort (s : State) : Option Nat :=
  match usableMaster s 0, usableMaster s 1 with
  | some a, some b => some (if keyLt (masterKey b) (masterKey a) then 1 else 0)
  | some _, none => some 0
  | none, some _ => some 1
  | none, none => none

/-- Port of the best master heard, usable or not yet (13 R362). -/
def bestHeard (s : State) : Option Nat :=
  let m := fun (p : Nat) => if rolePort s p then (nth {} s.time.ports p).best else none
  match m 0, m 1 with
  | some a, some b => some (if keyLt (masterKey b) (masterKey a) then 1 else 0)
  | some _, none => some 0
  | none, some _ => some 1
  | none, none => none

/-- The source that a code of Table 14-10 names, if it is usable: 0 PTP, 1 GNSS. -/
def sourceUsable (s : State) (code : Nat) : Option Nat :=
  if code = 0 then bestPort s else if code = 1 ∧ s.time.gnssUsable = true then some 2 else none

/-- The source selected: SOURCE_PRI while usable, else SOURCE_SEC while usable (R374). -/
def chooseSource (s : State) : Option Nat :=
  match sourceUsable s s.cfg.img.time.sourcePri with
  | some x => some x
  | none => sourceUsable s s.cfg.img.time.sourceSec

/-- Time-weighted sum of addends over the last 16 s: entries newest first as (instant set, addend) (R373). -/
def rateSum : Nat → Nat → List (Nat × Int) → Int
  | _, _, [] => 0
  | start, upTo, (t, a) :: r =>
    if upTo ≤ start then 0
    else if t ≤ start then a * ((upTo - start : Nat) : Int)
    else a * ((upTo - t : Nat) : Int) + rateSum start t r

/-- The mean addend of the last 16 s before the loss (R373). -/
def meanAddend (s : State) : Int :=
  let start := elNs s - 16000000000
  if s.time.rateLog = [] then s.clk.addend else divEven (rateSum start (elNs s) s.time.rateLog) (elNs s - start)

/-- A new addend is in force, within ±200 ppm (R372), and remembered for the mean of R373. -/
def setAddend (a : Int) (s : State) : State :=
  let a' := clamp (-3435973) 3435973 a
  let old := s.time.rateLog
  let keep := old.takeWhile (fun e => decide (elNs s < e.1 + 16000000000))
  let rest := (old.drop keep.length).take 1
  { s with clk := { s.clk with addend := a' }, time := { s.time with rateLog := (elNs s, a') :: (keep ++ rest) } }

/-- Every source is lost (R373): HOLDOVER once the timebase has been LOCKED since power-good, else FREE; a slew stops. -/
def loseSources (s : State) : State :=
  let e := estErrNs s
  let g := decide (s.time.source = some 2)
  let s0 := { s with clk := { s.clk with slewLeft := 0 }, time := { s.time with source := none, stepPending := none } }
  match s.time.state with
  | .locked => hold e g s0
  | .locking => if s.time.everLocked then hold e g s0 else timeFaults (setTb .free s0)
  | _ => timeFaults s0
where
  /-- HOLDOVER at the mean rate; while an announced pulse is awaited the rate waits (15 R415). -/
  hold (e : Nat) (g : Bool) (s : State) : State :=
    let s1 := { s with time := { s.time with lossEl := elNs s, e0 := e, holdGnss := g } }
    timeFaults (setTb .holdover (match s.time.deferTo with
      | some _ => { s1 with time := { s1.time with deferAddend := some (meanAddend s) } }
      | none => setAddend (meanAddend s) s1))

/-- Selection after any change of what is usable (R374). A change of the selected source is event 0x0E01 and starts LOCKING. -/
def reselect (s : State) : State :=
  let c := chooseSource s
  if c = s.time.source then s
  else match c with
    | none => loseSources s
    | some _ =>
      let s1 := { s with time := { s.time with source := c, lockRun := 0, overRun := 0 } }
      if s1.time.state = .locking then event 0x0E01 [] s1
      else setTb .locking s1

/-- A step that a measurement or the host demands is queued for the next guard window (R20, R375). -/
def queueStep (theta : Int) (s : State) : State :=
  { s with time := { s.time with stepQueued := some theta, stepPending := none }, clk := { s.clk with slewLeft := 0 } }

/-- A step is permitted in ACTIVE and TRIPPED (R376; a permission at its limit counts, R15). -/
def stepPermitted (s : State) : Bool :=
  s.cfg.img.time.stepPolicy == 1 ||
  (match s.time.permitUntil with | some t => decide (elNs s ≤ t) | none => false)

/-- θ is to be slewed away. -/
def slew (theta : Int) (s : State) : State := { s with clk := { s.clk with slewLeft := theta * (tbUnit : Int) } }

/-- Correction of θ by Table 14-2. -/
def correct (theta : Int) (s : State) : State :=
  let a := theta.natAbs
  match s.st with
  | .off => s
  | .selftest => { s with clk := { s.clk with tb := ((s.clk.tb : Int) + theta * tbUnit).toNat } }
  | .active => duty a s
  | .tripped => duty a s
  | _ =>
    let s1 := { s with time := { s.time with stepPending := none } }
    if a ≤ 100000 then slew theta { s1 with time := { s1.time with stepQueued := none } } else queueStep theta s1
where
  /-- On ACTIVE and TRIPPED: slewed; beyond 1 ms stepped once a step is permitted. -/
  duty (a : Nat) (s : State) : State :=
    if a ≤ 1000000 then slew theta { s with time := { s.time with stepPending := none, stepQueued := none } }
    else if stepPermitted s then queueStep theta s
    else slew theta { s with time := { s.time with stepPending := some theta } }

/-- Lock by consecutive measurements (R373). -/
def judgeLock (theta : Int) (s : State) : State :=
  let thr := s.cfg.img.time.lockThrNs
  let within := decide (theta.natAbs ≤ thr)
  let beyond := decide (4 * thr < theta.natAbs)
  let s1 := { s with time := { s.time with lockRun := (if within then s.time.lockRun + 1 else 0)
                                           overRun := (if beyond then s.time.overRun + 1 else 0) } }
  match s.time.state with
  | .locking => if s.cfg.img.time.lockCount ≤ s1.time.lockRun then setTb .locked s1 else s1
  | .locked => if 2 ≤ s1.time.overRun then setTb .locking s1 else s1
  | _ => s1

/-- A measurement of the selected source: θ recorded and filtered, lock judged, correction made; while an announced pulse is
awaited, the addend and every correction wait (15 R415). -/
def measure (theta : Int) (s : State) : State :=
  let est := Config.thetaFilter s.time.estErr theta.natAbs s.nFree
  let add := Config.loopAddend s.clk.addend theta (s.nFree + 1)
  let s1 := { s with time := { s.time with theta := theta, estErr := est }, nFree := s.nFree + 2 }
  let s2 := judgeLock theta s1
  let s3 := match s2.time.deferTo with
    | some _ => { s2 with time := { s2.time with deferAddend := some add } }
    | none => correct theta (if s2.st = .selftest then s2 else setAddend add s2)
  bringProgress (timeFaults s3)

/-- A first time in SELFTEST (R362): loaded directly; the timebase is then FREE until a source is selected. -/
def firstTime (theta : Int) (s : State) : State :=
  let s1 := { s with clk := { s.clk with tb := ((s.clk.tb : Int) + theta * tbUnit).toNat } }
  if s.time.state = .noTime then setTb .free s1 else s1

/-- Stamp corrections of Table 14-4. -/
def ingressCorr (s : State) (p : Nat) : Int := if nth false s.time.link100 p then -648 else -236
def egressCorr (s : State) (p : Nat) : Int := if nth false s.time.link100 p then 392 else 148

/-- Stamp of a datagram's arrival on a host port (R380; without delayAsymmetry). -/
def ingressStamp (s : State) (p : Nat) : Nat := ((nowNs s : Int) + ingressCorr s p).toNat

/-- delayAsymmetry of a port (R380). -/
def asymNs (s : State) (p : Nat) : Int := if p = 0 then s.cfg.img.time.asymH1Ns else s.cfg.img.time.asymH2Ns

def setPort (p : Nat) (q : PtpPort) (s : State) : State :=
  { s with time := { s.time with ports := upd (fun _ => q) s.time.ports p } }

/-- clockClass sent (Table 14-3). -/
def clockClassOut (s : State) : Nat :=
  match s.time.state with
  | .locked => if s.time.source = some 2 then 6 else if s.cfg.img.time.ptpRole = 2 then 52 else 248
  | .holdover => if s.time.holdGnss then 7 else 248
  | _ => 248

/-- The module's own data set. -/
def ownMaster (s : State) : PtpMaster :=
  { prio1 := s.cfg.img.time.priority1, cls := clockClassOut s, prio2 := s.cfg.img.time.priority2, ident := leVal s.unit.serial }

/-- A port is in the master role: in the PTP role, not slave-only, not the port of the selected master, no better master heard. -/
def portMaster (s : State) (p : Nat) : Bool :=
  rolePort s p && !s.cfg.img.time.slaveOnly && decide (s.time.source ≠ some p) &&
  (match (nth {} s.time.ports p).best with
   | some m => keyLt (masterKey (ownMaster s)) (masterKey m)
   | none => true)

/-- The UTC offset applied (R378): the selected master's while valid, GNSS's, else UTC_OFFSET_DEF. A change is event 0x0E05. -/
def applyUtc (s : State) : State :=
  let fromPort (p : Nat) : Option Int :=
    match (nth {} s.time.ports p).best with
    | some m => if m.utcValid then some m.utcOffset else none
    | none => none
  let got : Option Int := match s.time.source with
    | some 0 => fromPort 0
    | some 1 => fromPort 1
    | some _ => s.gnss.ret.utc.map (· + 19)
    | none => none
  let o := got.getD s.cfg.img.time.utcOffsetDef
  let s1 := { s with time := { s.time with utcOffset := o, utcValid := got.isSome } }
  if o = s.time.utcOffset then s1 else event 0x0E05 [] s1

/-- θ of a Sync: time of the source minus time of the timebase. -/
def syncTheta (s : State) (p : Nat) (t1 t2 : Int) : Int := t1 + asymNs s p + ((nth {} s.time.ports p).delayNs.getD 0) - t2

/-- A Sync whose two stamps are known. -/
def syncDone (p : Nat) (t1 t2 : Int) (s : State) : State :=
  let q := nth {} s.time.ports p
  let s1 := setPort p { q with syncT2 := none, ms := some (t2 - t1 - asymNs s p), syncEl := elNs s } s
  if s.st = .selftest ∧ s.time.source = none ∧ bestHeard s = some p then firstTime (t1 + asymNs s p - t2) s1
  else if s.time.source = some p then measure (syncTheta s p t1 t2) s1 else s1

/-- A path delay has been measured: the source may become usable (R374). -/
def delayDone (p : Nat) (d : Int) (s : State) : State :=
  let q := nth {} s.time.ports p
  applyUtc (reselect (setPort p { q with delayNs := some d, reqT3 := none } s))

/-- A PTP message arrives on port 0 (H1) or 1 (H2) (R374, R378, R380). -/
def ptpReceive (p : Nat) (m : PtpMsg) (s : State) : State :=
  let q := nth {} s.time.ports p
  let t2 : Int := (nowNs s : Int) + ingressCorr s p
  let fromBest (i : Nat) : Bool := match q.best with | some b => b.ident == i | none => false
  if !rolePort s p then s else
  match m with
  | .announce ident prio1 cls acc var prio2 steps uo uv =>
    let a : PtpMaster := { port := p, ident := ident, prio1 := prio1, cls := cls, accuracy := acc, variance := var, prio2 := prio2, steps := steps, utcOffset := uo, utcValid := uv }
    let better := match q.best with | some b => b.ident == ident || keyLt (masterKey a) (masterKey b) | none => true
    if better then
      let q1 := if fromBest ident then { q with best := some a, announceEl := elNs s }
        else { q with best := some a, announceEl := elNs s, delayNs := none, ms := none, syncT2 := none }
      applyUtc (reselect (setPort p q1 s))
    else s
  | .sync ident two origin corr li =>
    if fromBest ident then
      let s1 := setPort p { q with syncEl := elNs s, logInterval := clamp (-7) 1 li } s
      if two then setPort p { nth {} s1.time.ports p with syncT2 := some (ident, t2, corr) } s1
      else syncDone p (origin + corr) t2 s1
    else s
  | .followUp ident origin corr =>
    match q.syncT2 with
    | some (i, t, c) => if i = ident then syncDone p (origin + corr + c) t s else s
    | none => s
  | .delayResp ident t4 corr =>
    match q.ms, q.reqT3 with
    | some ms, some t3 => if fromBest ident then delayDone p (divEven (ms + (t4 - corr - t3 + asymNs s p)) 2) s else s
    | _, _ => s
  | .pdelayResp _ r2 r3 corr =>
    match q.reqT3 with
    | some t3 => delayDone p (divEven ((t2 - t3) - (r3 - r2) - corr) 2) s
    | none => s
  | .delayReq ident => if portMaster s p then emit (.ptpResp p ident t2.toNat 0) s else s
  | .pdelayReq ident => emit (.ptpResp p ident t2.toNat ((nowNs s : Int) + egressCorr s p).toNat) s
  | .other => s

def execPtpMessage (dt port : Nat) (m : PtpMsg) (s : State) : Host.Outcome State Fault Refusal :=
  .next (settle (match s.st with | .off => advance s dt | _ => ptpReceive port m (advance s dt)))

/-- PTP_MESSAGE_SEND (R378): masters send Sync and Announce, slaves their delay requests. -/
def ptpSend (p : Nat) (m : PtpSend) (s : State) : State :=
  let q := nth {} s.time.ports p
  let t3 : Int := (nowNs s : Int) + egressCorr s p
  let master := portMaster s p
  match m with
  | .sync => if master then emit (.ptp p m (clockClassOut s)) s else s
  | .announce => if master then emit (.ptp p m (clockClassOut s)) s else s
  | .delayReq =>
    if rolePort s p && q.best.isSome && !master && s.cfg.img.time.ptpProfile == 0 then
      emit (.ptp p m (clockClassOut s)) (setPort p { q with reqT3 := some t3 } s) else s
  | .pdelayReq =>
    if rolePort s p && s.cfg.img.time.ptpProfile == 1 then
      emit (.ptp p m (clockClassOut s)) (setPort p { q with reqT3 := some t3 } s) else s

def execPtpMessageSend (dt port : Nat) (m : PtpSend) (s : State) : Host.Outcome State Fault Refusal :=
  .next (settle (match s.st with | .off => advance s dt | _ => ptpSend port m (advance s dt)))

/-- Four Sync intervals, or three Announce intervals of 1 s, have passed without one (R374, Table 14-3). -/
def ptpLost (s : State) (p : Nat) : Bool :=
  let q := nth {} s.time.ports p
  let iv := (Frac.mul (Frac.ofInt 1000000000) (Frac.pow2 q.logInterval)).floor.toNat
  decide (q.syncEl + 4 * iv ≤ elNs s) || decide (q.announceEl + 3000000000 ≤ elNs s)

/-- SOURCE_LOSS (R373, R374). -/
def sourceLoss (ptpPort : Option Nat) (gnss : Bool) (s : State) : State :=
  let s1 := match ptpPort with
    | some p => if ptpLost s p then
        (let q := nth {} s.time.ports p
         if q.announceEl + 3000000000 ≤ elNs s then setPort p { best := none, syncEl := q.syncEl } s
         else setPort p { q with delayNs := none, ms := none, syncT2 := none } s) else s
    | none => s
  let s2 := if gnss ∧ s1.gnss.grade ≠ 2 then { s1 with time := { s1.time with gnssUsable := false } } else s1
  bringProgress (applyUtc (reselect s2))

def execSourceLoss (dt : Nat) (ptpPort : Option Nat) (gnss : Bool) (s : State) : Host.Outcome State Fault Refusal :=
  .next (settle (match s.st with | .off => advance s dt | _ => sourceLoss ptpPort gnss (advance s dt)))

/-- PERMIT_EXPIRY (R376): a permission not used within 60 s lapses. -/
def permitExpiry (s : State) : State :=
  match s.time.permitUntil with
  | some t => if t < elNs s then { s with time := { s.time with permitUntil := none } } else s
  | none => s

def execPermitExpiry (dt : Nat) (s : State) : Host.Outcome State Fault Refusal :=
  .next (settle (permitExpiry (advance s dt)))

/-- TIME_NOT_LOCKED_FAULT (R398, 0x0E10). -/
def notLockedFault (s : State) : State :=
  if sourceConfigured s ∧ s.time.state ≠ .locked ∧ s.time.notLockedEl + 10000000000 ≤ elNs s then faultCond 0x0E10 true s else s

def execTimeNotLockedFault (dt : Nat) (s : State) : Host.Outcome State Fault Refusal :=
  .next (settle (notLockedFault (advance s dt)))

/-- Compare units whose target a forward step carries the timebase past: they fire at the step instant with LATE_FIRE (R377). -/
def markLate (t0 t1 : Nat) (s : State) : State :=
  let passed (t : Nat) : Bool := decide (t0 < t) && decide (t ≤ t1)
  let ana := enumFrom 0 s.analog.groups |>.map (fun p => (2 + p.1, match p.2.startAt with | some t => passed t | none => false))
  let trg := enumFrom 0 s.cfg.img.time.trigs |>.map (fun p =>
    (10 + p.1, decide (p.2.periodUs ≠ 0) && passed ((t0 - p.2.phaseNs) / (p.2.periodUs * 1000) * (p.2.periodUs * 1000) + p.2.phaseNs + p.2.periodUs * 1000)))
  let mode := [(15, match s.frame.pendingMode with | some (_, ct) => passed ct | none => false)]
  let pps := [(14, passed (t0 / 1000000000 * 1000000000 + 1000000000))]
  let hit := (ana ++ trg ++ mode ++ pps).filter (fun x => x.2)
  { s with time := { s.time with lateFire := hit.foldl (fun l x => upd (fun _ => true) l x.1) s.time.lateFire } }

/-- Instants of frames decided before a step move with the ticks that begin those frames (02 R69, 03 R96). -/
def moveDecided (d : Int) (s : State) : State :=
  let g (t : Nat) : Nat := if s.frame.tic < t then ((t : Int) + d).toNat else t
  { s with
    mb := { s.mb with
      dpNext := s.mb.dpNext.map (fun p => (g p.1, p.2))
      boxes := s.mb.boxes.map (fun b => { b with queue := b.queue.map (fun r => { r with applyTic := r.applyTic.map g }) }) }
    cfg := { s.cfg with effect := s.cfg.effect.map g } }

/-- TIMEBASE_STEP (R20, R375 to R377): in the guard window, unless an announced pulse is awaited (15 R415). The frame then ends at the
first tick of the stepped grid, that of the mode in force, at least T_F of elapsed time after it began. -/
def timebaseStep (s : State) : State :=
  match s.time.stepQueued with
  | none => s
  | some theta =>
    if s.frame.phase = 7 ∧ s.time.deferTo = none ∧ s.frame.running = true then
      let old := nowNs s
      let tb' := ((s.clk.tb : Int) + theta * tbUnit).toNat
      let new := tb' / tbUnit
      let p := periodNs s.frame.mode
      let next := (new + (s.frame.ticEl + p - elNs s) + p - 1) / p * p
      let used := decide (s.st = .active ∨ s.st = .tripped) && s.cfg.img.time.stepPolicy != 1
      let s1 := { s with clk := { s.clk with tb := tb', slewLeft := 0 }
                         time := { s.time with stepQueued := none, stepPending := none
                                               permitUntil := (if used then none else s.time.permitUntil) }
                         gnss := { s.gnss with msgStepped := true }
                         frame := { s.frame with status := { s.frame.status with stretch := true }
                                                 nextTick := next } }
      let s2 := event 0x0E02 (i32 (satS 32 theta) ++ timeBytes old ++ timeBytes new) (event 0x0119 [] (markLate old new (moveDecided ((next : Int) - s.frame.nextTick) s1)))
      timeFaults (if s.time.stepFree then setTb .free { s2 with time := { s2.time with stepFree := false } } else s2)
    else s

def execTimebaseStep (dt : Nat) (s : State) : Host.Outcome State Fault Refusal :=
  .next (settle (timebaseStep (advance s dt)))

/-- The last instant of a TRIG output at or before now (R383). -/
def trigInstant (s : State) (t : Image.Trig) : Option Nat :=
  let p := t.periodUs * 1000
  if p = 0 ∨ nowNs s < t.phaseNs then none else some ((nowNs s - t.phaseNs) / p * p + t.phaseNs)

/-- TRIG_PULSE on TRIGn (R381, R383, 01 Table 1-3): by TICK_TRIG at each tick, 10 µs high, or by period and phase. -/
def trigPulse (n : Nat) (s : State) : State :=
  let i := n - 1
  let raise (t w : Nat) : State :=
    { s with time := { s.time with trigHigh := upd (fun _ => true) s.time.trigHigh i
                                   trigEndEl := upd (fun _ => elNs s + w) s.time.trigEndEl i
                                   trigLast := upd (fun _ => t) s.time.trigLast i
                                   lateFire := upd (fun _ => false) s.time.lateFire (10 + i) } }
  if s.frame.running = false then s
  else if s.cfg.img.frame.tickTrig = n then (if nth 0 s.time.trigLast i < s.frame.tic then raise s.frame.tic 10000 else s)
  else
    let t := nth {} s.cfg.img.time.trigs i
    match trigInstant s t with
    | some x => if nth 0 s.time.trigLast i < x then raise x t.widthNs else s
    | none => s

def execTrigPulse (dt n : Nat) (s : State) : Host.Outcome State Fault Refusal :=
  .next (settle (trigPulse n (advance s dt)))

/-- TRIG_PULSE_END: the width has run out (R383). -/
def trigEnd (n : Nat) (s : State) : State :=
  let i := n - 1
  if nth false s.time.trigHigh i ∧ nth 0 s.time.trigEndEl i ≤ elNs s then
    { s with time := { s.time with trigHigh := upd (fun _ => false) s.time.trigHigh i } }
  else s

def execTrigPulseEnd (dt n : Nat) (s : State) : Host.Outcome State Fault Refusal :=
  .next (settle (trigEnd n (advance s dt)))

/-- RATE_PPB: the addend in force (Table 14-9). -/
def ratePpb (s : State) : Int := divEven (s.clk.addend * 1000000000) (4 * tbUnit)

/-- PPS_IN_OFS_NS: 0x80000000 without an edge within 2 s (R382). -/
def ppsInOfs (s : State) : Int :=
  match s.time.ppsInOfs with
  | some (o, e) => if elNs s ≤ e + 2000000000 then o else -2147483648
  | none => -2147483648

/-- TFLAGS (Table 14-9). -/
def tflags (s : State) : Nat :=
  maskOf [s.rtc.osf, following s, s.rtc.calValid, s.time.stepPending.isSome, s.time.permitUntil.isSome, s.time.utcValid]

/-- TIME.READ, SELECT 0 (Table 14-9). -/
def timeReport (s : State) : Bytes :=
  let t := nowNs s
  u48 (t / 1000000000) ++ u16 0 ++ u32 (t % 1000000000) ++ u8 (tbCode s.time.state) ++ u8 (s.time.source.getD 0xFF) ++
  u16 (tflags s) ++ u32 (estErrNs s) ++ i32 (satS 32 s.time.theta) ++ i32 (ratePpb s) ++ i16 s.time.utcOffset ++
  u8 (almArmed s) ++ u8 (almFired s) ++ u32 (dateWord (calOf s.rtc)) ++ u32 (timeWord (calOf s.rtc)) ++ u16 (subsec s) ++
  u16 0 ++ i32 (ppsInOfs s)

/-- TIME.READ (R392). -/
def cmdTimeRead (r : Request) (s : State) : Reply :=
  let sel := byteAt r.payload 0
  if 1 < sel ∨ (sel = 1 ∧ r.version = 1) then .refuse (errRange 0)
  else .ok s (if sel = 1 then rawWindow s else timeReport s)

def execTimeRead (dt mbox : Nat) (s : State) : Host.Outcome State Fault Refusal :=
  .next (settle (runImmediate wTimeRead cmdTimeRead mbox (advance s dt)))

/-- The calendar moved by a number of ms, its sub-second kept and not zeroed (R394 ACTION 1; notes/assumptions/14.md). -/
def moveCal (ms : Int) (s : State) : State :=
  let sub : Int := elNs s - s.rtc.subEl
  let total := sub + ms * 1000000
  let sec := (calSeconds (calOf s.rtc) : Int) + total.fdiv 1000000000
  let rem := total - (total.fdiv 1000000000) * 1000000000
  loadCal 2 (calOfSeconds sec.toNat) ((elNs s : Int) - rem).toNat s

/-- TIME.ADJUST (R376, R394). A step that awaited permission takes what the slew has left of θ. -/
def cmdTimeAdjust (r : Request) (s : State) : Reply :=
  let act := byteAt r.payload 0
  let amt := fldI r.payload 4 8
  let res (n : Nat) : Bytes := u8 n ++ zeros 3
  if 2 < act then .refuse (errRange 0)
  else if act = 0 then
    if amt ≠ 0 then .refuse (errRange 4)
    else
      let s1 := { s with time := { s.time with permitUntil := some (elNs s + 60000000000) } }
      match s1.time.stepPending with
      | some _ => .ok (timeFaults (queueStep (divEven s1.clk.slewLeft tbUnit) s1)) (res 0)
      | none => .ok s1 (res 1)
  else if act = 1 then
    if 86400000 < amt.natAbs then .refuse (errRange 4)
    else if following s then .refuse (errState s)
    else .ok (moveCal amt s) (res 0)
  else
    if 2 ^ 40 < amt.natAbs then .refuse (errRange 4)
    else if (s.time.state = .noTime ∨ s.time.state = .free) ∧ s.st ≠ .active ∧ s.st ≠ .tripped then
      .ok { s with time := { s.time with stepQueued := some amt, stepFree := true } } (res 0)
    else .refuse (errState s)

def execTimeAdjust (dt mbox : Nat) (s : State) : Host.Outcome State Fault Refusal :=
  .next (settle (runImmediate wTimeAdjust cmdTimeAdjust mbox (advance s dt)))

end Sys2Proof.Machine
end

