-- ==== Sys2Proof/Machine/Intake.lean ====
section
/-! DEFINITION. Signal intake: recognising messages, decoding fields, scaling, qualities and the latest-value store (04_intake R105
to R127; 03_configuration R98 to R103, R542). Intake runs while PD-FC, which holds the store, is powered: on duty
(notes/assumptions/16.md). -/

namespace Sys2Proof.Machine

open Sys2Proof.Image (Entry)

/-- A value for a slot: stamps earlier than the slot's are discarded, SEQ counts commits (03 R102, Table 3-17). -/
def Slot.take (v : Int) (stamp q : Nat) (o : Slot) : Slot :=
  if o.live ∧ stamp < o.stamp then o
  else { value := v, stamp := stamp, quality := q, seq := (o.seq + 1) % 256, live := true }

/-- Commit to a slot of the live store; during P0 a value stamped at or before T_IC also joins the snapshot in the making
(01 R25, R26). -/
def commitSlot (dest : Nat) (v : Int) (stamp q : Nat) (s : State) : State :=
  let n := (Table.get {} s.store dest).take v stamp q
  { s with store := Table.set s.store dest n
           close := if s.frame.phase = 0 ∧ stamp ≤ s.frame.tic ∧ n.stamp = stamp then Table.set s.close dest n else s.close }

/-- Scaling of a raw value: the product with the gain exact, then rounded; OFFSET added in units of the destination (03 R99). -/
def scaleExact (e : Entry) (r : Frac) : Int :=
  roundEven (Frac.mul (Frac.mul r (Frac.ofInt e.gainM)) (Frac.pow2 (e.gainE - 30))) + e.offset

/-- A scaled value brought into its destination: saturated, a binary angle wrapped (03 R99). -/
def fitDest (t : Nat) (v : Int) : Int :=
  match t with
  | 0 => satS 32 v
  | 1 => clamp 0 0xFFFFFFFF v
  | 2 => satS 64 v
  | 3 => Int.ofNat (angWrap v)
  | _ => clamp 0 1 v

def scale (e : Entry) (r : Frac) : Int := fitDest e.destType (scaleExact e r)

/-- RANGE_EN and the limits (03 R99). -/
def inLimits (e : Entry) (v : Int) : Bool := decide (e.limLo ≤ v) && decide (v ≤ e.limHi)

/-- What a message gives for an entry that reads it: no decodable field, malformed for the entry, or a raw value. -/
inductive Raw where
  | none
  | malformed
  | val (r : Frac)
  deriving DecidableEq, Repr

/-- The source's status for an entry (04 R121): a quality code, or nothing where the entry named by QREF did not decode. -/
def sourceQuality (map : List Entry) (read : Entry → Raw) (e : Entry) : Option Nat :=
  if e.srcqEn then
    (match map[e.qref]? with
     | some q =>
       (match read q with
        | .val r =>
          let v := scale q r
          if v = 0 then some 3 else if inLimits q v then some 0 else if e.holdoverSrc then some 5 else some 3
        | _ => none)
     | none => none)
  else some 0

/-- An entry's outcome for a message (04 R119). -/
inductive Fate where
  | skip
  | malformed
  | rangeReject
  | commit (v : Int) (q : Nat)
  deriving DecidableEq, Repr

def fate (map : List Entry) (read : Entry → Raw) (e : Entry) : Fate :=
  match read e with
  | .none => .skip
  | .malformed => .malformed
  | .val r =>
    let v := scale e r
    if e.rangeEn ∧ inLimits e v = false then .rangeReject
    else match sourceQuality map read e with
      | some q => .commit v q
      | none => .skip

def setIntakePort (p : Nat) (f : PortSt → PortSt) (s : State) : State :=
  { s with intake := { s.intake with ports := upd f s.intake.ports p } }

/-- Count on a port's counters (Table 4-3; 32 bits, saturating). -/
def count (p : Nat) (f : Counters → Counters) (s : State) : State := setIntakePort p (fun q => { q with cnt := f q.cnt }) s

def inc (n : Nat) : Nat := Nat.min 0xFFFFFFFF (n + 1)

def cntRx (c : Counters) : Counters := { c with rx := inc c.rx }
def cntUnmatched (c : Counters) : Counters := { c with unmatched := inc c.unmatched }
def cntMalformed (c : Counters) : Counters := { c with malformed := inc c.malformed }
def cntCksum (c : Counters) : Counters := { c with cksumFail := inc c.cksumFail }
def cntRange (c : Counters) : Counters := { c with rangeReject := inc c.rangeReject }
def cntDup (c : Counters) : Counters := { c with dupDrops := inc c.dupDrops }
def cntFlood (c : Counters) : Counters := { c with floodDrops := inc c.floodDrops }

/-- One entry takes its outcome. -/
def applyFate (p : Nat) (stamp : Nat) (e : Entry) (f : Fate) (s : State) : State :=
  match f with
  | .commit v q => commitSlot e.dest v stamp q s
  | .rangeReject => count p cntRange s
  | _ => s

/-- Messages received whole. -/
def cntRxs (n : Nat) (c : Counters) : Counters := { c with rx := Nat.min 0xFFFFFFFF (c.rx + n) }

/-- The entries that read a message commit together with its stamp (03 R101, 04 R119); a message malformed for at least one entry
is counted once, one that no entry reads is UNMATCHED (Table 4-3). -/
def commitMessage (p stamp : Nat) (es : List Entry) (read : Entry → Raw) (s : State) : State :=
  let map := s.cfg.img.map
  let fs := es.map (fun e => (e, fate map read e))
  let s1 := if es.isEmpty then count p cntUnmatched s else s
  let s2 := if fs.any (fun x => x.2 == .malformed) then count p cntMalformed s1 else s1
  fs.foldl (fun t x => applyFate p stamp x.1 x.2 t) s2

/-- At least one entry commits from a message. -/
def commitsAny (s : State) (es : List Entry) (read : Entry → Raw) : Bool :=
  es.any (fun e => match fate s.cfg.img.map read e with | .commit _ _ => true | _ => false)

/-! ### Sentences -/

/-- Split at a separator byte. -/
def splitOn (sep : Byte) : Bytes → List Bytes
  | [] => [[]]
  | b :: r =>
    if b = sep then [] :: splitOn sep r
    else match splitOn sep r with
      | [] => [[b]]
      | w :: ws => (b :: w) :: ws

def bComma : Byte := 0x2C
def bStar : Byte := 0x2A
def bCr : Byte := 0x0D
def bLf : Byte := 0x0A
def bDollar : Byte := 0x24
def bBang : Byte := 0x21
def bBack : Byte := 0x5C
def bDot : Byte := 0x2E
def bMinus : Byte := 0x2D
def bPlus : Byte := 0x2B
def bColon : Byte := 0x3A

/-- Exclusive-or of bytes, the checksum of IEC 61162-1 (notes/assumptions/16.md). -/
def xorBytes (bs : Bytes) : Nat := bs.foldl (fun a b => Nat.xor a b.toNat) 0

/-- A checksum field `*hh` at the end of a text: the text before the star, and whether the digits match; nothing when no star
stands in the text. -/
def checksumOf (body : Bytes) : Option (Bytes × Bool) :=
  if body.contains bStar then
    let before := body.takeWhile (· ≠ bStar)
    let after := body.drop (before.length + 1)
    let ok := match after with
      | [a, b] => (match hexOf a, hexOf b with
                   | some x, some y => decide (16 * x + y = xorBytes before)
                   | _, _ => false)
      | _ => false
    some (before, ok)
  else none

/-- A sentence that met R108 but for its checksum. -/
structure Sentence where
  fields : List Bytes := []
  hasCk : Bool := false
  ckOk : Bool := true
  deriving DecidableEq, Repr

/-- Recognition by R108, the checksum reported apart. -/
def parseSentence (chars : Bytes) : Option Sentence :=
  match chars with
  | [] => none
  | c :: rest =>
    let n := rest.length
    let body := rest.take (n - 2)
    if (c = bDollar ∨ c = bBang) ∧ chars.length ≤ 82 ∧ rest.drop (n - 2) = [bCr, bLf] ∧
       body.all (fun b => decide (0x20 ≤ b.toNat) && decide (b.toNat ≤ 0x7E)) = true then
      (match checksumOf body with
       | some (t, ok) => some { fields := splitOn bComma t, hasCk := true, ckOk := ok }
       | none => some { fields := splitOn bComma body })
    else none

/-- MATCH of kinds 1 and 2 against an address field: "?" matches any character (Table 3-16). -/
def addressMatch (m addr : Bytes) : Bool :=
  decide (addr.length = 5) && (List.zip (m.take 5) addr).all (fun p => p.1 == 0x3F || p.1 == p.2) && decide (5 ≤ m.length)

/-- Digits of a text, or nothing when another character stands in it. -/
def digits : Bytes → Option (List Nat)
  | [] => some []
  | b :: r => match digitOf b, digits r with
    | some d, some ds => some (d :: ds)
    | _, _ => none

def decVal (ds : List Nat) : Nat := ds.foldl (fun a d => 10 * a + d) 0

/-- An unsigned decimal text: digits before and after the point. -/
def decParts (t : Bytes) : Option (List Nat × List Nat) :=
  match splitOn bDot t with
  | [a] => (digits a).map (fun x => (x, []))
  | [a, b] => (match digits a, digits b with | some x, some y => some (x, y) | _, _ => none)
  | _ => none

/-- Value of digits before and after a point. -/
def decFrac (a b : List Nat) : Frac := Frac.norm (Int.ofNat (decVal (a ++ b))) (10 ^ b.length)

/-- DECODE 1: a decimal number × 10^WIDTH, truncated towards zero. -/
def decodeNumber (w : Nat) (t : Bytes) : Option Frac :=
  let (neg, u) := match t with
    | b :: r => if b = bMinus then (true, r) else if b = bPlus then (false, r) else (false, t)
    | [] => (false, t)
  match decParts u with
  | some (a, b) =>
    if a.isEmpty ∧ b.isEmpty then none
    else
      let m := decVal (a ++ b) * 10 ^ w / 10 ^ b.length
      some (Frac.ofInt (if neg then -(m : Int) else m))
  | none => none

/-- DECODE 2 and 3: degrees of `dd` digits, minutes, hemisphere; rounded to 10⁻⁹ degree by R11. -/
def decodeAngle (dd : Nat) (pos neg : Byte) (t hemi : Bytes) : Option Frac :=
  match decParts t with
  | some (a, b) =>
    if a.length = dd + 2 ∧ decVal (a.drop dd) < 60 then
      let deg := decVal (a.take dd)
      let min := decFrac (a.drop dd) b
      let v := roundEven (Frac.add (Frac.ofNat (deg * 1000000000)) (Frac.div (Frac.mul min (Frac.ofNat 1000000000)) (Frac.ofNat 60)))
      if hemi = [pos] then some (Frac.ofInt v) else if hemi = [neg] then some (Frac.ofInt (-v)) else none
    else none
  | none => none

/-- DECODE 4: hhmmss.ss as ms of the day. -/
def decodeTime (t : Bytes) : Option Frac :=
  match decParts t with
  | some (a, b) =>
    let h := decVal (a.take 2)
    let m := decVal ((a.drop 2).take 2)
    let sec := decFrac (a.drop 4) b
    if a.length = 6 ∧ h < 24 ∧ m < 60 ∧ decVal (a.drop 4) ≤ 60 then
      some (Frac.ofInt (roundEven (Frac.add (Frac.ofNat ((3600 * h + 60 * m) * 1000)) (Frac.mul sec (Frac.ofNat 1000)))))
    else none
  | none => none

/-- Field of a sentence under DECODE 1 to 5 (Table 3-14). Field 0 is the address. -/
def sentenceRaw (x : Sentence) (e : Entry) : Raw :=
  let f := x.fields.getD e.field []
  let g := x.fields.getD (e.field + 1) []
  let o : Option Frac :=
    if f.isEmpty then none
    else match e.decode with
      | 1 => decodeNumber e.width f
      | 2 => decodeAngle 2 0x4E 0x53 f g
      | 3 => decodeAngle 3 0x45 0x57 f g
      | 4 => decodeTime f
      | 5 => f.head?.map (fun b => Frac.ofNat b.toNat)
      | _ => none
  match o with
  | some r => .val r
  | none => .none

/-- Entries of a serial port that a sentence's address matches. -/
def serialEntries (s : State) (p : Nat) (x : Sentence) : List Entry :=
  s.cfg.img.map.filter (fun e => e.kind == 1 && e.port == p && addressMatch e.mtch (x.fields.getD 0 []))

/-- A serial port locks to the rate of its first well-formed sentence (R107). -/
def lockSerial (p baud : Nat) (s : State) : State :=
  let q := nth {} s.intake.ports p
  let s1 := setIntakePort p (fun x => { x with baud := baud, goodEl := elNs s }) s
  if q.baud = 0 then event 0x0402 (u8 p ++ u8 (if baud = 4800 then 1 else 2)) s1 else s1

/-- A serial port with entries that has been unlocked for 10 s (Table 4-4). -/
def portUnlocked10 (s : State) (p : Nat) : Bool :=
  let q := nth {} s.intake.ports p
  onDuty s.st && q.baud == 0 && decide (q.unlockEl + 10000000000 ≤ elNs s) &&
    s.cfg.img.map.any (fun e => e.kind == 1 && e.port == p)

def unlockedCond (s : State) : Bool := [1, 2, 3, 4, 5, 6, 7, 8].any (portUnlocked10 s)

/-- A condition source that has ceased becomes inactive (19 R490). -/
def endCond (code : Nat) (on : Bool) (s : State) : State := if on then s else faultCond code false s

/-- Characters of a message in progress, newest first, met by what comes: the messages that end, each with whether it ended at its LF, and what
is left in progress (R543). Outside a message (none in progress) characters are discarded up to the next start character. -/
def messagesOf : Bytes → Option Bytes → List (Bytes × Bool) × Option Bytes
  | [], cur => ([], cur)
  | c :: r, cur =>
    if c = bDollar ∨ c = bBang then
      let t := messagesOf r (some [c])
      match cur with
      | some m => ((m.reverse, false) :: t.1, t.2)
      | none => t
    else
      match cur with
      | none => messagesOf r none
      | some m =>
        if 82 ≤ m.length then let t := messagesOf r none; ((m.reverse, false) :: t.1, t.2)
        else if c = bLf then let t := messagesOf r none; (((c :: m).reverse, true) :: t.1, t.2)
        else messagesOf r (some (c :: m))

/-- One message of a serial port: counted, and, well formed, committed (R107 to R109, R543). -/
def serialMessage (p baud : Nat) (m : Bytes × Bool) (s : State) : State :=
  let q := nth {} s.intake.ports p
  let s1 := count p cntRx s
  match (if m.2 && (q.baud == 0 || q.baud == baud) then parseSentence m.1 else none) with
  | none => count p cntMalformed s1
  | some x =>
    let es := serialEntries s p x
    if x.hasCk ∧ x.ckOk = false then count p cntCksum s1
    else if es.any (fun e => e.cksumReq) ∧ x.hasCk = false then count p cntMalformed s1
    else endCond 0x0412 (unlockedCond (lockSerial p baud s1)) (commitMessage p (nowNs s) es (sentenceRaw x) (lockSerial p baud s1))

/-- Characters on a serial port up to the end of a message (R107 to R109, R543): the messages among them follow from their start characters
and LFs; one still in progress at their end is ended by `ending`, malformed. -/
def sentenceReceive (p baud : Nat) (chars : Bytes) (_ending : MsgEnd) (s : State) : State :=
  let (ms, rest) := messagesOf chars none
  (ms ++ (match rest with | some m => [(m.reverse, false)] | none => [])).foldl (fun t m => serialMessage p baud m t) s

def execSentenceReceive (dt port baud : Nat) (chars : Bytes) (ending : MsgEnd) (s : State) : Host.Outcome State Fault Refusal :=
  let t := advance s dt
  .next (settle (if onDuty s.st then sentenceReceive port baud chars ending t else t))

/-- SERIAL_UNLOCK (R107): 2 s without a well-formed sentence, in every state. -/
def serialUnlock (p : Nat) (s : State) : State :=
  let q := nth {} s.intake.ports p
  if s.st ≠ .off ∧ q.baud ≠ 0 ∧ q.goodEl + 2000000000 ≤ elNs s then
    event 0x0402 (u8 p ++ u8 0) (setIntakePort p (fun x => { x with baud := 0, unlockEl := elNs s }) s)
  else s

def execSerialUnlock (dt port : Nat) (s : State) : Host.Outcome State Fault Refusal :=
  .next (settle (serialUnlock port (advance s dt)))

/-- SERIAL_UNLOCKED_FAULT (Table 4-4): fault 0x0412. -/
def serialUnlockedFault (p : Nat) (s : State) : State := if portUnlocked10 s p then faultCond 0x0412 true s else s

def execSerialUnlockedFault (dt port : Nat) (s : State) : Host.Outcome State Fault Refusal :=
  .next (settle (serialUnlockedFault port (advance s dt)))

/-! ### Datagrams -/

/-- "UdPbC" and NUL (R110). -/
def head450 : Bytes := [0x55, 0x64, 0x50, 0x62, 0x43, 0x00]

/-- Parameters of a tag block that the module reads (R111). -/
structure Tag where
  src : Bytes := []
  line : Bytes := []
  hasLine : Bool := false
  ok : Bool := true
  deriving DecidableEq, Repr

/-- One tag block's text, between its two backslashes. -/
def tagBlock (t : Bytes) (g : Tag) : Tag :=
  match checksumOf t with
  | none => { g with ok := false }
  | some (body, ok) =>
    (splitOn bComma body).foldl (fun h prm =>
      match prm with
      | a :: b :: v => if b = bColon then (if a = 0x73 then { h with src := v } else if a = 0x6E then { h with line := v, hasLine := true } else h) else h
      | _ => h) { g with ok := g.ok && ok }

/-- Tag blocks in front of a sentence, at most `f` of them, and the sentence. -/
def tagsOf : Nat → Bytes → Tag → Nat → Tag × Bytes × Nat
  | 0, bs, g, n => (g, bs, n)
  | f + 1, bs, g, n =>
    match bs with
    | b :: r =>
      if b = bBack then
        let t := r.takeWhile (· ≠ bBack)
        tagsOf f (r.drop (t.length + 1)) (tagBlock t g) (n + 1)
      else (g, bs, n)
    | [] => (g, bs, n)

/-- Lines of a 61162-450 datagram as they stand in it: each with its LF, but one that the datagram's end cuts off. -/
def lines450 (bs : Bytes) : List Bytes :=
  let ws := splitOn bLf bs
  ((ws.dropLast.filter (fun l => !l.isEmpty)).map (fun l => l ++ [bLf])) ++ (ws.drop (ws.length - 1)).filter (fun l => !l.isEmpty)

/-- Entries of KIND 2 that a sentence of a host port matches (Table 3-9, Table 3-16). -/
def entries450 (s : State) (h : Nat) (g : Tag) (x : Sentence) : List Entry :=
  s.cfg.img.map.filter (fun e => e.kind == 2 && (e.port == h || e.port == 3) && addressMatch e.mtch (x.fields.getD 0 []) &&
    (allZero e.mtch 5 6 || (decide (g.src.length ≤ 6) && slice e.mtch 5 6 == padTo 6 g.src)))

/-- Two arrivals lie at most so far apart. -/
def near (w a b : Nat) : Bool := decide (a ≤ b + w) && decide (b ≤ a + w)

/-- A duplicate, arriving at `arr`, of a sentence that committed on the other host port and arrived within 1 s of it (R112). -/
def dup450 (s : State) (h arr : Nat) (g : Tag) : Bool :=
  g.hasLine && s.intake.dup450.any (fun d => d.1 == g.src && d.2.1 == g.line && decide (d.2.2.1 ≠ h) && near 1000000000 arr d.2.2.2)

/-- One sentence of a 61162-450 datagram that arrived at `arr` on host port `h` (1 H1, 2 H2), counted on port `p` (R111, R112). -/
def sentence450 (p h arr stamp : Nat) (line : Bytes) (s1 : State) : State :=
  let (g, body, n) := tagsOf 4 line {} 0
  if n = 0 ∨ g.ok = false then count p cntMalformed s1
  else match parseSentence body with
    | none => count p cntMalformed s1
    | some x =>
      let es := entries450 s1 h g x
      if x.hasCk ∧ x.ckOk = false then count p cntCksum s1
      else if es.any (fun e => e.cksumReq) ∧ x.hasCk = false then count p cntMalformed s1
      else if dup450 s1 h arr g then count p cntDup s1
      else
        let kept := s1.intake.dup450.filter (fun d => near 1000000000 arr d.2.2.2)
        let s2 := if commitsAny s1 es (sentenceRaw x) ∧ g.hasLine = true then
            { s1 with intake := { s1.intake with dup450 := (g.src, g.line, h, arr) :: kept } } else s1
        commitMessage p stamp es (sentenceRaw x) s2

/-- A 61162-450 datagram is served (R110, R111). -/
def serve450 (p h : Nat) (d : Pend) (s : State) : State :=
  if d.data.take 6 = head450 then (lines450 (d.data.drop 6)).foldl (fun t l => sentence450 p h d.arrEl d.stamp l t) s
  else count p cntUnmatched s

/-- Bit of a payload in little-endian counting (03 R542). -/
def leBit (bs : Bytes) (i : Nat) : Bool := (byteAt bs (i / 8)).testBit (i % 8)

/-- Bit of a payload in network order (03 R542). -/
def beBit (bs : Bytes) (i : Nat) : Bool := (byteAt bs (i / 8)).testBit (7 - i % 8)

/-- The raw bits of a field (03 R542). -/
def fieldBits (bs : Bytes) (big : Bool) (o w : Nat) : Nat :=
  if big then (List.range w).foldl (fun a i => 2 * a + (if beBit bs (o + i) then 1 else 0)) 0
  else maskOf ((List.range w).map (fun i => leBit bs (o + i)))

/-- A binary32 value; NaN and infinities do not decode. -/
def binary32 (b : Nat) : Option Frac :=
  let neg := b.testBit 31
  let ex : Nat := (b / 2 ^ 23) % 256
  let m : Nat := b % 2 ^ 23
  if ex = 255 then none
  else
    let v := if ex = 0 then Frac.mul (Frac.ofNat m) (Frac.pow2 (-149))
      else Frac.mul (Frac.ofNat (m + 2 ^ 23)) (Frac.pow2 ((ex : Int) - 150))
    some (if neg then Frac.neg v else v)

/-- Field of a payload of kinds 3 and 4 (03 Table 3-14, R542); malformed when the payload is too short (04 R113, R115). -/
def payloadRaw (bs : Bytes) (e : Entry) : Raw :=
  if 8 * bs.length < e.field + e.width then .malformed
  else
    let le := fieldBits bs false e.field e.width
    let be := fieldBits bs true e.field e.width
    let opt (o : Option Frac) : Raw := match o with | some r => .val r | none => .none
    match e.decode with
    | 16 => .val (Frac.ofNat le)
    | 17 => .val (Frac.ofInt (ofWord e.width le))
    | 18 => .val (Frac.ofNat be)
    | 19 => .val (Frac.ofInt (ofWord e.width be))
    | 20 => opt (binary32 le)
    | 21 => opt (binary32 be)
    | _ => .none

/-- MATCH of KIND 3 (Table 3-16): destination port, and the pattern at its offset. -/
def udpMatch (m : Bytes) (dstPort : Nat) (bs : Bytes) : Bool :=
  fld m 0 2 == dstPort && (fld m 8 2 == 0xFFFF || (decide (fld m 8 2 + 4 ≤ bs.length) && slice bs (fld m 8 2) 4 == slice m 4 4))

/-- A duplicate for an entry of PORT 3 (R112): the last datagram committed through the same MATCH from the other port is
identical and arrived within 2 ms. -/
def dupUdp (s : State) (h arr : Nat) (bs : Bytes) (e : Entry) : Bool :=
  e.port == 3 && s.intake.dupUdp.any (fun d => d.1 == e.mtch && decide (d.2.2.1 ≠ h) && d.2.1 == bs && near 2000000 arr d.2.2.2)

/-- The last datagram committed through a MATCH from a port. -/
def noteUdp (h arr : Nat) (bs : Bytes) (e : Entry) (s : State) : State :=
  if e.port = 3 then
    let rest := s.intake.dupUdp.filter (fun d => !(d.1 == e.mtch && d.2.2.1 == h))
    { s with intake := { s.intake with dupUdp := (e.mtch, bs, h, arr) :: rest } }
  else s

/-- An integrator datagram is served (R112, R113). -/
def serveUdp (p h : Nat) (d : Pend) (s1 : State) : State :=
  let hits := s1.cfg.img.map.filter (fun e => e.kind == 3 && (e.port == h || e.port == 3) && udpMatch e.mtch d.key d.data)
  let es := hits.filter (fun e => !dupUdp s1 h d.arrEl d.data e)
  let s2 := if es.length < hits.length then count p cntDup s1 else s1
  if hits.isEmpty = false ∧ es.isEmpty = true then s2
  else
    let com := es.filter (fun e => match fate s1.cfg.img.map (payloadRaw d.data) e with | .commit _ _ => true | _ => false)
    com.foldl (fun t e => noteUdp h d.arrEl d.data e t) (commitMessage p d.stamp es (payloadRaw d.data) s2)

/-- Entries of KIND 4 that a frame on controller `c` (0 to 3) matches (04 R115): extended, FD, and the identifier bits of ID_MASK. -/
def canEntries (s : State) (c idWord : Nat) : List Entry :=
  s.cfg.img.map.filter (fun e =>
    e.kind == 4 && e.port == c + 1 &&
    (let m := Nat.lor 0xC0000000 (fld e.mtch 4 4 % 2 ^ 29)
     Nat.land (fld e.mtch 0 4) m == Nat.land idWord m))

/-- A message whose service ends is recognised and committed. -/
def servePend (p : Nat) (d : Pend) (s : State) : State :=
  match d.kind with
  | .nmea => serve450 p (p - 8) d s
  | .udp => serveUdp p (p - 8) d s
  | .can => commitMessage p d.stamp (canEntries s (p - 11) d.key) (payloadRaw d.data) s

/-- The ports that hold an intake queue (R125): H1, H2, CAN1 to CAN4. -/
def queuePorts : List Nat := [9, 10, 11, 12, 13, 14]

/-- Messages of a port whose service has ended, with the port. -/
def servedOf (s : State) (p : Nat) : List (Nat × Pend) :=
  ((nth {} s.intake.ports p).waiting.takeWhile (fun d => decide (d.doneEl ≤ elNs s))).map (fun d => (p, d))

/-- Every message whose service has ended is served, in the order of arrival. -/
def serveIntake (s : State) : State :=
  let done := queuePorts.flatMap (servedOf s)
  let s1 := queuePorts.foldl (fun t p => setIntakePort p (fun x => { x with waiting := x.waiting.drop (servedOf s p).length }) t) s
  if onDuty s.st then (sortBy (fun a b => decide (a.2.arrEl < b.2.arrEl)) done).foldl (fun t x => servePend x.1 x.2 t) s1 else s1

/-- Time to serve a message: at most 50 µs (R125). -/
def serviceNs : Nat := Nat.min 50000 Config.intakeServiceNs

/-- Messages that an intake queue holds (R125). -/
def queueLen (p : Nat) : Nat := if p ≤ 10 then 256 else 128

/-- A message arrives at its port's intake queue and is counted; at a full queue the oldest is displaced (R125, R126). It is served after those
before it, and within 100 µs of its arrival (R26, R120). -/
def queueMessage (p : Nat) (d : Pend) (s0 : State) : State :=
  let n := match d.kind with
    | .nmea => if d.data.take 6 = head450 then (lines450 (d.data.drop 6)).length else 1
    | _ => 1
  let s := count p (cntRxs n) (serveIntake s0)
  let w := (nth {} s.intake.ports p).waiting
  let last := (w.getLast?.map (·.doneEl)).getD 0
  let d' := { d with arrEl := elNs s, doneEl := Nat.min (Nat.max (elNs s) last + serviceNs) (elNs s + 100000) }
  if queueLen p ≤ w.length then count p cntFlood (setIntakePort p (fun x => { x with waiting := w.drop 1 ++ [d'] }) s)
  else setIntakePort p (fun x => { x with waiting := w ++ [d'] }) s

/-- Transmission groups of IEC 61162-450, by number: group n has the address 239.192.0.n and the port 60000 + n (PRESUMED: the standard's,
notes/assumptions/16.md). -/
def group450 (n : Nat) : Bool := (decide (1 ≤ n) && decide (n ≤ 20)) || (decide (56 ≤ n) && decide (n ≤ 64))

/-- A 61162-450 datagram is accepted: whole, at one of the standard's ports, to the port's own address or to the group's (R110, R45). -/
def accepts450 (s : State) (p : Nat) (dst : IpDst) : Bool :=
  let n := dst.port - 60000
  !dst.fragment && group450 n && (dst.addr == hostAddr s (p - 9) || dst.addr == 0xEFC00000 + n)

/-- DATAGRAM_450_RECEIVE (R110, R125). -/
def datagram450 (port : Nat) (d : Datagram) (s : State) : State :=
  if onDuty s.st ∧ accepts450 s port d.dst = true then
    queueMessage port { kind := .nmea, stamp := ingressStamp s (port - 9), data := d.data } s
  else s

def execDatagram450Receive (dt port : Nat) (data : Datagram) (s : State) : Host.Outcome State Fault Refusal :=
  .next (settle (datagram450 port data (advance s dt)))

/-- The mailbox port and the PTP ports are no intake (R45, R114). -/
def notIntake (dstPort : Nat) : Bool := dstPort == 48000 || dstPort == 319 || dstPort == 320

/-- UDP_BINARY_RECEIVE (R113): a fragment is dropped (02 R45). -/
def execUdpBinaryReceive (dt port : Nat) (dst : IpDst) (_src : Src) (data : Bytes) (s : State) : Host.Outcome State Fault Refusal :=
  let t := advance s dt
  .next (settle (if onDuty s.st ∧ notIntake dst.port = false ∧ dst.fragment = false then
    queueMessage port { kind := .udp, key := dst.port, stamp := ingressStamp t (port - 9), data := data } t else t))

/-! ### Native values, the snapshot, the counters -/

/-- Entries of a kind and a port. -/
def nativeEntries (s : State) (kind port : Nat) : List Entry := s.cfg.img.map.filter (fun e => e.kind == kind && e.port == port)

/-- QUALITY at a commit from the quality `q` of the chain and `sq` of the source (R122): MASKED above UNSETTLED above HOLDOVER; what the chain
marks unsettled commits only with UNSETTLED_IN. -/
def commitQuality (e : Entry) (q sq : Nat) : Option Nat :=
  if q = 1 ∧ e.unsettledIn = false then none else some (if q = 3 ∨ sq = 3 then 3 else if q = 1 then 1 else sq)

/-- A native value of kinds 5 to 8 under DECODE 32, with the quality its chapter gives (R116 to R122); the entry named by QREF reads the same
value (03 R100). Ports of the counters do not cover these kinds. -/
def commitNative (e : Entry) (v : Int) (stamp q : Nat) (s : State) : State :=
  match fate s.cfg.img.map (fun _ => .val (Frac.ofInt v)) e with
  | .commit x sq => (match commitQuality e q sq with | some k => commitSlot e.dest x stamp k s | none => s)
  | _ => s

/-- A slot as intake closes: the live one, or, when a backward step of the timebase has left its stamp after T_IC, the one of the close
before (01 R25, 04 R106). -/
def closeSlot (tic : Nat) (before : Table Slot) (p : Nat × Slot) : Nat × Slot :=
  if p.2.stamp ≤ tic then p else let x := Table.get {} before p.1; (p.1, if x.stamp ≤ tic then x else {})

/-- The tick closes intake: the snapshot in the making takes the live store (01 R25). -/
def closeIntake (s : State) : State := { s with close := s.store.map (closeSlot s.frame.tic s.close) }

/-- Age of a slot at T_IC in µs (R106, 00 R9). -/
def slotAge (x : Slot) (tic : Nat) : Nat := if x.live then satU 32 ((tic - x.stamp) / 1000) else 0xFFFFFFFF

/-- STALE by R123 for one slot. -/
def staleSlot (e : Entry) (tic : Nat) (x : Slot) : Slot :=
  if e.maxAgeUs ≠ 0 ∧ e.maxAgeUs < slotAge x tic then { x with quality := 2, value := if e.staleAct = 1 then 0 else x.value } else x

/-- STALE by R123 in the snapshot and, where no commit came after it, in the live store. -/
def staleEntry (tic : Nat) (e : Entry) (p : Table Slot × Table Slot) : Table Slot × Table Slot :=
  match Table.find p.1 e.dest with
  | none => p
  | some x =>
    let y := staleSlot e tic x
    let l := Table.get {} p.2 e.dest
    (Table.set p.1 e.dest y, if l.seq = x.seq then Table.set p.2 e.dest { l with quality := y.quality, value := y.value } else p.2)

/-- P0 completes in time: the snapshot of the frame (01 R25, 04 R123). -/
def takeSnapshot (s : State) : State :=
  let es := s.cfg.img.map.filter (fun e => e.kind ≠ 0)
  let (sn, st) := es.foldl (fun p e => staleEntry s.frame.tic e p) (s.close, s.store)
  { s with snap := sn, store := st }

/-- The store is reset at every start of duty and every commit of an image (03 R103). -/
def resetStore (s : State) : State := { s with store := [], close := [], snap := [] }

/-- A locked serial port unlocks (R107). -/
def unlockPort (p : Nat) (s : State) : State := if (nth {} s.intake.ports p).baud = 0 then s else event 0x0402 (u8 p ++ u8 0) s

/-- Intake starts with duty: the store reset, serial ports unlocked, queues empty. -/
def startIntake (s0 : State) : State :=
  let s := [1, 2, 3, 4, 5, 6, 7, 8].foldl (fun t p => unlockPort p t) s0
  resetStore { s with intake := { s.intake with dup450 := [], dupUdp := []
                                                ports := s.intake.ports.map (fun q => { q with baud := 0, unlockEl := elNs s, waiting := [], floodRun := 0, tickFlood := q.cnt.floodDrops, rateBad := false }) } }

/-- Flood runs at a tick (Table 4-4): frames in a row in which FLOOD_DROPS grew. -/
def floodPort (q : PortSt) : PortSt :=
  { q with floodRun := if q.tickFlood < q.cnt.floodDrops then q.floodRun + 1 else 0, tickFlood := q.cnt.floodDrops }

def floodCond (s : State) : Bool := s.intake.ports.any (fun q => decide (20 ≤ q.floodRun))

/-- Flood runs at a tick; fault 0x0410 ends when no port floods. -/
def floodTick (s : State) : State :=
  let s1 := { s with intake := { s.intake with ports := s.intake.ports.map floodPort } }
  endCond 0x0410 (floodCond s1) s1

/-- FLOOD_FAULT (Table 4-4). -/
def floodFault (p : Nat) (s : State) : State := if 20 ≤ (nth {} s.intake.ports p).floodRun then faultCond 0x0410 true s else s

def execFloodFault (dt port : Nat) (s : State) : Host.Outcome State Fault Refusal :=
  .next (settle (floodFault port (advance s dt)))

/-- More than 10 % of at least 10 messages of a second were malformed or failed their checksum (Table 4-4). -/
def badRate (q : PortSt) : Bool :=
  let n := q.cnt.rx - q.last.rx
  let b := (q.cnt.malformed - q.last.malformed) + (q.cnt.cksumFail - q.last.cksumFail)
  decide (10 ≤ n) && decide (n < 10 * b)

/-- Counters of event 0x0401 (20 Table 20-9). -/
def counterBytes (c : Counters) : Bytes :=
  u32 c.rx ++ u32 c.unmatched ++ u32 c.malformed ++ u32 c.cksumFail ++ u32 c.rangeReject ++ u32 c.dupDrops ++ u32 c.floodDrops

/-- INTAKE_COUNTER_SECOND (R126): event 0x0401 for each port whose counters changed. -/
def counterSecond (s0 : State) : State :=
  let s := serveIntake s0
  let changed := (enumFrom 0 s.intake.ports).filter (fun x => decide (x.2.cnt ≠ x.2.last))
  let s1 := changed.foldl (fun t x => event 0x0401 (u8 x.1 ++ counterBytes x.2.cnt) t) s
  let s2 := { s1 with intake := { s1.intake with ports := s1.intake.ports.map (fun q => { q with rateBad := badRate q, last := q.cnt }) } }
  endCond 0x0411 (s2.intake.ports.any (·.rateBad)) s2

def execIntakeCounterSecond (dt : Nat) (s : State) : Host.Outcome State Fault Refusal :=
  let t := advance s dt
  .next (settle (match s.st with | .off => t | _ => counterSecond t))

/-- MALFORMED_RATE_FAULT (Table 4-4): the second that has just ended passed the rate. -/
def malformedRateFault (p : Nat) (s : State) : State := if (nth {} s.intake.ports p).rateBad then faultCond 0x0411 true s else s

def execMalformedRateFault (dt port : Nat) (s : State) : Host.Outcome State Fault Refusal :=
  .next (settle (malformedRateFault port (advance s dt)))

end Sys2Proof.Machine
end

