-- ==== Sys2Proof/Machine/Analog.lean ====
section
/-! DEFINITION. Analog inputs: the half-band stages, settling, the DC-blocking stage, group starts and channel faults (05_analog_chain
R128 to R147; notes/assumptions/17.md). Groups and channels are numbered from 1, as the manual numbers them. -/

namespace Sys2Proof.Machine

open Sys2Proof.Image (AnaGroup AnaChan Entry)

/-- Group block of group `g`. -/
def anaGroup (s : State) (g : Nat) : AnaGroup := nth {} s.cfg.img.analog.groups (g - 1)

/-- Channel block of AI`c`. -/
def anaChan (s : State) (c : Nat) : AnaChan := nth {} s.cfg.img.analog.chans (c - 1)

/-- Group of a channel (R136). -/
def groupOf (c : Nat) : Nat := (c - 1) / 4 + 1

/-- Channels of a group. -/
def chansOf (g : Nat) : List Nat := [4 * g - 3, 4 * g - 2, 4 * g - 1, 4 * g]

/-- A group has an enabled channel. -/
def groupUsed (s : State) (g : Nat) : Bool := (chansOf g).any (fun c => (anaChan s c).enable == 1)

/-- The groups in use. -/
def usedGroups (s : State) : List Nat := [1, 2, 3, 4].filter (groupUsed s)

/-- Taps of stage `i` (from 0): the built-in set has 47 (R132). -/
def tapCount (b : AnaGroup) (i : Nat) : Nat := let n := nth 0 b.taps i; if n = 0 then 47 else n

/-- L − 1 in modulator cycles (R138). -/
def respLen (b : AnaGroup) : Nat := 315 + ((List.range b.stages).map (fun i => (tapCount b i - 1) * 64 * 2 ^ i)).sum

/-- Sample period P in modulator cycles (Table 5-2). -/
def sampleCycles (b : AnaGroup) : Nat := 64 * 2 ^ b.stages

/-- Settling count K (R138). -/
def settleCount (b : AnaGroup) : Nat := (respLen b + sampleCycles b - 1) / sampleCycles b

/-- Group delay D in ns, at the nominal 1/6.144 MHz, rounded to 4 ns (R138, R139). -/
def groupDelayNs (b : AnaGroup) : Nat := 4 * (divEven ((respLen b * 15625 : Nat) : Int) 768).toNat

/-- The built-in set (R132): free taps kept to Q1.31 and to a sum of 0.25, which gives the stage its DC gain of 1. -/
def builtinTaps : List Int :=
  let rest := (List.range 11).map (fun i => satS 32 (Config.builtinTap (i + 1)))
  let first := 536870912 - sumI rest
  if satS 32 first = first then first :: rest else 536870912 :: List.replicate 11 0

/-- Tap at odd offset 2i + 1 of stage `k` (Table 5-3). -/
def tapAt (b : AnaGroup) (k i : Nat) : Int :=
  if nth 0 b.taps k = 0 then nth 0 builtinTaps i else nth 0 (nth [] b.coef k) i

/-- Fraction bits of the 48-bit accumulator (R134). -/
def accFrac : Nat := 31 + Config.accFracPick % 16

/-- A product of two Q1.31 numbers joins the accumulator, rounded to its fraction bits and saturated to its 48 bits (R134, R11). -/
def accumulate (acc p : Int) : Int := satS 48 (acc + divEven p (2 ^ (62 - accFrac)))

/-- One output of a half-band stage from its inputs, newest first; what a cleared stage has not received is 0 (R132, R134, R137). -/
def halfBandOut (b : AnaGroup) (k : Nat) (xs : List Int) : Int :=
  let n := tapCount b k
  let mid := (n - 1) / 2
  let side := (List.range ((n + 1) / 4)).flatMap (fun i =>
    [tapAt b k i * nth 0 xs (mid - (2 * i + 1)), tapAt b k i * nth 0 xs (mid + (2 * i + 1))])
  satS 32 (divEven ((1073741824 * nth 0 xs mid :: side).foldl accumulate 0) (2 ^ (accFrac - 31)))

/-- New inputs of a stage, oldest first, after those it holds, newest first: its outputs, one for every two inputs, and what it then holds. -/
def stageRun (b : AnaGroup) (k : Nat) : List Int → List Int → List Int × List Int
  | x :: y :: r, h =>
    let h1 := (y :: x :: h).take 47
    let t := stageRun b k r h1
    (halfBandOut b k h1 :: t.1, t.2)
  | _, h => ([], h)

/-- Binomial coefficient n over 4. -/
def over4 (n : Nat) : Int := ((n * (n - 1) * (n - 2) * (n - 3) / 24 : Nat) : Int)

/-- Coefficient `i` of the sinc⁵ prefilter, whose transfer function is ((1 − z⁻⁶⁴)/(1 − z⁻¹))⁵ (R131): 316 of them, with the sum 2³⁰. -/
def sincTap (i : Nat) : Int :=
  sumI ((enumFrom 0 [1, -5, 10, -10, 5, -1]).map (fun c => if 64 * c.1 ≤ i then c.2 * over4 (i - 64 * c.1 + 4) else 0))

/-- An output of the prefilter from the modulator outputs, newest first, normalised to Q1.31 by a shift (R131, R134). -/
def sincOut (h : List Int) : Int :=
  satS 32 (2 * sumI ((enumFrom 0 (h.take 316)).map (fun p => sincTap p.1 * p.2)))

/-- The prefilter over new modulator outputs, oldest first, in steps of 64 cycles: its outputs, oldest first, and what it then holds. -/
def sincRun : Nat → List Int → List Int → List Int × List Int
  | 0, _, h => ([], h)
  | f + 1, xs, h =>
    if xs.length < 64 then ([], h)
    else
      let h1 := ((xs.take 64).reverse ++ h).take 316
      let t := sincRun f (xs.drop 64) h1
      (sincOut h1 :: t.1, t.2)

/-- A modulator output of one bit: full scale, positive or negative (PRESUMED: a single-bit modulator, notes/assumptions/17.md). -/
def modLevel (b : Bool) : Int := if b then 1 else -1

/-- The half-band stages over the prefilter's outputs (R131): the outputs of the last stage, and what every stage then holds. -/
def stagesRun (b : AnaGroup) : Nat → Nat → List Int → List (List Int) → List Int × List (List Int)
  | 0, _, xs, _ => (xs, [])
  | f + 1, k, xs, hs =>
    let (ys, h) := stageRun b k xs (nth [] hs k)
    let t := stagesRun b f (k + 1) ys hs
    (t.1, h :: t.2)

/-- The chain over the modulator outputs of a delivery interval: the sample as Q1.31, the prefilter's and the stages' states. -/
def chainRun (b : AnaGroup) (mods : List Bool) (q : AnaChanSt) : Int × List Int × List (List Int) :=
  let (sinc, h) := sincRun mods.length (mods.map modLevel) q.mods
  let (ys, hs) := stagesRun b b.stages 0 sinc q.stages
  (ys.getLast?.getD 0, h, hs)

/-- Delivered span and valid band of a range (Table 5-1). -/
def spanOf : Nat → Int × Int
  | 0 => (-11000000, 11000000)
  | 1 => (-500000, 11000000)
  | _ => (0, 24000000)

def bandOf : Nat → Int × Int
  | 2 => (3600000, 21000000)
  | r => spanOf r

def setGroup (g : Nat) (f : AnaGroupSt → AnaGroupSt) (s : State) : State :=
  { s with analog := { s.analog with groups := upd f s.analog.groups (g - 1) } }

def setChan (c : Nat) (f : AnaChanSt → AnaChanSt) (s : State) : State :=
  { s with analog := { s.analog with chans := upd f s.analog.chans (c - 1) } }

def groupSt (s : State) (g : Nat) : AnaGroupSt := nth {} s.analog.groups (g - 1)
def chanSt (s : State) (c : Nat) : AnaChanSt := nth {} s.analog.chans (c - 1)

/-- Every group in use has delivered its first VALID sample (R144); with PD-AN failed bring-up continues without them (13 R366). -/
def analogSettled (s : State) : Bool := s.analog.failed || (usedGroups s).all (fun g => (groupSt s g).firstValid)

/-- Settling of bring-up step 7 (R144). -/
def noteSettled (s : State) : State :=
  if analogSettled s then bringProgress { s with bring := { s.bring with analogDone := true } } else s

/-- Since when a condition has held. -/
def since (now : Nat) (on : Bool) (o : Option Nat) : Option Nat := if on then some (o.getD now) else none

/-- A channel's condition of 1 s holds (Table 5-5). -/
def for1s (s : State) (o : Option Nat) : Bool := match o with | some t => decide (t + 1000000000 ≤ elNs s) | none => false

def anyChan (s : State) (f : AnaChanSt → Option Nat) : Bool := s.analog.chans.any (fun q => for1s s (f q))

/-- Channel faults whose conditions have ceased become inactive. -/
def endChanFaults (s : State) : State :=
  endCond 0x0512 (anyChan s (·.highEl)) (endCond 0x0511 (anyChan s (·.lowEl)) (endCond 0x0510 (anyChan s (·.ovlEl)) s))

/-- A group stops: its decimators, its channels' settling and their conditions are forgotten (R142, R143). -/
def stopGroup (g : Nat) (s : State) : State :=
  endChanFaults ((chansOf g).foldl (fun t c => setChan c (fun _ => {}) t) (setGroup g (fun _ => {}) s))

/-- PD-AN off: every group stopped (R142). -/
def analogOff (s : State) : State :=
  let s1 := [1, 2, 3, 4].foldl (fun t g => stopGroup g t) s
  { s1 with analog := { s1.analog with powered := false } }

/-- PD-AN on, when some channel is enabled and the domain works (R142). -/
def analogOn (s : State) : State :=
  if s.analog.powered = true then s
  else if s.analog.failed = true ∨ (usedGroups s).isEmpty = true then noteSettled s
  else
    let s1 := analogOff s
    { s1 with analog := { s1.analog with powered := true, powerEl := elNs s } }

/-- What settling stands at when step 7 is still to come (R144). -/
def noteAnalog (s : State) : State := { s with bring := { s.bring with analogDone := analogSettled s } }

/-- A group block held in reset does no work (19 R495). -/
def groupHeld (s : State) (g : Nat) : Bool := blockIdle s (2 + g)

/-- At a tick: a group that waits takes its start trigger, once PD-AN has been powered for 2 ms (R137). -/
def groupTick (s : State) (g : Nat) : State :=
  let q := groupSt s g
  if s.analog.powered ∧ groupUsed s g ∧ q.running = false ∧ q.startAt = none ∧ groupHeld s g = false ∧
     s.analog.powerEl + 2000000 ≤ elNs s then
    setGroup g (fun x => { x with startAt := some (s.frame.tic + (anaGroup s g).startOfsNs) }) s
  else s

def analogTick (s : State) : State := [1, 2, 3, 4].foldl groupTick s

/-- GROUP_START (R137, R145): decimators cleared, the count of K from the start, event 0x0501. -/
def groupStart (g : Nat) (s : State) : State :=
  match (groupSt s g).startAt with
  | some t =>
    if s.analog.powered ∧ t ≤ nowNs s then
      let b := anaGroup s g
      let s1 := setGroup g (fun _ => { running := true, startEl := elNs s }) s
      let s2 := (chansOf g).foldl (fun u c => setChan c (fun _ => { left := settleCount b }) u) s1
      event 0x0501 (u8 g ++ u8 b.stages ++ u8 (settleCount b) ++ u32 (respLen b) ++ u32 (groupDelayNs b)) s2
    else s
  | none => s

def execGroupStart (dt g : Nat) (s : State) : Host.Outcome State Fault Refusal :=
  .next (settle (groupStart g (advance s dt)))

/-- The channel is frozen at the window's end (R141). -/
def frozen (s : State) (b : AnaChan) (pre : Bool) : Bool :=
  if b.freezeSrc = 0xFF then pre
  else if b.freezeSrc = 0 then false
  else decide ((nth {} s.field.di (b.freezeSrc - 1)).level = some true)

/-- The native value of a chain output by the gain and offset in fuses, rounded by R11 (R129). -/
def calibrated (c range : Nat) (x : Int) : Int :=
  satS 32 (divEven (x * Config.calGain c range + 2147483648 * Config.calOffset c range) (2 ^ 47))

/-- Native value of the internal zero or reference (Table 5-4, INPUT_SEL 1 and 2). -/
def internalInput (range sel : Nat) : Int := if sel = 1 then 0 else if range = 2 then 12000000 else 5000000

/-- Greatest error of a reading (21 Table 21-6), in native units. -/
def errorBound (range : Nat) : Int := nth 32000 [30000, 15000, 32000] range

/-- The native value of a sample by INPUT_SEL: of the terminals through the chain, or of an internal source, with the terminals disconnected. -/
def nativeValue (c : Nat) (cb : AnaChan) (chain : Int) (free : Nat) : Int :=
  if cb.inputSel = 0 then calibrated c cb.range chain
  else internalInput cb.range cb.inputSel + clamp (-(errorBound cb.range)) (errorBound cb.range) (Config.internalErr free)

/-- What a sample delivers: saturated to the delivered span; an overloaded sample stands at the end of the span that its overload passed
(R140). -/
def delivered (range : Nat) (ovl high : Bool) (x : Int) : Int :=
  let (lo, hi) := spanOf range
  if ovl then (if high then hi else lo) else clamp lo hi x

/-- Quality of a sample (R140): 3 MASKED, 1 UNSETTLED, 0 VALID. -/
def sampleQuality (range : Nat) (ovl : Bool) (x : Int) (left : Nat) : Nat :=
  let (lo, hi) := bandOf range
  if ovl ∨ x < lo ∨ hi < x then 3 else if 0 < left then 1 else 0

/-- Update of M (R141), int64 with 32 fraction bits. -/
def dcUpdate (m x : Int) (shift : Nat) : Int := satS 64 (m + divEven (x * 4294967296 - m) (2 ^ shift))

/-- Time from the end of a window to the commit of its sample: 2 to 20 µs (R139). -/
def analogCommitNs : Nat := 2000 + Config.analogCommitPick % 18001

/-- A delivery instant of a channel has come: sample `n` is due `n` periods of P modulator cycles after the start (R137; a cycle is 15625/96 ns of
the oscillator, R131). -/
def sampleDue (s : State) (g n : Nat) : Bool :=
  decide (96 * (groupSt s g).startEl + n * sampleCycles (anaGroup s g) * 15625 ≤ 96 * elNs s)

/-- The samples of a channel whose commit is due enter the store (R139, 04 R119 to R122). -/
def serveChannel (c : Nat) (s : State) : State :=
  let q := chanSt s c
  let done := q.waiting.takeWhile (fun x => decide (x.doneEl ≤ elNs s))
  let s1 := setChan c (fun x => { x with waiting := q.waiting.drop done.length }) s
  if onDuty s.st then
    done.foldl (fun t x => (nativeEntries t 5 c).foldl (fun u e => commitNative e x.v x.stamp x.quality u) t) s1
  else s1

def serveAnalog (s : State) : State := (List.range 16).foldl (fun t c => serveChannel (c + 1) t) s

/-- What a sample of native value `x0` does to its channel: the quality delivered, the value delivered, the channel after it (R140, R141). -/
def judgeSample (s : State) (b : AnaGroup) (cb : AnaChan) (x0 : Int) (q : AnaChanSt) : Nat × Int × AnaChanSt :=
  let ql := sampleQuality cb.range q.ovl x0 q.left
  let x := delivered cb.range q.ovl q.ovlHigh x0
  let pre := q.preloaded || (ql == 0)
  let m0 := if ql = 0 ∧ q.preloaded = false then x * 4294967296 else q.m
  let dcb := decide (cb.dcbEn = 1)
  let y := if dcb then x - divEven m0 4294967296 else x
  let m1 := if dcb ∧ ql = 0 ∧ frozen s cb pre = false then dcUpdate m0 x cb.dcbShift else m0
  (ql, y,
   { q with left := if ql = 3 then settleCount b else q.left - (if ql = 1 then 1 else 0)
            preloaded := if dcb then pre else q.preloaded
            m := if dcb then m1 else q.m
            ovl := false
            ovlEl := if q.ovl || q.inReset then q.ovlEl else none
            lowEl := since (elNs s) (cb.range == 2 && decide (x0 < 3600000)) q.lowEl
            highEl := since (elNs s) (cb.range == 2 && decide (21000000 < x0)) q.highEl })

/-- ANALOG_SAMPLE (R131 to R141): a window of channel `c` ends; `mods` are the modulator's outputs for the terminals over the delivery interval,
oldest first. Sample 0 comes at the start trigger, from cleared states. -/
def analogSample (c : Nat) (mods : List Bool) (s : State) : State :=
  let g := groupOf c
  let b := anaGroup s g
  let cb := anaChan s c
  let q := chanSt s c
  if s.analog.powered ∧ (groupSt s g).running ∧ cb.enable = 1 ∧ groupHeld s g = false ∧ sampleDue s g q.n = true then
    let (out, h, hs) := if q.n = 0 then (0, [], []) else chainRun b (mods.take (sampleCycles b)) q
    let (ql, y, q1) := judgeSample s b cb (nativeValue c cb out s.nFree) q
    let smp : AnaSample := { v := y, stamp := nowNs s - groupDelayNs b, quality := ql, doneEl := elNs s + analogCommitNs }
    let s1 := setChan c (fun _ => { q1 with n := q.n + 1, mods := h, stages := hs, waiting := q.waiting ++ [smp] })
      (setGroup g (fun z => { z with firstValid := z.firstValid || (ql == 0) }) (nextFree s))
    let s2 := serveChannel c s1
    endChanFaults (if ql = 0 then noteSettled s2 else s2)
  else s

def execAnalogSample (dt ch : Nat) (mods : List Bool) (s : State) : Host.Outcome State Fault Refusal :=
  .next (settle (analogSample ch mods (advance s dt)))

/-- The input of a modulator lies beyond the delivered span of its range (R130); an internal source never does. -/
def beyondSpan (cb : AnaChan) (input : Int) : Bool :=
  let (lo, hi) := spanOf cb.range
  cb.inputSel == 0 && (decide (input < lo) || decide (hi < input))

/-- MODULATOR_OVERLOAD (R130): at a sinc output the modulator's input, in native units, lies beyond the span: the modulator is held in reset. -/
def modulatorOverload (c : Nat) (input : Int) (s : State) : State :=
  let cb := anaChan s c
  if s.analog.powered ∧ cb.enable = 1 ∧ beyondSpan cb input = true ∧ (chanSt s c).inReset = false then
    setChan c (fun q => { q with ovl := true, ovlHigh := decide (0 < input), inReset := true, resetEl := elNs s
                                 ovlEl := some (q.ovlEl.getD (elNs s)) }) s
  else s

def execModulatorOverload (dt : Nat) (ch : TerminalIn) (s : State) : Host.Outcome State Fault Refusal :=
  .next (settle (modulatorOverload ch.ch ch.input (advance s dt)))

/-- MODULATOR_RESTART (R130): after 64 modulator cycles, 64 × 15625/96 ns of the oscillator; event 0x0502. -/
def modulatorRestart (c : Nat) (s : State) : State :=
  let q := chanSt s c
  if q.inReset = true ∧ 96 * q.resetEl + 1000000 ≤ 96 * elNs s then
    event 0x0502 (u8 c) (setChan c (fun x => { x with inReset := false }) s)
  else s

def execModulatorRestart (dt ch : Nat) (s : State) : Host.Outcome State Fault Refusal :=
  .next (settle (modulatorRestart ch (advance s dt)))

/-- ANALOG_CHANNEL_FAULT (Table 5-5): faults 0x0510 to 0x0512 after 1 s. Their block is the channel's group. -/
def analogChannelFault (c : Nat) (s : State) : State :=
  let q := chanSt s c
  let bl := [Block.analog (groupOf c - 1)]
  let s1 := if for1s s q.ovlEl then faultSet 0x0510 true bl s else s
  let s2 := if for1s s q.lowEl then faultSet 0x0511 true bl s1 else s1
  if for1s s q.highEl then faultSet 0x0512 true bl s2 else s2

def execAnalogChannelFault (dt ch : Nat) (s : State) : Host.Outcome State Fault Refusal :=
  .next (settle (analogChannelFault ch (advance s dt)))

/-- A new image in force (R143): a group whose blocks differ is stopped, reloaded and started again. -/
def analogImage (old : Image.Analog) (s : State) : State :=
  let blk (a : Image.Analog) (g : Nat) := (nth {} a.groups (g - 1), (chansOf g).map (fun c => nth {} a.chans (c - 1)))
  let changed := [1, 2, 3, 4].filter (fun g => decide (blk old g ≠ blk s.cfg.img.analog g))
  let s1 := changed.foldl (fun t g => stopGroup g t) s
  if (usedGroups s1).isEmpty then analogOff s1
  else if s1.analog.powered then
    changed.foldl (fun t g => groupTick t g) s1
  else analogOn s1

end Sys2Proof.Machine
end

