-- ==== Sys2Proof/Machine/Paths.lean ====
section
/-! DEFINITION. Faults of the lock group that follow from paths and MOK inputs (12_lock_group R351, Table 12-13). -/

namespace Sys2Proof.Machine

/-- Exactly one of the two paths to a peer is down. -/
def onePathDown (p : Peer) : Bool := p.pathL1.isSome != p.pathL2.isSome

/-- Slot of the holder as a standby knows it: the sender of the last in-step beat with LEASE_HELD, CLAIM or RELEASE (R333). -/
def knownHolder (s : State) : Option Nat := s.lock.renewal.map (·.slot)

/-- Condition of fault 0x0C10 at a holder. -/
def cond0C10 (s : State) : Bool := s.lock.held && (otherSlots s).any (fun x => onePathDown (peerOf s x))

/-- A standby's holder is unreachable and its MOK input satisfies `f`. -/
def holderLost (s : State) (f : Nat → Bool) : Bool :=
  decide (s.st = .standby) && !undecided s &&
  (match knownHolder s with | some h => decide (h ≠ s.lock.slot) && !reachable (peerOf s h) && f h | none => false)

/-- Condition of fault 0x0C18. -/
def cond0C18 (s : State) : Bool :=
  holderLost s (mokDead s) || (s.lock.held && (otherSlots s).any (fun x => !reachable (peerOf s x) && mokDead s x))

/-- A peer has been unreachable for more than 2 × LEASE_LEN frames while its MOK read energised (R337). -/
def longLost (s : State) (slot : Nat) : Bool :=
  match (peerOf s slot).lostSince with | some f => decide (f + 2 * s.cfg.img.lock.leaseLen < frameIndex s) | none => false

/-- Condition of fault 0x0C11: a standby that lost its holder (R351), a holder that lost a higher slot (R337). -/
def cond0C11 (s : State) : Bool :=
  holderLost s (mokAlive s) || (s.lock.held && (otherSlots s).any (fun x => decide (s.lock.slot < x) && longLost s x))

/-- The conditions of R351 as they stand. -/
def linkFaults (s : State) : State :=
  faultCond 0x0C11 (cond0C11 s) (faultCond 0x0C18 (cond0C18 s) (faultCond 0x0C10 (cond0C10 s) s))

end Sys2Proof.Machine
end

