-- ==== Sys2Proof/Machine/FieldIo.lean ====
section
/-! DEFINITION. Digital inputs, captures, outputs, field supplies (18_field_io R469 to R487; 14_timebase_rtc R382; 17_safety R442,
R443; notes/assumptions/19.md). -/

namespace Sys2Proof.Machine

open Sys2Proof.Image (DiBlk DoBlk)

/-! ### Inputs -/

/-- PD-IO is powered (11 Table 11-1). -/
def ioPowered (m : ModState) : Bool :=
  match m with
  | .selftest => true
  | .ready => true
  | .active => true
  | .tripped => true
  | _ => false

/-- DI`n` is named as a PEER_MOK_DI. -/
def isPeerMok (s : State) (n : Nat) : Bool := s.cfg.img.lock.peerMokDi.contains n && decide (n ≠ 0)

/-- DI`n` samples (R473); PD-IO is also powered in a claim frame and after PREPARE (12 R344, R348). -/
def diSampling (s : State) (n : Nat) : Bool :=
  match s.st with
  | .off => false
  | m => ioPowered m || s.lock.claim.isSome || s.lock.prepared.isSome || isPeerMok s n

/-- A classed sample (R470): level and whether it is a broken sample. -/
structure Sample where
  hi : Bool := false
  br : Bool := false
  deriving DecidableEq, Repr

/-- Classes of R470, current in µA; between the bands the previous sample stands. -/
def classify (wb : Bool) (ua : Nat) (prev : Sample) : Sample :=
  if 2000 ≤ ua then { hi := true }
  else if 1500 < ua then prev
  else if 350 ≤ ua then {}
  else { br := wb }

/-- Runs stop counting where nothing further follows from them. -/
def capRun (n : Nat) : Nat := Nat.min 255 n

/-- The level filter takes a sample that is not broken (R471). -/
def filterLevel (n : Nat) (hi hold : Bool) (i : InSt) : InSt :=
  let run := if i.candRun ≠ 0 ∧ i.cand = hi then capRun (i.candRun + 1) else 1
  { i with cand := hi, candRun := run, level := if n ≤ run ∧ hold = false then some hi else i.level }

/-- An input takes a sample (R471, R472): with WB_EN a broken sample never feeds the level filter, and while the wire is broken the
level keeps its value. -/
def takeSample (n : Nat) (wb : Bool) (x : Sample) (i0 : InSt) : InSt :=
  let i := { i0 with prev := x.hi, prevBr := x.br }
  if wb then
    if x.br then
      let r := capRun (i.brokenRun + 1)
      { i with brokenRun := r, wholeRun := 0, broken := if 9 ≤ r then some true else i.broken }
    else
      let r := capRun (i.wholeRun + 1)
      let b := if 9 ≤ r then some false else i.broken
      filterLevel n x.hi (b == some true) { i with brokenRun := 0, wholeRun := r, broken := b }
  else filterLevel n x.hi false i

/-- One window of an input. -/
def window (blk : DiBlk) (ua : Nat) (i : InSt) : InSt :=
  takeSample blk.filtN blk.wbEn (classify blk.wbEn ua { hi := i.prev, br := i.prevBr }) i

/-- Input block of DI`n`. -/
def diBlock (s : State) (n : Nat) : DiBlk := nth {} s.cfg.img.fieldIo.inputs (n - 1)

/-- Block of a safety channel: nine samples, broken wires always watched (17 R442, R443). -/
def sxBlock : DiBlk := { filtN := 9, wbEn := true }

/-- KIND 6 entries of DI`n` at the window's end (04 R116). -/
def commitInput (n : Nat) (s : State) : State :=
  let i := nth {} s.field.di (n - 1)
  match i.level with
  | none => s
  | some l =>
    if onDuty s.st then
      (nativeEntries s 6 n).foldl (fun t e => commitNative e (if l then 1 else 0) (nowNs s) (if i.broken = some true then 3 else 0) t) s
    else s

/-- Some digital input's wire is broken (Table 18-7). -/
def anyWireBroken (s : State) : Bool := s.field.di.any (fun i => i.broken == some true)

/-- A safety channel's wire is broken (17 Table 17-10): a channel of a pair that a function uses. -/
def pairBroken (s : State) (p : Nat) : Bool :=
  (nth {} s.safety.sx (2 * p - 2)).broken == some true || (nth {} s.safety.sx (2 * p - 1)).broken == some true

def anyPairBroken (s : State) : Bool := s.cfg.img.safety.funcs.any (fun f => pairBroken s f.pair)

/-- Digital inputs of a window. -/
def windowDi (w : WindowIn) (s : State) : State :=
  let di := (enumFrom 1 s.field.di).map (fun p =>
    if diSampling s p.1 then window (diBlock s p.1) (nth 0 w.di (p.1 - 1)) p.2 else ({} : InSt))
  let s1 := { s with field := { s.field with di := di } }
  let s2 := (List.range 32).foldl (fun t k => commitInput (k + 1) t) s1
  faultCond 0x1210 (anyWireBroken s2) s2

/-- Safety channels of a window: their samples belong to the safety pair (17 R442). -/
def windowSx (w : WindowIn) (s : State) : State :=
  if s.safety.running then
    let sx := (enumFrom 0 s.safety.sx).map (fun p => window sxBlock (nth 0 w.sx p.1) p.2)
    let s1 := { s with safety := { s.safety with sx := sx } }
    faultCond 0x1111 (anyPairBroken s1) s1
  else s

/-! ### Field supplies -/

def setSupply (i : Nat) (f : SupplySt → SupplySt) (s : State) : State :=
  { s with field := { s.field with supply := upd f s.field.supply i } }

def supplyOf (s : State) (i : Nat) : SupplySt := nth {} s.field.supply i

/-- One measurement of a supply (R480, Table 18-2). -/
def measureSupply (el mv : Nat) (q : SupplySt) : SupplySt :=
  let run (k thr : Nat) : Nat := if mv < thr then capRun (nth 0 q.below k + 1) else 0
  let b := [run 0 19200, run 1 16000, run 2 12000]
  let c (k : Nat) : Bool := nth false q.cond k || decide (2 ≤ nth 0 b k)
  { q with mv := mv, below := b, cond := [c 0, c 1, c 2], goodRun := if 19700 ≤ mv then capRun (q.goodRun + 1) else 0
           okEl := if 18000 ≤ mv then some (q.okEl.getD el) else none }

/-- Supply faults as the conditions stand (Table 18-7). -/
def supplyFaults (s : State) : State :=
  let any (f : SupplySt → Bool) : Bool := s.field.supply.any f
  faultCond 0x1216 (any (·.latched)) (faultCond 0x1215 (any (fun q => nth false q.cond 1)) (faultCond 0x1214 (any (fun q => nth false q.cond 0)) s))

/-- Channels of a group (R475), by index from 0. -/
def groupChans (g : Nat) : List Nat := (List.range 12).map (· + 12 * g)

def doOf (s : State) (c : Nat) : DoSt := nth {} s.field.dout c

/-- The level of an output at its pin: switched on, and not yet reached by its group's staged switch-off (R481). -/
def doLevel (s : State) (c : Nat) : Bool :=
  let d := doOf s c
  d.pin && (match d.offEl with | some t => decide (elNs s < t) | none => true)

/-- The staged switch-off reaches a channel (R481): in ascending SAG_RANK, one every 50 µs from the crossing on. -/
def stageOff (s : State) (c : Nat) (d : DoSt) : DoSt :=
  if d.pin then { d with offEl := some (elNs s + 50000 * (nth {} s.cfg.img.fieldIo.outputs c).sagRank) } else d

/-- A group is switched off below 12.0 V (R481): every channel off in its turn, latched, DEGRADED. -/
def groupOff (g : Nat) (s : State) : State :=
  let s1 := setSupply g (fun q => { q with latched := true, armLow := false, armed := false }) s
  let s2 := (groupChans g).foldl (fun t c => { t with field := { t.field with dout := upd (stageOff s c) t.field.dout c } }) s1
  degrade 3 (faultCond 0x1216 true (event 0x1201 (u8 1 ++ u8 (g + 1) ++ u16 (Nat.min 0xFFFF (supplyOf s g).mv)) s2))

/-- The latch of a group is released (R481, R486). -/
def groupRelease (g : Nat) (s : State) : State :=
  let s1 := setSupply g (fun q => { q with latched := false, armLow := false, armed := false, cond := upd (fun _ => false) q.cond 2 }) s
  supplyFaults (event 0x1201 (u8 0 ++ u8 (g + 1) ++ u16 (Nat.min 0xFFFF (supplyOf s g).mv)) s1)

/-- A supply has stood at or above 18.0 V for 100 ms. -/
def supplyOk100 (s : State) (i : Nat) : Bool :=
  match (supplyOf s i).okEl with | some t => decide (t + 100000000 ≤ elNs s) | none => false

/-- The latch is released once the supply has recovered and the group is re-armed (R481). -/
def tryRelease (g : Nat) (s : State) : State :=
  if (supplyOf s g).latched ∧ (supplyOf s g).armed ∧ supplyOk100 s g then groupRelease g s else s

/-- FS_ARM_SLOT seen in the snapshot of a frame: at 0, then in a later one at 1, each VALID (R481). -/
def armStep (g : Nat) (s : State) : State :=
  let slot := nth 0xFFFF s.cfg.img.fieldIo.fsArmSlot g
  let q := supplyOf s g
  if q.latched ∧ slot ≠ 0xFFFF then
    let x := Table.get {} s.snap slot
    let s1 := if x.live ∧ x.quality = 0 then
        (if x.value = 0 then setSupply g (fun z => { z with armLow := true }) s
         else if q.armLow then setSupply g (fun z => { z with armed := true }) s else s)
      else s
    tryRelease g s1
  else s

/-- Measurements of both supplies at the end of a window, while PD-IO is powered (R480). -/
def windowSupply (w : WindowIn) (s : State) : State :=
  if ioPowered s.st then
    let s1 := setSupply 1 (measureSupply (elNs s) w.fs2Mv) (setSupply 0 (measureSupply (elNs s) w.fs1Mv) s)
    let off (g : Nat) (t : State) : State := if nth false (supplyOf t g).cond 2 ∧ (supplyOf t g).latched = false then groupOff g t else t
    supplyFaults (off 1 (off 0 s1))
  else s

/-- INPUT_WINDOW_END (R469 to R473, R480; 17 R442; 12 R351): every input, the supplies, and what the MOK inputs say. -/
def inputWindow (w : WindowIn) (s : State) : State :=
  match s.st with
  | .off => s
  | _ => linkFaults (windowSupply w (windowSx w (windowDi w s)))

def execInputWindowEnd (dt : Nat) (w : WindowIn) (s : State) : Host.Outcome State Fault Refusal :=
  .next (settle (inputWindow w (advance s dt)))

/-- FIELD_SUPPLY_RECOVERED (Table 18-2). -/
def supplyRecovered (i : Nat) (l : FsLevel) (s : State) : State :=
  match l with
  | .below192 => if 4 ≤ (supplyOf s i).goodRun then supplyFaults (setSupply i (fun q => { q with cond := upd (fun _ => false) q.cond 0 }) s) else s
  | .below160 =>
    if supplyOk100 s i then
      let s1 := setSupply i (fun q => { q with cond := upd (fun _ => false) q.cond 1 }) s
      supplyFaults { s1 with safety := { s1.safety with supply := upd (fun _ => false) s1.safety.supply i } }
    else s
  | .below120 => tryRelease i s

def execFieldSupplyRecovered (dt supply : Nat) (level : FsLevel) (s : State) : Host.Outcome State Fault Refusal :=
  .next (settle (supplyRecovered supply level (advance s dt)))

/-! ### Captures -/

/-- Time from an edge to its commit: at most 100 µs (04 R120). -/
def captureNs : Nat := Nat.min 100000 Config.captureServiceNs

/-- Commit the edges of a unit whose service has ended (04 R117). -/
def serveUnit (u : Nat) (s : State) : State :=
  let q := nth [] s.time.captures u
  let done := q.takeWhile (fun x => decide (x.2 ≤ elNs s))
  let s1 := { s with time := { s.time with captures := upd (fun _ => q.drop done.length) s.time.captures u } }
  if onDuty s.st then
    done.foldl (fun t x => (nativeEntries t 7 u).foldl (fun v e => commitNative e x.1 x.1 0 v) t) s1
  else s1

def serveCaptures (s : State) : State := (List.range 16).foldl (fun t u => serveUnit u t) s

/-- Everything of intake whose commit is due by now enters the store: datagrams and frames, captures, analog samples (04 R120, 05 R139). -/
def serveAll (s : State) : State := serveAnalog (serveCaptures (serveIntake s))

/-- The edge that a unit takes: CAP0 rising edges of PPS_IN, CAP1 to CAP15 as CAP_SRC selects (14 R382). -/
def capTakes (s : State) (u : Nat) (rising : Bool) : Bool :=
  if u = 0 then rising
  else
    let c := nth 0 s.cfg.img.time.capSrc (u - 1)
    (if rising then c.testBit 6 else c.testBit 7) && ioPowered s.st

/-- Offset of an instant from the nearest whole second, ns. -/
def secondOfs (t : Nat) : Int := let r := t % 1000000000; if r < 500000000 then (r : Int) else (r : Int) - 1000000000

/-- CAPTURE_EDGE (14 R382, R474): the stamp less the front end's 1.6 µs on an input; a ninth uncommitted edge is dropped. -/
def captureEdge (u : Nat) (rising : Bool) (s0 : State) : State :=
  let s := serveUnit u s0
  if capTakes s u rising then
    let stamp := if u = 0 then nowNs s else nowNs s - 1600
    let s1 := if u = 0 then { s with time := { s.time with ppsInOfs := some (secondOfs stamp, elNs s) } } else s
    if 8 ≤ (nth [] s1.time.captures u).length then
      faultOnce 0x0E14 { s1 with time := { s1.time with capDrops := Nat.min 0xFFFFFFFF (s1.time.capDrops + 1) } }
    else { s1 with time := { s1.time with captures := upd (fun l => l ++ [(stamp, elNs s + captureNs)]) s1.time.captures u } }
  else s

def execCaptureEdge (dt unit : Nat) (rising : Bool) (s : State) : Host.Outcome State Fault Refusal :=
  let t := advance s dt
  .next (settle (match s.st with | .off => t | _ => captureEdge unit rising t))

/-! ### Outputs -/

def setDo (c : Nat) (f : DoSt → DoSt) (s : State) : State := { s with field := { s.field with dout := upd f s.field.dout c } }

/-- Faults of latched channels (Table 18-7). -/
def latchFaults (s : State) : State :=
  faultCond 0x1212 (s.field.dout.any (fun d => d.latch == 2)) (faultCond 0x1211 (s.field.dout.any (fun d => d.latch == 1)) s)

/-- Data of event 0x1202: latched (1) or cleared (0), channel, OVERLOAD (1) or OVERHEAT (0) (20 R541). -/
def latchData (on : Bool) (c latch : Nat) : Bytes := flag on ++ u8 (c + 1) ++ u8 (if latch = 1 then 1 else 0)

/-- Internal signals, Table 18-1. -/
def internalSignal (s : State) (sel : Nat) : Bool :=
  match sel with
  | 0 => s.lock.held
  | 1 => decide (s.st = .active)
  | 2 => s.faults.degraded
  | 3 => s.faults.src.any (fun p => p.2.active && decide (2 ≤ p.2.sev))
  | 4 => s.safety.funcs.any (fun f => decide (2 ≤ f.st))
  | 5 => s.alloc.slackSet
  | _ => false

/-- The value that a channel takes in a frame (R478). -/
def doValue (s : State) (b : DoBlk) (d : DoSt) : Bool :=
  match b.src with
  | 1 =>
    let x := Table.get {} s.snap b.sel
    if x.quality = 0 ∨ x.quality = 5 then decide (x.value ≠ 0)
    else (match b.failVal with | 0 => false | 1 => true | _ => d.value)
  | 2 => internalSignal s b.sel
  | _ => false

/-- One channel at the start of P5 (R476, R478, R481); one that the staged switch-off of its latched group has not reached keeps its turn. -/
def applyDo (c : Nat) (s : State) : State :=
  let d := doOf s c
  let off := (supplyOf s (c / 12)).latched
  let staged := off && d.offEl.isSome && doLevel s c
  let v := doValue s (nth {} s.cfg.img.fieldIo.outputs c) d
  if d.latch ≠ 0 then
    (if v then setDo c (fun x => { x with value := v }) s
     else event 0x1202 (latchData false c d.latch) (setDo c (fun x => { x with value := false, pin := false, latch := 0 }) s))
  else setDo c (fun x => { x with value := v, pin := v && (!off || staged), offEl := if v && staged then x.offEl else none }) s

/-- The start of P5: on duty once bring-up is complete (R478). -/
def applyOutputs (s : State) : State :=
  if onDuty s.st ∧ s.bring.complete then latchFaults ((List.range 24).foldl (fun t c => applyDo c t) s) else s

/-- Every output off: outside duty, at power-fail, on leaving duty (R478). -/
def outputsOff (s : State) : State :=
  { s with field := { s.field with dout := s.field.dout.map (fun d => { d with pin := false, value := false }) } }

/-- A channel latches (R476). -/
def latchDo (c kind : Nat) (s : State) : State :=
  if doLevel s c then
    latchFaults (event 0x1202 (latchData true c kind) (setDo c (fun d => { d with pin := false, latch := kind }) s))
  else s

def execOutputOverload (dt ch : Nat) (s : State) : Host.Outcome State Fault Refusal :=
  .next (settle (latchDo (ch - 1) 1 (advance s dt)))

def execOutputOverheat (dt ch : Nat) (s : State) : Host.Outcome State Fault Refusal :=
  .next (settle ((fun t => latchDo (ch - 1) 2 t) (advance s dt)))

/-- GROUP_OVERCURRENT (R479): the group's current has exceeded 6.0 A for 100 ms, or no longer does. -/
def groupOvercurrent (g : Nat) (still : Bool) (s : State) : State :=
  if ioPowered s.st then
    let s1 := setSupply g (fun q => { q with over_ := still }) s
    faultCond 0x1213 (s1.field.supply.any (·.over_)) s1
  else s

def execGroupOvercurrent (dt g : Nat) (still : Bool) (s : State) : Host.Outcome State Fault Refusal :=
  .next (settle (groupOvercurrent g still (advance s dt)))

/-- A committed image takes effect (R486): latched channels and groups are released; input filters start again. -/
def fieldImage (s : State) : State :=
  let rel (g : Nat) (t : State) : State := if (supplyOf t g).latched then groupRelease g t else t
  let s1 := rel 1 (rel 0 s)
  let clr (c : Nat) (t : State) : State :=
    if (doOf t c).latch ≠ 0 then event 0x1202 (latchData false c (doOf t c).latch) (setDo c (fun x => { x with latch := 0 }) t) else t
  latchFaults ((List.range 24).foldl (fun t c => clr c t) s1)

/-- PD-IO is switched off: outputs off, its inputs forget, measurements and their conditions end; latches stay (R476, R481). -/
def ioOff (s : State) : State :=
  let s1 := outputsOff s
  let di := (enumFrom 1 s1.field.di).map (fun p => if isPeerMok s1 p.1 then p.2 else ({} : InSt))
  let sup := s1.field.supply.map (fun q => { q with below := [0, 0, 0], cond := [false, false, nth false q.cond 2], goodRun := 0, okEl := none, over_ := false })
  let s2 := { s1 with field := { s1.field with di := di, supply := sup } }
  faultCond 0x1213 false (faultCond 0x1210 (anyWireBroken s2) (supplyFaults s2))

end Sys2Proof.Machine
end

