-- ==== Sys2Proof/Machine/Flags.lean ====
section
/-! DEFINITION. Status words that several chapters carry: FRAME_STATUS (01_frame Table 1-6) and SFLAGS (02_mailbox Table 2-10). -/

namespace Sys2Proof.Machine

/-- FREE_US (Table 1-6): 0 when any phase is late, 65,535 when none is counted. -/
def freeUs (x : FrameStatus) : Nat :=
  if x.late.any id then 0 else match x.freeUs with | some n => Nat.min n 65535 | none => 65535

/-- FRAME_STATUS, Table 1-6. -/
def statusWord (x : FrameStatus) : Nat :=
  (x.mode % 4) * 2 ^ 30 + (if x.modePending then 2 ^ 29 else 0) + (if x.stretch then 2 ^ 28 else 0) + (if x.overrun then 2 ^ 27 else 0) +
  2 ^ 20 * maskOf (x.late.take 7) + freeUs x

/-- SFLAGS, Table 2-10. -/
def sflags (s : State) : Nat :=
  maskOf [s.faults.degraded, s.lock.held, decide (0 < s.mb.unlock), s.frame.pendingMode.isSome]

end Sys2Proof.Machine
end

