-- ==== Sys2Proof/Machine/Osc.lean ====
section
/-! DEFINITION. The Ocrax Safe Channel: telegrams, connections, the consumer's checks (17_safety R458 to R464, R467;
notes/assumptions/20.md). -/

namespace Sys2Proof.Machine

open Sys2Proof.Image (Conn Entry)

/-- Connection block `n`. -/
def connCfg (s : State) (n : Nat) : Conn := nth {} s.cfg.img.osc.conns n

/-- Connection `n`. -/
def connOf (s : State) (n : Nat) : OscConn := nth {} s.osc n

def setConn (n : Nat) (f : OscConn → OscConn) (s : State) : State := { s with osc := upd f s.osc n }

/-- A telegram of version 1 or 2 (Table 17-3, R458). -/
def telegram (ver type seq conn tExp : Nat) (data : Bytes) : Bytes :=
  let h := u8 (16 * ver + type) ++ u8 0 ++ u16 seq ++ (if ver = 1 then u16 conn else u32 conn) ++ u16 tExp ++ u8 data.length ++ u8 0 ++ data
  h ++ u32 (scrc h)

/-- Identity of a connection in a telegram of a version. -/
def connIdent (c : Conn) (ver : Nat) : Nat := if ver = 1 then c.connId16 else c.connId

/-- A telegram as received. -/
structure Telegram where
  ver : Nat := 2
  type : Nat := 0
  flags : Nat := 0
  seq : Nat := 0
  conn : Nat := 0
  tExp : Nat := 0
  res : Nat := 0
  data : Bytes := []
  deriving DecidableEq, Repr

/-- A telegram read by its OVERSION, when its SCRC is correct (R459, check 1 of R460). -/
def readTelegram (bs : Bytes) : Option Telegram :=
  let ver := byteAt bs 0 / 16
  let v1 := decide (ver = 1)
  let h := if v1 then 10 else 12
  let dl := byteAt bs (h - 2)
  if h + dl + 4 ≤ bs.length ∧ scrc (bs.take (h + dl)) = fld bs (h + dl) 4 then
    some { ver := ver, type := byteAt bs 0 % 16, flags := byteAt bs 1, seq := fld bs 2 2, conn := fld bs 4 (if v1 then 2 else 4)
           tExp := fld bs (h - 4) 2, res := byteAt bs (h - 1), data := slice bs h dl }
  else none

/-- DATA_LEN that Table 17-4 gives a drive's telegram. -/
def dataLenOk (type n : Nat) : Bool :=
  if type = 2 then n == 8 else if type = 5 then decide (8 ≤ n) && decide (n ≤ 48) else false

/-- Checks 1 to 4 of R460 on an open connection: the number of the first that fails. -/
def failedCheck (c : Conn) (q : OscConn) (bs : Bytes) : Option Nat :=
  match readTelegram bs with
  | none => some 1
  | some t =>
    if t.ver ≠ q.ver ∨ t.type ≠ 5 ∨ dataLenOk t.type t.data.length = false ∨ t.flags ≠ 0 ∨ t.res ≠ 0 then some 2
    else if t.conn ≠ connIdent c q.ver then some 3
    else
      let d := (t.seq + 65536 - q.rxLast % 65536) % 65536
      if 1 ≤ d ∧ d ≤ 64 then none else some 4

/-- Event 0x1105 (20 Table 20-9). -/
def connEvent (n : Nat) (opened : Bool) (ver : Nat) (s : State) : State := event 0x1105 (u8 n ++ flag opened ++ u8 ver) s

/-- Fault 0x0D12 lasts until every connection is open. -/
def connFault (s : State) : State := endCond 0x0D12 (!allConnsOpen s) s

/-- A connection closes; on duty it is opened again by R462 from its next KIND 2 slot. -/
def closeConn (n : Nat) (s : State) : State :=
  let q := connOf s n
  let s1 := setConn n (fun _ => {}) s
  if q.st = 2 then connEvent n false q.ver s1 else if q.st = 1 then connEvent n false 0 s1 else s1

/-- The watchdog of a connection has expired (check 5 of R460). -/
def watchdogExpired (n : Nat) (s : State) : State :=
  let s1 := closeConn n s
  if onDuty s.st then faultOnce 0x1115 s1 else s1

/-- A SETUP_ACK that passes checks 1 to 3 in version 1 layout, with CONN_ID echoed (R462). -/
def ackOk (c : Conn) (bs : Bytes) : Option (Telegram × Nat) :=
  match readTelegram bs with
  | none => none
  | some t =>
    if t.ver = 1 ∧ t.type = 2 ∧ dataLenOk 2 t.data.length = true ∧ t.flags = 0 ∧ t.res = 0 ∧ t.conn = c.connId16 ∧ fld t.data 4 4 = c.connId then
      some (t, byteAt t.data 0)
    else none

/-- A SETUP_ACK for an attempt in progress opens the connection at VER_CHOSEN, or ends the attempt (R461, R462). -/
def setupAck (n : Nat) (bs : Bytes) (s : State) : State :=
  let c := connCfg s n
  if (connOf s n).st = 1 then
    match ackOk c bs with
    | none => s
    | some (t, v) =>
      if v = 0 ∨ c.verMax < v then setConn n (fun q => { q with st := 0 }) s
      else
        let s1 := setConn n (fun q => { q with st := 2, ver := v, txSeq := 1, rxLast := 0, rxEl := elNs s, rxExpMs := t.tExp }) s
        bringProgress (connFault (connEvent n true v s1))
  else s

/-- A telegram on the identity of connection `n`: the new state, and whether it was accepted (R460). -/
def oscReceive (n : Nat) (bs : Bytes) (s : State) : State × Bool :=
  let q := connOf s n
  if byteAt bs 0 % 16 = 2 ∧ (readTelegram bs).isSome = true then (setupAck n bs s, false)
  else if q.st ≠ 2 then (s, false)
  else match failedCheck (connCfg s n) q bs with
    | some k => (event 0x1106 (u8 k ++ u8 n) s, false)
    | none =>
      match readTelegram bs with
      | none => (s, false)
      | some t =>
        if q.rxEl + q.rxExpMs * 1000000 < elNs s then (watchdogExpired n s, false)
        else (setConn n (fun x => { x with rxLast := t.seq, rxEl := elNs s, rxExpMs := t.tExp }) s, true)

/-- A frame reaches the receive queue of controller `c` (0 to 3) (04 R115, R125). -/
def canIntake (c idWord : Nat) (data : Bytes) (s : State) : State :=
  queueMessage (11 + c) { kind := .can, key := idWord, stamp := nowNs s, data := data } s

/-- A frame that passes and that no entry reads (16 R435, 04 R126). -/
def canUnread (c : Nat) (s : State) : State := count (11 + c) cntUnmatched (count (11 + c) cntRx s)

/-- A telegram arrives on a connection (R460, R467): of a CAN connection, an accepted DSTATUS commits to the Channel Map. -/
def oscArrive (n : Nat) (bs : Bytes) (s : State) : State :=
  let c := connCfg s n
  if onDuty s.st ∧ n < s.osc.length then
    let (s1, ok) := oscReceive n bs s
    if c.ctrl < 4 then (if ok then canIntake c.ctrl c.rxId bs s1 else canUnread c.ctrl s1) else s1
  else s

def execOscTelegramReceive (dt conn : Nat) (data : Bytes) (s : State) : Host.Outcome State Fault Refusal :=
  .next (settle (oscArrive conn data (advance s dt)))

def execSetupAck (dt conn : Nat) (data : Bytes) (s : State) : Host.Outcome State Fault Refusal :=
  let t := advance s dt
  .next (settle (if onDuty s.st then setupAck conn data t else t))

/-- OSC_WATCHDOG_EXPIRY (R460): no telegram within T_EXP_MS. -/
def watchdogRow (n : Nat) (s : State) : State :=
  let q := connOf s n
  if q.st = 2 ∧ q.watchPending = false ∧ q.rxEl + q.rxExpMs * 1000000 < elNs s then watchdogExpired n s else s

def execOscWatchdogExpiry (dt conn : Nat) (s : State) : Host.Outcome State Fault Refusal :=
  .next (settle (watchdogRow conn (advance s dt)))

/-- MSTATUS data (Table 17-4). -/
def mstatusData (s : State) : Bytes := u8 (stateCode s.st) ++ u8 (sflags s) ++ u16 0 ++ u32 (frameIndex s % 2 ^ 32)

/-- The next telegram that a connection produces; SEQ advances by 1 (R461). -/
def placeTelegram (n type : Nat) (data : Bytes) (s : State) : State × Bytes :=
  let q := connOf s n
  let c := connCfg s n
  (setConn n (fun x => { x with txSeq := (x.txSeq + 1) % 65536 }) s, telegram q.ver type q.txSeq (connIdent c q.ver) c.tExpMs data)

/-- SETUP (R462): version 1 layout, SEQ 0. -/
def setupTelegram (c : Conn) : Bytes := telegram 1 1 0 c.connId16 c.tExpMs (u8 c.verMax ++ zeros 3 ++ u32 c.connId)

/-- A SETUP is due: bring-up has come to step 6 (13 R363), the connection is not open, and 100 ms have passed since the last SETUP (R462). -/
def setupDue (s : State) (n : Nat) : Bool :=
  let q := connOf s n
  decide (6 ≤ s.bring.step) && decide (q.st ≠ 2) && (match q.setupEl with | some t => decide (t + 100000000 ≤ elNs s) | none => true)

/-- A SETUP is sent: an attempt is in progress. -/
def sendSetup (n : Nat) (s : State) : State := setConn n (fun q => { q with st := 1, setupEl := some (elNs s) }) s

/-- A datagram of a UDP connection leaves on H1 and H2 (R464). -/
def sendUdp (c : Conn) (bs : Bytes) (s : State) : State :=
  let d : Src := { addr := c.dstAddr, port := c.dstPort }
  emitAll [.msg .h1 d bs, .msg .h2 d bs] s

/-- Every connection closes (13 R365): connections as after a start. -/
def closeAll (s : State) : State :=
  let s1 := (List.range s.osc.length).foldl (fun t n => closeConn n t) s
  { s1 with osc := List.replicate s1.cfg.img.osc.conns.length {} }

end Sys2Proof.Machine
end

