-- ==== Sys2Proof/Machine/Can.lean ====
section
/-! DEFINITION. CAN controllers and the schedule matrix (16_can R419 to R439; notes/assumptions/21.md). Controllers are numbered 0 to
3 inside, 1 to 4 in commands and events. -/

namespace Sys2Proof.Machine

open Sys2Proof.Image (Ctrl)

/-- Controller block. -/
def ctrlCfg (s : State) (c : Nat) : Ctrl := nth {} s.cfg.img.schedule.ctrls c

def canOf (s : State) (c : Nat) : CanSt := nth {} s.can c

def setCan (c : Nat) (f : CanSt → CanSt) (s : State) : State := { s with can := upd f s.can c }

/-- Count on a controller (R438). -/
def canCount (c : Nat) (f : CanCounters → CanCounters) (s : State) : State := setCan c (fun q => { q with cnt := f q.cnt }) s

/-- Entry `e` of the matrix. -/
def slotCfg (s : State) (e : Nat) : Image.Slot := nth {} s.cfg.img.schedule.slots e

def slotMsg (s : State) (e : Nat) : SlotMsg := nth {} s.slots e

def setSlot (e : Nat) (f : SlotMsg → SlotMsg) (s : State) : State := { s with slots := upd f s.slots e }

def setSafe (c : Nat) (f : SlotMsg → SlotMsg) (s : State) : State := setCan c (fun q => { q with safe := f q.safe }) s

/-- A controller takes part in bus traffic: it receives on duty, and listens in STANDBY (R423, R424). -/
def canLive (s : State) (c : Nat) : Bool :=
  let m := (ctrlCfg s c).mode
  (onDuty s.st || decide (s.st = .standby)) && (m == 1 || m == 2) && decide ((canOf s c).st ≠ .busOff) && !blockIdle s (8 + c)

/-- A controller sends: MODE 1 on duty, not bus-off, not held in reset. -/
def canSends (s : State) (c : Nat) : Bool := onDuty s.st && (ctrlCfg s c).mode == 1 && canLive s c

/-! ### Error states -/

/-- Error state of the counters (ISO 11898-1; notes/assumptions/21.md). -/
def stateFor (tec rec : Nat) : CanState := if 255 < tec then .busOff else if 128 ≤ tec ∨ 128 ≤ rec then .passive else .active

def canCode (t : CanState) : Nat :=
  match t with
  | .active => 0
  | .passive => 1
  | .busOff => 2

/-- Faults 0x1010 and 0x1011 of a controller; the sources stand for all controllers. -/
def canFaults (c : Nat) (s : State) : State :=
  faultSet 0x1011 (s.can.any (fun q => q.st == .busOff)) [.can c] (faultSet 0x1010 (s.can.any (fun q => q.st == .passive)) [.can c] s)

/-- Every pending slot of a controller is cancelled (R436). -/
def cancelPending (c : Nat) (s : State) : State :=
  let idle (m : SlotMsg) : SlotMsg := if m.st = 1 then { m with st := 0, openMsg := none } else m
  let sl := (enumFrom 0 s.slots).map (fun p => if (slotCfg s p.1).ctrl = c then idle p.2 else p.2)
  setSafe c idle { s with slots := sl }

/-- New error counters: the error state follows, a change is event 0x1001 with the counters (R436). -/
def setErr (c tec rec : Nat) (s : State) : State :=
  let q := canOf s c
  let n := stateFor tec rec
  let s1 := setCan c (fun x => { x with tec := tec, rec_ := rec, st := n, busOffEl := if n = .busOff ∧ q.st ≠ .busOff then elNs s else x.busOffEl, recovering := false }) s
  if n = q.st then s1
  else
    let s2 := if n = .busOff then cancelPending c s1 else s1
    canFaults c (event 0x1001 (u8 (c + 1) ++ u8 (canCode n) ++ u16 tec ++ u16 rec) s2)

/-- A transmission ended (ISO 11898-1): −1 when acknowledged, +8 otherwise; the counter stays when an error passive controller
only missed an acknowledge. -/
def txResult (c : Nat) (acked : Bool) (s : State) : State :=
  let q := canOf s c
  if acked then setErr c (q.tec - 1) q.rec_ s
  else if q.st = .passive ∧ Config.ackErrorOnly s.nFree = true then nextFree s
  else setErr c (q.tec + 8) q.rec_ s

/-- A good frame was received (ISO 11898-1). -/
def rxGood (c : Nat) (s : State) : State :=
  let q := canOf s c
  if 127 < q.rec_ then setErr c q.tec (Nat.max 119 (Nat.min 127 (Config.recAfterGood s.nFree))) (nextFree s)
  else setErr c q.tec (q.rec_ - 1) s

/-- CAN_RECEIVE_ERROR (R436, R438). -/
def receiveError (c : Nat) (s : State) : State :=
  if canLive s c then
    let s1 := setCan c (fun q => { q with withdrawn := false, cnt := { q.cnt with rxErr := inc q.cnt.rxErr } }) s
    setErr c (canOf s c).tec (Nat.min 255 ((canOf s c).rec_ + 1)) s1
  else s

def execCanReceiveError (dt ctrl : Nat) (s : State) : Host.Outcome State Fault Refusal :=
  .next (settle (receiveError (ctrl - 1) (advance s dt)))

/-- CAN_PROTOCOL_EXCEPTION (R420). -/
def protocolException (c : Nat) (s : State) : State :=
  if canLive s c ∧ (ctrlCfg s c).fdEn = 0 then
    setCan c (fun q => { q with withdrawn := true, cnt := { q.cnt with protExc := inc q.cnt.protExc } }) s
  else s

def execCanProtocolException (dt ctrl : Nat) (s : State) : Host.Outcome State Fault Refusal :=
  .next (settle (protocolException (ctrl - 1) (advance s dt)))

/-- BUSOFF_HOLD_EXPIRY (R436): recovery begins. -/
def busoffHold (c : Nat) (s : State) : State :=
  let q := canOf s c
  if q.st = .busOff ∧ q.busOffEl + (ctrlCfg s c).busoffHoldMs * 1000000 ≤ elNs s then setCan c (fun x => { x with recovering := true }) s else s

def execBusoffHoldExpiry (dt ctrl : Nat) (s : State) : Host.Outcome State Fault Refusal :=
  .next (settle (busoffHold (ctrl - 1) (advance s dt)))

/-- BUSOFF_RECOVERED (R436): 128 sequences seen; error active. -/
def busoffRecovered (c : Nat) (s : State) : State :=
  if (canOf s c).st = .busOff ∧ (canOf s c).recovering then setErr c 0 0 s else s

def execBusoffRecovered (dt ctrl : Nat) (s : State) : Host.Outcome State Fault Refusal :=
  .next (settle (busoffRecovered (ctrl - 1) (advance s dt)))

/-- A controller starts error active with idle slots (R436). -/
def canStart (c : Nat) (s : State) : State :=
  canFaults c (setCan c (fun q => { cnt := q.cnt, last := q.last }) s)

/-- Every controller starts as duty begins or an image takes effect. -/
def canStartAll (s : State) : State :=
  let s1 := { s with slots := List.replicate s.cfg.img.schedule.slots.length {} }
  let s2 := [0, 1, 2, 3].foldl (fun t c => canStart c t) s1
  faultSet 0x1013 false [] (faultSet 0x1012 false [] s2)

/-! ### Gates -/

/-- A message begins its start-of-frame: it is on the bus. -/
def drive (ctrl idWord : Nat) (len : Nat) (b : Bytes) (s : State) : State := emit (.can ctrl idWord (padTo len b)) s

/-- Thrusters whose commands go on a connection. -/
def thrustersOn (s : State) (conn : Nat) : List Nat :=
  ((enumFrom 0 s.cfg.img.vessel.thrusters).filter (fun p => p.2.oscConn == conn)).map (·.1)

/-- Thrusters under a tripped SF1 (17 R447). -/
def sf1Mask (s : State) : Nat :=
  ((List.zip s.safety.funcs s.cfg.img.safety.funcs).filter (fun p => decide (2 ≤ p.1.st) && p.2.fkind == 1)).foldl (fun m p => Nat.lor m p.2.thrMask) 0

/-- A connection's thrust commands are gated (17 R447): its thruster under a tripped SF1, or SF2 until the next tick. -/
def gated (s : State) (conn : Nat) : Bool := s.safety.sf2Gate || (thrustersOn s conn).any (fun t => (sf1Mask s).testBit t)

/-- Thrust emission is suppressed: no lease, the lease's last frame, a release, a power-fail (12 R332, R336, 13 R355). -/
def suppressed (s : State) : Bool :=
  !s.lock.held || decide (s.lock.expiry ≤ frameIndex s + 1) || s.frame.emitSuppressed || s.bring.powerFailEl.isSome

/-- A gate or suppression reaches the open KIND 1 messages it names (Table 16-1): a pending one leaves its slot empty, one on the
bus completes. `started`: messages that have begun their start-of-frame since they became pending. -/
def gateSlots (started : List Nat) (hit : Nat → Bool) (s : State) : State :=
  (enumFrom 0 s.slots).foldl (fun t p =>
    let e := slotCfg t p.1
    let refuse (u : State) : State := canCount e.ctrl (fun n => { n with cancelRefused := inc n.cancelRefused }) u
    if e.kind = 1 ∧ hit e.conn then
      match p.2.st with
      | 1 =>
        if started.contains p.1 then
          refuse (drive (e.ctrl + 1) e.txId e.len (p.2.openMsg.getD []) (setSlot p.1 (fun m => { m with st := 2 }) t))
        else canCount e.ctrl (fun n => { n with slotEmpty := inc n.slotEmpty }) (setSlot p.1 (fun m => { m with st := 0, openMsg := none }) t)
      | 2 => refuse t
      | _ => t
    else t) s

/-- Suppression of every thrust command slot (12 R332, 13 R355). -/
def suppressSlots (started : List Nat) (s : State) : State := gateSlots started (fun _ => true) s

/-! ### Slots -/

/-- Instant of a slot's reference point, tick or start of P5, plus its offset (R426). -/
def slotStartNs (s : State) (ref ofsUs : Nat) : Nat := (if ref = 0 then s.frame.tic else s.frame.p5Start) + ofsUs * 1000

/-- An entry's slot opens now (R425, R426). -/
def slotDue (s : State) (e : Nat) : Bool :=
  let c := slotCfg s e
  let q := ctrlCfg s c.ctrl
  let cyc := frameIndex s % (if q.nCycles = 0 then 1 else q.nCycles)
  s.frame.running && decide (e < s.slots.length) && c.cycleMask.testBit cyc && (c.ref == 0 || decide (5 ≤ s.frame.phase)) &&
    decide (slotStartNs s c.ref c.ofsUs ≤ nowNs s) && decide ((slotMsg s e).opened ≠ some (frameIndex s)) && onDuty s.st && q.mode == 1

/-- The message of a slot that opens (R427): nothing when it is gated, suppressed, or has no content due. -/
def openContent (s : State) (e : Nat) : Option Bytes :=
  let c := slotCfg s e
  let m := slotMsg s e
  if c.kind = 1 then
    (if gated s c.conn ∨ suppressed s ∨ m.frame ≠ frameIndex s then none else m.content)
  else if (connOf s c.conn).st = 2 then
    (match m.content with | some b => if byteAt b 0 % 16 = 4 then some b else none | none => none)
  else if setupDue s c.conn then some (setupTelegram (connCfg s c.conn)) else none

/-- Arbitration losses of a message (R428). -/
def lostArb (c n : Nat) (s : State) : State := canCount c (fun x => { x with arbLost := Nat.min 0xFFFFFFFF (x.arbLost + n) }) s

/-- SLOT_START (R426 to R428); `sof`: the bus is idle and the message begins at once. -/
def slotStart (e : Nat) (sof : Bool) (s : State) : State :=
  if slotDue s e then
    let c := slotCfg s e
    let s0 := setSlot e (fun m => { m with opened := some (frameIndex s) }) s
    match openContent s e with
    | none => canCount c.ctrl (fun n => { n with slotEmpty := inc n.slotEmpty }) (setSlot e (fun m => { m with st := 0, openMsg := none }) s0)
    | some b =>
      let go := sof && canSends s c.ctrl
      let s1 := setSlot e (fun m => { m with st := if go then 2 else 1, openMsg := some b, content := none }) s0
      let s2 := if c.kind = 2 ∧ (connOf s c.conn).st ≠ 2 then sendSetup c.conn s1 else s1
      if go then drive (c.ctrl + 1) c.txId c.len b s2 else s2
  else s

def execSlotStart (dt e : Nat) (sof : Bool) (s : State) : Host.Outcome State Fault Refusal :=
  .next (settle (slotStart e sof (advance s dt)))

/-- The slots whose runs reach the limits of Table 16-6 (R439). -/
def kind1Run (s : State) : Bool := (enumFrom 0 s.slots).any (fun p => (slotCfg s p.1).kind == 1 && decide (3 ≤ p.2.run))
def safeRun (s : State) : Bool := s.can.any (fun q => decide (2 ≤ q.safe.run))

/-- A run ends the faults it no longer supports. -/
def runFaults (s : State) : State :=
  let s1 := if kind1Run s then s else faultSet 0x1012 false [] s
  if safeRun s1 then s1 else faultSet 0x1013 false [] s1

/-- A pending KIND 1 message has been removed by a gate or a suppression since its slot opened, unless its start of frame had been driven by
then (R427, Table 16-1, 12 R336). -/
def removed (s : State) (e : Nat) : Bool := (slotCfg s e).kind == 1 && (suppressed s || gated s (slotCfg s e).conn)

/-- SLOT_END (R428, R430): a message that has not started is cancelled, and one removed before has left its slot empty; `sof`: it started at or
before the slot's end, and before its removal. -/
def slotEnd (e : Nat) (sof : Bool) (arbLost : Nat) (s : State) : State :=
  let c := slotCfg s e
  let m := slotMsg s e
  if m.st = 1 ∧ slotStartNs s c.ref c.ofsUs + c.windowUs * 1000 ≤ nowNs s then
    let s1 := lostArb c.ctrl arbLost s
    if removed s e = true ∧ sof = false then canCount c.ctrl (fun n => { n with slotEmpty := inc n.slotEmpty }) (setSlot e (fun x => { x with st := 0, openMsg := none }) s1)
    else if sof && canSends s c.ctrl then drive (c.ctrl + 1) c.txId c.len (m.openMsg.getD []) (setSlot e (fun x => { x with st := 2 }) s1)
    else canCount c.ctrl (fun n => { n with slotMissed := inc n.slotMissed }) (setSlot e (fun x => { x with st := 0, openMsg := none, run := capRun (x.run + 1) }) s1)
  else s

def execSlotEnd (dt e : Nat) (sof : Bool) (arbLost : Nat) (s : State) : Host.Outcome State Fault Refusal :=
  .next (settle (slotEnd e sof arbLost (advance s dt)))

/-- OVERSION of the SAFE_STATE telegram of a controller (17 R458). -/
def safeVersion (s : State) (c : Nat) : Nat :=
  if s.cfg.img.format = 2 then 1
  else if s.cfg.img.osc.conns.any (fun q => q.safeCtrl == c && q.verMax == 1) then 1 else 2

/-- SAFETY_SLOT_START (R433, R434): the telegram last written goes; one still waiting from the frame before was missed. -/
def safetySlotStart (c : Nat) (s : State) : State :=
  let q := ctrlCfg s c
  let m := (canOf s c).safe
  let due := s.frame.running && onDuty s.st && q.mode == 1 && decide (q.safeLen ≠ 0) && decide (m.opened ≠ some (frameIndex s)) &&
    (q.safeRef == 0 || decide (5 ≤ s.frame.phase)) && decide (slotStartNs s q.safeRef q.safeOfsUs ≤ nowNs s)
  if due then
    let s0 := if m.st = 0 then s
      else canCount c (fun n => { n with slotMissed := inc n.slotMissed }) (setSafe c (fun x => { x with run := capRun (x.run + 1) }) s)
    let s1 := setSafe c (fun x => { x with opened := some (frameIndex s), st := 0, openMsg := none }) s0
    match m.content with
    | none => canCount c (fun n => { n with slotEmpty := inc n.slotEmpty }) s1
    | some d =>
      let sq := nth 1 s1.safety.seq c
      let b := telegram (safeVersion s c) 6 sq (nth 0 s.cfg.img.osc.safeConnId c) s.cfg.img.osc.safeTExpMs d
      let s2 := { s1 with safety := { s1.safety with seq := upd (fun x => (x + 1) % 65536) s1.safety.seq c } }
      let go := canSends s c
      let s3 := setSafe c (fun x => { x with st := if go then 2 else 1, openMsg := some b }) s2
      if go then drive (c + 1) q.safeId q.safeLen b s3 else s3
  else s

def execSafetySlotStart (dt ctrl : Nat) (s : State) : Host.Outcome State Fault Refusal :=
  .next (settle (safetySlotStart (ctrl - 1) (advance s dt)))

/-- Counting of a completed transmission (R429, Table 16-5). -/
def txCount (c : Nat) (acked : Bool) (s : State) : State :=
  canCount c (fun n => if acked then { n with txOk := inc n.txOk } else { n with txErr := inc n.txErr }) s

/-- The run of a slot after a transmission (R439). -/
def endMsg (acked : Bool) (m : SlotMsg) : SlotMsg :=
  { m with st := 0, openMsg := none, run := if acked then 0 else capRun (m.run + 1) }

/-- CAN_TX_COMPLETE (R429): acknowledged or in error, never repeated. `entry` none: the safety slot's telegram. A message that a gate or a
suppression found on the bus completes and counts in CANCEL_REFUSED. -/
def txComplete (c : Nat) (entry : Option Nat) (acked : Bool) (arbLost : Nat) (s : State) : State :=
  match entry with
  | some e =>
    let m := slotMsg s e
    let k := slotCfg s e
    if m.st ≠ 0 ∧ k.ctrl = c then
      let s0 := if m.st = 1 ∧ removed s e = true then canCount c (fun n => { n with cancelRefused := inc n.cancelRefused }) s else s
      let s1 := if m.st = 1 then drive (c + 1) k.txId k.len (m.openMsg.getD []) s0 else s0
      runFaults (txResult c acked (txCount c acked (lostArb c arbLost (setSlot e (endMsg acked) s1))))
    else s
  | none =>
    let m := (canOf s c).safe
    let q := ctrlCfg s c
    if m.st ≠ 0 then
      let s1 := if m.st = 1 then drive (c + 1) q.safeId q.safeLen (m.openMsg.getD []) s else s
      runFaults (txResult c acked (txCount c acked (lostArb c arbLost (setSafe c (endMsg acked) s1))))
    else s

def execCanTxComplete (dt ctrl : Nat) (entry : Option Nat) (acked : Bool) (arbLost : Nat) (s : State) : Host.Outcome State Fault Refusal :=
  .next (settle (txComplete (ctrl - 1) entry acked arbLost (advance s dt)))

/-- SLOT_RUN_FAULT (Table 16-6). -/
def slotRunFault (c : Nat) (entry : Option Nat) (s : State) : State :=
  match entry with
  | some e => if (slotCfg s e).kind = 1 ∧ (slotCfg s e).ctrl = c ∧ 3 ≤ (slotMsg s e).run then faultSet 0x1012 true [.can c] s else s
  | none => if 2 ≤ (canOf s c).safe.run then faultSet 0x1013 true [.can c] s else s

def execSlotRunFault (dt ctrl : Nat) (entry : Option Nat) (s : State) : Host.Outcome State Fault Refusal :=
  .next (settle (slotRunFault (ctrl - 1) entry (advance s dt)))

/-! ### Reception -/

/-- A filter matches in every bit of its mask (R435); with no filter every frame passes. -/
def filterPass (q : Ctrl) (idWord : Nat) : Bool :=
  q.filters.isEmpty || q.filters.any (fun f => Nat.land idWord f.2 == Nat.land f.1 f.2)

/-- The connection whose receive identity a frame carries on a controller. -/
def rxConn (s : State) (c idWord : Nat) : Option Nat :=
  ((enumFrom 0 s.cfg.img.osc.conns).find? (fun p => p.2.ctrl == c && p.2.rxId == idWord)).map (·.1)

/-- CAN_FRAME_RECEIVE (R419, R423, R424, R435; 17 R467): counted; on duty it goes to the OSC receiver or to intake. -/
def canFrame (c idWord : Nat) (remote : Bool) (data : Bytes) (s : State) : State :=
  if canLive s c then
    let s1 := rxGood c (setCan c (fun q => { q with withdrawn := false, cnt := { q.cnt with rxOk := inc q.cnt.rxOk } }) s)
    if onDuty s.st ∧ remote = false then
      match rxConn s c idWord with
      | some n => oscArrive n data s1
      | none => if filterPass (ctrlCfg s c) idWord then canIntake c idWord data s1 else s1
    else s1
  else s

def execCanFrameReceive (dt ctrl idWord : Nat) (remote : Bool) (data : Bytes) (s : State) : Host.Outcome State Fault Refusal :=
  .next (settle (canFrame (ctrl - 1) idWord remote data (advance s dt)))

/-- Counters of event 0x1002 in the order of Table 16-5. -/
def canCounterBytes (n : CanCounters) : Bytes :=
  u32 n.txOk ++ u32 n.txErr ++ u32 n.arbLost ++ u32 n.slotMissed ++ u32 n.slotEmpty ++ u32 n.cancelRefused ++ u32 n.rxOk ++ u32 n.rxErr ++ u32 n.protExc

/-- CAN_COUNTER_SECOND (R438). -/
def canSecond (s : State) : State :=
  let ch := (enumFrom 1 s.can).filter (fun p => decide (p.2.cnt ≠ p.2.last))
  let s1 := ch.foldl (fun t p => event 0x1002 (u8 p.1 ++ canCounterBytes p.2.cnt) t) s
  { s1 with can := s1.can.map (fun q => { q with last := q.cnt }) }

def execCanCounterSecond (dt : Nat) (s : State) : Host.Outcome State Fault Refusal :=
  let t := advance s dt
  .next (settle (match s.st with | .off => t | _ => canSecond t))

end Sys2Proof.Machine
end

