-- ==== Sys2Proof/Machine/SafetyPair.lean ====
section
/-! DEFINITION. The safety pair: its cycle, functions, resets and safe outputs (17_safety R440 to R456, R468; 18_field_io R482;
notes/assumptions/22.md). Functions and safe output channels are numbered from 0: channel 2(p − 1) is SOpA, 2(p − 1) + 1 is SOpB. -/

namespace Sys2Proof.Machine

open Sys2Proof.Image (Func)

def funcCfg (s : State) (f : Nat) : Func := nth {} s.cfg.img.safety.funcs f
def funcOf (s : State) (f : Nat) : FuncSt := nth {} s.safety.funcs f

def setFunc (f : Nat) (g : FuncSt → FuncSt) (s : State) : State := { s with safety := { s.safety with funcs := upd g s.safety.funcs f } }

/-- Indices of the functions in use. -/
def funcIds (s : State) : List Nat := List.range s.safety.funcs.length

/-! ### Inputs as step 1 read them -/

/-- A channel shows run, by its level (R443); without a level it does not. -/
def showsRun (pol : Nat) (isB : Bool) (l : Option Bool) : Bool :=
  match l with
  | some h => if pol = 1 ∧ isB = true then !h else h
  | none => false

/-- A channel shows trip, by its level; one that has no level yet after its front end started shows neither (R443, 18 R471). -/
def showsTrip (pol : Nat) (isB : Bool) (l : Option Bool) : Bool := l.isSome && !showsRun pol isB l

/-- Either channel of a pair is in the trip state (R446). -/
def pairTrip (s : State) (p pol : Nat) : Bool :=
  showsTrip pol false (nth {} s.safety.rdSx (2 * p - 2)).level || showsTrip pol true (nth {} s.safety.rdSx (2 * p - 1)).level

/-- What a pair shows: channel A run, channel B run, a wire broken (R443, R446). -/
def pairRead (s : State) (p pol : Nat) : Bool × Bool × Bool :=
  let a := nth {} s.safety.rdSx (2 * p - 2)
  let b := nth {} s.safety.rdSx (2 * p - 1)
  (showsRun pol false a.level, showsRun pol true b.level, a.broken == some true || b.broken == some true)

def pairOf (s : State) (p : Nat) : PairSt := nth {} s.safety.pairs (p - 1)

/-- A pair after a cycle's reading (R444): since when in the run state, since when in disagreement; DISCREPANT clears when both show
trip. -/
def pairStep (el : Nat) (r : Bool × Bool × Bool) (q : PairSt) : PairSt :=
  { runEl := since el (r.1 && r.2.1) q.runEl, disEl := since el (r.1 != r.2.1) q.disEl
    discrepant := q.discrepant && (r.1 || r.2.1) }

/-- Pairs after a cycle's reading, by the functions that use them. -/
def pairsStep (s : State) : State :=
  s.cfg.img.safety.funcs.foldl (fun t f =>
    { t with safety := { t.safety with pairs := upd (pairStep t.safety.rdEl (pairRead t f.pair f.polarity)) t.safety.pairs (f.pair - 1) } }) s

/-- A pair has been in the run state for 50 ms (R450). -/
def runFor50 (s : State) (p : Nat) : Bool :=
  match (pairOf s p).runEl with | some t => decide (t + 50000000 ≤ s.safety.rdEl) | none => false

/-- A safe output pair of a mask has a read-back fault latched. -/
def readBackIn (s : State) (mask : Nat) : Bool := (List.range 4).any (fun k => mask.testBit k && nth false s.safety.latch k)

/-- A safe output pair of a mask has a supply fault (18 R482): A hangs on FS1, B on FS2. -/
def supplyFaultIn (s : State) (mask : Nat) : Bool := decide (mask % 16 ≠ 0) && s.safety.supply.any (fun b => b)

/-! ### Trips -/

/-- Causes of R446 that hold for a function, in its order; numbers of event 0x1101. -/
def tripCause (s : State) (f : Nat) : Option Nat :=
  let c := funcCfg s f
  let r := pairRead s c.pair c.polarity
  if pairTrip s c.pair c.polarity = true then some 1
  else if r.2.2 then some 2
  else if (pairOf s c.pair).discrepant then some 3
  else if readBackIn s c.soMask then some 4
  else if supplyFaultIn s c.soMask then some 6
  else none

/-- Safe output channels of the pairs in a mask are switched off. -/
def soOff (mask : Nat) (s : State) : State :=
  { s with safety := { s.safety with so := (enumFrom 0 s.safety.so).map (fun p => if mask.testBit (p.1 / 2) then { p.2 with on := false } else p.2) } }

/-- An armed function trips (R446, R447, Table 17-5). -/
def trip (f cause : Nat) (started : List Nat) (s : State) : State :=
  let c := funcCfg s f
  let s1 := setFunc f (fun q => { q with st := 2, autoUsed := true, edmUntil := none, lastTripOp := s.ledger.opS }) s
  let s2 := { s1 with safety := { s1.safety with tripCount := (s1.safety.tripCount + 1) % 65536, sf2Gate := s1.safety.sf2Gate || c.fkind == 2 } }
  let s3 := soOff c.soMask s2
  let s4 := event 0x1101 (u8 f ++ u8 cause) s3
  gateSlots started (fun n => gated s4 n) s4

/-- Trips of a cycle: every armed function with a cause. -/
def tripAll (started : List Nat) (s : State) : State :=
  (funcIds s).foldl (fun t f =>
    if (funcOf t f).st = 1 then (match tripCause t f with | some k => trip f k started t | none => t) else t) s

/-- A function trips without having been counted (R453, R454). -/
def tripQuiet (f cause : Nat) (s : State) : State :=
  event 0x1101 (u8 f ++ u8 cause) (setFunc f (fun q => { q with st := 2, edmUntil := none }) s)

/-- At the end of SELFTEST and at the effect tick of R365 every function is tripped with cause START (R453). -/
def startTrips (s : State) : State :=
  let old := s.safety.funcs
  let fs := (enumFrom 0 s.cfg.img.safety.funcs).map (fun p => { st := 2, lastTripOp := (nth {} old p.1).lastTripOp : FuncSt })
  let s1 := { s with safety := { s.safety with funcs := fs, so := s.safety.so.map (fun c => { c with on := false }) } }
  (funcIds s1).foldl (fun t f => tripQuiet f 0 t) s1

/-! ### Resets -/

/-- A reset input takes a reading at an instant: its state, and whether a valid pulse has fallen (R449). -/
def resetStep (el : Nat) (r : Option Bool) (q : ResetIn) : ResetIn × Bool :=
  match q.level, r with
  | some false, some true => ({ q with level := r, lowOk := decide (q.lowEl + 50000000 ≤ el), highEl := el, stuck := q.stuck && decide (el < q.lowEl + 50000000) }, false)
  | some true, some false =>
    let ok := q.lowOk && !q.stuck && decide (q.highEl + 50000000 ≤ el) && decide (el ≤ q.highEl + 3000000000)
    ({ q with level := r, lowEl := el, lowOk := false }, ok)
  | some false, some false => ({ q with stuck := q.stuck && decide (el < q.lowEl + 50000000) }, false)
  | some true, some true => (q, false)
  | none, some false => ({ q with level := r, lowEl := el, lowOk := false }, false)
  | none, some true => ({ q with level := r, highEl := el, lowOk := false }, false)
  | _, none => ({ q with level := none, lowOk := false }, false)

/-- Reading of a digital input in step 1. -/
def rdInput (s : State) (d : Nat) : Option Bool := nth none s.safety.rdDi d

/-- Why a reset of a function has no effect (R450): the reason of event 0x1103. -/
def resetRefused (s : State) (f : Nat) : Option Nat :=
  let c := funcCfg s f
  let r := pairRead s c.pair c.polarity
  if runFor50 s c.pair = false then some 1
  else if (pairOf s c.pair).discrepant ∨ r.2.2 then some 2
  else if readBackIn s c.soMask ∨ supplyFaultIn s c.soMask then some 3
  else if c.edmDi ≠ 0 ∧ rdInput s c.edmDi ≠ some true then some 4
  else none

/-- A function becomes armed (R451, R453); with an EDM input, its check starts (R452). -/
def arm (f : Nat) (auto : Bool) (s : State) : State :=
  let c := funcCfg s f
  let e := if c.edmDi ≠ 0 ∧ auto = false then some (elNs s + 100000000) else none
  event 0x1102 (u8 f ++ flag auto) (setFunc f (fun q => { q with st := 1, autoUsed := true, edmUntil := e }) s)

/-- A valid pulse on an input: every tripped function that names it is reset or refused (R450). -/
def pulse (d : Nat) (s : State) : State :=
  (funcIds s).foldl (fun t f =>
    if 2 ≤ (funcOf t f).st ∧ (funcCfg t f).resetDi = d then
      match resetRefused t f with
      | none => arm f false t
      | some k => event 0x1103 (u8 f ++ u8 k) (setFunc f (fun q => { q with st := 3 }) t)
    else t) s

/-- Reset inputs of the functions in use. -/
def resetInputs (s : State) : List Nat := (List.range 33).filter (fun d => s.cfg.img.safety.funcs.any (fun f => f.resetDi == d))

/-- Every reset input takes its reading; valid pulses act (R449, R450). -/
def resetsStep (s : State) : State :=
  (resetInputs s).foldl (fun t d =>
    let (q, ok) := resetStep t.safety.rdEl (rdInput t d) (nth {} t.safety.resets d)
    let t1 := { t with safety := { t.safety with resets := upd (fun _ => q) t.safety.resets d } }
    if ok then pulse d t1 else t1) s

/-- AUTO_ARM (R453): once per bring-up, from the START trip only, on duty. -/
def autoArm (s : State) : State :=
  (funcIds s).foldl (fun t f =>
    let c := funcCfg t f
    let q := funcOf t f
    if c.autoArm = 1 ∧ q.autoUsed = false ∧ 2 ≤ q.st ∧ onDuty t.st ∧ runFor50 t c.pair = true ∧ (pairOf t c.pair).discrepant = false ∧
       (pairRead t c.pair c.polarity).2.2 = false then arm f true t
    else t) s

/-- An EDM input that has fallen ends its check (R452). -/
def edmStep (s : State) : State :=
  (funcIds s).foldl (fun t f =>
    if (funcOf t f).edmUntil.isSome ∧ rdInput t (funcCfg t f).edmDi = some false then setFunc f (fun q => { q with edmUntil := none }) t else t) s

/-! ### Outputs -/

/-- A function armed covers an output pair. -/
def pairArmed (s : State) (k : Nat) : Bool :=
  (funcIds s).any (fun f => (funcCfg s f).soMask.testBit k && (funcOf s f).st == 1)

/-- A safe output channel's level at step 3 (R440, R441, R456; 18 R482): outside duty every channel is off. -/
def soLevel (s : State) (ch : Nat) : Bool :=
  onDuty s.st && !s.safety.stopped && pairArmed s (ch / 2) && !nth false s.safety.latch (ch / 2) && !nth false s.safety.supply (ch % 2)

/-- Step 3: every channel written, and so refreshed. -/
def writeOutputs (s : State) : State :=
  { s with safety := { s.safety with so := (enumFrom 0 s.safety.so).map (fun p => { on := soLevel s p.1, refreshEl := elNs s }) } }

/-- SAFE_STATE data (Table 17-5). -/
def safeStateData (s : State) : Bytes :=
  let rel := (funcIds s).any (fun f => (funcCfg s f).fkind == 2 && decide (2 ≤ (funcOf s f).st))
  u32 (sf1Mask s) ++ flag rel ++ zeros 3 ++ (List.range 4).flatMap (fun f => u8 (nth ({} : FuncSt) s.safety.funcs f).st) ++
  u16 s.safety.tripCount ++ u16 0

/-- Step 4: the safety telegram of each controller with a safety slot. -/
def writeTelegrams (s : State) : State :=
  let d := safeStateData s
  [0, 1, 2, 3].foldl (fun t c => if (ctrlCfg t c).safeLen ≠ 0 then setSafe c (fun m => { m with content := some d }) t else t) s

/-- The next cycle begins: step 1 reads (R440). -/
def readInputs (s : State) : State :=
  { s with safety := { s.safety with rdSx := s.safety.sx, rdDi := none :: s.field.di.map (·.level), rdEl := elNs s } }

/-- Faults of the pair as their conditions stand. -/
def safetyFaults (s : State) : State :=
  let s1 := endCond 0x1113 (s.safety.resets.any (·.stuck)) s
  let s2 := endCond 0x1110 (s1.safety.pairs.any (·.discrepant)) s1
  endCond 0x1116 (s2.cfg.img.safety.proofDays ≠ 0 && (funcIds s2).any (fun f => decide ((funcOf s2 f).lastTripOp + s2.cfg.img.safety.proofDays * 86400 < s2.ledger.opS))) s2

/-- SAFETY_CYCLE (R440): the end of a cycle. `fs1Mv`, `fs2Mv` are the supplies as its step 1 read them; the next cycle then begins. -/
def safetyCycle (fs1Mv fs2Mv : Nat) (started : List Nat) (s : State) : State :=
  if s.safety.running ∧ s.safety.stopped = false then
    let s1 := { s with safety := { s.safety with supply := [nth false s.safety.supply 0 || decide (fs1Mv < 16000), nth false s.safety.supply 1 || decide (fs2Mv < 16000)] } }
    let s2 := tripAll started (edmStep (pairsStep s1))
    let s3 := autoArm (resetsStep s2)
    safetyFaults (readInputs (writeTelegrams (writeOutputs s3)))
  else s

def execSafetyCycle (dt fs1Mv fs2Mv : Nat) (started : List Nat) (s : State) : Host.Outcome State Fault Refusal :=
  .next (settle (safetyCycle fs1Mv fs2Mv started (advance s dt)))

/-- SO_REFRESH_TIMEOUT (R441): 2.0 ms without a refresh. -/
def soTimeout (ch : Nat) (s : State) : State :=
  if (nth {} s.safety.so ch).refreshEl + 2000000 ≤ elNs s then
    { s with safety := { s.safety with so := upd (fun c => { c with on := false }) s.safety.so ch } }
  else s

def execSoRefreshTimeout (dt so : Nat) (s : State) : Host.Outcome State Fault Refusal :=
  .next (settle (soTimeout so (advance s dt)))

/-- LOCKSTEP_MISMATCH (R441): every safe output off, every safety slot empty, fault 0x1114. -/
def lockstep (s : State) : State :=
  if s.safety.running then
    let s1 := { s with safety := { s.safety with stopped := true, so := s.safety.so.map (fun c => { c with on := false }) } }
    let s2 := [0, 1, 2, 3].foldl (fun t c => setSafe c (fun m => { m with content := none }) t) s1
    faultCond 0x1114 true s2
  else s

def execLockstepMismatch (dt : Nat) (s : State) : Host.Outcome State Fault Refusal :=
  .next (settle (lockstep (advance s dt)))

/-- DISC_MS of the function on a pair. -/
def discMs (s : State) (p : Nat) : Option Nat := (s.cfg.img.safety.funcs.find? (fun f => f.pair == p)).map (·.discMs)

/-- DISCREPANCY (R444): the channels have disagreed for longer than DISC_MS; `k` is the pair less 1. -/
def discrepancy (k : Nat) (s : State) : State :=
  match (nth {} s.safety.pairs k).disEl, discMs s (k + 1) with
  | some t, some d =>
    if s.safety.running ∧ t + d * 1000000 < elNs s then
      faultCond 0x1110 true { s with safety := { s.safety with pairs := upd (fun q => { q with discrepant := true }) s.safety.pairs k } }
    else s
  | _, _ => s

def execDiscrepancy (dt pair : Nat) (s : State) : Host.Outcome State Fault Refusal :=
  .next (settle (discrepancy pair (advance s dt)))

/-- STUCK_RESET (R449): high for longer than 3.0 s. -/
def stuckReset (d : Nat) (s : State) : State :=
  let q := nth {} s.safety.resets d
  if s.safety.running ∧ q.level = some true ∧ q.stuck = false ∧ q.highEl + 3000000000 < elNs s ∧ (resetInputs s).contains d then
    faultCond 0x1113 true (event 0x1104 [] { s with safety := { s.safety with resets := upd (fun x => { x with stuck := true }) s.safety.resets d } })
  else s

def execStuckReset (dt di : Nat) (s : State) : Host.Outcome State Fault Refusal :=
  .next (settle (stuckReset di (advance s dt)))

/-- EDM_CHECK (R452): the input has not fallen within 100 ms of the outputs energising. -/
def edmCheck (f : Nat) (s : State) : State :=
  match (funcOf s f).edmUntil with
  | some t =>
    if t ≤ elNs s ∧ (funcOf s f).st = 1 ∧ (nth ({} : InSt) s.field.di ((funcCfg s f).edmDi - 1)).level ≠ some false then
      faultOnce 0x1117 (writeTelegrams (trip f 5 [] s))
    else s
  | none => s

def execEdmCheck (dt f : Nat) (s : State) : Host.Outcome State Fault Refusal := .next (settle (edmCheck f (advance s dt)))

/-- SO_TEST_PULSE (R456): a failed read-back latches its pair until module reset and de-energises it; its functions trip in the
next cycle (R446). -/
def soTestPulse (ch : Nat) (ok : Bool) (s : State) : State :=
  if ok ∨ s.safety.running = false then s
  else
    let s1 := { s with safety := { s.safety with latch := upd (fun _ => true) s.safety.latch (ch / 2) } }
    faultCond 0x1112 true (soOff (2 ^ (ch / 2)) s1)

def execSoTestPulse (dt so : Nat) (readBackOk : Bool) (s : State) : Host.Outcome State Fault Refusal :=
  .next (settle (soTestPulse so readBackOk (advance s dt)))

/-- PROOF_TEST_OVERDUE (R468). -/
def proofOverdue (f : Nat) (s : State) : State :=
  let d := s.cfg.img.safety.proofDays
  if d ≠ 0 ∧ f < s.safety.funcs.length ∧ (funcOf s f).lastTripOp + d * 86400 < s.ledger.opS then faultCond 0x1116 true s else s

def execProofTestOverdue (dt f : Nat) (s : State) : Host.Outcome State Fault Refusal :=
  .next (settle (proofOverdue f (advance s dt)))

/-- PD-SF powered: the pair starts with no readings; the read-back latch, in PD-AO, stays (R456). -/
def safetyOn (s : State) : State :=
  if s.safety.running then s
  else { s with safety := { s.safety with running := true, stopped := false, sx := List.replicate 8 {}, rdSx := List.replicate 8 {}
                                          rdDi := List.replicate 33 none, rdEl := elNs s, pairs := List.replicate 4 {}, resets := List.replicate 33 {}
                                          so := List.replicate 8 { refreshEl := elNs s }, supply := [false, false], sf2Gate := false } }

/-- PD-SF off: every safe output de-energised (R440). -/
def safetyOff (s : State) : State :=
  let s1 := { s with safety := { s.safety with running := false, so := List.replicate 8 {}, sf2Gate := false, supply := [false, false]
                                               pairs := List.replicate 4 {}, resets := List.replicate 33 {}, sx := List.replicate 8 {} } }
  let s2 := [0, 1, 2, 3].foldl (fun t c => setSafe c (fun _ => {}) t) s1
  faultCond 0x1111 false (faultCond 0x1110 false (faultCond 0x1113 false s2))

end Sys2Proof.Machine
end

