-- ==== Sys2Proof/Machine/Fusion.lean ====
section
/-! DEFINITION. Reference fusion in P1 (06_fusion R148 to R184). The arithmetic is exact; how far the module's fixed point lies from
it (R158) is a bounded free value added to each output. Readings: notes/assumptions/23.md. -/

namespace Sys2Proof.Machine

open Sys2Proof.Image (KindBlk Ref Entry)

/-! ### Conversions -/

/-- Sine and cosine, 60 fraction bits, of an angle in 10⁻⁹ degree. -/
def sinDeg (d : Int) : Int := let x := d * fixTwoPi / 360000000000; trigSeries 16 x (x * x / fixOne) 2 x
def cosDeg (d : Int) : Int := let x := d * fixTwoPi / 360000000000; trigSeries 16 fixOne (x * x / fixOne) 1 fixOne

/-- WGS-84: semi-major axis in mm and the square of the eccentricity with 60 fraction bits (f = 1/298.257223563). -/
def wgsA : Int := 6378137000
def wgsE2 : Int := 1000000000 * (2 * 298257223563 - 1000000000) * fixOne / (298257223563 * 298257223563)

/-- Earth-centred coordinates in units of 2⁻³² mm of a point at latitude, longitude (10⁻⁹ degree) and height in mm (R155). -/
def ecef (lat lon h : Int) : Int × Int × Int :=
  let sp := sinDeg lat
  let cp := cosDeg lat
  let w : Int := (isqrt ((fixOne - wgsE2 * (sp * sp / fixOne) / fixOne) * fixOne).toNat : Nat)
  let n := wgsA * 4294967296 * fixOne / w
  let hh := h * 4294967296
  let r := (n + hh) * cp / fixOne
  (r * cosDeg lon / fixOne, r * sinDeg lon / fixOne, (n * (fixOne - wgsE2) / fixOne + hh) * sp / fixOne)

/-- North and east of a point in the tangent frame at the origin, mm (R155). -/
def tangent (f : Image.Fusion) (lat lon : Int) : Frac × Frac :=
  let (x, y, z) := ecef lat lon f.geoHMm
  let (x0, y0, z0) := ecef f.originLat f.originLon f.geoHMm
  let sp := sinDeg f.originLat
  let cp := cosDeg f.originLat
  let sl := sinDeg f.originLon
  let cl := cosDeg f.originLon
  let dx := x - x0
  let dy := y - y0
  let dz := z - z0
  (Frac.norm ((-(sp * cl / fixOne) * dx - sp * sl / fixOne * dy + cp * dz) / fixOne) 4294967296,
   Frac.norm ((-sl * dx + cl * dy) / fixOne) 4294967296)

/-- The lever arm turned into north and east (R155). -/
def leverNE (l : Int × Int × Int) (roll pitch : Int) (psi : Nat) : Frac × Frac :=
  let x := Frac.ofInt l.1
  let y := Frac.ofInt l.2.1
  let z := Frac.ofInt l.2.2
  let ph := toWord 32 roll
  let th := toWord 32 pitch
  let ax := Frac.add (Frac.mul x (cosF th)) (Frac.mul (Frac.add (Frac.mul y (sinF ph)) (Frac.mul z (cosF ph))) (sinF th))
  let ay := Frac.sub (Frac.mul y (cosF ph)) (Frac.mul z (sinF ph))
  (Frac.sub (Frac.mul ax (cosF psi)) (Frac.mul ay (sinF psi)), Frac.add (Frac.mul ax (sinF psi)) (Frac.mul ay (cosF psi)))

/-- The lever arm of a position reference: for FORMAT 3 that of the antenna of the station slot executing (R155). -/
def leverOf (slot : Nat) (r : Ref) : Int × Int × Int :=
  if r.format = 3 ∧ slot = 2 then r.lever2 else if r.format = 3 ∧ slot = 3 then r.lever3 else r.lever

/-- What converts a position reference: heading, and roll and pitch. -/
structure Attitude where
  psi : Option Nat := none
  roll : Int := 0
  pitch : Int := 0

/-- The position of the body origin that a position reference gives (R155). -/
def bodyOrigin (f : Image.Fusion) (slot : Nat) (r : Ref) (vals : List Int) (psi : Nat) (a : Attitude) : List Frac :=
  let v0 := nth 0 vals 0
  let v1 := nth 0 vals 1
  let sensor : Frac × Frac :=
    if r.format = 1 then (Frac.ofInt v0, Frac.ofInt v1)
    else if r.format = 2 then
      let b := angWrap ((psi : Int) + v1 + r.angleOfs)
      (Frac.sub (Frac.ofInt r.targetN) (Frac.mul (Frac.ofInt v0) (cosF b)), Frac.sub (Frac.ofInt r.targetE) (Frac.mul (Frac.ofInt v0) (sinF b)))
    else tangent f v0 v1
  let d := leverNE (leverOf slot r) a.roll a.pitch psi
  [Frac.sub sensor.1 d.1, Frac.sub sensor.2 d.2]

/-! ### Distances and medians, Table 6-3 -/

/-- Square of the distance between two values of a kind; differences of angles are those of 00 R7. -/
def distSq (kind : Nat) (a b : List Frac) : Frac :=
  let d := fun i => Frac.sub (nth Frac.zero a i) (nth Frac.zero b i)
  let sq := fun x => Frac.mul x x
  if kind = 0 then Frac.add (sq (d 0)) (sq (d 1))
  else if kind = 1 then sq (Frac.ofInt (angDiff (nth Frac.zero a 0).num (nth Frac.zero b 0).num))
  else if kind = 2 then
    let t := fun i => Frac.ofInt (angDiff (nth Frac.zero a i).num (nth Frac.zero b i).num)
    Frac.max (sq (t 0)) (sq (t 1))
  else Frac.add (sq (d 2)) (sq (d 3))

/-- The distance exceeds a gate. -/
def beyond (kind : Nat) (a b : List Frac) (gate : Nat) : Bool := Frac.lt (Frac.ofNat (gate * gate)) (distSq kind a b)

/-- Median; that of an even count is the mean of the two middle values, rounded. -/
def medianF (xs : List Frac) : Frac :=
  let v := sortBy Frac.lt xs
  let n := v.length
  if n % 2 = 1 then nth Frac.zero v (n / 2)
  else Frac.ofInt (roundEven (Frac.mul (Frac.add (nth Frac.zero v (n / 2 - 1)) (nth Frac.zero v (n / 2))) ⟨1, 2⟩))

/-- Median of a set of values of a kind, in index order. -/
def medianOf (kind : Nat) (zs : List (List Frac)) : List Frac :=
  let col := fun i => medianF (zs.map (fun z => nth Frac.zero z i))
  if kind = 1 then
    let a := (nth Frac.zero (nth [] zs 0) 0).num
    let m := medianF (zs.map (fun z => Frac.ofInt (angDiff (nth Frac.zero z 0).num a)))
    [Frac.ofInt (angWrap (a + roundEven m))]
  else if kind = 3 then [Frac.zero, Frac.zero, col 2, col 3]
  else [col 0, col 1, Frac.zero]

/-! ### One reference in one frame -/

/-- A reference while its kind is evaluated. `q`, `stamp`, `vals`: what R153 reads; `z`: the value in the terms of Table 6-3; `fresh`: a new
arrival; `gated`: it is gated in this frame. -/
structure RefW where
  i : Nat := 0
  ref : Ref := {}
  st : RefSt := {}
  q : Nat := 2
  stamp : Nat := 0
  vals : List Int := []
  z : List Frac := []
  fresh : Bool := false
  gated : Bool := false

/-- Value slots of a reference, Table 6-1. -/
def valueSlots (r : Ref) : List Nat :=
  if r.kind = 0 then (if r.format = 3 then [] else [r.slot0, r.slot1])
  else if r.kind = 1 then [r.slot0] else if r.kind = 2 then [r.slot0, r.slot1, r.slot2] else [r.slot0, r.slot1]

/-- Rank of a quality: STALE, MASKED, UNSETTLED, HOLDOVER, VALID (R153). -/
def qRank (q : Nat) : Nat := if q = 2 then 5 else if q = 3 ∨ q = 4 then 4 else if q = 1 then 3 else if q = 5 then 2 else 1

def snapSlot (s : State) (i : Nat) : Slot := Table.get {} s.snap i

/-- Quality, arrival stamp and values of a reference (R153, R154). -/
def latest (s : State) (r : Ref) : Nat × Nat × List Int :=
  if r.kind = 0 ∧ r.format = 3 then
    match s.fusion.nav with
    | some n => (if n.epoch + r.intMaxAgeUs * 1000 < s.frame.tic then 2 else n.quality, n.epoch, [n.lat, n.lon])
    | none => (2, 0, [])
  else
    let xs := (valueSlots r).map (snapSlot s)
    let q := xs.foldl (fun a x => if qRank a < qRank x.quality then x.quality else a) 0
    let st := xs.foldl (fun (a : Option Nat) x => some (match a with | some t => Nat.min t x.stamp | none => x.stamp)) none
    (q, st.getD 0, xs.map (·.value))

/-- A value in the terms of Table 6-3 (R155, R157). -/
def valueOf (s : State) (r : Ref) (vals : List Int) (a : Attitude) : List Frac :=
  if r.kind = 0 then bodyOrigin s.cfg.img.fusion s.lock.slot r vals (a.psi.getD (Config.psiUnknown s.frame.tic)) a
  else if r.kind = 1 then [Frac.ofInt (angWrap (nth 0 vals 0 + r.angleOfs))]
  else if r.kind = 2 then [Frac.ofInt (ofWord 32 (toWord 32 (nth 0 vals 0))), Frac.ofInt (ofWord 32 (toWord 32 (nth 0 vals 1))), Frac.ofInt (nth 0 vals 2)]
  else
    let al := angWrap (nth 0 vals 1 + r.angleOfs)
    let v := Frac.ofInt (nth 0 vals 0)
    [v, Frac.ofInt al, Frac.mul v (cosF al), Frac.mul v (sinF al)]

/-- A position reference that needs a heading where none exists (R156). -/
def needsHeading (slot : Nat) (r : Ref) : Bool :=
  r.kind == 0 && (r.format == 2 || (leverOf slot r).1 != 0 || (leverOf slot r).2.1 != 0)

/-- The skew of an arrival in ms (R179). -/
def skewOf (stamp : Nat) (v : Int) : Int :=
  let d := ((stamp / 1000000 % 86400000 : Nat) : Int) - v
  (d + 43200000) % 86400000 - 43200000

/-- The skew monitor at a new arrival (R179, R180). -/
def skewStep (s : State) (k : KindBlk) (r : Ref) (stamp : Nat) (f : RefSt) : RefSt :=
  let t := snapSlot s r.slot3
  if r.skewEn ∧ r.slot3 ≠ 0xFFFF ∧ t.quality = 0 then
    let v := skewOf stamp t.value
    let f1 : RefSt :=
      match f.sRef with
      | some _ => f
      | none =>
        let m := if f.learn = 0 then v else min f.learnMin v
        { f with learn := f.learn + 1, learnMin := m, sRef := if k.skewLearn ≤ f.learn + 1 then some m else none }
    match f1.sRef with
    | none => { f1 with lastSkew := v }
    | some b =>
      if k.skewBoundMs < (v - b).natAbs then
        { f1 with lastSkew := v, skewGood := 0, skew := true, skewEl := if f1.skew then f1.skewEl else elNs s }
      else
        let g := if f1.skew then f1.skewGood + 1 else 0
        if k.skewLearn ≤ g then { f1 with lastSkew := v, skew := false, skewGood := 0 } else { f1 with lastSkew := v, skewGood := g }
  else f

/-- The skew baseline is forgotten (R180). -/
def forgetSkew (f : RefSt) : RefSt := { f with sRef := none, learn := 0, learnMin := 0, skew := false, skewGood := 0 }

/-- The freeze run at a new arrival (R160). -/
def freezeStep (stamp : Nat) (vals : List Int) (f : RefSt) : RefSt :=
  if f.freezeVals = vals then f else { f with freezeStamp := stamp, freezeVals := vals }

/-- What is found anew in each frame. -/
def clearFound (f : RefSt) : RefSt :=
  { f with srcFail := false, srcSoft := false, freezeFail := false, innovFail := false, medFail := false, noPred := false
           unusable := false, stale := false, innov := 0, share := 0 }

/-- Dead-reckoning time of an output as the frame before left it, ns (R176). -/
def drNs (f : Fused) (tov : Nat) : Nat :=
  if f.flags.valid then 0 else match f.lastValidTic with | some t => tov - t | none => Config.drNever tov

/-- The prediction for this frame: position and heading (R148, R161). -/
def prediction (s : State) : Option (Int × Int × Nat) :=
  match s.obs.pred with
  | some (t, n, e, h) => if t = s.frame.tic ∧ s.obs.init = true then some (n, e, h) else none
  | none => none

/-- The innovation gate on a position or heading reference (R161): its failure and INNOV, none where it is not applied. -/
def innovation (s : State) (k : KindBlk) (r : Ref) (q : Nat) (z : List Frac) : Option (Bool × Nat) :=
  if r.kind ≤ 1 then
    match prediction s with
    | none => none
    | some (n, e, h) =>
      let f := s.cfg.img.fusion
      let zh := if r.kind = 0 then [Frac.ofInt n, Frac.ofInt e] else [Frac.ofNat h]
      let d2 := distSq r.kind z zh
      let si := if q = 5 then r.sigmaA * k.holdMult else r.sigmaA
      let t : Frac := Frac.norm (drNs (if r.kind = 0 then s.fusion.position else s.fusion.heading) s.fusion.tov : Nat) 1000000000
      let sp := if r.kind = 0 then Frac.add (Frac.ofNat f.obsSigmaPosMm) (Frac.mul (Frac.ofNat f.drGrowthMmS) t)
                else Frac.add (Frac.ofNat f.obsSigmaHdg) (Frac.mul (Frac.ofNat f.hdgDrGrowth) t)
      let var := Frac.add (Frac.ofNat (si * si)) (Frac.mul sp sp)
      let m := Frac.mul (Frac.ofNat 65536) (Frac.div d2 var)
      some (Frac.lt (Frac.ofNat (k.innovGate * k.innovGate)) m, Nat.min 0xFFFF (sqrtFrac m))
  else none

/-- All value slots hold an arrival since start. -/
def arrived (s : State) (r : Ref) : Bool := (valueSlots r).all (fun i => (snapSlot s i).live)

/-- Quality, new arrival, conversion, and the source, freeze and innovation gates of one reference (R153 to R161, R168, R172, R179). -/
def evalRef (s : State) (k : KindBlk) (a : Attitude) (i : Nat) (r : Ref) (old : RefSt) : RefW :=
  let f0 := { clearFound old with unusable := a.psi.isNone && needsHeading s.lock.slot r }
  if f0.awaiting ∧ arrived s r = false then { i := i, ref := r, st := { f0 with ageUs := 0xFFFFFFFF } }
  else
    let f := { f0 with awaiting := false }
    let (q, stamp, vals) := latest s r
    let age := if q = 2 ∧ (vals.isEmpty ∨ arrived s r = false) then 0xFFFFFFFF else satU 32 ((s.frame.tic - stamp) / 1000)
    if q = 2 then
      { i := i, ref := r, q := q, stamp := stamp
        st := forgetSkew { f with stale := true, ageUs := age, state := .masked, c := Nat.min f.c k.cStale, run := 0 } }
    else if q = 1 then { i := i, ref := r, q := q, stamp := stamp, st := { f with ageUs := age } }
    else
      let fresh := decide (f.evalStamp ≠ some stamp)
      let f1 := if fresh then skewStep s k r stamp (freezeStep stamp vals { f with evalStamp := some stamp }) else f
      if f1.unusable then { i := i, ref := r, q := q, stamp := stamp, st := { f1 with ageUs := age } }
      else
        let z := valueOf s r vals a
        let inn := innovation s k r q z
        let f2 := { f1 with
          ageUs := age
          srcFail := decide (q = 3 ∨ q = 4)
          srcSoft := !decide (q = 3 ∨ q = 4) && (decide (q = 5) || (f1.skew && r.skewAct))
          freezeFail := decide (k.freezeMs ≠ 0) && decide (f1.freezeStamp + k.freezeMs * 1000000 < stamp)
          innovFail := (match inn with | some (b, _) => b | none => false)
          innov := (match inn with | some (_, n) => n | none => 0)
          noPred := decide (r.kind ≤ 1) && inn.isNone }
        { i := i, ref := r, q := q, stamp := stamp, vals := vals, z := z, fresh := fresh, gated := true, st := f2 }

/-! ### The vote, confidence and states -/

/-- Member of the vote set U (R162). -/
def inU (w : RefW) : Bool := w.gated && decide (w.st.state = .isIn) && !w.st.srcFail && !w.st.freezeFail

/-- The median gate on the members of U, or the conflict of two (R162). -/
def vote (kind : Nat) (k : KindBlk) (ws : List RefW) : List RefW :=
  let u := ws.filter inU
  match u with
  | [x, y] =>
    if beyond kind x.z y.z k.confGate then
      ws.map (fun w =>
        if w.i = x.i then { w with st := { w.st with state := .conflict, partner := some y.i, run := 0 } }
        else if w.i = y.i then { w with st := { w.st with state := .conflict, partner := some x.i, run := 0 } } else w)
    else ws
  | _ =>
    if 3 ≤ u.length then
      let m := medianOf kind (u.map (·.z))
      ws.map (fun w => if inU w then { w with st := { w.st with medFail := beyond kind w.z m k.medGate } } else w)
    else ws

/-- A candidate with a new arrival that passes the source, freeze and innovation gates (R163). -/
def candidate (w : RefW) : Bool :=
  w.gated && decide (w.st.state ≠ .isIn) && w.fresh && !w.st.srcFail && !w.st.srcSoft && !w.st.freezeFail && !w.st.innovFail

/-- The agreement test of the candidates against U, which the caller formed before the vote (R163). -/
def agree (kind : Nat) (k : KindBlk) (u : List RefW) (entered : List Nat) (ws : List RefW) : List RefW :=
  ws.map (fun w =>
    if candidate w ∧ ¬ entered.contains w.i then
      let bad : Bool := match u with
        | [] => false
        | [x] => beyond kind w.z x.z k.confGate
        | _ => beyond kind w.z (medianOf kind (u.map (·.z))) k.medGate
      { w with st := { w.st with medFail := bad } }
    else w)

/-- Every gate that was evaluated passed. -/
def passedAll (w : RefW) : Bool :=
  w.gated && !w.st.srcFail && !w.st.srcSoft && !w.st.freezeFail && !w.st.innovFail && !w.st.medFail

/-- The sum of the drops of Table 6-2. -/
def dropSum (k : KindBlk) (f : RefSt) : Nat :=
  (if f.srcFail then k.cDropSrc else 0) + (if f.srcSoft then k.cDropHold else 0) + (if f.freezeFail then k.cDropFreeze else 0) +
  (if f.innovFail then k.cDropInnov else 0) + (if f.medFail then k.cDropMed else 0)

/-- Confidence and run at a new arrival (R165); `entered`: it entered CONFLICT in this frame (R169). -/
def confidence (k : KindBlk) (entered : List Nat) (w : RefW) : RefW :=
  if w.gated ∧ w.fresh then
    if passedAll w ∧ ¬ entered.contains w.i then
      { w with st := { w.st with c := Nat.min 255 (w.st.c + k.cRise), run := Nat.min 255 (w.st.run + 1) } }
    else { w with st := { w.st with c := w.st.c - dropSum k w.st, run := 0 } }
  else w

/-- IN and CONFLICT references below MASK_THR become MASKED (R166). -/
def maskLow (k : KindBlk) (w : RefW) : RefW := if w.st.c < k.maskThr then { w with st := { w.st with state := .masked } } else w

/-- A reference becomes IN again (R167). -/
def rejoin (k : KindBlk) (w : RefW) : RefW := { w with st := { w.st with state := .isIn, c := Nat.max w.st.c k.cRejoin, partner := none } }

/-- MASKED references that have completed their run (R167); with U empty they are first tested among themselves. -/
def unmask (kind : Nat) (k : KindBlk) (uEmpty : Bool) (ws : List RefW) : List RefW :=
  let ready := fun (w : RefW) => decide (w.st.state = .masked) && w.fresh && decide (k.unmaskRun ≤ w.st.run) && passedAll w
  let rs := ws.filter ready
  let bad : RefW → Bool := fun w =>
    if uEmpty then
      match rs with
      | [x, y] => beyond kind x.z y.z k.confGate
      | _ => if 3 ≤ rs.length then beyond kind w.z (medianOf kind (rs.map (·.z))) k.medGate else false
    else false
  ws.map (fun w => if ready w then (if bad w then { w with st := { w.st with run := 0 } } else rejoin k w) else w)

/-- Whether the partner no longer holds a reference in CONFLICT (R169). -/
def partnerLost (ws : List RefW) (w : RefW) : Bool :=
  match w.st.partner with
  | none => true
  | some j =>
    match ws.find? (fun x => x.i == j) with
    | none => true
    | some p => p.st.innovFail || p.st.stale || decide (p.st.state ≠ .conflict) || decide (p.st.partner ≠ some w.i)

/-- CONFLICT references that rejoin (R169). -/
def rejoinConflict (k : KindBlk) (ws : List RefW) : List RefW :=
  ws.map (fun w =>
    if w.st.state = .conflict ∧ k.unmaskRun ≤ w.st.run ∧ passedAll w = true ∧ partnerLost ws w = true then
      { w with st := { w.st with state := .isIn, partner := none } } else w)

/-- A reference contributes to the frame (R164). -/
def contributes (w : RefW) : Bool :=
  w.gated && decide (w.st.state = .isIn) && !w.st.srcFail && !w.st.freezeFail && !w.st.innovFail && !w.st.medFail

/-! ### Combination -/

/-- The weight of a contributing reference (R173). -/
def weight (k : KindBlk) (w : RefW) : Frac :=
  let h := if w.q = 5 then k.holdMult else 1
  let s2 : Frac :=
    if w.ref.kind ≤ 1 then Frac.ofNat (w.ref.sigmaA * w.ref.sigmaA)
    else if w.ref.kind = 2 then Frac.one
    else
      let b := Frac.mul (Frac.mul (nth Frac.zero w.z 0) (Frac.ofNat w.ref.sigmaB)) (Frac.norm fixTwoPi (2 ^ 92))
      Frac.add (Frac.ofNat (w.ref.sigmaA * w.ref.sigmaA)) (Frac.mul b b)
  Frac.div (Frac.ofNat w.st.c) (Frac.mul (Frac.ofNat (255 * h * h)) s2)

/-- Weighted mean. -/
def wMean (ws : List Frac) (xs : List Frac) : Frac := Frac.div (Frac.sum (List.zipWith Frac.mul ws xs)) (Frac.sum ws)

/-- The shares in units of 1/65,535, the first largest adjusted so that they sum to 65,535 (R175). -/
def shares (ws : List Frac) : List Nat :=
  let t := Frac.sum ws
  let raw := ws.map (fun w => (roundEven (Frac.mul (Frac.ofNat 65535) (Frac.div w t))).toNat)
  let top := maxL raw
  let j := raw.findIdx (fun x => x == top)
  upd (fun x => ((x : Int) + 65535 - (raw.sum : Nat)).toNat) raw j

/-- Least integer not below a fraction. -/
def ceilF (f : Frac) : Int := -((Frac.neg f).floor)

/-- A rounded output: an integer that lies within `b` of the exact value `x`, `e` away from its rounding as far as that allows (R158). -/
def rounded (b : Int) (x : Frac) (e : Int) : Int :=
  clamp (ceilF (Frac.sub x (Frac.ofInt b))) (Frac.floor (Frac.add x (Frac.ofInt b))) (roundEven x + e)

/-- A position coordinate and an angle as the module's fixed point gives them: within 2 mm, saturated (R11), and within 256 binary-angle units
(R158). -/
def posOut (n : Nat) (x : Frac) : Int := satS 32 (rounded 2 x (Config.fusionErrMm n))
def angleOut (n : Nat) (x : Frac) : Int := rounded 256 x (Config.fusionErrAngle n)

/-- The values of a fused output (R174); `n`: counter of free values. The direction of the wind is rounded before its error is added, which is
therefore kept one unit closer. -/
def combined (kind n : Nat) (ks : List Frac) (cs : List RefW) : List Int :=
  let col := fun i => wMean ks (cs.map (fun c => nth Frac.zero c.z i))
  if kind = 0 then [posOut n (col 0), posOut (n + 1) (col 1), 0]
  else if kind = 1 then
    let a := (nth Frac.zero (nth [] (cs.map (·.z)) 0) 0).num
    let d := wMean ks (cs.map (fun c => Frac.ofInt (angDiff (nth Frac.zero c.z 0).num a)))
    [(angWrap (a + angleOut n d) : Nat), 0, 0]
  else if kind = 2 then
    [ofWord 32 (toWord 32 (angleOut n (col 0))), ofWord 32 (toWord 32 (angleOut (n + 1) (col 1))), satS 32 (roundEven (col 2))]
  else
    let u := col 2
    let v := col 3
    [(satU 32 (sqrtFrac (Frac.add (Frac.mul u u) (Frac.mul v v))) : Nat),
     (angWrap ((atan2Bin (v.num * u.den) (u.num * v.den) : Nat) + clamp (-255) 255 (Config.fusionErrAngle n)) : Nat), 0]

/-- A pair of the kind is in CONFLICT: both references, each the other's partner. -/
def pairInConflict (ws : List RefW) : Bool :=
  ws.any (fun w => decide (w.st.state = .conflict) &&
    ws.any (fun p => decide (p.st.state = .conflict) && decide (w.st.partner = some p.i) && decide (p.st.partner = some w.i)))

/-- The fused output of a kind (R150, R151, R173 to R178). `hp`, `mu`: HEADING_PRED and MOTION_UNCOMP. -/
def fuse (s : State) (kind : Nat) (k : KindBlk) (old : Fused) (ws : List RefW) (minIn : Nat) (hp mu : Bool) : Fused × List RefW :=
  let cs := ws.filter contributes
  let ks := cs.map (weight k)
  let valid := !cs.isEmpty
  let sh := shares ks
  let ws' := ws.map (fun w =>
    let p := (cs.map (·.i)).findIdx (fun j => j == w.i)
    if contributes w then { w with st := { w.st with share := nth 0 sh p } } else w)
  let nIn := (ws.filter (fun w => decide (w.st.state = .isIn))).length
  let stamp : Option Nat :=
    if valid then some (cs.foldl (fun a c => Nat.min a c.stamp) (nth {} cs 0).stamp) else old.stamp
  let dr := !valid && decide (kind ≤ 1)
  let last := if valid then some s.frame.tic else old.lastValidTic
  let flags : OutFlags :=
    { headingPred := hp, motionUncomp := mu, noPred := decide (kind ≤ 1) && (prediction s).isNone
      skew := cs.any (fun c => c.st.skew), holdoverUsed := cs.any (fun c => c.q == 5), conflict := pairInConflict ws
      redundancyLow := decide (kind ≤ 1) && decide (nIn < minIn), dr := dr, fresh := cs.any (·.fresh), valid := valid }
  let f : Fused :=
    { v := if valid then combined kind s.nFree ks cs else old.v
      stamp := stamp
      ageUs := (match stamp with | some t => satU 32 ((s.frame.tic - t) / 1000) | none => 0xFFFFFFFF)
      sigma := if valid ∧ kind ≤ 1 then satU 32 (sqrtFrac (Frac.inv (Frac.sum ks))) else 0xFFFFFFFF
      flags := flags, used := cs.length, nIn := nIn, lastValidTic := last
      sinceEl := if valid then none else some (old.sinceEl.getD (elNs s)) }
  let t := drNs f s.frame.tic
  let lim := (if kind = 0 then s.cfg.img.fusion.drLimitS else s.cfg.img.fusion.hdgDrLimitS) * 1000000000
  ({ f with drMs := if kind ≤ 1 then satU 32 (t / 1000000) else 0
            flags := { flags with drLimit := dr && decide (lim < t) } }, ws')

/-! ### A kind, a frame -/

/-- REASONS, Table 6-11. -/
def reasonBits (f : RefSt) : Nat :=
  maskOf [f.srcFail, f.srcSoft, f.freezeFail, f.innovFail, f.medFail, decide (f.state = .conflict), f.stale, f.skew, f.noPred,
    f.unusable, f.awaiting]

/-- Events of a reference in a frame (Table 6-12). -/
def refEvents (old : RefSt) (w : RefW) (s : State) : State :=
  let f := w.st
  let s1 := if old.skew ≠ f.skew then event 0x0605 (flag f.skew ++ u8 w.i ++ i32 (f.lastSkew - (match f.sRef, old.sRef with | some b, _ => b | none, some b => b | none, none => 0))) s else s
  let s2 := if old.state ≠ .masked ∧ f.state = .masked then event 0x0601 (u8 w.i ++ u16 (reasonBits f) ++ u8 f.c) s1 else s1
  if old.state ≠ .isIn ∧ f.state = .isIn then event 0x0602 (flag (decide (old.state = .masked)) ++ u8 w.i ++ u8 f.c) s2 else s2

/-- Write the state of a reference into the snapshot quality of one of its slots, over VALID, UNSETTLED or HOLDOVER only (R124, R170). -/
def writeQuality (f : RefSt) (sn : Table Slot) (i : Nat) : Table Slot :=
  match Table.find sn i with
  | some x =>
    if x.quality = 2 ∨ x.quality = 3 ∨ x.quality = 4 then sn
    else match f.state with
      | .isIn => sn
      | .masked => Table.set sn i { x with quality := 3 }
      | .conflict => Table.set sn i { x with quality := 4 }
  | none => sn

/-- The references of a kind with their indices. -/
def refsOf (s : State) (kind : Nat) : List (Nat × Ref) := (enumFrom 0 s.cfg.img.fusion.refs).filter (fun p => p.2.kind == kind)

def kindBlk (s : State) (kind : Nat) : KindBlk := nth {} s.cfg.img.fusion.kinds kind

/-- The states of a kind's references after the vote, the confidence update and R166 to R169, with the pair that entered CONFLICT. -/
def judgeKind (kind : Nat) (k : KindBlk) (ws0 : List RefW) : List RefW × List Nat :=
  let u := ws0.filter inU
  let ws1 := vote kind k ws0
  let entered := (ws1.filter (fun w => decide (w.st.state = .conflict) && u.any (fun x => x.i == w.i))).map (·.i)
  let ws2 := (agree kind k u entered ws1).map (confidence k entered)
  (rejoinConflict k (unmask kind k u.isEmpty (ws2.map (maskLow k))), entered)

/-- Evaluation of one kind in P1, in the order of R170. `put` stores the fused output. -/
def kindStep (kind : Nat) (a : Attitude) (hp : Bool) (old : Fused) (minIn : Nat) (s : State) : State × Fused :=
  let k := kindBlk s kind
  let rs := refsOf s kind
  let ws0 := rs.map (fun p => evalRef s k a p.1 p.2 (nth {} s.fusion.refs p.1))
  let (ws, entered) := judgeKind kind k ws0
  let mu := decide (kind = 0) && (ws.filter contributes).any (fun w => (leverOf s.lock.slot w.ref).2.2 != 0) &&
    !s.fusion.motion.flags.valid
  let (out, ws') := fuse s kind k old ws minIn (hp && decide (kind = 0)) mu
  let olds := s.fusion.refs
  let refs' := ws'.foldl (fun l w => upd (fun _ => w.st) l w.i) olds
  let sn' := ws'.foldl (fun sn w => (valueSlots w.ref).foldl (writeQuality w.st) sn) s.snap
  let s1 := { s with fusion := { s.fusion with refs := refs' }, snap := sn', nFree := s.nFree + 2 }
  let s2 := ws'.foldl (fun t w => refEvents (nth {} olds w.i) w t) s1
  let s3 : State := match entered with
    | [x, y] => event 0x0603 (u8 kind ++ u8 x ++ u8 y ++
        u32 (sqrtFrac (distSq kind (nth [] ((ws.filter (fun w => w.i == x)).map (·.z)) 0) (nth [] ((ws.filter (fun w => w.i == y)).map (·.z)) 0)))) s2
    | _ => s2
  let s4 := if kind ≤ 1 ∧ old.flags.dr ≠ out.flags.dr then event 0x0604 (flag (decide (kind = 0)) ++ flag out.flags.dr) s3 else s3
  (s4, out)

/-- The heading for conversions: the fused one, else the predicted one with HEADING_PRED (R156). -/
def convHeading (s : State) (h : Fused) : Option Nat × Bool :=
  if h.flags.valid then (some (nth 0 h.v 0).toNat, false)
  else match prediction s with | some (_, _, p) => (some p, true) | none => (none, false)

/-- References of a kind that are IN. -/
def countIn (s : State) (kind : Nat) : Nat := ((refsOf s kind).filter (fun p => decide ((nth {} s.fusion.refs p.1).state = .isIn))).length

/-- Warm-up ends once a position and a heading reference are IN (R171). -/
def warmCheck (s : State) : State :=
  if s.fusion.warmup ∧ 1 ≤ countIn s 0 ∧ 1 ≤ countIn s 1 then event 0x0607 [] { s with fusion := { s.fusion with warmup := false } } else s

def withWarm (b : Bool) (f : Fused) : Fused := { f with flags := { f.flags with warmup := b } }

/-- The fault conditions that P1 decides: redundancy, conflict, skew, and the end of those that a frame with a VALID output ends (R177,
R178, Table 6-12). -/
def fusionFaults (s : State) : State :=
  let f := s.fusion
  let s1 := faultCond 0x0612 f.position.flags.redundancyLow s
  let s2 := faultCond 0x0613 f.heading.flags.redundancyLow s1
  let s3 := faultCond 0x0616 (f.position.flags.conflict || f.heading.flags.conflict || f.motion.flags.conflict || f.wind.flags.conflict) s2
  let s4 := faultCond 0x0617 (f.refs.any (·.skew)) s3
  let s5 := endCond 0x0610 (!f.position.flags.valid) s4
  let s6 := endCond 0x0611 (!f.heading.flags.valid) s5
  let s7 := endCond 0x0614 (!f.motion.flags.valid) s6
  endCond 0x0615 (!f.wind.flags.valid) s7

/-- P1 of a frame (R148, R170): heading, motion, position, wind. -/
def fusionP1 (s : State) : State :=
  if s.fusion.running then
    let g := s.cfg.img.fusion
    let (s1, h) := kindStep 1 {} false s.fusion.heading g.minHdgIn s
    let s1 := { s1 with fusion := { s1.fusion with heading := h } }
    let (s2, m) := kindStep 2 {} false s.fusion.motion 0 s1
    let s2 := { s2 with fusion := { s2.fusion with motion := m } }
    let (psi, hp) := convHeading s2 h
    let a : Attitude := { psi := psi, roll := if m.flags.valid then nth 0 m.v 0 else 0, pitch := if m.flags.valid then nth 0 m.v 1 else 0 }
    let (s3, p) := kindStep 0 a hp s.fusion.position g.minPosIn s2
    let s3 := { s3 with fusion := { s3.fusion with position := p } }
    let (s4, w) := kindStep 3 {} false s.fusion.wind 0 s3
    let s4 := warmCheck { s4 with fusion := { s4.fusion with wind := w, tov := s.frame.tic } }
    let b := s4.fusion.warmup
    fusionFaults { s4 with fusion := { s4.fusion with
      heading := withWarm b s4.fusion.heading, motion := withWarm b s4.fusion.motion
      position := withWarm b s4.fusion.position, wind := withWarm b s4.fusion.wind } }
  else s

/-- The age of an output or reference of an abandoned P1, one frame greater (01 Table 1-5, P1). -/
def grow (s : State) (age : Nat) : Nat := if age = 0xFFFFFFFF then age else satU 32 (age + periodNs s.frame.mode / 1000)

/-- P1 was late: the outputs of the frame before stand, their ages grown (01 Table 1-5). -/
def fusionLate (s : State) : State :=
  let g := fun (f : Fused) => { f with ageUs := grow s f.ageUs }
  { s with fusion := { s.fusion with heading := g s.fusion.heading, motion := g s.fusion.motion, position := g s.fusion.position
                                     wind := g s.fusion.wind, refs := s.fusion.refs.map (fun r => { r with ageUs := grow s r.ageUs }) } }

/-- The latch of the internal receiver's solution at the end of P0 (R154): the latest whose epoch is at or before T_IC. Without a newer one
it stands, and grows old. -/
def latchNav (s : State) : State :=
  match s.gnss.sol with
  | some x =>
    if s.gnss.solEpoch ≤ s.frame.tic ∧ s.gnss.grade ≠ 0 then
      { s with fusion := { s.fusion with
          nav := some { epoch := s.gnss.solEpoch, quality := if s.gnss.grade = 2 then 0 else 5, lat := x.lat, lon := x.lon } } }
    else s
  | none => s

/-- An output as fusion starts: not VALID, in warm-up (R171). -/
def fusedStart (s : State) : Fused := { sinceEl := some (elNs s), flags := { warmup := true } }

/-- Fusion starts in bring-up (R171). -/
def fusionStart (s : State) : State :=
  { s with fusion :=
      { running := true, warmup := true, tov := s.frame.tic
        refs := s.cfg.img.fusion.refs.map (fun r => { c := (kindBlk s r.kind).cInit })
        heading := fusedStart s, motion := fusedStart s, position := fusedStart s, wind := fusedStart s } }

/-- MAX_AGE_US of the entry that fills a slot, in ns. -/
def maxAgeNs (s : State) (slot : Nat) : Nat :=
  match s.cfg.img.map.find? (fun e => e.kind != 0 && e.dest == slot) with | some e => e.maxAgeUs * 1000 | none => 0

/-- One reference at a takeover (R172). `tic`: T_IC of the first frame on duty. -/
def takeRef (s : State) (tic : Nat) (r : Ref) (f : RefSt) : RefSt :=
  let g := clearFound f
  if r.kind = 0 ∧ r.format = 3 then
    { g with state := .masked, c := Nat.min g.c (kindBlk s 0).cStale, run := 0, awaiting := false, ageUs := 0xFFFFFFFF }
  else { g with awaiting := true, awaitUntil := tic + maxAgeNs s r.slot0, ageUs := 0xFFFFFFFF }

/-- The fusion state of a checkpoint is loaded (R172). -/
def fusionLoad (f : FusionSt) (tic : Nat) (s : State) : State :=
  let refs := s.cfg.img.fusion.refs
  { s with fusion := { f with
      running := true, nav := none
      refs := (List.range refs.length).map (fun i => takeRef s tic (nth {} refs i) (nth {} f.refs i)) } }

/-- Fusion stops when the module leaves duty; the faults of its outputs end. -/
def fusionStop (s : State) : State :=
  [0x0610, 0x0611, 0x0612, 0x0613, 0x0614, 0x0615, 0x0616, 0x0617].foldl (fun t c => faultCond c false t) { s with fusion := {} }

/-! ### Rows -/

/-- R180: SKEW has been set for 60 s; the baseline is learnt afresh. -/
def skewRelearn (i : Nat) (s : State) : State :=
  let f := nth {} s.fusion.refs i
  if s.fusion.running ∧ i < s.fusion.refs.length ∧ f.skew = true ∧ f.skewEl + 60000000000 ≤ elNs s then
    let s1 := { s with fusion := { s.fusion with refs := upd forgetSkew s.fusion.refs i } }
    let base := f.sRef.getD 0
    event 0x0606 [] (event 0x0605 (flag false ++ u8 i ++ i32 (f.lastSkew - base)) s1)
  else s

def execSkewRelearn (dt ref : Nat) (s : State) : Host.Outcome State Fault Refusal := .next (settle (skewRelearn ref (advance s dt)))

/-- R172: the wait for a first arrival after takeover ends. -/
def awaitTimeout (i : Nat) (s : State) : State :=
  let f := nth {} s.fusion.refs i
  if f.awaiting = true ∧ f.awaitUntil ≤ nowNs s then
    { s with fusion := { s.fusion with refs := upd (fun r => { r with awaiting := false }) s.fusion.refs i } }
  else s

def execAwaitTimeout (dt ref : Nat) (s : State) : Host.Outcome State Fault Refusal := .next (settle (awaitTimeout ref (advance s dt)))

/-- R177: t_DR has exceeded its limit. -/
def drLimit (heading : Bool) (s : State) : State :=
  let f := if heading then s.fusion.heading else s.fusion.position
  let lim := (if heading then s.cfg.img.fusion.hdgDrLimitS else s.cfg.img.fusion.drLimitS) * 1000000000
  if s.fusion.running = true ∧ f.flags.valid = false ∧ lim < drNs f s.fusion.tov then
    let s1 := faultCond (if heading then 0x0611 else 0x0610) true s
    let mark := fun (g : Fused) => { g with flags := { g.flags with drLimit := true } }
    if heading then { s1 with fusion := { s1.fusion with heading := mark s1.fusion.heading } }
    else { s1 with fusion := { s1.fusion with position := mark s1.fusion.position } }
  else s

def execDrLimit (dt : Nat) (heading : Bool) (s : State) : Host.Outcome State Fault Refusal := .next (settle (drLimit heading (advance s dt)))

/-- Table 6-12: motion or wind not VALID for 1 s. -/
def kindNotValid (wind : Bool) (s : State) : State :=
  let f := if wind then s.fusion.wind else s.fusion.motion
  if s.fusion.running ∧ !(refsOf s (if wind then 3 else 2)).isEmpty ∧ !f.flags.valid ∧
      (match f.sinceEl with | some t => decide (t + 1000000000 ≤ elNs s) | none => false) = true then
    faultCond (if wind then 0x0615 else 0x0614) true s
  else s

def execKindNotValidFault (dt : Nat) (wind : Bool) (s : State) : Host.Outcome State Fault Refusal := .next (settle (kindNotValid wind (advance s dt)))

/-! ### The report section -/

/-- FLAGS of an output, Table 6-9. -/
def outFlagBits (f : OutFlags) : Nat :=
  maskOf [f.valid, f.fresh, f.dr, f.drLimit, f.redundancyLow, f.conflict, f.holdoverUsed, f.skew, f.noPred, f.motionUncomp,
    f.headingPred, f.warmup]

/-- A reference record, Table 6-10. -/
def refRecord (i : Nat) (f : RefSt) : Bytes :=
  u8 i ++ u8 (match f.state with | .isIn => 0 | .masked => 1 | .conflict => 2) ++ u8 f.c ++ u8 f.run ++ u16 (reasonBits f) ++ u16 f.innov ++
  u32 f.ageUs ++ u16 f.share ++ zeros 2

/-- The POSITION section (R184, Table 6-8). -/
def positionSection (s : State) : Bytes :=
  let f := s.fusion
  let p := withWarm f.warmup f.position
  let h := withWarm f.warmup f.heading
  let m := withWarm f.warmup f.motion
  let w := withWarm f.warmup f.wind
  let fixed := u64 f.tov ++ i32 (nth 0 p.v 0) ++ i32 (nth 0 p.v 1) ++ u32 p.sigma ++ u32 p.ageUs ++ u16 (outFlagBits p.flags) ++ u8 p.used ++ u8 p.nIn ++
    u32 p.drMs
  let hd := u32 (nth 0 h.v 0).toNat ++ u32 h.sigma ++ u32 h.ageUs ++ u16 (outFlagBits h.flags) ++ u8 h.used ++ u8 h.nIn ++ u32 h.drMs
  let mo := i32 (nth 0 m.v 0) ++ i32 (nth 0 m.v 1) ++ i32 (nth 0 m.v 2) ++ u32 m.ageUs ++ u16 (outFlagBits m.flags) ++ u8 m.used ++ u8 m.nIn
  let wi := u32 (nth 0 w.v 0).toNat ++ u32 (nth 0 w.v 1).toNat ++ u32 w.ageUs ++ u16 (outFlagBits w.flags) ++ u8 w.used ++ u8 w.nIn
  fixed ++ hd ++ mo ++ wi ++ u8 f.refs.length ++ zeros 3 ++ (enumFrom 0 f.refs).flatMap (fun q => refRecord q.1 q.2)

end Sys2Proof.Machine
end

