-- ==== Sys2Proof/Machine/Observer.lean ====
section
/-! DEFINITION. Steps 1 to 3 of P2: wind, selectors, region and blend; the observer; the wave estimator (07_observer_control R185 to R197,
R200, R201, R205 to R209). Readings: notes/assumptions/24.md. -/

namespace Sys2Proof.Machine

open Sys2Proof.Image (Row Region)

/-! ### Rotations and rows -/

/-- Sine and cosine as the FCE forms them, within 2⁻²⁸ (R189), of a heading with 16 fraction bits below the binary angle. -/
def fceSin (raw : Int) : Frac :=
  let a := toWord 48 raw
  let x := ofWord 48 a * fixTwoPi / (2 ^ 48 : Nat)
  Frac.norm (trigSeries 16 x (x * x / fixOne) 2 x + clamp (-4294967296) 4294967296 (Config.sinErr a)) (2 ^ 60)
def fceCos (raw : Int) : Frac :=
  let a := toWord 48 raw
  let x := ofWord 48 a * fixTwoPi / (2 ^ 48 : Nat)
  Frac.norm (trigSeries 16 fixOne (x * x / fixOne) 1 fixOne + clamp (-4294967296) 4294967296 (Config.cosErr a)) (2 ^ 60)

/-- R(ψ): body x and y into north and east. -/
def rotNE (psi : Int) (p : Frac × Frac) : Frac × Frac :=
  let c := fceCos psi
  let s := fceSin psi
  (Frac.sub (Frac.mul c p.1) (Frac.mul s p.2), Frac.add (Frac.mul s p.1) (Frac.mul c p.2))

/-- Rᵀ(ψ): north and east into body x and y. -/
def rotXY (psi : Int) (p : Frac × Frac) : Frac × Frac :=
  let c := fceCos psi
  let s := fceSin psi
  (Frac.add (Frac.mul c p.1) (Frac.mul s p.2), Frac.sub (Frac.mul c p.2) (Frac.mul s p.1))

/-- The sum of products of a row, scaled by 2^(ROW_EXP − 31) (R193, R199). -/
def rowSum (r : Row) (v : List Int) : Frac := Frac.mul (Frac.ofInt (sumI (List.zipWith (· * ·) r.m v))) (Frac.pow2 (r.rowExp - 31))

/-- The weights of the regions in force: the current one, or both of a blend (R208). -/
def regionWeights (s : State) : List (Frac × Nat) :=
  match s.obs.blend with
  | none => [(Frac.one, s.obs.region)]
  | some (tgt, n) =>
    let a := Frac.norm n (Nat.max 1 s.cfg.img.gains.blendFrames)
    [(Frac.sub Frac.one a, s.obs.region), (a, tgt)]

/-- A quantity of weighted regions, combined and not yet rounded. -/
def blendBy (ws : List (Frac × Nat)) (f : Nat → Frac) : Frac := Frac.sum (ws.map (fun p => Frac.mul p.1 (f p.2)))

/-- A quantity of the regions in force, combined and not yet rounded. -/
def blended (s : State) (f : Nat → Frac) : Frac := blendBy (regionWeights s) f

/-- Row `i` of the observer matrix of a region at period `p`. -/
def obsRow (s : State) (p g i : Nat) : Row := nth {} (nth [] (nth [] s.cfg.img.observer.rows p) g) i

/-- Row `c` of the feedback matrix of a region at the period in force. -/
def gainRow (s : State) (g c : Nat) : Row := nth {} (nth [] (nth {} s.cfg.img.gains.regions g).g s.frame.mode) c

def xAt (s : State) (i : Nat) : Int := nth 0 s.obs.x i

/-- A quantity of `n` fraction bits. -/
def fx (n : Nat) (v : Int) : Frac := Frac.norm v (2 ^ n)

/-- A fraction rounded to `n` fraction bits. -/
def toFx (n : Nat) (f : Frac) : Int := roundEven (Frac.mul f (Frac.ofNat (2 ^ n)))

def setObs (f : ObsSt → ObsSt) (s : State) : State := { s with obs := f s.obs }

/-- CTRL_FLAGS bits that hold, Table 7-10. -/
def setCtrl (bit : Nat) (on : Bool) (s : State) : State :=
  if on then setObs (fun o => { o with ctrlFlags := Nat.lor o.ctrlFlags (2 ^ bit) }) s else s

/-! ### Step 1 -/

/-- Interpolated wind coefficient of an axis at a direction, in units of N·s²/m² (R200). -/
def windCoef (s : State) (c dir : Nat) : Frac :=
  let p := dir * 36
  let a := p / 2 ^ 32
  let t : Frac := Frac.norm (p % 2 ^ 32 : Nat) (2 ^ 32)
  let cw := nth [] s.cfg.img.gains.cw c
  let v0 := fx 8 (nth 0 cw (a % 36))
  let v1 := fx 8 (nth 0 cw ((a + 1) % 36))
  Frac.add v0 (Frac.mul t (Frac.sub v1 v0))

/-- Wind force and fade (R200, R201). -/
def windStep (s : State) : State :=
  let w := s.fusion.wind
  let nWnd := (refsOf s 3).length
  let valid := w.flags.valid
  let v : Frac := Frac.norm (nth 0 w.v 0) 1000
  let tau := if nWnd = 0 then [0, 0, 0]
    else if valid then (List.range 3).map (fun c => satS 32 (roundEven (Frac.mul (windCoef s c (nth 0 w.v 1).toNat) (Frac.mul v v)))) else s.obs.tauWind
  let fade := s.cfg.img.gains.windFadeMs
  let d : Frac := Frac.norm (periodNs s.frame.mode / 1000000 : Nat) fade
  let f := if fade = 0 then (if valid then Frac.one else Frac.zero)
    else if valid then Frac.min Frac.one (Frac.add s.obs.fade d) else Frac.max Frac.zero (Frac.sub s.obs.fade d)
  let full := !Frac.lt f Frac.one
  let was := !Frac.lt s.obs.fade Frac.one
  let s1 := setObs (fun o => { o with tauWind := tau, fade := f }) s
  let s2 := setCtrl 4 (!full) s1
  if full ≠ was then event 0x0703 (flag was) s2 else s2

/-- The selectors (R205); SEL_HELD by the bits of Table 7-3. -/
def selectors (s : State) : State :=
  let o := s.obs
  let w := s.fusion.wind
  let pwr := snapSlot s s.cfg.img.gains.pwrSlot
  let pwrOk := decide (s.cfg.img.gains.pwrSlot ≠ 0xFFFF) && (pwr.quality == 0 || pwr.quality == 5)
  let sog := sqrtFrac (Frac.add (Frac.mul (fx 12 (xAt s 3)) (fx 12 (xAt s 3))) (Frac.mul (fx 12 (xAt s 4)) (fx 12 (xAt s 4))))
  setObs (fun p => { p with
    selWind := if w.flags.valid then (nth 0 w.v 0).toNat else o.selWind
    selSog := if o.init then sog else o.selSog
    selWave := (match o.waveF with | some f => f | none => o.selWave)
    selPwr := if pwrOk then satU 8 pwr.value.toNat else o.selPwr
    selHeld := maskOf [!w.flags.valid, !o.init, o.waveF.isNone, !pwrOk] }) s

/-- A selector lies in a box widened by `h`, saturating at the ends of its type. -/
def inBox (bits lo hi h v : Nat) : Bool := decide (lo - h ≤ v) && decide (v ≤ Nat.min (2 ^ bits - 1) (hi + h))

/-- Every enabled selector lies within the box of a region; `wide`: with hysteresis (R207). -/
def regionHolds (s : State) (wide : Bool) (r : Region) : Bool :=
  let g := s.cfg.img.gains
  let h := fun x => if wide then x else 0
  let en := fun (i : Nat) (b : Bool) => !g.selEn.testBit i || b
  en 0 (inBox 32 r.windLo r.windHi (h g.hystWind) s.obs.selWind) && en 1 (inBox 32 r.sogLo r.sogHi (h g.hystSog) s.obs.selSog) &&
  en 2 (inBox 16 r.waveLo r.waveHi (h g.hystWave) s.obs.selWave) && en 3 (inBox 8 r.pwrLo r.pwrHi 0 s.obs.selPwr)

/-- A blend whose last frame has run ends: the new region becomes current (R208). -/
def endBlend (s : State) : State :=
  match s.obs.blend with
  | some (tgt, n) =>
    if s.cfg.img.gains.blendFrames ≤ n then setObs (fun o => { o with region := tgt, blend := none }) s else s
  | none => s

/-- The region decision, and the blend's next frame (R207, R208). -/
def regionStep (s0 : State) : State :=
  let s := endBlend s0
  match s.obs.blend with
  | some (tgt, n) => setCtrl 5 true (setObs (fun o => { o with blend := some (tgt, n + 1) }) s)
  | none =>
    let rs := s.cfg.img.gains.regions
    if regionHolds s true (nth {} rs s.obs.region) then s
    else
      let j := rs.findIdx (regionHolds s false)
      if j = rs.length then setCtrl 6 true s
      else if j = s.obs.region then s
      else
        event 0x0702 (u8 s.obs.region ++ u8 j ++ u32 s.obs.selWind ++ u32 s.obs.selSog ++ u16 s.obs.selWave ++ u8 s.obs.selPwr)
          (setCtrl 5 true (setObs (fun o => { o with blend := some (j, 1) }) s))

/-- Step 1 of Table 7-1; the frame's flags are formed anew. -/
def obsStep1 (s : State) : State :=
  regionStep (selectors (windStep (setObs (fun o => { o with ctrlFlags := if o.init then 1 else 0 }) s)))

/-! ### Step 2 -/

/-- The input of an update: emitted force and, where WIND_IN_OBS says so, the faded wind force (R192). -/
def obsInput (s : State) : List Int :=
  (List.range 3).map (fun c =>
    let w := if s.cfg.img.observer.windInObs = 1 then Frac.mul s.obs.fade (Frac.ofInt (nth 0 s.obs.tauWind c)) else Frac.zero
    satS 32 (roundEven (Frac.add (Frac.ofInt (nth 0 s.obs.tauEmit c)) w)))

/-- Saturation into the 32 bits of a state or term, with whether it saturated. -/
def sat32 (v : Int) : Int × Bool := (satS 32 v, decide (satS 32 v ≠ v))

/-- The innovations, raw, and whether one saturated (R190, R191). -/
def innovations (s : State) : List Int × Bool :=
  let p := s.fusion.position
  let h := s.fusion.heading
  let lim := s.cfg.img.observer.ageLimitUs
  let psi := xAt s 2
  let ex : (Int × Bool) × (Int × Bool) :=
    if p.flags.valid ∧ p.ageUs ≤ lim then
      let w := rotNE psi (fx 8 (xAt s 10), fx 8 (xAt s 12))
      let v := rotNE psi (fx 12 (xAt s 3), fx 12 (xAt s 4))
      let a : Frac := Frac.norm p.ageUs 1000000
      let pn := Frac.sub (Frac.add (fx 16 (xAt s 0)) w.1) (Frac.mul a v.1)
      let pe := Frac.sub (Frac.add (fx 16 (xAt s 1)) w.2) (Frac.mul a v.2)
      let e := rotXY psi (Frac.sub (Frac.ofInt (nth 0 p.v 0)) pn, Frac.sub (Frac.ofInt (nth 0 p.v 1)) pe)
      (sat32 (toFx 8 e.1), sat32 (toFx 8 e.2))
    else ((0, false), (0, false))
  let eh : Int :=
    if h.flags.valid ∧ h.ageUs ≤ lim then
      let a : Frac := Frac.norm h.ageUs 1000000
      let pred := Frac.sub (Frac.add (fx 16 psi) (Frac.ofInt (xAt s 14))) (Frac.mul a (fx 2 (xAt s 5)))
      ofWord 32 (toWord 32 (roundEven (Frac.sub (Frac.ofInt (nth 0 h.v 0)) pred)))
    else 0
  ([ex.1.1, ex.2.1, eh], ex.1.2 || ex.2.2)

/-- What an update of the frame in progress takes: inputs, period and region weights. -/
def obsInputs (s : State) : ObsInputs := { uIn := obsInput s, period := s.frame.mode, weights := regionWeights s }

/-- Completion of x(k+1|k) from the matrix rows (R193, R194): the new state and whether a state saturated. Every quantity saturates to its
format by R11; OBS_SAT is for states and innovations. -/
def obsUpdate (s : State) (q : ObsInputs) (eps : List Int) : List Int × Bool :=
  let psi := xAt s 2
  let b := rotXY psi (fx 4 (xAt s 6), fx 4 (xAt s 7))
  let v : List Int := [0, 0, 0, xAt s 3, xAt s 4, xAt s 5, satS 32 (toFx 4 b.1), satS 32 (toFx 4 b.2), xAt s 8, xAt s 9, xAt s 10, xAt s 11, xAt s 12, xAt s 13,
    xAt s 14] ++ q.uIn ++ eps
  let w := (List.range 15).map (fun i => roundEven (blendBy q.weights (fun g => rowSum (obsRow s q.period g i) v)))
  let wAt := fun i => nth 0 w i
  let d := rotNE psi (fx 16 (satS 64 (wAt 0)), fx 16 (satS 64 (wAt 1)))
  let eta := fun (i : Nat) (f : Frac) => let r := xAt s i + toFx 16 f; (satS 64 r, decide (satS 64 r ≠ r))
  let n := eta 0 d.1
  let e := eta 1 d.2
  let low := (List.range 15).map (fun i => sat32 (wAt i))
  let lowAt := fun i => nth (0, false) low i
  let bl := rotNE psi (fx 4 (lowAt 6).1, fx 4 (lowAt 7).1)
  let bn := sat32 (toFx 4 bl.1)
  let be := sat32 (toFx 4 bl.2)
  let x := [n.1, e.1, (toWord 48 (psi + wAt 2) : Nat), (lowAt 3).1, (lowAt 4).1, (lowAt 5).1, bn.1, be.1] ++ ((low.drop 8).map Prod.fst)
  (x, n.2 || e.2 || bn.2 || be.2 || (low.drop 3).any Prod.snd)

/-- The prediction handed to fusion (R195). -/
def obsPrediction (s : State) : Int × Int × Nat :=
  let psi := xAt s 2
  let w := rotNE psi (fx 8 (xAt s 10), fx 8 (xAt s 12))
  (roundEven (Frac.add (fx 16 (xAt s 0)) w.1), roundEven (Frac.add (fx 16 (xAt s 1)) w.2), angWrap (roundEven (fx 16 (psi + xAt s 14 * 65536))))

/-- Apply one update with given inputs and innovations. -/
def applyUpdate (q : ObsInputs) (eps : List Int) (s : State) : State :=
  let (x, sat) := obsUpdate s q eps
  setCtrl 8 sat (setObs (fun o => { o with x := x }) s)

/-- The observer's own update of a frame (R190 to R195), after the updates that were missed (R186). -/
def obsRun (s0 : State) : State :=
  let s1 := s0.obs.missed.foldl (fun t m => applyUpdate m [0, 0, 0] t) s0
  let s2 := setCtrl 10 (!s0.obs.missed.isEmpty) s1
  let (eps, sat) := innovations s2
  let s3 := setCtrl 8 sat s2
  setObs (fun o => { o with innov := eps, missed := [] }) (applyUpdate (obsInputs s3) eps s3)

/-- Initialisation (R196). -/
def obsInit (s : State) : State :=
  let x : List Int := [nth 0 s.fusion.position.v 0 * 65536, nth 0 s.fusion.position.v 1 * 65536, nth 0 s.fusion.heading.v 0 * 65536] ++ List.replicate 12 0
  event 0x0701 [] (setCtrl 0 true (setObs (fun o => { o with x := x, init := true, missed := [], innov := [0, 0, 0] }) s))

/-- POS_UNCORR, HDG_UNCORR and OLD_MEAS of the frame, initialised or not (R191). -/
def corrFlags (s : State) : State :=
  let p := s.fusion.position
  let h := s.fusion.heading
  let lim := s.cfg.img.observer.ageLimitUs
  let old := fun (age : Nat) => decide (lim < age)
  setCtrl 3 (old p.ageUs || old h.ageUs) (setCtrl 2 (!h.flags.valid || old h.ageUs) (setCtrl 1 (!p.flags.valid || old p.ageUs) s))

/-- Step 2 of Table 7-1. T_IC of frame k+1 is the next tick. Fault 0x0710 ends at the end of step 5, where both flags are known. -/
def obsStep2 (s0 : State) : State :=
  let s := corrFlags s0
  let s1 :=
    if s.obs.init then obsRun s
    else if s.fusion.position.flags.valid ∧ s.fusion.heading.flags.valid then obsInit s
    else s
  let (n, e, h) := obsPrediction s1
  let s2 := setObs (fun o => { o with tov := s.frame.nextTick, pred := if o.init then some (s.frame.nextTick, n, e, h) else none }) s1
  if s2.obs.ctrlFlags.testBit 8 then faultCond 0x0710 true s2 else s2

/-- An update that P2 did not reach is kept for the next frame (R186). -/
def obsMissed (s : State) : State :=
  if s.obs.init then setObs (fun o => { o with missed := o.missed ++ [obsInputs s] }) s else s

/-! ### Step 3 -/

/-- The wave estimator (R206). -/
def obsStep3 (s : State) : State :=
  let m := s.fusion.motion
  let heave := m.flags.valid && !(refsOf s 2).isEmpty
  let o := s.obs
  let tic := s.frame.tic
  let (start, ups, low) := if heave = o.waveHeave ∧ o.waveStart ≠ 0 then (o.waveStart, o.waveUps, o.waveLow) else (tic, [], false)
  let sig : Frac := if heave then Frac.ofInt (nth 0 m.v 2) else fx 8 (xAt s 12)
  let hys := Frac.ofNat s.cfg.img.gains.waveHystMm
  let up := low && Frac.lt hys sig
  let win := s.cfg.img.gains.waveWinS * 1000000000
  let ups1 := ((if up then ups ++ [tic] else ups).filter (fun t => decide (tic ≤ t + win)))
  let f : Option Nat := if start + win ≤ tic then some (satU 16 (ups1.length * 1000 / Nat.max 1 s.cfg.img.gains.waveWinS)) else none
  setObs (fun p => { p with waveHeave := heave, waveStart := start, waveUps := ups1, waveF := f
                            waveLow := if up then false else low || Frac.lt sig (Frac.neg hys) }) s

/-! ### Start, blend end -/

/-- The observer after SELFTEST or a bring-up that starts again (R196, R201, R205, R209). -/
def obsReset (s : State) : State :=
  let g := s.cfg.img.gains
  { s with obs := { region := g.defaultRegion, selWind := g.selDefWind, selSog := g.selDefSog, selWave := g.selDefWave, selPwr := g.selDefPwr } }

/-- BLEND_END (R208), after the blend's last frame. -/
def blendEnd (s : State) : State := if s.obs.tov ≤ s.frame.tic then endBlend s else s

def execBlendEnd (dt : Nat) (s : State) : Host.Outcome State Fault Refusal := .next (settle (blendEnd (advance s dt)))

/-- CONTROL_PERSIST_FAULT (R213, Table 7-11): DEM_LIM or NO_REGION set in every frame for 1 s. -/
def controlPersist (noRegion : Bool) (s : State) : State :=
  if for1s s (if noRegion then s.obs.noRegionEl else s.obs.demLimEl) then faultCond (if noRegion then 0x0712 else 0x0711) true s else s

def execControlPersistFault (dt : Nat) (noRegion : Bool) (s : State) : Host.Outcome State Fault Refusal :=
  .next (settle (controlPersist noRegion (advance s dt)))

end Sys2Proof.Machine
end

