-- ==== Sys2Proof/Machine/Setpoint.lean ====
section
/-! DEFINITION. The set-point stage: moves, profiles, braking, targets, berth push (08_setpoints R214 to R235). Readings:
notes/assumptions/25.md. -/

namespace Sys2Proof.Machine

open Sys2Proof.Image (ProfBlk)

def setSp (f : SpSt → SpSt) (s : State) : State := { s with sp := f s.sp }

/-! ### Profiles (R217 to R222) -/

/-- One segment: duration in s, speed at its start, acceleration, PHASE of Table 8-4. -/
structure Seg where
  dur : Frac := Frac.zero
  v : Frac := Frac.zero
  a : Frac := Frac.zero
  ph : Nat := 0

def sqF (a : Frac) : Frac := Frac.mul a a
def halfF (a : Frac) : Frac := Frac.mul a ⟨1, 2⟩

/-- Distance covered between two speeds at one rate: (v1² − v0²)/(2 a), 0 where v1 does not exceed v0. -/
def rampDist (v0 v1 : Frac) (a : Nat) : Frac := if Frac.lt v0 v1 then Frac.div (Frac.sub (sqF v1) (sqF v0)) (Frac.ofNat (2 * a)) else Frac.zero

/-- Distance between speed `e` and speed `v` by the two rates on the two sides of V_BREAK. -/
def sideDist (b : ProfBlk) (e v : Frac) (a1 a2 : Nat) : Frac :=
  let vb := Frac.ofNat b.vBreak
  Frac.add (rampDist e (Frac.min v vb) a1) (rampDist (Frac.max e vb) v a2)

/-- S(v) of R218. -/
def distS (b : ProfBlk) (vs ve v : Frac) : Frac := Frac.add (sideDist b vs v b.a1 b.a2) (sideDist b ve v b.d1 b.d2)

/-- Square root rounded down to 24 fraction bits. -/
def sqrtDown (f : Frac) : Frac := Frac.norm (isqrt (f.num.toNat * 2 ^ 48 / (if f.den = 0 then 1 else f.den)) : Nat) (2 ^ 24)

/-- The largest v with S(v) ≤ L (R218), between the greater end speed and V_CRUISE. -/
def peakSpeed (b : ProfBlk) (vs ve len : Frac) : Frac :=
  let vb := Frac.ofNat b.vBreak
  let cruise := Frac.ofNat b.vCruise
  let low := Frac.max vs ve
  let inv2 := fun (n : Nat) => Frac.norm 1 (2 * n)
  let v :=
    if Frac.le (distS b vs ve vb) len then
      let rest := Frac.sub len (distS b vs ve vb)
      sqrtDown (Frac.add (sqF vb) (Frac.div rest (Frac.add (inv2 b.a2) (inv2 b.d2))))
    else
      let num := Frac.add len (Frac.add (Frac.mul (sqF vs) (inv2 b.a1)) (Frac.mul (sqF ve) (inv2 b.d1)))
      sqrtDown (Frac.div num (Frac.add (inv2 b.a1) (inv2 b.d1)))
  Frac.min cruise (Frac.max low v)

/-- A profile over a length, started at an instant (R217, R218); absent below one unit. -/
def startProfile (b : ProfBlk) (len : Frac) (neg : Bool) (t0 : Nat) : ProfRun :=
  if Frac.lt len Frac.one then { blk := b, t0 := t0 }
  else
    let vs0 := Frac.ofNat b.vStart
    let ve0 := Frac.ofNat b.vStop
    let both := Frac.lt len (distS b vs0 ve0 (Frac.max vs0 ve0))
    let vs := if both then Frac.min vs0 ve0 else vs0
    let ve := if both then Frac.min vs0 ve0 else ve0
    { kind := 1, blk := b, len := len, dirNeg := neg, t0 := t0, vStart := vs, vStop := ve, vPeak := peakSpeed b vs ve len }

/-- The segment between two speeds, absent when it has no length. -/
def seg (v0 v1 : Frac) (a : Nat) (ph : Nat) : List Seg :=
  if Frac.lt v0 v1 then [{ dur := Frac.div (Frac.sub v1 v0) (Frac.ofNat a), v := v0, a := Frac.ofNat a, ph := ph }]
  else if Frac.lt v1 v0 then [{ dur := Frac.div (Frac.sub v0 v1) (Frac.ofNat a), v := v0, a := Frac.neg (Frac.ofNat a), ph := ph }]
  else []

/-- Segments of a profile as it runs now, from `t0` (running) or `tBrake` (braking, stopping) on (R217, R221, R225). -/
def segments (p : ProfRun) : List Seg :=
  let b := p.blk
  let vb := Frac.ofNat b.vBreak
  if p.kind = 1 then
    let v1 := Frac.min vb p.vPeak
    let rest := Frac.sub p.len (distS b p.vStart p.vStop p.vPeak)
    seg p.vStart v1 b.a1 1 ++ (if Frac.lt vb p.vPeak then seg vb p.vPeak b.a2 2 else []) ++
      (if Frac.lt Frac.zero rest then [{ dur := Frac.div rest p.vPeak, v := p.vPeak, a := Frac.zero, ph := 3 }] else []) ++
      (if Frac.lt vb p.vPeak then seg p.vPeak vb b.d2 4 else []) ++ (if Frac.lt p.vStop v1 then seg v1 p.vStop b.d1 5 else [])
  else if p.kind = 2 then
    let v1 := Frac.min vb p.v0
    (if Frac.lt vb p.v0 then seg p.v0 vb b.d2 6 else []) ++ (if Frac.lt p.vStop v1 then seg v1 p.vStop b.d1 6 else [])
  else if p.kind = 3 then seg p.v0 Frac.zero b.stopDec 7
  else []

def segTime (gs : List Seg) : Frac := Frac.sum (gs.map (·.dur))
def segLen (g : Seg) : Frac := Frac.add (Frac.mul g.v g.dur) (halfF (Frac.mul g.a (sqF g.dur)))
def segDist (gs : List Seg) : Frac := Frac.sum (gs.map segLen)

/-- A profile's value: distance, speed, PHASE, ended. -/
structure ProfVal where
  s : Frac := Frac.zero
  v : Frac := Frac.zero
  ph : Nat := 0
  ended : Bool := true

/-- Walk the segments to a time. -/
def walk : List Seg → Frac → Frac → Option (Frac × Frac × Nat)
  | [], _, _ => none
  | g :: r, t, s =>
    if Frac.lt t g.dur then some (Frac.add s (Frac.add (Frac.mul g.v t) (halfF (Frac.mul g.a (sqF t)))), Frac.add g.v (Frac.mul g.a t), g.ph)
    else walk r (Frac.sub t g.dur) (Frac.add s (segLen g))

/-- Seconds from one instant to another. -/
def secs (a b : Nat) : Frac := Frac.norm ((b : Int) - a) 1000000000

/-- Instant from which the segments count. -/
def segStart (p : ProfRun) : Nat := if p.kind ≤ 1 then p.t0 else p.tBrake

/-- Where a profile ends: its length, or where braking leaves it. -/
def endDist (p : ProfRun) : Frac := if p.kind ≤ 1 then p.len else Frac.add p.s0 (segDist (segments p))

/-- The value of a profile at an instant, in closed form (R219). -/
def profAt (p : ProfRun) (t : Nat) : ProfVal :=
  if p.kind = 0 then {}
  else
    match walk (segments p) (Frac.max Frac.zero (secs (segStart p) t)) (if p.kind = 1 then Frac.zero else p.s0) with
    | some (s, v, ph) => { s := s, v := v, ph := ph, ended := false }
    | none => { s := endDist p, v := Frac.zero, ph := 8 }

/-- Seconds left of a profile at an instant. -/
def profLeft (p : ProfRun) (t : Nat) : Frac :=
  if p.kind = 0 then Frac.zero else Frac.max Frac.zero (Frac.sub (segTime (segments p)) (secs (segStart p) t))

/-- A profile brakes for a pending target from an instant, unless it would pass its own target (R221). -/
def brakeProfile (t : Nat) (p : ProfRun) : ProfRun :=
  let x := profAt p t
  if p.kind ≠ 1 ∨ x.ended = true then p
  else
    let q : ProfRun := { p with kind := 2, s0 := x.s, v0 := x.v, tBrake := t }
    if Frac.le (Frac.sub p.len x.s) (segDist (segments q)) then p else q

/-- A profile stops at STOP_DEC from an instant (R225). -/
def stopProfile (t : Nat) (p : ProfRun) : ProfRun :=
  let x := profAt p t
  if p.kind = 0 ∨ p.kind = 3 ∨ x.ended = true then p else { p with kind := 3, s0 := x.s, v0 := x.v, tBrake := t }

/-! ### Moves -/

/-- A profile value as delivered: 16 fraction bits, within `b` of exact arithmetic (R219), not below 0. -/
def profOut (b : Int) (x : Frac) (e : Int) : Frac := Frac.max Frac.zero (fx 16 (rounded (b * 65536) (Frac.mul x (Frac.ofNat 65536)) e))

/-- A translation's and a heading's distance (`k` = 0) or speed (`k` = 1) as delivered: within 1 mm, and within 256 binary-angle units. -/
def mmOut (n k : Nat) (x : Frac) : Frac := profOut 1 x (Config.profErrMm (2 * n + k))
def turnOut (n k : Nat) (x : Frac) : Frac := profOut 256 x (Config.profErrAngle (2 * n + k))

/-- A move is at rest at an instant: both profiles have ended or are absent (R216). -/
def restAt (m : Move) (t : Nat) : Bool := (profAt m.trans t).ended && (profAt m.head t).ended

/-- Point of the path at a distance, raw with 16 fraction bits. -/
def pathPoint (m : Move) (d : Frac) : Int × Int :=
  let u := Frac.div d (if Frac.lt Frac.zero m.trans.len then m.trans.len else Frac.one)
  let p := fun (p0 : Frac) (tgt : Int) => toFx 16 (Frac.add p0 (Frac.mul (Frac.sub (Frac.ofInt tgt) p0) u))
  (p m.p0N m.tgtN, p m.p0E m.tgtE)

/-- Set-point of a move at an instant with its speeds (R214, R219): north, east, heading, ṡ, signed rate. -/
def moveAt (m : Move) (t n : Nat) : Int × Int × Nat × Frac × Frac :=
  let x := profAt m.trans t
  let h := profAt m.head t
  let (pn, pe) : Int × Int :=
    if m.trans.kind = 0 then (toFx 16 m.p0N, toFx 16 m.p0E)
    else if x.ended then (if m.trans.kind = 1 then (m.tgtN * 65536, m.tgtE * 65536) else pathPoint m x.s)
    else pathPoint m (mmOut n 0 x.s)
  let turn := fun (d : Int) => angWrap ((m.psi0 : Int) + (if m.head.dirNeg then -d else d))
  let v := if x.ended then Frac.zero else mmOut n 1 x.v
  let r := if h.ended then Frac.zero else turnOut n 1 h.v
  let psi : Nat :=
    if m.head.kind = 0 then m.psi0
    else if h.ended then (if m.head.kind = 1 then m.tgtHdg else turn (roundEven h.s))
    else turn (rounded 256 h.s (Config.profErrAngle (2 * n)))
  (pn, pe, psi, v, if m.head.dirNeg then Frac.neg r else r)

/-- Requested cruise speed as limited by the set's block, and whether it was limited (R224). -/
def limitCruise (b : ProfBlk) (req : Nat) : ProfBlk × Bool :=
  if req = 0 then (b, false)
  else if b.vCruise < req then (b, true)
  else if req < b.vBreak then ({ b with vCruise := b.vBreak }, true) else ({ b with vCruise := req }, false)

/-- The turn of a target from a heading (R216): signed binary angle. -/
def turnOf (turn psi tgt : Nat) : Int :=
  if turn = 1 then (angWrap ((tgt : Int) - psi) : Nat)
  else if turn = 2 then -((angWrap ((psi : Int) - tgt) : Nat) : Int)
  else angDiff tgt psi

/-- The two blocks of a request, limited. -/
def reqBlocks (s : State) (tg : Target) : ProfBlk × ProfBlk × Bool :=
  let st := nth ({}, {}) s.cfg.img.profile.sets tg.sel
  let (bt, l1) := limitCruise st.1 tg.vReq
  let (bh, l2) := limitCruise st.2 tg.rReq
  (bt, bh, l1 || l2)

/-- The move from a set-point to a target, with t = 0 at an instant (R216, R220, R223). -/
def planMove (s : State) (pn pe : Int) (psi : Nat) (tg : Target) (t : Nat) : Move :=
  let keepP := tg.tflags.testBit 1
  let keepH := tg.tflags.testBit 0
  let (bt, bh, lim) := reqBlocks s tg
  let dn := tg.n * 65536 - pn
  let de := tg.e * 65536 - pe
  let len : Frac := if keepP then Frac.zero else Frac.norm (isqrt ((dn * dn + de * de).toNat * 2 ^ 16) : Nat) (2 ^ 24)
  let dpsi := if keepH then 0 else turnOf (tg.tflags / 4 % 4) psi tg.hdg
  let hlen : Frac := Frac.ofNat dpsi.natAbs
  let trans := startProfile bt len false t
  let head := startProfile bh hlen (decide (dpsi < 0)) t
  { p0N := fx 16 pn, p0E := fx 16 pe
    tgtN := if trans.kind = 0 then roundEven (fx 16 pn) else tg.n, tgtE := if trans.kind = 0 then roundEven (fx 16 pe) else tg.e
    psi0 := psi, tgtHdg := if head.kind = 0 then psi else tg.hdg, trans := trans, head := head, sel := tg.sel, limit := lim }

/-- Nothing of a move runs. -/
def Move.absent (m : Move) : Bool := m.trans.kind == 0 && m.head.kind == 0

/-- Seconds until a move is at rest. -/
def moveLeft (m : Move) (t : Nat) : Frac := Frac.max (profLeft m.trans t) (profLeft m.head t)

/-- Seconds as ms, rounded, in 32 bits. -/
def msOf (f : Frac) : Nat := satU 32 (roundEven (Frac.mul f (Frac.ofNat 1000))).toNat

/-- A length as mm, rounded, in 32 bits. -/
def mmOf (f : Frac) : Nat := satU 32 (roundEven f).toNat

/-- A move starts: event 0x0801. -/
def beginMove (m : Move) (t : Nat) (s : State) : State :=
  event 0x0801 (i32 m.tgtN ++ i32 m.tgtE ++ u32 m.tgtHdg ++ u8 m.sel ++ u32 (msOf (moveLeft m t))) (setSp (fun p => { p with move := some m }) s)

/-- First evaluation instant, on the grid of the present mode from `t` on, at which a move is at rest (R223). -/
def restInstant (s : State) (m : Move) (t : Nat) : Nat :=
  let left := (-(Frac.floor (Frac.neg (Frac.mul (moveLeft m t) (Frac.ofNat 1000000000))))).toNat
  let p := periodNs s.frame.mode
  t + (left + p - 1) / p * p

/-- A move that is at rest at the evaluation instant ends (R216, event 0x0802), and a pending target starts there (R223). -/
def moveRest (t : Nat) (s : State) : State :=
  match s.sp.move with
  | none => s
  | some m =>
    if restAt m t then
      let (pn, pe, psi, _, _) := moveAt m t s.nFree
      let s1 := setSp (fun p => { p with n := pn, e := pe, psi := psi, move := none, pending := none }) s
      let s2 := event 0x0802 (i32 (roundEven (fx 16 pn)) ++ i32 (roundEven (fx 16 pe)) ++ u32 psi) s1
      match s.sp.pending with
      | none => s2
      | some tg =>
        let q := planMove s2 pn pe psi tg t
        if q.absent then s2 else beginMove q t s2
    else s

/-! ### Berth push (R228 to R232) -/

/-- The bias in the body frame, raw: z₆ to z₈ of R198. -/
def bodyBias (s : State) : List Int :=
  let b := rotXY (xAt s 2) (fx 4 (xAt s 6), fx 4 (xAt s 7))
  [satS 32 (toFx 4 b.1), satS 32 (toFx 4 b.2), xAt s 8]

/-- The ramped part of τ_push at an instant (R229). -/
def pushLin (p : Push) (t : Nat) : List Frac :=
  let k : Frac := if p.t1 ≤ t ∨ p.t1 ≤ p.t0 then Frac.one else if t ≤ p.t0 then Frac.zero else Frac.norm ((t : Int) - p.t0) (p.t1 - p.t0)
  (List.range 3).map (fun c =>
    let a := nth Frac.zero p.from_ c
    Frac.add a (Frac.mul k (Frac.sub (Frac.ofInt (nth 0 p.to_ c)) a)))

/-- The bias-hold term of an axis (R230). -/
def holdTerm (s : State) (c : Nat) : Frac :=
  let z := bodyBias s
  let p := s.sp.push
  blended s (fun g =>
    let r := gainRow s g c
    Frac.mul (Frac.ofInt (sumI ((List.range 3).map (fun j =>
      if nth false p.free j then nth 0 r.m (6 + j) * (nth 0 p.z j - nth 0 z j) else 0)))) (Frac.pow2 (r.rowExp - 31)))

/-- Z of newly set FREE bits is latched, and the event of a push is recorded (R230, Table 8-8). -/
def pushLatch (s : State) : State :=
  let p := s.sp.push
  let z := bodyBias s
  let zs := (List.range 3).map (fun j => if nth false p.latch j then nth 0 z j else nth 0 p.z j)
  let s1 := setSp (fun q => { q with push := { p with z := zs, latch := [false, false, false], announce := false } }) s
  if p.announce then event 0x0806 (p.to_.flatMap i32 ++ u8 (maskOf p.free) ++ zs.flatMap i32) s1 else s1

/-- A push ramp ends at the evaluation instant (R231): cleared bits drop, the set-point is recaptured along them, a release ends the
push. -/
def pushRampEnd (t : Nat) (s : State) : State :=
  let p := s.sp.push
  if p.ramping = true ∧ p.t1 ≤ t then
    let psi := xAt s 2
    let e := rotXY psi (Frac.sub (fx 16 (xAt s 0)) (fx 16 s.sp.n), Frac.sub (fx 16 (xAt s 1)) (fx 16 s.sp.e))
    let pick := fun (j : Nat) (f : Frac) => if nth false p.clearing j then f else Frac.zero
    let d := rotNE psi (pick 0 e.1, pick 1 e.2)
    let free := List.zipWith (fun f c => f && !c) p.free p.clearing
    setSp (fun q => { q with
      n := q.n + toFx 16 d.1, e := q.e + toFx 16 d.2
      psi := if nth false p.clearing 2 then angWrap (roundEven (fx 16 psi)) else q.psi
      push := if p.release then {} else { p with ramping := false, free := free, clearing := [false, false, false] } }) s
  else s

/-- τ_push with the hold terms, in N and N·m (R229, R230). -/
def pushTau (t : Nat) (s : State) : List Int :=
  if s.sp.push.inForce then
    (List.range 3).map (fun c => satS 32 (roundEven (Frac.add (nth Frac.zero (pushLin s.sp.push t) c) (holdTerm s c))))
  else [0, 0, 0]

/-! ### Step 4 of P2 -/

/-- The set-point is captured (R215). -/
def spCapture (t : Nat) (s : State) : State :=
  setSp (fun p => { p with n := xAt s 0, e := xAt s 1, psi := angWrap (roundEven (fx 16 (xAt s 2))), speed := 0, rate := 0, nu := [0, 0, 0]
                           tE := t, move := none, pending := none, push := {} }) s

/-- Evaluation of a running set-point (R214). -/
def spEval (t : Nat) (s : State) : State :=
  match s.sp.move with
  | none => setSp (fun p => { p with speed := 0, rate := 0, nu := [0, 0, 0], tE := t }) s
  | some m =>
    let (pn, pe, psi, v, r) := moveAt m t s.nFree
    let len := if Frac.lt Frac.zero m.trans.len then m.trans.len else Frac.one
    let en := Frac.div (Frac.sub (Frac.ofInt m.tgtN) m.p0N) len
    let ee := Frac.div (Frac.sub (Frac.ofInt m.tgtE) m.p0E) len
    let uv := rotXY (xAt s 2) (Frac.mul v en, Frac.mul v ee)
    nextFree (setSp (fun p => { p with n := pn, e := pe, psi := psi, speed := mmOf v, rate := satS 32 (roundEven r), tE := t
                                       nu := [satS 32 (toFx 12 uv.1), satS 32 (toFx 12 uv.2), satS 32 (toFx 2 r)] }) s)

/-- Step 4 of Table 7-1 at t_E, T_IC of the next frame. -/
def spStep (s : State) : State :=
  let t := s.frame.nextTick
  let s1 : State := match s.st with
    | .ready => if s.obs.init then spCapture t s else s
    | .active => spEval t (pushRampEnd t (pushLatch (moveRest t s)))
    | .tripped => spEval t (pushRampEnd t (pushLatch (moveRest t s)))
    | _ => s
  setObs (fun o => { o with tauPush := pushTau t s1 }) s1

/-- Leaving ACTIVE for READY: move, pending target and push are discarded (R215). -/
def spDiscard (s : State) : State := setSp (fun p => { p with move := none, pending := none, push := {} }) s

/-! ### Commands (R220 to R229, Tables 8-1 to 8-5) -/

/-- The target a request carries. -/
def targetOf (p : Bytes) : Target :=
  { n := fldI p 0 4, e := fldI p 4 4, hdg := fld p 8 4, tflags := byteAt p 12, sel := byteAt p 13, vReq := fld p 16 4, rReq := fld p 20 4 }

/-- Response of TARGET.SET, Table 8-2. -/
def targetSetResp (s : State) (disp : Nat) (lim : Bool) (brake eta : Nat) : Bytes :=
  u64 (frameIndex s) ++ u8 disp ++ flag lim ++ zeros 2 ++ u32 brake ++ u32 eta ++ zeros 4

/-- Seconds from `t` until a pending target has been reached: rest of the present move, then its own move (R223). -/
def pendingEta (s : State) (m : Move) (tg : Target) (t : Nat) : Nat :=
  let tr := restInstant s m t
  let (pn, pe, psi, _, _) := moveAt m tr s.nFree
  let q := planMove s pn pe psi tg tr
  msOf (Frac.add (secs t tr) (moveLeft q tr))

/-- `TARGET.SET` applied (R220, R221, R224, R227). -/
def cmdTargetSet (r : Request) (s : State) : Reply :=
  let tg := targetOf r.payload
  let t := s.frame.nextTick
  let dn := tg.n * 65536 - s.sp.n
  let de := tg.e * 65536 - s.sp.e
  let lim := s.cfg.img.profile.maxMoveMm * 65536
  if tg.tflags.testBit 1 = false ∧ ((lim * lim : Nat) : Int) < dn * dn + de * de then .refuse (errRange 0)
  else if s.cfg.img.profile.sets.length ≤ tg.sel then .refuse (errRange 13)
  else if s.sp.push.inForce then .refuse errBusy
  else
    let l := (reqBlocks s tg).2.2
    let noted := fun (x : State) => if l then event 0x0803 [] x else x
    match s.sp.move with
    | none =>
      let m := planMove s s.sp.n s.sp.e s.sp.psi tg t
      if m.absent then .ok (noted s) (targetSetResp s 3 l 0 0)
      else .ok (noted (beginMove m t s)) (targetSetResp s 0 l 0 (msOf (moveLeft m t)))
    | some m =>
      let m1 : Move := if m.stopping ∨ m.braking then m
        else { m with trans := brakeProfile t m.trans, head := brakeProfile t m.head, braking := true }
      let brake := mmOf (Frac.max Frac.zero (Frac.sub (endDist m1.trans) (profAt m1.trans t).s))
      let replaced := s.sp.pending.isSome
      let s1 := setSp (fun p => { p with move := some m1, pending := some tg }) s
      .ok (noted (event 0x0804 (flag (!replaced) ++ u32 brake) s1))
        (targetSetResp s (if replaced then 2 else 1) l brake (pendingEta s m1 tg t))

/-- `TARGET.STOP` applied (R225). -/
def cmdTargetStop (_ : Request) (s : State) : Reply :=
  let t := s.frame.nextTick
  match s.sp.move with
  | none => .ok (event 0x0805 (u32 0) (setSp (fun p => { p with pending := none }) s)) (u64 (frameIndex s) ++ u32 0 ++ u32 0)
  | some m =>
    let v := (profAt m.trans t).v
    let m1 : Move := { m with trans := stopProfile t m.trans, head := stopProfile t m.head, stopping := true }
    let mm := mmOf (Frac.div (sqF v) (Frac.ofNat (2 * m.trans.blk.stopDec)))
    .ok (event 0x0805 (u32 mm) (setSp (fun p => { p with move := some m1, pending := none }) s))
      (u64 (frameIndex s) ++ u32 mm ++ u32 (msOf (moveLeft m1 t)))

/-- The ramp of a request in ms, and whether it was limited (R229). -/
def rampOf (s : State) (req : Nat) : Nat × Bool :=
  let g := s.cfg.img.profile
  if req = 0 then (g.pushRampMs, false) else if req < g.pushRampMinMs then (g.pushRampMinMs, true) else (req, false)

/-- `PUSH.SET` applied (R228 to R231). -/
def cmdPushSet (r : Request) (s : State) : Reply :=
  let p := r.payload
  let forces := [fldI p 0 4, fldI p 4 4, fldI p 8 4]
  let bits := byteAt p 12
  let req := [bits.testBit 0, bits.testBit 1, bits.testBit 2]
  let release := decide (bits = 0) && forces.all (· == 0)
  let (ms, l) := rampOf s (fld p 14 2)
  let old := s.sp.push
  let t := s.frame.nextTick
  let resp := u64 (frameIndex s) ++ flag l ++ zeros 3
  let noted := fun (x : State) => if l then event 0x0803 [] x else x
  if !release ∧ (s.sp.move.isSome ∨ s.sp.pending.isSome) then .refuse errBusy
  else if release ∧ old.inForce = false then .ok (noted s) resp
  else
    let q : Push :=
      { inForce := true, from_ := if old.inForce then pushLin old t else [Frac.zero, Frac.zero, Frac.zero], to_ := forces, t0 := t
        t1 := t + ms * 1000000, free := List.zipWith (· || ·) old.free req, clearing := List.zipWith (fun f x => f && !x) old.free req
        latch := List.zipWith (fun (x : Bool × Bool) k => k || (x.2 && !x.1)) (List.zip old.free req) old.latch, z := old.z
        release := release, ramping := true, limit := l, announce := true }
    .ok (noted (setSp (fun x => { x with push := q }) s)) resp

/-- PHASE and HPHASE of Table 8-4 at the last evaluation. -/
def phaseOf (m : Option Move) (f : Move → ProfRun) (t : Nat) : Nat :=
  match m with
  | none => 0
  | some m => (profAt (f m) t).ph

/-- The pending target, 0 when none; under POS_KEEP and HDG_KEEP the rest point after braking (Table 8-1). -/
def pendTarget (s : State) : Int × Int × Nat :=
  match s.sp.pending, s.sp.move with
  | some g, some m =>
    let (n, e, psi, _, _) := moveAt m (restInstant s m s.sp.tE) s.nFree
    let keep := g.tflags.testBit 1
    (if keep then roundEven (fx 16 n) else g.n, if keep then roundEven (fx 16 e) else g.e, if g.tflags.testBit 0 then psi else g.hdg)
  | some g, none => (g.n, g.e, g.hdg)
  | none, _ => (0, 0, 0)

/-- `TARGET.READ`'s response, Table 8-4, with FRAME_INDEX of the last completed frame. -/
def targetReadResp (last : Nat) (s : State) : Bytes :=
  let p := s.sp
  let n := roundEven (fx 16 p.n)
  let e := roundEven (fx 16 p.e)
  let tgt : Int × Int × Nat := match p.move with | some m => (m.tgtN, m.tgtE, m.tgtHdg) | none => (n, e, p.psi)
  let pend := pendTarget s
  u64 last ++ i32 (satS 32 n) ++ i32 (satS 32 e) ++ u32 p.psi ++ u32 p.speed ++ i32 p.rate ++
  u8 (phaseOf p.move (·.trans) p.tE) ++ u8 (phaseOf p.move (·.head) p.tE) ++
  u8 (maskOf [p.pending.isSome, p.push.inForce, (match p.move with | some m => m.limit | none => false)]) ++
  u8 (match p.move with | some m => m.sel | none => 0) ++ i32 (satS 32 tgt.1) ++ i32 (satS 32 tgt.2.1) ++ u32 tgt.2.2 ++ i32 (satS 32 pend.1) ++ i32 (satS 32 pend.2.1) ++ u32 pend.2.2 ++
  u32 (match p.move with | some m => msOf (moveLeft m p.tE) | none => 0) ++ s.obs.tauPush.flatMap i32 ++ u8 (maskOf p.push.free) ++ zeros 3

end Sys2Proof.Machine
end

