-- ==== Sys2Proof/Machine/Control.lean ====
section
/-! DEFINITION. Steps 5 and 6 of P2, the order of P2, and the CONTROL report section (07_observer_control R185, R186, R198, R199, R202 to
R204, R212). Readings: notes/assumptions/24.md. -/

namespace Sys2Proof.Machine

open Sys2Proof.Image (Biquad)

/-! ### Step 5 -/

/-- The error vector z (R198), raw, with whether an error saturated. -/
def errorVector (s : State) : List Int × Bool :=
  let psi := xAt s 2
  let free := fun j => s.sp.push.inForce && nth false s.sp.push.free j
  let e := rotXY psi (fx 16 (xAt s 0 - s.sp.n), fx 16 (xAt s 1 - s.sp.e))
  let ex := sat32 (toFx 8 e.1)
  let ey := sat32 (toFx 8 e.2)
  let eh : Int := ofWord 32 (toWord 32 (roundEven (Frac.sub (fx 16 psi) (Frac.ofNat s.sp.psi))))
  let vel := (List.range 3).map (fun i => sat32 (xAt s (3 + i) - nth 0 s.sp.nu i))
  let z := [if free 0 then 0 else ex.1, if free 1 then 0 else ey.1, if free 2 then 0 else eh] ++ vel.map Prod.fst ++ bodyBias s
  (z, (ex.2 && !free 0) || (ey.2 && !free 1) || vel.any Prod.snd)

/-- Step 5: feedback, feed-forward and sum (R198, R199, R202). -/
def ctlStep5 (s : State) : State :=
  let (z, sat) := errorVector s
  let fb := (List.range 3).map (fun c => if s.obs.init then satS 32 (roundEven (blended s (fun g => rowSum (gainRow s g c) z))) else 0)
  let ff := (List.range 3).map (fun c =>
    let k := blended s (fun g => Frac.norm (nth 0 (nth {} s.cfg.img.gains.regions g).ffGain c : Nat) 16384)
    satS 32 (roundEven (Frac.neg (Frac.mul k (Frac.mul s.obs.fade (Frac.ofInt (nth 0 s.obs.tauWind c)))))))
  let s1 := setCtrl 9 (sat && s.obs.init) (setObs (fun o => { o with tauFb := fb, tauWff := ff }) s)
  faultCond 0x0710 (s1.obs.ctrlFlags.testBit 8 || s1.obs.ctrlFlags.testBit 9) s1

/-! ### Step 6 -/

/-- One biquad in direct form I (R203): the new state, output in Q48.16. `prime`: the state is first set to the steady state at the
input. -/
def notchRun (b : Biquad) (prime : Bool) (x : Int) (q : NotchSt) : NotchSt × Int :=
  if b.en = 0 then (q, x)
  else
    let q := if prime then { x1 := x, x2 := x, y1 := x, y2 := x } else q
    let y := satS 64 (divEven (b.b0 * x + b.b1 * q.x1 + b.b2 * q.x2 - b.a1 * q.y1 - b.a2 * q.y2) (2 ^ 30))
    ({ x1 := x, x2 := q.x1, y1 := y, y2 := q.y1 }, y)

/-- The notches of an axis at the period in force. -/
def notchOf (s : State) (c i : Nat) : Biquad :=
  match s.cfg.img.notch with
  | some n => nth {} (nth [] (nth [] n.n s.frame.mode) c) i
  | none => {}

/-- Notch 1, then notch 2, of an axis. -/
def notchAxis (s : State) (c : Nat) (tau : Int) : List NotchSt × Int :=
  let st := nth [] s.obs.notch c
  let (a, ya) := notchRun (notchOf s c 0) s.obs.notchPrime (tau * 65536) (nth {} st 0)
  let (b, yb) := notchRun (notchOf s c 1) s.obs.notchPrime ya (nth {} st 1)
  ([a, b], satS 32 (divEven yb 65536))

/-- Step 6: notch filters and demand limit (R203, R204); the faults of Table 7-11 that last 1 s end here. -/
def ctlStep6 (s : State) : State :=
  let tau := fun c => satS 32 (nth 0 s.obs.tauFb c + nth 0 s.obs.tauWff c + nth 0 s.obs.tauPush c)
  let r := (List.range 3).map (fun c => notchAxis s c (tau c))
  let lim := fun c => nth 1 s.cfg.img.gains.demandLim c
  let raw := r.map Prod.snd
  let dem := (enumFrom 0 raw).map (fun p => clamp (-(lim p.1)) (lim p.1) p.2)
  let cut := decide (dem ≠ raw)
  let el := elNs s
  let s1 := setCtrl 7 cut (setObs (fun o => { o with
    notch := r.map Prod.fst, notchPrime := false, tauDem := if o.init then dem else [0, 0, 0]
    demLimEl := since el cut o.demLimEl, noRegionEl := since el (o.ctrlFlags.testBit 6) o.noRegionEl }) s)
  endCond 0x0712 (s1.obs.ctrlFlags.testBit 6) (endCond 0x0711 cut s1)

/-! ### P2 -/

/-- P1 to P4 run: from the frame after bring-up steps 5 to 7 on the holder, from takeover on a module that takes over (13 R364). -/
def dpRuns (s : State) : Bool := onDuty s.st && s.fusion.running

/-- Step `n` of Table 7-1. -/
def p2Step (n : Nat) (s : State) : State :=
  if n = 1 then obsStep1 s else if n = 2 then obsStep2 s else if n = 3 then obsStep3 s else if n = 4 then spStep s
  else if n = 5 then ctlStep5 s else ctlStep6 s

/-- The steps up to `n` that the frame has not yet committed (R186). -/
def p2Upto (n : Nat) (s : State) : State :=
  ((List.range 6).map (· + 1)).foldl (fun t k => if t.obs.steps < k ∧ k ≤ n then setObs (fun o => { o with steps := k }) (p2Step k t) else t) s

/-- P2 ends with `n` steps committed; an observer update that it did not reach is kept for the next frame (R186). -/
def p2End (n : Nat) (s : State) : State :=
  let s1 := p2Upto n s
  if s1.obs.steps < 2 then obsMissed s1 else s1

/-- MOVE_AT_REST (R216, R223): in P2 of the frame at whose t_E the move is at rest. Where it does not come, step 4 does the same. -/
def moveAtRest (s : State) : State :=
  if s.frame.phase = 2 ∧ dpRuns s = true ∧ s.st ≠ .ready ∧ s.obs.steps < 4 then
    (match s.sp.move with
     | some m => if restAt m s.frame.nextTick then moveRest s.frame.nextTick (p2Upto 3 s) else s
     | none => s)
  else s

def execMoveAtRest (dt : Nat) (s : State) : Host.Outcome State Fault Refusal := .next (settle (moveAtRest (advance s dt)))

/-- PUSH_RAMP_END (R231): in P2 of the frame whose t_E is the ramp's end or the first after it, once x(k+1|k) stands. Where it does not come,
step 4 does the same. -/
def pushRampRow (s : State) : State :=
  let t := s.frame.nextTick
  if s.frame.phase = 2 ∧ dpRuns s = true ∧ s.st ≠ .ready ∧ s.obs.steps < 4 ∧ s.sp.push.ramping = true ∧ s.sp.push.t1 ≤ t then
    pushRampEnd t (pushLatch (p2Upto 3 s))
  else s

def execPushRampEnd (dt : Nat) (s : State) : Host.Outcome State Fault Refusal := .next (settle (pushRampRow (advance s dt)))

/-! ### The report section -/

/-- The CONTROL section (R212, Table 7-9). -/
def controlSection (s : State) : Bytes :=
  let o := s.obs
  let b := bodyBias s
  let mm := fun i => i32 (satS 32 (roundEven (fx 16 (xAt s i))))
  let blendTo := match o.blend with | some (g, _) => g | none => 0xFF
  let left := match o.blend with | some (_, n) => s.cfg.img.gains.blendFrames - n | none => 0
  u64 o.tov ++ mm 0 ++ mm 1 ++ u32 (angWrap (roundEven (fx 16 (xAt s 2)))) ++
  i32 (roundEven (fx 12 (xAt s 3))) ++ i32 (roundEven (fx 12 (xAt s 4))) ++ i32 (roundEven (fx 2 (xAt s 5))) ++
  i32 (roundEven (fx 4 (nth 0 b 0))) ++ i32 (roundEven (fx 4 (nth 0 b 1))) ++ i32 (roundEven (fx 1 (nth 0 b 2))) ++
  i32 (roundEven (fx 8 (xAt s 10))) ++ i32 (roundEven (fx 8 (xAt s 12))) ++ i32 (xAt s 14) ++
  i32 (satS 32 (roundEven (fx 16 s.sp.n))) ++ i32 (satS 32 (roundEven (fx 16 s.sp.e))) ++ u32 s.sp.psi ++
  o.tauFb.flatMap i32 ++ o.tauWff.flatMap i32 ++ o.tauPush.flatMap i32 ++ o.tauDem.flatMap i32 ++
  u8 o.region ++ u8 blendTo ++ u8 left ++ u8 0 ++ u32 o.selWind ++ u32 o.selSog ++ u16 o.selWave ++ u8 o.selPwr ++ u8 o.selHeld ++
  u16 o.ctrlFlags ++ u16 0 ++ i32 (roundEven (fx 8 (nth 0 o.innov 0))) ++ i32 (roundEven (fx 8 (nth 0 o.innov 1))) ++ i32 (nth 0 o.innov 2)

end Sys2Proof.Machine
end

