-- ==== Sys2Proof/Machine/Chandler.lean ====
section
/-! DEFINITION. The Chandler: measurement, derating, the shedding ladder, grants, PD-SB (11_power_budget R302 to R319; 01 R39). Readings:
notes/assumptions/26.md. -/

namespace Sys2Proof.Machine

def setCh (f : ChandlerSt → ChandlerSt) (s : State) : State := { s with chandler := f s.chandler }

/-! ### Grants (R255, R307) -/

/-- Horizon steps and shadows of Table 1-7 by mode. -/
def modeSteps (mode : Nat) : Nat := nth 4 [16, 12, 8, 4] mode
def modeShadows (mode : Nat) : Nat := nth 1 [8, 8, 4, 1] mode

/-- Horizon and shadow slots before the Chandler's grant (09 R255). -/
def fullSteps (s : State) (mode : Nat) : Nat := Nat.min s.cfg.img.alloc.nSteps (modeSteps mode)
def fullShadows (s : State) (mode : Nat) : Nat := Nat.min (Nat.min s.cfg.img.alloc.nShadowMax (modeShadows mode)) s.cfg.img.alloc.groups.length

/-- Horizon after `c` cuts. -/
def cutSteps (hMin : Nat) : Nat → Nat → Nat
  | 0, n => n
  | c + 1, n => cutSteps hMin c (if n ≤ hMin then n else Nat.max hMin (n - 4))

/-- Number of horizon cuts that the ladder holds (R307). -/
def cutStages (hMin n : Nat) : Nat := (n - hMin + 3) / 4

/-- Granted horizon and shadow slots of the frame in progress. -/
def grantSteps (s : State) : Nat := cutSteps s.cfg.img.budget.hMin s.chandler.cutShed (fullSteps s s.frame.mode)
def grantShadows (s : State) : Nat := fullShadows s s.frame.mode - s.chandler.shadowShed

/-- The mode runs SA-B (Table 1-7), and no array is lost: the SB_OFF stage is on the ladder (R307, R311). -/
def sbStage (s : State) (mode : Nat) : Bool := decide (mode ≤ 1) && !s.chandler.lostA && !s.chandler.lostB

/-- PD-SB is on and its SRAM cleared, so that SA-B can take solves in the frame in progress (R310). -/
def sbReady (s : State) : Bool := s.chandler.sbOn && (match s.chandler.sbReadyAt with | some t => decide (t ≤ s.frame.tic) | none => true)

/-- SA-B takes solves beside SA-A in the frame in progress (R270, R310). -/
def sbGranted (s : State) : Bool := sbReady s && decide (s.frame.mode ≤ 1)

/-! ### Costs (R308) -/

def meanOf (xs : List Nat) : Frac := Frac.norm (xs.sum : Nat) (Nat.max 1 xs.length)

/-- A factory figure scaled by the temperature model (R308). -/
def scaled (s : State) (n : Nat) : Frac := Frac.norm ((n * Config.tempScale s.chandler.tCase : Nat) : Int) 65536

/-- Mean array energy in µJ of a shadow or primary solve: measured, or, before 32 solves, 0.3 mJ per horizon step. -/
def energyUj (s : State) (xs : List Nat) (steps : Nat) : Frac :=
  if 32 ≤ xs.length then meanOf xs else scaled s (300 * steps)

/-- Nominal cost in mW of DIAG (0), GNSS (1) and SB_OFF (2), Table 11-2. -/
def nominalMw (k : Nat) : Nat := nth 0 [400, 700, 300] k

/-- Total of Table 11-3 in mW by mode; PD-GN reads 0 on OX-4800-N. -/
def tableTotalMw (variantN : Bool) (mode : Nat) : Nat :=
  nth 10000 [23000, 17000, 13000, 10000] mode - (if variantN then nth 100 [1000, 1000, 400, 100] mode else 0)

/-- A stage of the ladder: its Order, how many of the kind stand below it, its kind (0 DIAG, 1 GNSS, 2 shadow, 3 cut, 4 SB_OFF). -/
structure Stage where
  kind : Nat := 0
  nth : Nat := 0
  cost : Int := 0
  deriving DecidableEq, Repr

/-- The ladder of a mode from the top, with each stage's cost in mW (Table 11-2). `from_`: the mode whose solves were measured. -/
def ladder (s : State) (mode from_ : Nat) : List Stage :=
  let n := fullShadows s mode
  let h := fullSteps s mode
  let hm := s.cfg.img.budget.hMin
  let tfMs := periodNs mode / 1000000
  let scale : Frac := Frac.norm (fullSteps s mode : Nat) (Nat.max 1 (fullSteps s from_))
  let esh := Frac.mul scale (energyUj s s.chandler.eSh (fullSteps s from_))
  let epr := Frac.mul scale (energyUj s s.chandler.ePr (fullSteps s from_))
  let nom := fun k => roundEven (scaled s (nominalMw k))
  [{ kind := 0, cost := nom 0 }] ++
  (if s.unit.variantN = false ∧ mode ≤ 1 then [{ kind := 1, cost := nom 1 }] else []) ++
  (List.range n).map (fun i => { kind := 2, nth := i, cost := roundEven (Frac.mul esh (Frac.norm 1 tfMs)) }) ++
  (List.range (cutStages hm h)).map (fun i =>
    let a := cutSteps hm i h
    let b := cutSteps hm (i + 1) h
    { kind := 3, nth := i, cost := roundEven (Frac.mul epr (Frac.norm (a - b : Nat) (Nat.max 1 (a * tfMs)))) }) ++
  (if sbStage s mode then [{ kind := 4, cost := nom 2 }] else [])

/-- The stages shed, by kind. -/
structure Shed where
  diag : Bool := false
  gnss : Bool := false
  shadow : Nat := 0
  cut : Nat := 0
  sb : Bool := false
  deriving DecidableEq, Repr

def Shed.has (x : Shed) (g : Stage) : Bool :=
  if g.kind = 0 then x.diag else if g.kind = 1 then x.gnss else if g.kind = 2 then decide (g.nth < x.shadow)
  else if g.kind = 3 then decide (g.nth < x.cut) else x.sb

def Shed.put (x : Shed) (g : Stage) (on : Bool) : Shed :=
  if g.kind = 0 then { x with diag := on } else if g.kind = 1 then { x with gnss := on }
  else if g.kind = 2 then { x with shadow := if on then g.nth + 1 else g.nth }
  else if g.kind = 3 then { x with cut := if on then g.nth + 1 else g.nth } else { x with sb := on }

/-- Sum of the costs of the stages granted. -/
def grantedCost (l : List Stage) (x : Shed) : Int := sumI ((l.filter (fun g => !x.has g)).map (·.cost))

/-- What is shed in the frame in progress. -/
def shedNow (s : State) : Shed :=
  { diag := s.chandler.diagShed, gnss := s.chandler.gnssShed, shadow := s.chandler.shadowShed, cut := s.chandler.cutShed, sb := s.chandler.sbShed }

/-- Shed from the top while the prediction exceeds the budget (R309): what is shed, the prediction, the stages in order. -/
def shedDown (b : Int) : List Stage → Shed → Int → List Stage → Shed × Int × List Stage
  | [], x, d, acc => (x, d, acc)
  | g :: r, x, d, acc =>
    if b < d ∧ x.has g = false then shedDown b r (x.put g true) (d - g.cost) (acc ++ [g]) else shedDown b r x d acc

/-- Order of a stage on a ladder, counted from 1. -/
def orderOf (l : List Stage) (g : Stage) : Nat := l.findIdx (fun x => x == g) + 1

/-! ### The decision in P6 (R303 to R309, R312, R314, R315) -/

/-- Effective budget in mW (R305). -/
def effBudget (s : State) : Nat :=
  let b := s.cfg.img.budget
  let excess : Int := s.chandler.tCase - 10 * (b.derateStart : Int)
  if excess ≤ 0 then b.budgetW * 100 else (b.budgetW * 100 : Int) - (b.derateSlope : Int) * 25 * excess |>.toNat

/-- Readings of the base plate over the last 1 s with a new pair, of which the higher counts (R304). -/
def plateReadings (now : Nat) (p1 p2 : Int) (old : List (Nat × Int)) : List (Nat × Int) :=
  (now, if p1 ≤ p2 then p2 else p1) :: old.filter (fun x => decide (now ≤ x.1 + 1000000000))

/-- The measurements of the last completed frame arrive (R303, R304); DERATE and CASE_HOT follow (R305, R315). -/
def chMeasure (pIn : Nat) (p1 p2 : Int) (pDom : List Nat) (s : State) : State :=
  let plates := plateReadings (elNs s) p1 p2 s.chandler.plates
  let tCase := divEven (sumI (plates.map Prod.snd)) plates.length
  let s1 := setCh (fun c => { c with pInMw := pIn, plates := plates, tCase := tCase, pDomain := pDom
                                     hist := if c.grantedMw < 0 then c.hist else (((pIn : Int), c.grantedMw) :: c.hist).take 32 }) s
  let b := effBudget s1
  let der := decide (b < s.cfg.img.budget.budgetW * 100)
  let hot := decide (850 < tCase) || (s.chandler.caseHot && decide (830 < tCase))
  let s2 := setCh (fun c => { c with bEffMw := b, derate := der, caseHot := hot }) s1
  let s3 := if der ≠ s.chandler.derate then event 0x0B02 (flag der) s2 else s2
  faultCond 0x0B11 hot s3

/-- Energies of this frame's solves (R308). -/
def chEnergies (esh : List Nat) (epr : Nat) (s : State) : State :=
  setCh (fun c => { c with eSh := (esh.filter (fun e => e ≠ 0) ++ c.eSh).take 32, ePr := ((if epr = 0 then [] else [epr]) ++ c.ePr).take 32 }) s

/-- The mode for which the next frame is granted (R312). -/
def nextMode (s : State) : Nat := match changeAt s with | some (m, t) => if t = s.frame.nextTick then m else s.frame.mode | none => s.frame.mode

/-- The seed of the base (R309, R313). "The mode's floor from Table 11-3" is read as the power with no stage granted: the table's total, which
is with nothing shed, less the cost of every stage of the ladder (DEDUCED, notes/assumptions/26.md). -/
def seedMw (s : State) (l : List Stage) : Int := (tableTotalMw s.unit.variantN s.frame.mode : Nat) - sumI (l.map (·.cost))

/-- The grant for the next frame (R309). -/
def chDecide (s : State) : State :=
  let c := s.chandler
  let mode := nextMode s
  let l := ladder s mode s.frame.mode
  let now := shedNow s
  let b : Int := (effBudget s : Nat)
  let base : Int :=
    if c.hist.isEmpty then seedMw s (ladder s s.frame.mode s.frame.mode)
    else divEven (sumI (c.hist.map (fun p => p.1 - p.2))) c.hist.length
  let d0 := base + grantedCost l now
  let (x, d1, shed) := shedDown b l now d0 []
  let quiet := shed.isEmpty && (match c.changeEl with | some t => decide (t + s.cfg.img.budget.restoreMs * 1000000 ≤ elNs s) | none => true)
  let cand := (l.reverse).find? (fun g => x.has g)
  let restore : Option Stage := match cand with
    | some g => if quiet ∧ d1 + g.cost ≤ b - (s.cfg.img.budget.hystW * 100 : Nat) then some g else none
    | none => none
  let x2 := match restore with | some g => x.put g false | none => x
  let d2 := match restore with | some g => d1 + g.cost | none => d1
  let above := decide (b < d2) && l.all (fun g => x2.has g)
  let changed := !shed.isEmpty || restore.isSome
  let s1 := setCh (fun q => { q with
    nextDiag := x2.diag, nextGnss := x2.gnss, nextShadow := x2.shadow, nextCut := x2.cut, nextSb := x2.sb, dMw := d2, over_ := above
    grantedMw := grantedCost (ladder s s.frame.mode s.frame.mode) now, changeEl := if changed then some (elNs s) else q.changeEl }) s
  let ev := fun (on : Bool) (d : Int) (t : State) (g : Stage) =>
    event 0x0B01 (flag on ++ u8 (orderOf l g) ++ u32 d.toNat ++ u32 b.toNat ++ i16 s.chandler.tCase) t
  let s2 := shed.foldl (ev true d1) s1
  let s3 := match restore with | some g => ev false d2 s2 g | none => s2
  faultCond 0x0B10 above s3

/-! ### The grant at a tick (R310, R39) -/

/-- PD-SB goes on at a tick: its SRAM is cleared, and SA-B takes solves from the first tick at least 4.0 ms later. -/
def sbPowerOn (s : State) : State :=
  if s.chandler.sbOn then s else setCh (fun c => { c with sbOn := true, sbReadyAt := some (s.frame.tic + 4000000) }) s

def sbPowerOff (s : State) : State := setCh (fun c => { c with sbOn := false, sbReadyAt := none }) s

/-- PD-SB is to be on: a mode that needs SA-B is in force or pending (R39) and the stage is granted; or SA-B is the array that remains
(R311). -/
def sbWanted (s : State) : Bool :=
  if s.chandler.lostA then !s.chandler.lostB
  else !s.chandler.sbShed && (sbStage s s.frame.mode || (match s.frame.pendingMode with | some (m, _) => sbStage s m | none => false))

/-- SHADOW_CUT (Table 11-6). -/
def shadowCut (s : State) : Bool := decide (grantShadows s < fullShadows s s.frame.mode)

/-- The grant decided in the frame before takes effect at the tick (R310). -/
def chTick (s : State) : State :=
  let s1 := setCh (fun c => { c with diagShed := c.nextDiag, gnssShed := c.nextGnss && decide (s.frame.mode ≤ 1), shadowShed := c.nextShadow
                                     cutShed := c.nextCut, sbShed := c.nextSb }) s
  let s2 := if sbWanted s1 then sbPowerOn s1 else sbPowerOff s1
  let cut := shadowCut s2
  let s3 := setCh (fun c => { c with shadowCutEl := since (elNs s) cut c.shadowCutEl }) s2
  endCond 0x0B12 cut s3

/-- The full ladder is granted: on reaching duty, and at a claim (R313). `tic`: the tick from which the grant runs. -/
def chStart (s : State) : State :=
  let s1 := setCh (fun c => { lostA := c.lostA, lostB := c.lostB, plates := c.plates, tCase := c.tCase, pDomain := c.pDomain, grantedMw := -1
                              caseHot := c.caseHot, derate := c.derate, bEffMw := c.bEffMw }) s
  if sbWanted s1 then sbPowerOn s1 else s1

/-- Duty ends: the arrays are off (Table 11-1); the Chandler's own conditions end. -/
def chStop (s : State) : State :=
  let s1 := setCh (fun c => { lostA := c.lostA, lostB := c.lostB, plates := c.plates, tCase := c.tCase, pDomain := c.pDomain, caseHot := c.caseHot, derate := c.derate, bEffMw := c.bEffMw }) s
  faultCond 0x0B12 false (faultCond 0x0B10 false s1)

/-- SHADOW_CUT_FAULT (Table 11-7): SHADOW_CUT set continuously for 10 s. -/
def shadowCutFault (s : State) : State :=
  match s.chandler.shadowCutEl with
  | some t => if t + 10000000000 ≤ elNs s then faultCond 0x0B12 true s else s
  | none => s

def execShadowCutFault (dt : Nat) (s : State) : Host.Outcome State Fault Refusal := .next (settle (shadowCutFault (advance s dt)))

/-! ### Domains and the report section -/

/-- The power domains that are on, by the index of Table 11-1. -/
def domainsOn (s : State) : Nat :=
  let duty := onDuty s.st
  let test := decide (s.st = .selftest)
  let on := decide (s.st ≠ .off)
  maskOf [true, on, on, on, on, duty || test, duty, s.chandler.sbOn && duty, duty, s.gnss.powered, s.analog.powered, duty || test]

/-- BFLAGS, Table 11-6. -/
def bflags (s : State) : Nat :=
  let c := s.chandler
  maskOf [c.diagShed, c.gnssShed, shadowCut s, decide (grantSteps s < fullSteps s s.frame.mode), c.sbShed, c.derate, c.over_, c.caseHot]

/-- The BUDGET section (R318, Table 11-5). -/
def budgetSection (s : State) : Bytes :=
  let c := s.chandler
  u32 (s.cfg.img.budget.budgetW * 100) ++ u32 c.bEffMw ++ u32 c.pInMw ++
  u32 (if c.hist.isEmpty then 0 else (divEven (sumI (c.hist.map Prod.fst)) c.hist.length).toNat) ++ u32 c.dMw.toNat ++ i16 c.tCase ++
  u8 (grantShadows s) ++ u8 (grantSteps s) ++ u16 (bflags s) ++ u16 (domainsOn s) ++ u32 0 ++
  (List.range 12).flatMap (fun i => u16 (nth 0 c.pDomain i))

end Sys2Proof.Machine
end

