-- ==== Sys2Proof/Machine/Alloc.lean ====
section
/-! DEFINITION. Thrust allocation: buses, availability, crossings, the power model, the command derived from a solution, slack (09_allocation
R236 to R268). Readings: notes/assumptions/27.md. -/

namespace Sys2Proof.Machine

open Sys2Proof.Image (Thruster Bus)

def setAlloc (f : AllocSt → AllocSt) (s : State) : State := { s with alloc := f s.alloc }
def thrCfg (s : State) (i : Nat) : Thruster := nth {} s.cfg.img.vessel.thrusters i
def thrSt (s : State) (i : Nat) : ThrSt := nth {} s.alloc.thr i
def setThr (i : Nat) (f : ThrSt → ThrSt) (s : State) : State := setAlloc (fun a => { a with thr := upd f a.thr i }) s
def setBus (b : Nat) (f : BusSt → BusSt) (s : State) : State := setAlloc (fun a => { a with bus := upd f a.bus b }) s
def nThr (s : State) : Nat := s.cfg.img.vessel.thrusters.length
def nBus (s : State) : Nat := s.cfg.img.vessel.buses.length
def tauRef (s : State) (c : Nat) : Int := if c = 0 then s.cfg.img.vessel.tauRefX else if c = 1 then s.cfg.img.vessel.tauRefY else s.cfg.img.vessel.tauRefN

/-! ### Arithmetic of the power model (R247) -/

/-- Multiplication and square root with 60 fraction bits. -/
def mul60 (a b : Nat) : Nat := a * b / 2 ^ 60
def root60 (a : Nat) : Nat := isqrt (a * 2 ^ 60)

/-- The product of the roots x^(1/2), x^(1/4), … that the `n` low bits of `k` select, from the highest. -/
def fracPow60 : Nat → Nat → Nat → Nat → Nat
  | 0, _, _, acc => acc
  | n + 1, x, k, acc => let r := root60 x; fracPow60 n r k (if k.testBit n then mul60 acc r else acc)

/-- x^(k/256) with 60 fraction bits. -/
def pow60 (x k : Nat) : Nat := fracPow60 8 x (k % 256) ((List.range (k / 256)).foldl (fun a _ => mul60 a x) (2 ^ 60))

/-- Norm of a pair of variables in Q2.29, with 60 fraction bits. -/
def norm60 (f : Int × Int) : Nat := isqrt ((f.1 * f.1 + f.2 * f.2).toNat * 2 ^ 62)

/-- Model power of an available thruster in W (R247). -/
def modelPower (t : Thruster) (f : Int × Int) : Frac :=
  Frac.add (Frac.ofNat t.pIdle) (Frac.mul (Frac.ofNat t.pRated) (Frac.norm (pow60 (norm60 f) t.pexp : Nat) (2 ^ 60)))

/-- A variable in Q2.29 as a fraction. -/
def q29 (v : Int) : Frac := Frac.norm v (2 ^ 29)

/-- A fraction as a variable in Q2.29, saturated. -/
def toQ29 (f : Frac) : Int := satS 31 (toFx 29 f)

/-- Axes of a thruster kind (Table 9-1): 0 x, 1 y. -/
def axesOf (kind : Nat) : List Nat := if kind = 2 then [1] else if kind = 3 then [0] else [0, 1]

/-- Force and moment per unit of a variable, in N and N·m (R237). -/
def thrustPer (t : Thruster) (axis c : Nat) : Frac :=
  let m := Frac.ofNat t.tMax
  if c = 0 then (if axis = 0 then m else Frac.zero)
  else if c = 1 then (if axis = 1 then m else Frac.zero)
  else Frac.mul m (if axis = 1 then Frac.norm t.posX 1000 else Frac.norm (-t.posY) 1000)

/-- Force and moment of variables over a set of thrusters (R237). -/
def totalForce (s : State) (is : List Nat) (f : Nat → Int × Int) (c : Nat) : Frac :=
  Frac.sum (is.map (fun i => Frac.add (Frac.mul (thrustPer (thrCfg s i) 0 c) (q29 (f i).1)) (Frac.mul (thrustPer (thrCfg s i) 1 c) (q29 (f i).2))))

/-! ### Buses and availability (R248, R249, R253, R254) -/

def usable (q : Nat) : Bool := q == 0 || q == 5

/-- Slots of a bus that are configured. -/
def busSlots (b : Bus) : List Nat := [b.genSlot, b.battSlot, b.resSlot, b.loadSlot, b.rampSlot].filter (· ≠ 0xFFFF)

/-- One bus in P3 (R248, R249, R254). -/
def busStep (s : State) (b : Bus) (o : BusSt) : BusSt :=
  let v := fun (slot : Nat) (d : Int) => if slot = 0xFFFF then d else (snapSlot s slot).value
  let ok := snapSlot s b.okSlot
  let okGood := b.okSlot == 0xFFFF || usable ok.quality
  let service := if b.okSlot = 0xFFFF then true else if usable ok.quality then decide (ok.value = 1) else o.inService
  let bad := (busSlots b).any (fun i => [1, 2, 3].contains (snapSlot s i).quality)
  let pav := if bad then b.staticW else clamp 0 b.busPmax (v b.genSlot 0 + v b.battSlot 0 - v b.resSlot b.reserveW - v b.loadSlot 0)
  let used := if bad then [] else busSlots b
  { o with inService := service, fallback := bad || !okGood, hold := !bad && (busSlots b).any (fun i => (snapSlot s i).quality == 5)
           pAv := pav, ramp := if bad then 0 else v b.rampSlot 0
           ageUs := (match used with
             | [] => 0xFFFFFFFF
             | _ => maxL (used.map (fun i => slotAge (snapSlot s i) s.frame.tic))) }

/-- Thruster `i` is available (R253). -/
def thrAvail (s : State) (i : Nat) : Bool :=
  let t := thrCfg s i
  let x := snapSlot s t.availSlot
  (t.availSlot == 0xFFFF || (usable x.quality && x.value == 1)) && (nth {} s.alloc.bus t.bus).inService && !(sf1Mask s).testBit i &&
  (nth {} s.osc t.oscConn).st == 2

/-- Masks of the thrusters unavailable and the buses out. -/
def unavailMask (s : State) : Nat := maskOf (s.alloc.thr.map (fun t => !t.avail))
def outMask (s : State) : Nat := maskOf (s.alloc.bus.map (fun b => !b.inService))

/-- Item 1 of R257: buses, availability, events 0x0903 and 0x0904, faults 0x0911, 0x0913, 0x0914; L_k (10 R295). -/
def allocAvail (s : State) : State :=
  let oldBus := s.alloc.bus
  let u0 := unavailMask s
  let o0 := outMask s
  let bus := List.zipWith (busStep s) s.cfg.img.vessel.buses oldBus
  let s1 := setAlloc (fun a => { a with bus := bus }) s
  let s2 := (enumFrom 0 (List.zip oldBus bus)).foldl (fun t p =>
    if p.2.1.fallback ≠ p.2.2.fallback then event 0x0903 (u8 p.1 ++ flag p.2.2.fallback) t else t) s1
  let av := (List.range (nThr s)).map (thrAvail s2)
  let lost := maskOf (List.zipWith (fun o n => o.avail && !n) s.alloc.thr av)
  let s3 := setAlloc (fun a => { a with prevUnavail := u0, lostNow := lost, thr := List.zipWith (fun o n => { o with avail := n }) a.thr av }) s2
  let s4 := if unavailMask s3 ≠ u0 ∨ outMask s3 ≠ o0 then event 0x0904 (u32 (unavailMask s3) ++ u8 (outMask s3)) s3 else s3
  faultCond 0x0911 (bus.any (·.fallback)) (faultCond 0x0914 (bus.any (fun b => !b.inService)) (faultCond 0x0913 (av.any (fun b => !b)) s4))

/-! ### Regimes and crossings (R242 to R246) -/

/-- Largest magnitude among a thruster's variables, Q2.29. -/
def infNorm (f : Int × Int) : Nat := Nat.max f.1.natAbs f.2.natAbs

/-- RATE × a time in ms, in units of thrust. -/
def rateOver (t : Thruster) (ms : Nat) : Frac := Frac.norm (t.rate * ms : Nat) 65536000

/-- f_emit of a thruster; 0 when it is unavailable (R253). -/
def emitOf (s : State) (i : Nat) : Int × Int := if (thrSt s i).avail then (thrSt s i).fEmit else (0, 0)

def tfMs (s : State) : Nat := periodNs s.frame.mode / 1000000

/-- The bound of a crossing thruster at step `j` (R245). -/
def crossBound (s : State) (i j : Nat) : Frac :=
  let t := thrCfg s i
  Frac.max (rateOver t (tfMs s)) (Frac.sub (q29 (infNorm (emitOf s i) : Nat)) (rateOver t (tfMs s + j * s.cfg.img.alloc.stepMs)))

/-- Tags of a thruster's rows: the boundary row of a sector on a side, of the rudder regimes. -/
def sectorTag (i k : Nat) (to_ : Bool) : Nat := 1000 * i + 400 + 2 * k + (if to_ then 1 else 0)
def rudderTag (i : Nat) (astern : Bool) : Nat := 1000 * i + 200 + (if astern then 1 else 0)

/-- Regimes of a thruster with the tag of their boundary row (R242, R243). -/
def regimesOf (s : State) (i : Nat) : List (Nat × Nat) :=
  let t := thrCfg s i
  let x := thrSt s i
  if t.kind ≤ 1 then
    (if 1 ≤ t.nSec then [(1, sectorTag i 1 x.side1)] else []) ++ (if 2 ≤ t.nSec then [(2, sectorTag i 2 x.side2)] else [])
  else if t.kind = 4 then [(3, rudderTag i x.astern)] else []

/-- μ of R244: the multiplier of a row at step N − 1 of the solution that stood. -/
def muOf (s : State) (tag : Nat) : Frac :=
  match s.solver.standing with
  | some sol => Table.get Frac.zero (nth [] sol.z (sol.z.length - 1)) tag
  | none => Frac.zero

/-- μ_LEFT in force (R244). -/
def muLeftNow (s : State) (x : ThrSt) : Frac :=
  match x.muEndTic with
  | some t => if t + s.cfg.img.alloc.swapHoldMs * 1000000 < s.frame.tic then Frac.zero else x.muLeft
  | none => Frac.zero

/-- Change to the other side of a regime. -/
def swapRegime (r : Nat) (x : ThrSt) : ThrSt :=
  if r = 1 then { x with side1 := !x.side1 } else if r = 2 then { x with side2 := !x.side2 } else { x with astern := !x.astern }

/-- A crossing begins (R244). -/
def crossBegin (s : State) (i : Nat) : State :=
  let x := thrSt s i
  if x.avail = true ∧ x.crossing = none then
    let lim := Frac.add (Frac.norm s.cfg.img.alloc.swMu 65536) (muLeftNow s x)
    let cs := (regimesOf s i).filter (fun r => Frac.lt lim (muOf s r.2))
    match cs with
    | [] => s
    | c :: r =>
      let b := r.foldl (fun a y => if Frac.lt (muOf s a.2) (muOf s y.2) then y else a) c
      let mu := muOf s b.2
      event 0x0901 (u8 i ++ u8 b.1 ++ u32 (satU 32 (roundEven (Frac.mul mu (Frac.ofNat 65536))).toNat))
        (setThr i (fun t => { t with crossing := some b.1, muLeft := mu, muEndTic := none }) s)
  else s

/-- A crossing ends when f_emit has come within one rate step of zero, or when its thruster becomes unavailable (R245). -/
def crossEnd (s : State) (i : Nat) : State :=
  let x := thrSt s i
  match x.crossing with
  | none => s
  | some r =>
    if x.avail = false ∨ Frac.le (q29 (infNorm x.fEmit : Nat)) (rateOver (thrCfg s i) (tfMs s)) = true then
      event 0x0902 [] (setThr i (fun t => { swapRegime r t with crossing := none, muEndTic := some s.frame.tic }) s)
    else s

/-- Item 2 of R257. -/
def allocCross (s : State) : State := (List.range (nThr s)).foldl (fun t i => crossEnd (crossBegin t i) i) s

/-! ### Start and takeover (R246, R254) -/

/-- A thruster after start. -/
def thrStart (t : Thruster) : ThrSt :=
  { side1 := t.sideInit.testBit 0, side2 := t.sideInit.testBit 1, dir := if t.kind = 2 then (0, 536870912) else (536870912, 0) }

/-- Allocation after start, and after a committed image takes effect (R246). -/
def allocStart (s : State) : State :=
  { s with alloc := { thr := s.cfg.img.vessel.thrusters.map thrStart, bus := s.cfg.img.vessel.buses.map (fun _ => {}) } }

/-! ### The command derived from a solution (R260, R261) -/

/-- A command for a thruster from variables of step 0, and the variables that it represents. `last`: ANGLE last emitted. -/
def deriveCmd (t : Thruster) (astern : Bool) (last : Nat) (f : Int × Int) : ThrCmd × (Int × Int) :=
  let tm := Frac.ofNat t.tMax
  if t.kind ≤ 1 then
    let n : Frac := Frac.norm (norm60 f : Nat) (2 ^ 60)
    let held := Frac.lt n (Frac.norm t.azHoldMag 65536)
    let a := if held then last else atan2Bin f.2 f.1
    let th := satS 32 (roundEven (Frac.mul tm n))
    let u := Frac.norm th (Nat.max 1 t.tMax)
    ({ thrust := th, angle := a, cflags := if held then 2 else 0 }, (toQ29 (Frac.mul u (cosF a)), toQ29 (Frac.mul u (sinF a))))
  else if t.kind = 2 then
    let th := satS 32 (roundEven (Frac.mul tm (q29 f.2)))
    ({ thrust := th }, (0, toQ29 (Frac.norm th (Nat.max 1 t.tMax))))
  else
    let th := satS 32 (roundEven (Frac.mul tm (q29 f.1)))
    let u := toQ29 (Frac.norm th (Nat.max 1 t.tMax))
    if t.kind = 4 ∧ astern = false ∧ 0 < f.1 then
      let r := roundEven (Frac.mul (Frac.ofNat t.rudAngle) (Frac.div (q29 f.2) (Frac.mul (Frac.norm t.rudK 65536) (q29 f.1))))
      let fy := Frac.mul (Frac.norm r (Nat.max 1 t.rudAngle)) (Frac.mul (Frac.norm t.rudK 65536) (q29 u))
      ({ thrust := th, angle := angWrap r }, (u, toQ29 fy))
    else ({ thrust := th }, (u, 0))

/-- RPM of a command (R260). -/
def rpmOf (t : Thruster) (th : Int) : Int :=
  if t.cmdForm = 1 then
    let m : Frac := if th < 0 then Frac.norm t.revRatio 32768 else Frac.one
    let v : Int := (sqrtFrac (Frac.mul (Frac.ofNat (t.rpmMax * t.rpmMax)) (Frac.div (Frac.norm th.natAbs (Nat.max 1 t.tMax)) m)) : Nat)
    if th < 0 then satS 32 (-v) else if th = 0 then 0 else satS 32 v
  else 0

/-- Step 0 of the solution to be emitted: the variables of a thruster. -/
def step0 (s : State) (i : Nat) : Int × Int :=
  match s.solver.emitSol with
  | some sol => let t := nth [] sol.x 0; (Table.get 0 t (2 * i), Table.get 0 t (2 * i + 1))
  | none => (0, 0)

/-- A thruster's command has ENABLE (R259). -/
def enabled (s : State) (i : Nat) : Bool := (thrSt s i).avail && !(sf1Mask s).testBit i && decide (s.st = .active ∨ s.st = .tripped)

/-- TSTATE of Table 9-9. -/
def tstateOf (s : State) (i : Nat) : Nat :=
  if (sf1Mask s).testBit i then 2 else if (thrSt s i).avail = false then 1 else if enabled s i && !kindTripped s 2 then 0 else 3

/-- P_CMD of a thruster whose command has ENABLE 0 or that receives none: the model power at THRUST 0 (R247). -/
def idlePower (s : State) (i : Nat) : Nat := if (thrSt s i).avail then satU 32 (thrCfg s i).pIdle else 0

/-- The command of a thruster in P5 (R259, R260): the command, the variables that the derived command represents, and whether it is
enabled. -/
def commandOf (s : State) (i : Nat) : ThrCmd × (Int × Int) × Bool :=
  let t := thrCfg s i
  let x := thrSt s i
  let (c, rep) := deriveCmd t x.astern x.cmd.angle (step0 s i)
  let extra := (if s.solver.emitSource = 3 then 4 else 0) + (if s.solver.emitSource = 2 then 8 else 0) + (if x.crossing.isSome then 16 else 0)
  if enabled s i then
    ({ c with rpm := rpmOf t c.thrust, cflags := 1 + c.cflags + extra, pCmd := satU 32 (roundEven (modelPower t rep)).toNat }, rep, true)
  else ({ thrust := 0, angle := x.cmd.angle, rpm := 0, cflags := extra, pCmd := idlePower s i }, rep, false)

/-- Thrust command data, Table 9-2. -/
def commandData (frame : Nat) (c : ThrCmd) : Bytes :=
  u32 (frame % 2 ^ 32) ++ i32 c.thrust ++ u32 c.angle ++ i32 c.rpm ++ u16 c.cflags ++ u16 0 ++ u32 c.pCmd

/-- Thrusters that are available. -/
def availList (s : State) : List Nat := (List.range (nThr s)).filter (fun i => (thrSt s i).avail)

/-- The slack of step 0 over the available thrusters (R262); `rep`: what their derived commands represent. -/
def slackOf (s : State) (rep : Nat → Int × Int) : List Int :=
  (List.range 3).map (fun c => satS 32 (nth 0 s.alloc.tauDem c - roundEven (totalForce s (availList s) rep c)))

/-- P5 has placed the commands: f_emit, τ_emit, slack (R261, R262). `sent`: thrusters to which a command went. -/
def allocEmitted (sent : List Nat) (s : State) : State :=
  let cs := (List.range (nThr s)).map (commandOf s)
  let rep := fun i => (nth ({}, (0, 0), false) cs i).2.1
  let thr := (enumFrom 0 s.alloc.thr).map (fun p =>
    let c := nth ({}, (0, 0), false) cs p.1
    let got := sent.contains p.1
    { p.2 with tstate := tstateOf s p.1
               cmd := if got then c.1 else { p.2.cmd with cflags := c.1.cflags, thrust := 0, rpm := 0, pCmd := idlePower s p.1 }
               fEmit := if got ∧ c.2.2 = true then c.2.1 else (0, 0) })
  let slack := slackOf s rep
  let set := (List.range 3).any (fun c => decide ((nth 0 s.cfg.img.alloc.slackRep c : Int) < ((nth 0 slack c).natAbs : Int)))
  let s1 := setAlloc (fun a => { a with thr := thr, slack := slack, slackSet := set, slackEl := since (elNs s) set a.slackEl }) s
  let tau := (List.range 3).map (fun c => satS 32 (roundEven (totalForce s1 (List.range (nThr s)) (fun i => (thrSt s1 i).fEmit) c)))
  endCond 0x0910 set (setObs (fun o => { o with tauEmit := tau }) s1)

/-! ### After P4 (R252) -/

/-- Variables of a thruster at a step of a solution. -/
def solVar (sol : Solution) (j i : Nat) : Int × Int := let t := nth [] sol.x j; (Table.get 0 t (2 * i), Table.get 0 t (2 * i + 1))

/-- Exact sum of a bus at a step of a solution, W. -/
def busSum (s : State) (sol : Solution) (b j : Nat) : Frac :=
  (Frac.sum (((availList s).filter (fun i => (thrCfg s i).bus == b)).map (fun i => modelPower (thrCfg s i) (solVar sol j i))))

/-- R252 on the solution that stands: P_STEP0, P_PEAK, EXCEED. -/
def busAfter (s : State) (sol : Solution) (n b : Nat) (o : BusSt) : BusSt :=
  let p0 := busSum s sol b 0
  let peak := (List.range n).foldl (fun a j => Frac.max a (busSum s sol b j)) p0
  let ex := Frac.lt (Frac.ofInt o.pAv) p0 && !o.rateRaised && o.inService
  { o with pStep0 := satS 32 (roundEven p0), pPeak := satS 32 (roundEven peak), exceed := ex, exceedRun := if ex then o.exceedRun + 1 else 0 }

def allocAfter (sol : Solution) (n : Nat) (s : State) : State :=
  let s1 := setAlloc (fun a => { a with bus := (enumFrom 0 a.bus).map (fun p => busAfter s sol n p.1 p.2) }) s
  endCond 0x0912 (s1.alloc.bus.any (fun b => decide (20 ≤ b.exceedRun))) s1

/-! ### Rows -/

/-- SLACK_FAULT (R262): SLACK set in every frame for longer than SLACK_FAULT_MS. -/
def slackFault (s : State) : State :=
  match s.alloc.slackEl with
  | some t => if t + s.cfg.img.alloc.slackFaultMs * 1000000 < elNs s then faultCond 0x0910 true s else s
  | none => s

def execSlackFault (dt : Nat) (s : State) : Host.Outcome State Fault Refusal := .next (settle (slackFault (advance s dt)))

/-- EXCEED_FAULT (R252): 20 consecutive frames. -/
def exceedFault (b : Nat) (s : State) : State := if 20 ≤ (nth {} s.alloc.bus b).exceedRun then faultCond 0x0912 true s else s

def execExceedFault (dt bus : Nat) (s : State) : Host.Outcome State Fault Refusal := .next (settle (exceedFault bus (advance s dt)))

/-! ### Report sections -/

/-- AFLAGS, Table 9-8. -/
def aflags (s : State) : Nat :=
  let a := s.alloc
  maskOf [a.slackSet, a.pwrBind, a.bus.any (·.rateRaised), a.bus.any (·.exceed), a.bus.any (·.fallback), a.thr.any (fun t => t.crossing.isSome),
    a.thr.any (fun t => !t.avail)]

/-- The ALLOCATION section (R266). -/
def allocSection (s : State) : Bytes :=
  let a := s.alloc
  u8 s.solver.emitSource ++ u8 (a.emitGroup.getD 0xFF) ++ u8 a.steps ++ u8 (nThr s) ++ u16 (aflags s) ++ u16 0 ++
  a.tauDem.flatMap i32 ++ s.obs.tauEmit.flatMap i32 ++ a.slack.flatMap i32 ++ a.slackPeak.flatMap i32 ++
  (enumFrom 0 a.thr).flatMap (fun p =>
    u8 p.1 ++ u8 p.2.tstate ++ u8 (maskOf [p.2.side1, p.2.side2, p.2.astern, p.2.crossing.isSome]) ++ u8 0 ++ i32 p.2.cmd.thrust ++
    u32 p.2.cmd.angle ++ u32 p.2.cmd.pCmd)

/-- The POWER section (R267). -/
def powerSection (s : State) : Bytes :=
  u8 (nBus s) ++ zeros 7 ++ (enumFrom 0 s.alloc.bus).flatMap (fun p =>
    let b := p.2
    u8 p.1 ++ u8 (maskOf [b.fallback, b.hold, b.bind, b.rateRaised, b.exceed, !b.inService]) ++ u16 0 ++ i32 (satS 32 b.pAv) ++ i32 (satS 32 b.pRhs) ++ i32 (satS 32 b.pLin) ++
    i32 b.pStep0 ++ i32 b.pPeak ++ u32 b.marginal ++ u32 b.ageUs)

end Sys2Proof.Machine
end

