-- ==== Sys2Proof/Machine/ImgRead.lean ====
section
/-! DEFINITION. Reading an image: header, directory and the layouts of every section (03_configuration R82 to R86, Tables 3-1 to 3-5,
3-9; 05 R146; 06 R182; 07 Tables 7-4 to 7-8; 08 R235; 09 R263, R264; 10 Table 10-3; 11 Table 11-4; 12 Table 12-14; 14 Table 14-10;
15 Table 15-7; 16 R437; 17 R465, R466; 18 R486; 19 R509). -/

namespace Sys2Proof.Machine

open Sys2Proof.Image

/-- A directory entry, Table 3-2. -/
structure DirEnt where
  id : Nat
  res : Nat
  ofs : Nat
  len : Nat
  crc : Nat
  deriving DecidableEq, Repr

/-- SECTION_COUNT. -/
def secCount (b : Bytes) : Nat := fld b 12 2

/-- The directory (Table 3-2). -/
def directory (b : Bytes) : List DirEnt :=
  (List.range (secCount b)).map (fun i =>
    let e := slice b (128 + 16 * i) 16
    { id := fld e 0 2, res := fld e 2 2, ofs := fld e 4 4, len := fld e 8 4, crc := fld e 12 4 })

/-- The bytes of a section, if the image carries it. -/
def secAt? (b : Bytes) (id : Nat) : Option Bytes :=
  ((directory b).find? (fun d => d.id == id)).map (fun d => slice b d.ofs d.len)

/-- The bytes of a section; none for an absent one. -/
def secBytes (b : Bytes) (id : Nat) : Bytes := (secAt? b id).getD []

/-- The DIGEST: SHA-256 of bytes 0 to TOTAL_LEN − 65 (R84). -/
def imageDigest (b : Bytes) : Bytes := sha256 (b.take (fld b 8 4 - 64))

/-- Unsigned fields of `n` bytes in a row. -/
def many (b : Bytes) (o n k : Nat) : List Nat := (List.range k).map (fun i => fld b (o + n * i) n)

/-- Signed fields of `n` bytes in a row. -/
def manyI (b : Bytes) (o n k : Nat) : List Int := (List.range k).map (fun i => fldI b (o + n * i) n)

def readNetwork (b : Bytes) : Network :=
  { h1Addr := fld b 0 4, h1Mask := fld b 4 4, h1Gw := fld b 8 4, h2Addr := fld b 12 4, h2Mask := fld b 16 4
    h2Gw := fld b 20 4, ctrlMboxMask := byteAt b 24 }

def readFrame (b : Bytes) : FrameSec :=
  { startMode := byteAt b 0, modesAllowed := byteAt b 1, tickTrig := byteAt b 2
    phaseUs := (List.range 4).map (fun p => many b (4 + 16 * p) 2 8) }

def readEntry (b : Bytes) : Entry :=
  { kind := byteAt b 0, port := byteAt b 1, decode := byteAt b 2, destType := byteAt b 3, dest := fld b 4 2, qpol := fld b 6 2
    mtch := slice b 8 12, field := fld b 20 2, width := byteAt b 22, gainE := fldI b 23 1, gainM := fldI b 24 4
    offset := fldI b 28 4, limLo := fldI b 32 4, limHi := fldI b 36 4, maxAgeUs := fld b 40 4, qref := fld b 44 2 }

def readMap (b : Bytes) : List Entry := (List.range (b.length / 48)).map (fun i => readEntry (slice b (48 * i) 48))

def readBus (b : Bytes) : Bus :=
  { genSlot := fld b 0 2, battSlot := fld b 2 2, resSlot := fld b 4 2, loadSlot := fld b 6 2, rampSlot := fld b 8 2
    okSlot := fld b 10 2, reserveW := fldI b 12 4, staticW := fldI b 16 4, busPmax := fldI b 20 4, marginW := fldI b 24 4 }

def readThruster (b : Bytes) : Thruster :=
  { kind := byteAt b 0, bus := byteAt b 1, oscConn := byteAt b 2, cmdForm := byteAt b 3, posX := fldI b 4 4, posY := fldI b 8 4
    tMax := fld b 12 4, revRatio := fld b 16 2, pexp := fld b 18 2, pRated := fld b 20 4, pIdle := fld b 24 4, wP := fld b 28 4
    wD := fld b 32 4, rate := fld b 36 4, availSlot := fld b 40 2, nSec := byteAt b 42, sideInit := byteAt b 43
    sec1From := fld b 44 4, sec1To := fld b 48 4, sec2From := fld b 52 4, sec2To := fld b 56 4, rudK := fld b 60 2
    rudMax := fld b 62 2, rudAngle := fld b 64 4, rpmMax := fld b 68 4, azHoldMag := fld b 72 2 }

def readVessel (b : Bytes) : Vessel :=
  { nFacets := byteAt b 2, tauRefX := fldI b 4 4, tauRefY := fldI b 8 4, tauRefN := fldI b 12 4
    buses := (List.range (byteAt b 1)).map (fun i => readBus (slice b (32 + 48 * i) 48))
    thrusters := (List.range (byteAt b 0)).map (fun i => readThruster (slice b (320 + 80 * i) 80)) }

def readKind (b : Bytes) : KindBlk :=
  { medGate := fld b 0 4, confGate := fld b 4 4, freezeMs := fld b 8 4, innovGate := fld b 12 2, skewBoundMs := fld b 14 2
    cInit := byteAt b 16, cRise := byteAt b 17, cDropSrc := byteAt b 18, cDropHold := byteAt b 19, cDropFreeze := byteAt b 20
    cDropInnov := byteAt b 21, cDropMed := byteAt b 22, maskThr := byteAt b 23, cRejoin := byteAt b 24, cStale := byteAt b 25
    unmaskRun := byteAt b 26, holdMult := byteAt b 27, skewLearn := byteAt b 28 }

/-- Three int32 in a row. -/
def readVec (b : Bytes) (o : Nat) : Int × Int × Int := (fldI b o 4, fldI b (o + 4) 4, fldI b (o + 8) 4)

def readRef (b : Bytes) : Ref :=
  { kind := byteAt b 0, format := byteAt b 1, skewAct := (byteAt b 2).testBit 1, skewEn := (byteAt b 2).testBit 0
    number := byteAt b 3, slot0 := fld b 4 2, slot1 := fld b 6 2, slot2 := fld b 8 2, slot3 := fld b 10 2, sigmaA := fld b 12 4
    sigmaB := fld b 16 4, lever := readVec b 20, targetN := fldI b 32 4, targetE := fldI b 36 4, angleOfs := fld b 40 4
    intMaxAgeUs := fld b 44 4, lever2 := readVec b 48, lever3 := readVec b 60 }

/-- References of a FUSION section (Table 6-4). -/
def nRefs (b : Bytes) : Nat := byteAt b 0 + byteAt b 1 + byteAt b 2 + byteAt b 3

def readFusion (b : Bytes) : Fusion :=
  { minPosIn := byteAt b 4, minHdgIn := byteAt b 5, originLat := fldI b 8 8, originLon := fldI b 16 8, geoHMm := fldI b 24 4
    drLimitS := fld b 28 2, hdgDrLimitS := fld b 30 2, obsSigmaPosMm := fld b 32 4, drGrowthMmS := fld b 36 4
    obsSigmaHdg := fld b 40 4, hdgDrGrowth := fld b 44 4
    kinds := (List.range 4).map (fun i => readKind (slice b (64 + 32 * i) 32))
    refs := (List.range (nRefs b)).map (fun i => readRef (slice b (192 + 80 * i) 80)) }

def readObsRow (b : Bytes) : Row := { rowExp := fldI b 0 1, m := manyI b 4 4 21 }

def readObserver (b : Bytes) : Observer :=
  let n := byteAt b 0
  { nRegions := n, periods := byteAt b 1, windInObs := byteAt b 2, ageLimitUs := fld b 4 4
    rows := (List.range 4).map (fun p => (List.range n).map (fun g =>
      let blk := slice b (32 + 1320 * (n * p + g)) 1320
      (List.range 15).map (fun i => readObsRow (slice blk (88 * i) 88)))) }

def readRegion (b : Bytes) : Region :=
  { windLo := fld b 0 4, windHi := fld b 4 4, sogLo := fld b 8 4, sogHi := fld b 12 4, waveLo := fld b 16 2, waveHi := fld b 18 2
    pwrLo := byteAt b 20, pwrHi := byteAt b 21, ffGain := many b 24 2 3
    g := (List.range 4).map (fun p => (List.range 3).map (fun c =>
      let r := slice b (32 + 120 * p + 40 * c) 40
      { rowExp := fldI r 0 1, m := manyI r 4 4 9 })) }

/-- GAINS; in format 2 PWR_SLOT is reserved, and there is no power-mode flag (R86, Table 3-3a). -/
def readGains (format : Nat) (b : Bytes) : Gains :=
  { nRegions := byteAt b 0, defaultRegion := byteAt b 1, selEn := byteAt b 2, periods := byteAt b 3
    pwrSlot := if format = 2 then 0xFFFF else fld b 4 2, blendFrames := byteAt b 6, selDefWind := fld b 8 4, selDefSog := fld b 12 4
    selDefWave := fld b 16 2, selDefPwr := byteAt b 18, hystWind := fld b 20 4, hystSog := fld b 24 4, hystWave := fld b 28 2
    waveHystMm := fld b 30 2, waveWinS := fld b 32 2, windFadeMs := fld b 36 4, demandLim := manyI b 40 4 3
    cw := (List.range 3).map (fun c => manyI b (80 + 144 * c) 4 36)
    regions := (List.range (byteAt b 0)).map (fun g => readRegion (slice b (512 + 512 * g) 512)) }

def readBiquad (b : Bytes) : Biquad :=
  { en := byteAt b 0, b0 := fldI b 4 4, b1 := fldI b 8 4, b2 := fldI b 12 4, a1 := fldI b 16 4, a2 := fldI b 20 4 }

def readNotch (b : Bytes) : Notch :=
  { periods := byteAt b 0
    n := (List.range 4).map (fun p => (List.range 3).map (fun c => (List.range 2).map (fun i =>
      readBiquad (slice b (16 + 144 * p + 48 * c + 24 * i) 24)))) }

def readProf (b : Bytes) : ProfBlk :=
  { vStart := fld b 0 4, vBreak := fld b 4 4, vCruise := fld b 8 4, vStop := fld b 12 4, a1 := fld b 16 4, a2 := fld b 20 4
    d2 := fld b 24 4, d1 := fld b 28 4, stopDec := fld b 32 4 }

def readProfile (b : Bytes) : Profile :=
  { maxMoveMm := fld b 4 4, pushLim := manyI b 8 4 3, pushRampMs := fld b 20 2, pushRampMinMs := fld b 22 2
    sets := (List.range (byteAt b 0)).map (fun s => (readProf (slice b (32 + 80 * s) 40), readProf (slice b (72 + 80 * s) 40))) }

def readAllocation (b : Bytes) : Allocation :=
  { nSteps := byteAt b 0, nShadowMax := byteAt b 1, stepMs := fld b 4 2, qSlack := many b 8 4 3, swMu := fld b 20 4
    swapHoldMs := fld b 24 4, slackRep := many b 28 4 3, slackFaultMs := fld b 40 4
    groups := (List.range (byteAt b 2)).map (fun g =>
      { thrMask := fld b (64 + 16 * g) 4, busMask := byteAt b (68 + 16 * g), priority := byteAt b (69 + 16 * g) }) }

def readSolver (b : Bytes) : Image.Solver :=
  { iterCap := byteAt b 0, fixedShadows := byteAt b 1, epsPivot := fld b 4 4, epsReg := fld b 8 4, epsRegMax := fld b 12 4
    tolPrimary := fld b 16 4, tolAccept := fld b 20 4, wsPush := fld b 24 4, shadowUseMs := fld b 28 4, coverAgeMs := fld b 32 4
    conseqLim := many b 36 4 3, conseqMs := fld b 48 4 }

def readBudget (b : Bytes) : Budget :=
  { budgetW := fld b 0 2, hMin := byteAt b 2, derateStart := byteAt b 3, derateSlope := byteAt b 4, hystW := fld b 6 2
    restoreMs := fld b 8 4 }

def readLock (b : Bytes) : Image.Lock :=
  { nSlots := byteAt b 0, leaseLen := byteAt b 1, peerMokDi := many b 2 1 3
    slotSerial := (List.range 3).map (fun s => slice b (8 + 12 * s) 12), lockDrillDays := fld b 44 2 }

def readTime (b : Bytes) : Time :=
  { sourcePri := byteAt b 0, sourceSec := byteAt b 1, ptpRole := byteAt b 2, ptpDomain := byteAt b 3, ptpProfile := byteAt b 4
    ptpTransport := byteAt b 5, slaveOnly := (byteAt b 6).testBit 0, priority1 := byteAt b 7, priority2 := byteAt b 8
    stepPolicy := byteAt b 9, rtcFollow := byteAt b 10, lockThrNs := fld b 12 4, lockCount := fld b 16 2
    utcOffsetDef := fldI b 18 2, asymH1Ns := fldI b 20 4, asymH2Ns := fldI b 24 4, holdDriftPpb := fld b 28 2, errLimitUs := fld b 32 4
    trigs := (List.range 4).map (fun n =>
      { periodUs := fld b (36 + 12 * n) 4, phaseNs := fld b (40 + 12 * n) 4, widthNs := fld b (44 + 12 * n) 4 })
    capSrc := many b 84 1 15 }

def readGnss (b : Bytes) : Image.Gnss :=
  { measHz := byteAt b 0, elevMaskDeg := byteAt b 1, pdopMax := fld b 2 2, measOfsUs := fld b 4 4, biasEn := byteAt b 8
    sleepMin := byteAt b 9, awakeS := fld b 10 2, wakeMaxS := fld b 12 2, ppsWidthMs := fld b 14 2, ppsMsgSel := byteAt b 16
    ppsMsgPort := fld b 18 2, ppsMsgAddr := fld b 20 4 }

/-- Controller block `c` with its filters (Table 16-3, R437). -/
def readCtrl (b : Bytes) (c : Nat) : Ctrl :=
  let k := slice b (16 + 64 * c) 64
  { mode := byteAt k 0, fdEn := byteAt k 1, termEn := byteAt k 2, tdcEn := byteAt k 3, nbrp := byteAt k 4, nsjw := byteAt k 5
    ntseg1 := fld k 6 2, ntseg2 := byteAt k 8, dbrp := byteAt k 9, dtseg1 := byteAt k 10, dtseg2 := byteAt k 11, dsjw := byteAt k 12
    tdco := byteAt k 13, nCycles := byteAt k 14, safeId := fld k 16 4, safeLen := byteAt k 20, safeRef := byteAt k 21
    busoffHoldMs := fld k 22 2, safeOfsUs := fld k 24 4
    filters := (List.range (byteAt k 15)).map (fun i => (fld b (272 + 192 * c + 12 * i) 4, fld b (276 + 192 * c + 12 * i) 4)) }

def readSlot (b : Bytes) : Image.Slot :=
  { ctrl := byteAt b 0, kind := byteAt b 1, conn := byteAt b 2, ref := byteAt b 3, ofsUs := fld b 4 2, windowUs := fld b 6 2
    txId := fld b 8 4, len := byteAt b 12, cycleMask := fld b 14 2 }

def readSchedule (b : Bytes) : Schedule :=
  { ctrls := (List.range 4).map (readCtrl b)
    slots := (List.range (fld b 0 2)).map (fun e => readSlot (slice b (1040 + 16 * e) 16)) }

def readConn (b : Bytes) : Conn :=
  { ctrl := byteAt b 0, verMax := byteAt b 1, tExpMs := fld b 2 2, connId := fld b 4 4, connId16 := fld b 8 2
    safeCtrl := byteAt b 10, rxId := fld b 12 4, dstAddr := fld b 16 4, dstPort := fld b 20 2 }

def readOsc (b : Bytes) : Image.Osc :=
  { safeConnId := many b 4 4 4, safeTExpMs := fld b 20 2
    conns := (List.range (byteAt b 0)).map (fun n => readConn (slice b (32 + 32 * n) 32)) }

def readSafety (b : Bytes) : Image.Safety :=
  { proofDays := fld b 4 2
    funcs := (List.range (byteAt b 0)).map (fun i =>
      let f := slice b (32 + 16 * i) 16
      { fkind := byteAt f 0, pair := byteAt f 1, polarity := byteAt f 2, resetDi := byteAt f 3, thrMask := fld f 4 4
        soMask := byteAt f 8, autoArm := byteAt f 9, discMs := fld f 10 2, edmDi := byteAt f 12 }) }

def readFieldIo (b : Bytes) : Image.FieldIo :=
  { fsArmSlot := many b 0 2 2
    inputs := (List.range 32).map (fun i => { filtN := byteAt b (16 + 4 * i), wbEn := (byteAt b (17 + 4 * i)).testBit 0 })
    outputs := (List.range 24).map (fun i =>
      let o := slice b (144 + 8 * i) 8
      { src := byteAt o 0, demag := byteAt o 1, failVal := byteAt o 2, sagRank := byteAt o 3, sel := fld o 4 2, ovlMs := byteAt o 6 }) }

def readAnalog (b : Bytes) : Image.Analog :=
  { groups := (List.range 4).map (fun g =>
      let k := slice b (400 * g) 400
      { stages := byteAt k 0, startOfsNs := fld k 4 4, taps := many k 8 1 8
        coef := (List.range 8).map (fun s => manyI k (16 + 48 * s) 4 12) })
    chans := (List.range 16).map (fun c =>
      let k := slice b (1600 + 16 * c) 16
      { enable := byteAt k 0, range := byteAt k 1, inputSel := byteAt k 2, dcbEn := byteAt k 3, dcbShift := byteAt k 4
        freezeSrc := byteAt k 5 }) }

/-- FAULT_MAP; only the entries that differ from the default are kept. -/
def readFaultMap (b : Bytes) : FaultMap :=
  { sluiceSer := byteAt b 0, sluiceCrit := byteAt b 1, fltSev := byteAt b 2, fltHold := byteAt b 3, quietMs := fld b 4 4
    eccRate := fld b 8 2
    entries := ((List.range 512).map (fun i =>
      let e := 16 + 4 * i
      (i, ({ severity := byteAt b e, cls := byteAt b (e + 1), react := byteAt b (e + 2), noFlt := (byteAt b (e + 3)).testBit 0 }
        : FaultEntry)))).filter (fun p => p.2 ≠ {}) }

/-- An optional section, or its default when absent (R85). -/
def optSec {α : Type} (b : Bytes) (id : Nat) (d : α) (f : Bytes → α) : α := ((secAt? b id).map f).getD d

/-- The ANALOG section's defaults, in the form that a section is read in (05 R146). -/
def analogDefault : Image.Analog :=
  { groups := List.replicate 4 { taps := List.replicate 8 0, coef := List.replicate 8 (List.replicate 12 0) }
    chans := List.replicate 16 {} }

/-- The configuration that an image holds. -/
def readImage (b : Bytes) : Img :=
  { format := fld b 4 2, issue := fld b 16 4, variants := byteAt b 14, digest := imageDigest b
    network := readNetwork (secBytes b 1), frame := readFrame (secBytes b 2), map := readMap (secBytes b 3)
    vessel := readVessel (secBytes b 4), fusion := readFusion (secBytes b 5), observer := readObserver (secBytes b 6)
    gains := readGains (fld b 4 2) (secBytes b 7), notch := (secAt? b 8).map readNotch, profile := readProfile (secBytes b 9)
    alloc := readAllocation (secBytes b 10), solver := optSec b 11 {} readSolver, budget := optSec b 12 {} readBudget
    lock := readLock (secBytes b 13), time := readTime (secBytes b 14), gnss := optSec b 15 {} readGnss
    schedule := readSchedule (secBytes b 16), osc := readOsc (secBytes b 17), safety := readSafety (secBytes b 18)
    fieldIo := readFieldIo (secBytes b 19), analog := optSec b 20 analogDefault readAnalog, faultMap := optSec b 21 {} readFaultMap }

end Sys2Proof.Machine
end

