-- ==== Sys2Proof/Machine/ImgCheck.lean ====
section
/-! DEFINITION. Verification of an image by Table 3-6 (03_configuration R87, R88, R91) up to step 12: outer structure, digests,
signature, reserved fields, ranges. A check of a section answers the offsets of its offending fields; the least counts (R88). -/

namespace Sys2Proof.Machine

open Sys2Proof.Image

/-- A verdict with its HELD_DETAIL. -/
abbrev Verdict := Nat × Nat

/-- HELD_DETAIL of a field (R88). -/
def detail (id ofs : Nat) : Nat := id % 256 * 2 ^ 24 + ofs % 2 ^ 24

/-- The least of the offsets, if any. -/
def leastOf : List Nat → Option Nat
  | [] => none
  | x :: r => match leastOf r with | none => some x | some y => some (Nat.min x y)

/-- Findings by section in ascending SECTION_ID: the first section with one gives the verdict. -/
def verdictOf (code : Nat) : List (Nat × List Nat) → Option Verdict
  | [] => none
  | (id, os) :: r => match leastOf os with | some o => some (code, detail id o) | none => verdictOf code r

/-- A field with its range: offset, bytes, least, greatest value; it is signed when the least is negative. -/
abbrev FRow := Nat × Nat × Int × Int

/-- The value of a field. -/
def rowVal (b : Bytes) (base : Nat) (r : FRow) : Int :=
  if r.2.2.1 < 0 then fldI b (base + r.1) r.2.1 else (fld b (base + r.1) r.2.1 : Int)

/-- Fields of a block outside their range. -/
def outOf (b : Bytes) (base : Nat) (rows : List FRow) : List Nat :=
  (rows.filter (fun r => let v := rowVal b base r; decide (v < r.2.2.1) || decide (r.2.2.2 < v))).map (fun r => base + r.1)

/-- Fields of a block that are not zero (R85). -/
def notZero (b : Bytes) (base : Nat) (rows : List FRow) : List Nat :=
  (rows.filter (fun r => fld b (base + r.1) r.2.1 ≠ 0)).map (fun r => base + r.1)

/-- An offset offends unless the condition holds. -/
def must (ok : Bool) (o : Nat) : List Nat := if ok then [] else [o]

/-- Index lists joined. -/
def each (n : Nat) (f : Nat → List Nat) : List Nat := (List.range n).flatMap f

def within (lo hi v : Nat) : Bool := decide (lo ≤ v) && decide (v ≤ hi)

def maxU8 : Int := 255
def maxU16 : Int := 65535
def maxU32 : Int := 4294967295
def maxI32 : Int := 2147483647
def minI32 : Int := -2147483648

/-! ### Outer structure: steps 3 to 8 -/

/-- Sections of Table 3-3 that every image carries. -/
def requiredIds : List Nat := [1, 2, 3, 4, 5, 6, 7, 9, 10, 13, 14, 16, 17, 18, 19]

/-- The LENGTH that the layout of a section requires, from its own counts. -/
def lengthOk (b : Bytes) (d : DirEnt) : Bool :=
  let s := slice b d.ofs d.len
  let n := d.len
  if d.id = 1 then n == 32
  else if d.id = 2 then n == 68
  else if d.id = 3 then n % 48 == 0
  else if d.id = 4 then n == 320 + 80 * byteAt s 0
  else if d.id = 5 then n == 192 + 80 * nRefs s
  else if d.id = 6 then n == 32 + 5280 * byteAt s 0
  else if d.id = 7 then n == 512 + 512 * byteAt s 0
  else if d.id = 8 then n == 592
  else if d.id = 9 then n == 352
  else if d.id = 10 then n == 320
  else if d.id = 11 then n == 64
  else if d.id = 12 then n == 16
  else if d.id = 13 then n == 64
  else if d.id = 14 then n == 100
  else if d.id = 15 then n == 32
  else if d.id = 16 then n == 1040 + 16 * fld s 0 2
  else if d.id = 17 then n == 32 + 32 * byteAt s 0
  else if d.id = 18 then n == 96
  else if d.id = 19 then n == 336
  else if d.id = 20 then n == 1856
  else n == 2064

/-- Offset of directory entry `i`. -/
def dirOfs (i : Nat) : Nat := 128 + 16 * i

/-- End of the directory. -/
def dirEnd (b : Bytes) : Nat := dirOfs (secCount b)

/-- Order and bytes between sections: entries in directory order, each from the end of the one before (R83); OFFSET offends where the section
begins wrongly, LENGTH where it ends wrongly (R88). That the bytes before the first section and behind the last are zero as well is the model's
choice, notes/assumptions/31.md. -/
def placedOk (b : Bytes) (limit : Nat) : Nat → Nat → List DirEnt → List Nat
  | _, at_, [] => must (allZero b at_ (limit - at_)) at_
  | i, at_, d :: r =>
    if d.ofs < at_ ∨ limit < d.ofs ∨ d.ofs % 4 ≠ 0 then [dirOfs i + 4]
    else if limit < d.ofs + d.len ∨ d.len % 4 ≠ 0 then [dirOfs i + 8]
    else must (allZero b at_ (d.ofs - at_)) at_ ++ placedOk b limit (i + 1) (d.ofs + d.len) r

/-- Step 6: R83, required sections, reserved and repeated SECTION_IDs, LENGTHs. -/
def sectionsCheck (b : Bytes) : Option Verdict :=
  let ds := directory b
  let idx := enumFrom 0 ds
  let badId := idx.flatMap (fun p => must (within 1 0x15 p.2.id && !((ds.take p.1).any (fun d => d.id == p.2.id))) (dirOfs p.1))
  match leastOf (badId ++ placedOk b (fld b 8 4 - 64) 0 (dirEnd b) ds) with
  | some o => some (0x0008, detail 0 o)
  | none =>
    match requiredIds.find? (fun id => !(ds.any (fun d => d.id == id))) with
    | some id => some (0x0008, detail id 0)
    | none =>
      match sortBy (fun x y => decide (x < y)) ((ds.filter (fun d => !lengthOk b d)).map (·.id)) with
      | id :: _ => some (0x0008, detail id 0)
      | [] => none

/-- Step 7. -/
def crcCheck (b : Bytes) : Option Verdict :=
  match sortBy (fun x y => decide (x < y)) (((directory b).filter (fun d => crc32 (slice b d.ofs d.len) ≠ d.crc)).map (·.id)) with
  | id :: _ => some (0x0005, detail id 0)
  | [] => none

/-- Step 8: the signature against the key of KEY_SLOT; a slot that is unprogrammed or revoked fails (R84). -/
def signatureCheck (keys : List Nat) (b : Bytes) : Option Verdict :=
  let k := byteAt b 15
  let trailer := slice b (fld b 8 4 - 64) 64
  if decide (k < 4) && nth 0 keys k == 1 && Config.sigValid k (imageDigest b) trailer then none else some (0x0006, 0)

/-- Steps 3 to 8; `total` is the length that was staged or read. -/
def outerCheck (keys : List Nat) (b : Bytes) : Option Verdict :=
  let total := fld b 8 4
  if fld b 0 4 ≠ 0x4D49584F then some (0x0002, 0)
  else if fld b 6 2 ≠ 128 then some (0x0002, 6)
  else if crc32 (b.take 124) ≠ fld b 124 4 then some (0x0002, 124)
  else if fld b 4 2 ≠ 2 ∧ fld b 4 2 ≠ 3 then some (0x0003, 4)
  else if total < 512 ∨ 8388608 < total ∨ total % 4 ≠ 0 ∨ b.length ≠ total then some (0x0004, 8)
  else if total - 64 < dirEnd b then some (0x0004, 12)
  else match sectionsCheck b with
    | some v => some v
    | none => match crcCheck b with
      | some v => some v
      | none => signatureCheck keys b

/-! ### Reserved fields: step 9 -/

/-- A reserved field: offset, bytes, and the reserved bits of it, 0 for the whole field. -/
abbrev RRow := Nat × Nat × Nat

/-- Reserved fields that are not zero. -/
def reservedIn (b : Bytes) (base : Nat) (rows : List RRow) : List Nat :=
  (rows.filter (fun r => if r.2.2 = 0 then !allZero b (base + r.1) r.2.1 else decide (Nat.land (fld b (base + r.1) r.2.1) r.2.2 ≠ 0))).map
    (fun r => base + r.1)

/-- Reserved parts of MATCH by KIND (Table 3-16) and of a Channel Map entry (Tables 3-9, 3-15). -/
def entryReserved (b : Bytes) (base : Nat) : List Nat :=
  let k := byteAt b base
  let m : List RRow :=
    if k = 1 then [(13, 7, 0)]
    else if k = 2 then [(19, 1, 0)]
    else if k = 3 then [(10, 2, 0), (18, 2, 0)]
    else if k = 4 then [(8, 4, 0x20000000), (16, 4, 0)]
    else if k = 8 then [(9, 11, 0)]
    else if 5 ≤ k ∧ k ≤ 7 then [(8, 12, 0)]
    else []
  if k = 0 then [] else reservedIn b base ([(4, 2, 0xF000), (6, 2, 0xFF01)] ++ m ++ [(46, 2, 0)])

/-- Reserved fields of a section (R14), but for those of a block that the section marks as all zero, which step 12 judges (R85). In an image of format 2 bit 3 of SEL_EN, PWR_SLOT and the PWR fields of GAINS are reserved too
(07 Table 7-3). -/
def reservedOf (format : Nat) (id : Nat) (b : Bytes) : List Nat :=
  let rows (base : Nat) (rs : List RRow) := reservedIn b base rs
  if id = 1 then rows 0 [(25, 7, 0)]
  else if id = 2 then rows 0 [(1, 1, 0xF0), (3, 1, 0)]
  else if id = 3 then each (b.length / 48) (fun i => entryReserved b (48 * i))
  else if id = 4 then rows 0 [(3, 1, 0), (16, 16, 0)] ++ each (Nat.min 6 (byteAt b 1)) (fun i => rows (32 + 48 * i) [(28, 20, 0)]) ++
    each (byteAt b 0) (fun i => rows (320 + 80 * i) [(43, 1, 0xFC), (74, 6, 0)])
  else if id = 5 then rows 0 [(6, 2, 0), (48, 16, 0)] ++ each 4 (fun i => rows (64 + 32 * i) [(29, 3, 0)]) ++
    each (nRefs b) (fun i => rows (192 + 80 * i) [(2, 1, 0xFC), (72, 8, 0)])
  else if id = 6 then rows 0 [(1, 1, 0xF0), (3, 1, 0), (8, 24, 0)] ++
    each (60 * byteAt b 0) (fun i => if (byteAt b 1).testBit (i / (15 * byteAt b 0)) then rows (32 + 88 * i) [(1, 3, 0)] else [])
  else if id = 7 then rows 0 ([(2, 1, if format = 2 then 0xF8 else 0xF0), (3, 1, 0xF0)] ++ (if format = 2 then [(4, 2, 0)] else []) ++
      [(7, 1, 0)] ++ (if format = 2 then [(18, 1, 0)] else []) ++ [(19, 1, 0), (34, 2, 0), (52, 28, 0)]) ++
    each (byteAt b 0) (fun g => rows (512 + 512 * g) ((if format = 2 then [(20, 1, 0), (21, 1, 0)] else []) ++ [(22, 2, 0), (30, 2, 0)]) ++
      each 12 (fun c => if (byteAt b 3).testBit (c / 3) then rows (512 + 512 * g + 32 + 40 * c) [(1, 3, 0)] else []))
  else if id = 8 then rows 0 [(0, 1, 0xF0), (1, 15, 0)] ++ each 24 (fun i =>
      if (byteAt b 0).testBit (i / 6) = true ∧ byteAt b (16 + 24 * i) ≠ 0 then rows (16 + 24 * i) [(1, 3, 0)] else [])
  else if id = 9 then rows 0 [(1, 3, 0), (24, 8, 0)] ++ each 8 (fun i => if i / 2 < byteAt b 0 then rows (32 + 40 * i) [(36, 4, 0)] else [])
  else if id = 10 then rows 0 [(3, 1, 0), (6, 2, 0), (44, 20, 0)] ++
    each (Nat.min 16 (byteAt b 2)) (fun g => rows (64 + 16 * g) [(0, 4, 0xFF000000), (4, 1, 0xC0), (6, 10, 0)])
  else if id = 11 then rows 0 [(2, 2, 0), (52, 12, 0)]
  else if id = 12 then rows 0 [(5, 1, 0), (12, 4, 0)]
  else if id = 13 then rows 0 [(5, 3, 0), (46, 18, 0)]
  else if id = 14 then rows 0 [(6, 1, 0xFE), (11, 1, 0), (30, 2, 0), (99, 1, 0)]
  else if id = 15 then rows 0 [(17, 1, 0), (24, 8, 0)]
  else if id = 16 then rows 0 [(2, 14, 0)] ++ each 4 (fun c => if byteAt b (16 + 64 * c) = 0 then [] else rows (16 + 64 * c) [(28, 36, 0)] ++
      each (Nat.min 16 (byteAt b (31 + 64 * c))) (fun i => rows (272 + 192 * c + 12 * i) [(0, 4, 0x20000000), (4, 4, 0x20000000), (8, 4, 0)])) ++
    each (fld b 0 2) (fun e => rows (1040 + 16 * e) [(13, 1, 0)])
  else if id = 17 then rows 0 [(1, 3, 0), (22, 10, 0)] ++
    each (byteAt b 0) (fun n => rows (32 + 32 * n) [(11, 1, 0), (12, 4, 0x20000000), (22, 10, 0)])
  else if id = 18 then rows 0 [(1, 3, 0), (6, 26, 0)] ++ each 4 (fun f => rows (32 + 16 * f) [(8, 1, 0xF0), (13, 3, 0)])
  else if id = 19 then rows 0 [(4, 12, 0)] ++ each 32 (fun i => rows (16 + 4 * i) [(1, 1, 0xFE), (2, 2, 0)]) ++
    each 24 (fun o => rows (144 + 8 * o) [(7, 1, 0)])
  else if id = 20 then each 4 (fun g => rows (400 * g) [(1, 3, 0)]) ++ each 16 (fun c => rows (1600 + 16 * c) [(6, 10, 0)])
  else rows 0 [(10, 6, 0)] ++ each 512 (fun i => rows (16 + 4 * i) [(3, 1, 0xFE)])

/-- Section identities in ascending order. -/
def sectionIds : List Nat := [1, 2, 3, 4, 5, 6, 7, 8, 9, 10, 11, 12, 13, 14, 15, 16, 17, 18, 19, 20, 21]

/-- A finding for every section that the image carries. -/
def perSection (b : Bytes) (f : Nat → Bytes → List Nat) : List (Nat × List Nat) :=
  sectionIds.map (fun id => (id, match secAt? b id with | some s => f id s | none => []))

/-- Step 9: the header and directory first, then the sections. -/
def reservedCheck9 (b : Bytes) : Option Verdict :=
  let hdr := reservedIn b 0 [(14, 1, 0xFC), (48, 76, 0)] ++
    each (secCount b) (fun i => reservedIn b (dirOfs i) [(2, 2, 0)])
  verdictOf 0x0007 ((0, hdr) :: perSection b (reservedOf (fld b 4 2)))

/-! ### Variant: steps 10 and 11 -/

/-- Step 10 (R1). -/
def variantCheck (variantN : Bool) (b : Bytes) : Option Verdict :=
  if (byteAt b 14).testBit (if variantN then 1 else 0) then none else some (0x0009, 14)

/-- Step 11: on OX-4800-N no Channel Map entry of KIND 8, no FORMAT 3 reference, no GNSS time source (R1, 06 R154, 14 R397). -/
def gnssCheck (variantN : Bool) (b : Bytes) : Option Verdict :=
  if variantN then
    let m := secBytes b 3
    let f := secBytes b 5
    let t := secBytes b 14
    verdictOf 0x000A
      [(3, each (m.length / 48) (fun i => must (byteAt m (48 * i) != 8) (48 * i))),
       (5, each (nRefs f) (fun i => must (!(byteAt f (192 + 80 * i) == 0 && byteAt f (193 + 80 * i) == 3)) (193 + 80 * i))),
       (14, must (byteAt t 0 != 1) 0 ++ must (byteAt t 1 != 1) 1)]
  else none

/-! ### Counts and ranges: step 12 -/

/-- NETWORK, Table 3-4. -/
def limNetwork (b : Bytes) : List Nat :=
  let n := readNetwork b
  let unicast (a : Nat) : Bool := within 1 223 (a / 2 ^ 24)
  let contiguous (m : Nat) : Bool := let inv := 2 ^ 32 - 1 - m; Nat.land inv (inv + 1) == 0
  must (unicast n.h1Addr) 0 ++ must (contiguous n.h1Mask) 4 ++
  must (unicast n.h2Addr && Nat.land n.h1Addr n.h1Mask != Nat.land n.h2Addr n.h1Mask &&
    Nat.land n.h1Addr n.h2Mask != Nat.land n.h2Addr n.h2Mask) 12 ++
  must (contiguous n.h2Mask) 16 ++ must (decide (1 ≤ n.ctrlMboxMask)) 24

/-- FRAME, Table 1-3. -/
def limFrame (b : Bytes) : List Nat :=
  must (decide (byteAt b 0 ≤ 3) && (byteAt b 1).testBit (byteAt b 0)) 0 ++ outOf b 0 [(1, 1, 1, 15), (2, 1, 0, 4)]

/-- CHANNEL_MAP: entries in use (Table 3-3a). -/
def limMap (format : Nat) (b : Bytes) : List Nat :=
  must (decide (((readMap b).filter (fun e => e.kind ≠ 0)).length ≤ if format = 2 then 2048 else 4096)) 0

/-- A store slot, or none. -/
def slotRows (os : List Nat) (b : Bytes) (base : Nat) : List Nat :=
  os.flatMap (fun o => let v := fld b (base + o) 2; must (decide (v ≤ 4095) || v == 0xFFFF) (base + o))

/-- Bus block, Table 9-4. -/
def limBusRows (pmax : Int) : List FRow := [(12, 4, 0, pmax), (16, 4, 0, pmax), (20, 4, 1, maxI32), (24, 4, 0, pmax)]

def limBusAll : List FRow :=
  [(0, 2, 0, maxU16), (2, 2, 0, maxU16), (4, 2, 0, maxU16), (6, 2, 0, maxU16), (8, 2, 0, maxU16), (10, 2, 0, maxU16), (28, 20, 0, 0)] ++
  limBusRows maxI32

/-- The largest force or moment that a thruster can give on an axis (R265): kinds 0 and 1 reach T_MAX in every direction. -/
def reachOf (t : Thruster) (c : Nat) : Frac :=
  let x : Int := t.posX.natAbs
  let y : Int := t.posY.natAbs
  let rev : Frac := Frac.norm t.revRatio 32768
  let one : Frac := Frac.one
  let side : Frac := Frac.norm (Nat.min t.rudK t.rudMax) 65536
  let big : Frac := Frac.max one rev
  let lever (f : Frac) : Frac := Frac.mul f (Frac.norm 1 1000)
  let u : Frac :=
    if t.kind ≤ 1 then (if c = 2 then ⟨0, 1⟩ else one)
    else if t.kind = 2 then (if c = 0 then ⟨0, 1⟩ else if c = 1 then big else lever (Frac.mul big (Frac.ofInt x)))
    else if t.kind = 3 then (if c = 1 then ⟨0, 1⟩ else if c = 0 then big else lever (Frac.mul big (Frac.ofInt y)))
    else if c = 0 then big else if c = 1 then side
    else lever (Frac.max (Frac.add (Frac.ofInt y) (Frac.mul side (Frac.ofInt x))) (Frac.mul rev (Frac.ofInt y)))
  Frac.mul (Frac.ofNat t.tMax) u

/-- TAU_REF_c is at least the sum of what the thrusters can give (R265). The yaw reach of azimuths, T_MAX · √(x² + y²), is compared by
squares of the whole: it is rounded up to a micrometre of arm. -/
def tauRefOk (ref : Int) (ts : List Thruster) (c : Nat) : Bool :=
  let az : Frac := if c = 2 then
      Frac.sum ((ts.filter (fun t => decide (t.kind ≤ 1))).map (fun t =>
        let q := (t.posX * t.posX + t.posY * t.posY).toNat * 1000000
        let r := isqrt q
        let arm := if r * r = q then r else r + 1
        Frac.norm (t.tMax * arm : Nat) 1000000))
    else ⟨0, 1⟩
  Frac.le (Frac.add az (Frac.sum (ts.map (fun t => reachOf t c)))) (Frac.ofInt ref)

/-- One thruster block, Table 9-5 and R265. -/
def limThruster (nBus nConn : Nat) (b : Bytes) (ts : List Thruster) (i : Nat) : List Nat :=
  let o := 320 + 80 * i
  let t := nth {} ts i
  let az := decide (t.kind ≤ 1)
  let span (f g : Nat) : Nat := (g + 2 ^ 32 - f) % 2 ^ 32
  let sec (k f g : Nat) : Bool := if k ≤ t.nSec then within 1 (2 ^ 31 - 1) (span f g) else f == 0 && g == 0
  outOf b o [(0, 1, 0, 4), (3, 1, 0, 1), (4, 4, -200000, 200000), (8, 4, -200000, 200000), (12, 4, 1, maxI32),
    (16, 2, 0, if az then 0 else 32768), (18, 2, 256, 512), (20, 4, 1, maxU32), (28, 4, 1, maxU32), (36, 4, 1, 1048576),
    (42, 1, 0, if az then 2 else 0)] ++
  must (decide (t.bus < nBus)) (o + 1) ++
  must (decide (t.oscConn < nConn) && !((ts.take i).any (fun x => x.oscConn == t.oscConn))) (o + 2) ++
  slotRows [40] b o ++ must (sec 1 t.sec1From t.sec1To) (o + 44) ++ must (sec 2 t.sec2From t.sec2To) (o + 52) ++
  must (if t.kind = 4 then decide (1 ≤ t.rudK) else t.rudK == 0) (o + 60) ++
  must (if t.kind = 4 then decide (1 ≤ t.rudMax) else t.rudMax == 0) (o + 62) ++
  must (if t.kind = 4 then within 1 (2 ^ 30) t.rudAngle else t.rudAngle == 0) (o + 64) ++
  must (if t.cmdForm = 1 then decide (1 ≤ t.rpmMax) else t.rpmMax == 0) (o + 68) ++ must (az || t.azHoldMag == 0) (o + 72)

/-- VESSEL, Tables 9-3 to 9-5, R263, R265. -/
def limVessel (nConn : Nat) (gains : Option Bytes) (b : Bytes) : List Nat :=
  let v := readVessel b
  let nB := byteAt b 1
  let dl (c : Nat) : Int := match gains with | some g => fldI g (40 + 4 * c) 4 | none => 0
  let ref (c : Nat) : Int := fldI b (4 + 4 * c) 4
  let vars : Nat := v.thrusters.foldl (fun a t => a + (if t.kind = 2 ∨ t.kind = 3 then 1 else 2)) 0
  must (within 1 24 (byteAt b 0) && decide (vars ≤ 48)) 0 ++ outOf b 0 [(1, 1, 1, 6)] ++
  must ([8, 12, 16, 24].contains (byteAt b 2)) 2 ++
  each 3 (fun c => must (decide (1 ≤ ref c) && decide (dl c ≤ ref c) && tauRefOk (ref c) v.thrusters c) (4 + 4 * c)) ++
  each 6 (fun i => let o := 32 + 48 * i
    if i < nB then slotRows [0, 2, 4, 6, 8, 10] b o ++ outOf b o (limBusRows (Int.ofNat (fld b (o + 20) 4))) else notZero b o limBusAll) ++
  each v.thrusters.length (limThruster nB nConn b v.thrusters)

/-- Kind block `k`, Table 6-5: INNOV_GATE and C_DROP_INNOV are 0 for motion and wind. -/
def kindRows (k : Nat) (thr : Int) : List FRow :=
  [(0, 4, 1, maxU32), (4, 4, 1, maxU32), (8, 4, 0, 600000), (12, 2, if k ≤ 1 then 256 else 0, if k ≤ 1 then 4096 else 0),
   (14, 2, 1, 10000), (17, 1, 1, 64), (21, 1, 0, if k ≤ 1 then 255 else 0), (23, 1, 1, 254), (24, 1, thr, 255),
   (25, 1, 0, thr - 1), (26, 1, 1, 255), (27, 1, 1, 16), (28, 1, 1, 255)]

/-- Reference block `i`, Table 6-7, with its place in the order and the slots of Table 6-1. -/
def limRef (b : Bytes) (i : Nat) : List Nat :=
  let o := 192 + 80 * i
  let r := readRef (slice b o 80)
  let k := if i < byteAt b 0 then 0 else if i < byteAt b 0 + byteAt b 1 then 1
    else if i < byteAt b 0 + byteAt b 1 + byteAt b 2 then 2 else 3
  let pos := k == 0
  let internal := pos && r.format == 3
  let nSlots := if internal then 0 else if k = 1 then 1 else if k = 2 then 3 else 2
  let slot (j v : Nat) : List Nat :=
    must (if j < nSlots then decide (v ≤ 4095) || v == 0xFFFF else v == 0xFFFF) (o + 4 + 2 * j)
  let lev (used : Bool) (at_ : Nat) : List Nat :=
    if used then outOf b o [(at_, 4, -200000, 200000), (at_ + 4, 4, -200000, 200000), (at_ + 8, 4, -200000, 200000)]
    else notZero b o [(at_, 4, 0, 0), (at_ + 4, 4, 0, 0), (at_ + 8, 4, 0, 0)]
  let angled := (pos && r.format == 2) || k == 1 || k == 3
  must (r.kind == k) o ++ must (if pos then decide (r.format ≤ 3) else r.format == 0) (o + 1) ++
  must (!r.skewEn || r.slot3 != 0xFFFF) (o + 2) ++ outOf b o [(3, 1, 1, 12)] ++
  slot 0 r.slot0 ++ slot 1 r.slot1 ++ slot 2 r.slot2 ++ slotRows [10] b o ++
  must (if k = 2 then r.sigmaA == 0 else decide (1 ≤ r.sigmaA)) (o + 12) ++ must (k == 3 || r.sigmaB == 0) (o + 16) ++
  lev true 20 ++
  (if pos && r.format == 2 then [] else notZero b o [(32, 4, 0, 0), (36, 4, 0, 0)]) ++
  must (angled || r.angleOfs == 0) (o + 40) ++
  must (if internal then within 1 0xFFFFFFFE r.intMaxAgeUs else r.intMaxAgeUs == 0) (o + 44) ++ lev internal 48 ++ lev internal 60

/-- FUSION, Tables 6-4 to 6-7, R183. -/
def limFusion (b : Bytes) : List Nat :=
  outOf b 0 [(0, 1, 1, 12), (1, 1, 1, 6), (2, 1, 0, 6), (3, 1, 0, 4), (4, 1, 1, 12), (5, 1, 1, 6),
    (8, 8, -90000000000, 90000000000), (16, 8, -180000000000, 180000000000), (24, 4, -100000, 100000), (28, 2, 1, 3600),
    (30, 2, 1, 3600), (32, 4, 10, 100000), (36, 4, 0, 10000)] ++
  each 4 (fun k => outOf b (64 + 32 * k) (kindRows k (byteAt b (64 + 32 * k + 23) : Nat))) ++ each (nRefs b) (limRef b)

/-- Fields of a matrix row with `n` mantissas. -/
def rowFields (n : Nat) : List FRow := (0, 1, -128, 127) :: (1, 3, 0, 0) :: (List.range n).map (fun j => (4 + 4 * j, 4, minI32, maxI32))

/-- OBSERVER, Tables 7-4 and 7-5, R210, R211. -/
def limObserver (gains : Option Bytes) (b : Bytes) : List Nat :=
  let n := byteAt b 0
  must (within 1 32 n && (match gains with | some g => byteAt g 0 == n | none => true)) 0 ++
  outOf b 0 [(1, 1, 1, 15), (2, 1, 0, 1), (4, 4, 1000, 10000000)] ++
  each 4 (fun p => each (15 * n) (fun i =>
    let o := 32 + 1320 * n * p + 88 * i
    if (byteAt b 1).testBit p then outOf b o [(0, 1, -32, 31)] ++ notZero b o [(4, 4, 0, 0), (8, 4, 0, 0), (12, 4, 0, 0)]
    else notZero b o (rowFields 21)))

/-- A pair LO ≤ HI. -/
def ordered (b : Bytes) (o n : Nat) : List Nat := must (decide (fld b o n ≤ fld b (o + n) n)) o

/-- Region block `g`, Table 7-7. -/
def limRegion (format periods : Nat) (b : Bytes) (g : Nat) : List Nat :=
  let o := 512 + 512 * g
  ordered b o 4 ++ ordered b (o + 8) 4 ++ ordered b (o + 16) 2 ++
  (if format = 2 then [] else outOf b o [(20, 1, 0, 1), (21, 1, 0, 1)] ++ ordered b (o + 20) 1) ++
  outOf b o [(24, 2, 0, 16384), (26, 2, 0, 16384), (28, 2, 0, 16384)] ++
  each 4 (fun p => each 3 (fun c =>
    let r := o + 32 + 120 * p + 40 * c
    if periods.testBit p then outOf b r [(0, 1, -32, 31)] else notZero b r (rowFields 9)))

/-- GAINS, Tables 7-6 and 7-7. -/
def limGains (format : Nat) (b : Bytes) : List Nat :=
  let n := byteAt b 0
  outOf b 0 [(0, 1, 1, 32), (1, 1, 0, (n : Int) - 1), (2, 1, 0, 15), (3, 1, 1, 15), (6, 1, 1, 255), (18, 1, 0, 1),
    (30, 2, 1, 10000), (32, 2, 10, 1200), (36, 4, 0, 600000), (40, 4, 1, maxI32), (44, 4, 1, maxI32), (48, 4, 1, maxI32)] ++
  (if format = 2 then [] else slotRows [4] b 0) ++ each n (limRegion format (byteAt b 3) b)

/-- An enabled notch: DC gain 1 within 2⁻²⁴ and no pole of radius above 1 − 2⁻¹⁰ (R211). Coefficients are Q2.30. With
r = 1023/1024 both roots of z² + A1·z + A2 lie within radius r when |A2| ≤ r² and |A1|·r ≤ r² + A2. -/
def notchOk (q : Biquad) : Bool :=
  let one : Int := 1073741824
  let sa := one + q.a1 + q.a2
  let sb := q.b0 + q.b1 + q.b2
  let r2 : Int := 1023 * 1023
  decide (sa ≠ 0) && decide (((sb - sa).natAbs : Int) * 16777216 ≤ (sa.natAbs : Int)) &&
  decide ((q.a2.natAbs : Int) * 1048576 ≤ r2 * one) &&
  decide ((q.a1.natAbs : Int) * 1023 * 1024 ≤ r2 * one + q.a2 * 1048576)

/-- NOTCH, Table 7-8, R210, R211. -/
def limNotch (b : Bytes) : List Nat :=
  outOf b 0 [(0, 1, 1, 15)] ++
  each 24 (fun i =>
    let o := 16 + 24 * i
    let q := readBiquad (slice b o 24)
    let rest : List FRow := [(1, 3, 0, 0), (4, 4, 0, 0), (8, 4, 0, 0), (12, 4, 0, 0), (16, 4, 0, 0), (20, 4, 0, 0)]
    if (byteAt b 0).testBit (i / 6) then
      (if q.en = 0 then notZero b o rest else if q.en = 1 then must (notchOk q) (o + 4) else [o])
    else notZero b o ((0, 1, 0, 255) :: rest))

/-- A profile block, Table 8-7, R235. `v`, `a`: greatest speed and acceleration. -/
def limProf (v a : Int) (b : Bytes) (o : Nat) : List Nat :=
  let p := readProf (slice b o 40)
  outOf b o [(0, 4, 0, v), (4, 4, 0, v), (8, 4, 1, v), (12, 4, 0, v), (16, 4, 1, a), (20, 4, 1, a), (24, 4, 1, a), (28, 4, 1, a),
    (32, 4, 1, a)] ++
  must (decide (p.vStart ≤ p.vCruise) && decide (p.vStart ≤ p.vBreak)) o ++ must (decide (p.vBreak ≤ p.vCruise)) (o + 4) ++
  must (decide (p.vStop ≤ p.vCruise) && decide (p.vStop ≤ p.vBreak)) (o + 12) ++
  must (decide (maxL [p.a1, p.a2, p.d2, p.d1] ≤ p.stopDec)) (o + 32)

/-- The fields of a profile block, for a set that is unused. -/
def profFields : List FRow := (List.range 10).map (fun j => (4 * j, 4, 0, maxU32))

/-- PROFILE, Tables 8-6 and 8-7, R235. -/
def limProfile (b : Bytes) : List Nat :=
  outOf b 0 [(0, 1, 1, 4), (4, 4, 1, 100000000), (8, 4, 0, maxI32), (12, 4, 0, maxI32), (16, 4, 0, maxI32), (20, 2, 100, 60000),
    (22, 2, 100, (fld b 20 2 : Nat))] ++
  each 4 (fun s => if s < byteAt b 0 then limProf 20000 10000 b (32 + 80 * s) ++ limProf 134217728 67108864 b (72 + 80 * s)
    else notZero b (32 + 80 * s) profFields ++ notZero b (72 + 80 * s) profFields)

/-- ALLOCATION, Tables 9-6 and 9-7, R264, R265. -/
def limAllocation (b : Bytes) : List Nat :=
  let n := byteAt b 2
  outOf b 0 [(0, 1, 1, 16), (1, 1, 0, 8), (2, 1, 0, 16), (4, 2, 250, 2000), (8, 4, 1, maxU32), (12, 4, 1, maxU32), (16, 4, 1, maxU32),
    (24, 4, 0, 600000), (40, 4, 0, 600000)] ++
  each 16 (fun g =>
    let o := 64 + 16 * g
    if g < n then
      must (fld b o 4 != 0 || byteAt b (o + 4) != 0) o ++
      must (within 1 n (byteAt b (o + 5)) && !((List.range g).any (fun h => byteAt b (69 + 16 * h) == byteAt b (o + 5)))) (o + 5)
    else notZero b o [(0, 4, 0, 0), (4, 1, 0, 0), (5, 1, 0, 0), (6, 10, 0, 0)])

/-- SOLVER, Table 10-3, R299. -/
def limSolver (b : Bytes) : List Nat :=
  outOf b 0 [(0, 1, 4, 24), (4, 4, 1, 2048), (8, 4, 1, (fld b 12 4 : Nat)), (12, 4, (fld b 8 4 : Nat), 2097152),
    (16, 4, 1, (fld b 20 4 : Nat)), (20, 4, (fld b 16 4 : Nat), 65536), (24, 4, 1, 65536), (28, 4, 0, 60000), (32, 4, 0, 600000),
    (48, 4, 0, 600000)] ++ must (decide (byteAt b 1 ≤ 8) || byteAt b 1 == 0xFF) 1

/-- BUDGET, Table 11-4, R317. -/
def limBudget (b : Bytes) : List Nat :=
  outOf b 0 [(0, 2, 120, 320), (2, 1, 1, 16), (3, 1, 50, 80), (4, 1, 1, 16), (6, 2, 0, 50), (8, 4, 100, 60000)]

/-- LOCK, Table 12-14, R326, R352. -/
def limLock (serial : Bytes) (fio : Bytes) (b : Bytes) : List Nat :=
  let l := readLock b
  let wb (d : Nat) : Bool := (byteAt fio (17 + 4 * (d - 1))).testBit 0
  let zero12 : Bytes := zeros 12
  outOf b 0 [(0, 1, 1, 3), (1, 1, 2, 50), (44, 2, 0, 365)] ++
  each 3 (fun s => let d := nth 0 l.peerMokDi s
    must (if s < l.nSlots then
        decide (d ≤ 32) && (decide (l.nSlots ≤ 1) || (decide (1 ≤ d) && !((l.peerMokDi.take s).contains d) && wb d))
      else d == 0) (2 + s)) ++
  must ((l.slotSerial.take l.nSlots).contains (padTo 12 serial)) 8 ++
  each 3 (fun s => let x := nth [] l.slotSerial s
    must (if s < l.nSlots then x != zero12 && x.all (fun c => decide (c.toNat < 128)) && !((l.slotSerial.take s).contains x)
      else x == zero12) (8 + 12 * s))

/-- TIME, Table 14-10, R397. `tick`: TICK_TRIG of FRAME, `slots`: N_SLOTS of LOCK. -/
def limTime (tick slots : Nat) (b : Bytes) : List Nat :=
  outOf b 0 [(0, 1, 0, 2), (2, 1, 0, 2), (3, 1, 0, 127), (4, 1, 0, 1), (5, 1, 0, 1), (9, 1, 0, 1), (10, 1, 0, 1), (12, 4, 100, 100000),
    (16, 2, 4, 255), (18, 2, 0, 255), (20, 4, -100000, 100000), (24, 4, -100000, 100000), (28, 2, 1, 1000), (32, 4, 1, 1000000)] ++
  must (byteAt b 0 == 0 || decide (slots ≤ 1)) 0 ++
  must ((decide (byteAt b 1 ≤ 1) || byteAt b 1 == 0xFF) && byteAt b 1 != byteAt b 0) 1 ++
  each 4 (fun n =>
    let o := 36 + 12 * n
    let per := fld b o 4
    let ph := fld b (o + 4) 4
    let w := fld b (o + 8) 4
    if per = 0 then must (ph == 0) (o + 4) ++ must (w == 0) (o + 8)
    else must (decide (per ≤ 1000000000) && tick != n + 1) o ++ must (ph % 4 == 0 && decide (ph < per * 1000)) (o + 4) ++
      must (w % 4 == 0 && decide (1000 ≤ w) && decide (w < per * 1000)) (o + 8)) ++
  each 15 (fun c => let v := byteAt b (84 + c)
    must (if v / 64 = 0 then v % 64 == 0 else within 1 32 (v % 64)) (84 + c))

/-- GNSS, Table 15-7, R417. -/
def limGnss (b : Bytes) : List Nat :=
  let hz := byteAt b 0
  let sel := byteAt b 16
  must ([1, 2, 5, 10].contains hz) 0 ++
  outOf b 0 [(1, 1, 0, 30), (2, 2, 10, 500), (8, 1, 0, 1), (9, 1, 1, 60), (10, 2, 10, 600), (12, 2, (fld b 10 2 : Nat), 900),
    (14, 2, 1, 400), (16, 1, 0, 3)] ++
  must (decide (fld b 4 4 * hz < 1000000)) 4 ++ must (if sel = 0 then fld b 18 2 == 0 else decide (1 ≤ fld b 18 2)) 18 ++
  must (sel != 0 || fld b 20 4 == 0) 20

/-- A data length of CAN, or of CAN FD. -/
def canLenOk (idWord len : Nat) : Bool :=
  if idWord.testBit 30 then decide (len ≤ 8) || [12, 16, 20, 24, 32, 48, 64].contains len else decide (len ≤ 8)

/-- Fields of a controller block (Table 16-3), for one in MODE 0. -/
def ctrlFields : List FRow :=
  [(1, 1, 0, 0), (2, 1, 0, 0), (3, 1, 0, 0), (4, 1, 0, 0), (5, 1, 0, 0), (6, 2, 0, 0), (8, 1, 0, 0), (9, 1, 0, 0), (10, 1, 0, 0),
   (11, 1, 0, 0), (12, 1, 0, 0), (13, 1, 0, 0), (14, 1, 0, 0), (15, 1, 0, 0), (16, 4, 0, 0), (20, 1, 0, 0), (21, 1, 0, 0),
   (22, 2, 0, 0), (24, 4, 0, 0), (28, 36, 0, 0)]

/-- Fields of a filter entry, for one that is unused. -/
def filterFields : List FRow := [(0, 4, 0, 0), (4, 4, 0, 0), (8, 4, 0, 0)]

/-- Version at which the SAFE_STATE of a controller runs (17 R458). -/
def imgSafeVer (format : Nat) (o : Image.Osc) (c : Nat) : Nat :=
  if format = 2 then 1 else if o.conns.any (fun q => q.safeCtrl == c && q.verMax == 1) then 1 else 2

/-- Controller block `c`, Table 16-3, R421, R422, R437, 17 R458. -/
def limCtrl (format : Nat) (osc : Image.Osc) (b : Bytes) (c : Nat) : List Nat :=
  let o := 16 + 64 * c
  let k := readCtrl b c
  let nq := k.nbrp * (1 + k.ntseg1 + k.ntseg2)
  let dq := k.dbrp * (1 + k.dtseg1 + k.dtseg2)
  let fd := k.fdEn == 1
  let z : List FRow := [(9, 1, 0, 0), (10, 1, 0, 0), (11, 1, 0, 0), (12, 1, 0, 0)]
  let filt (i : Nat) : Nat := 272 + 192 * c + 12 * i
  if k.mode = 0 then
    notZero b o ctrlFields ++ each 16 (fun i => notZero b (filt i) filterFields)
  else
    outOf b o [(0, 1, 0, 2), (1, 1, 0, 1), (2, 1, 0, 1), (3, 1, 0, 1), (4, 1, 1, 32), (5, 1, 1, 128), (6, 2, 2, 256), (8, 1, 2, 128),
      (13, 1, 0, if k.tdcEn = 0 then 0 else 127), (15, 1, 0, 16), (21, 1, 0, 1), (22, 2, 0, 10000), (24, 4, 0, 39999)] ++
    (if fd then outOf b o [(9, 1, 1, 32), (10, 1, 1, 32), (11, 1, 1, 16), (12, 1, 1, 16)] else notZero b o z) ++
    must (k.tdcEn == (if fd ∧ dq < 80 then 1 else k.tdcEn) && (fd || k.tdcEn == 0)) (o + 3) ++
    must (within 80 640 nq) (o + 4) ++ must (decide (k.nsjw ≤ k.ntseg2)) (o + 5) ++
    must (!fd || (decide (10 ≤ dq) && decide (dq ≤ nq))) (o + 9) ++ must (!fd || decide (k.dsjw ≤ k.dtseg2)) (o + 12) ++
    must ([1, 2, 4, 8, 16].contains k.nCycles) (o + 14) ++
    must (canLenOk k.safeId k.safeLen && (k.safeLen == 0 || decide ((if imgSafeVer format osc c = 2 then 32 else 30) ≤ k.safeLen))) (o + 20) ++
    each 16 (fun i => if i < byteAt b (o + 15) then [] else notZero b (filt i) filterFields)

/-- SCHEDULE, Tables 16-3 and 16-4, R426, R432, R437. -/
def limSchedule (format : Nat) (osc : Image.Osc) (b : Bytes) : List Nat :=
  let n := fld b 0 2
  let slots := (readSchedule b).slots
  must (decide (n ≤ 256) && [0, 1, 2, 3].all (fun c => decide ((slots.filter (fun s => s.ctrl == c)).length ≤ 64))) 0 ++
  each 4 (limCtrl format osc b) ++
  each n (fun e =>
    let o := 1040 + 16 * e
    let s := readSlot (slice b o 16)
    let k := readCtrl b s.ctrl
    let v2 := (nth {} osc.conns s.conn).verMax == 2
    let need := if s.kind = 1 then (if v2 then 40 else 38) else (if v2 then 24 else 22)
    outOf b o [(0, 1, 0, 3), (1, 1, 1, 2), (2, 1, 0, 63), (3, 1, 0, 1), (4, 2, 0, 39999), (6, 2, 1, 1000)] ++
    must (decide (s.conn < osc.conns.length)) (o + 2) ++ must (canLenOk s.txId s.len && decide (need ≤ s.len)) (o + 12) ++
    must (k.mode != 1 || decide (s.cycleMask < 2 ^ k.nCycles)) (o + 14))

/-- The longest frame period that MODES_ALLOWED permits, in ms. -/
def longestMs (allowed : Nat) : Nat :=
  if allowed.testBit 3 then 40 else if allowed.testBit 2 then 20 else if allowed.testBit 1 then 10 else 5

/-- OSC, Table 17-8, R466. -/
def limOsc (format lease allowed : Nat) (sched : Schedule) (b : Bytes) : List Nat :=
  let o := readOsc b
  let bound := (lease + 3) * longestMs allowed
  outOf b 0 [(0, 1, 0, 64), (20, 2, 10, 2000)] ++
  each 4 (fun c => let id := nth 0 o.safeConnId c
    let sl := (nth {} sched.ctrls c).safeLen
    must ((if sl = 0 then id == 0 else decide (1 ≤ id)) && (sl == 0 || imgSafeVer format o c == 2 || decide (id ≤ 65535))) (4 + 4 * c)) ++
  must (decide (bound < o.safeTExpMs)) 20 ++
  each o.conns.length (fun n =>
    let q := nth {} o.conns n
    let before := o.conns.take n
    let at_ := 32 + 32 * n
    let can := decide (q.ctrl < 4)
    outOf b at_ [(0, 1, 0, 4), (1, 1, 1, if format = 2 then 1 else 2), (2, 2, 10, 2000), (4, 4, 1, maxU32), (8, 2, 1, maxU16),
      (10, 1, 0, 3)] ++
    must (decide (bound < q.tExpMs)) (at_ + 2) ++ must (!(before.any (fun x => x.connId == q.connId))) (at_ + 4) ++
    must (!(before.any (fun x => x.connId16 == q.connId16))) (at_ + 8) ++ must (!can || q.safeCtrl == q.ctrl) (at_ + 10) ++
    must (if can then !(before.any (fun x => decide (x.ctrl < 4) && x.rxId == q.rxId)) else q.rxId == 0) (at_ + 12) ++
    must (!can || q.dstAddr == 0) (at_ + 16) ++ must (!can || q.dstPort == 0) (at_ + 20))

/-- SAFETY, Table 17-7, R465. -/
def limSafety (nThr : Nat) (peerMok : List Nat) (b : Bytes) : List Nat :=
  let fs := (readSafety b).funcs
  let mok (d : Nat) : Bool := d ≠ 0 && peerMok.contains d
  outOf b 0 [(0, 1, 0, 4), (4, 2, 0, 3650)] ++
  each (Nat.min 4 (byteAt b 0)) (fun i =>
    let f := nth {} fs i
    let before := fs.take i
    let o := 32 + 16 * i
    outOf b o [(0, 1, 1, 2), (1, 1, 1, 4), (2, 1, 0, 1), (3, 1, 1, 32), (9, 1, 0, 1), (10, 2, 10, 500), (12, 1, 0, 32)] ++
    must (f.fkind != 2 || !(before.any (fun x => x.fkind == 2))) o ++ must (!(before.any (fun x => x.pair == f.pair))) (o + 1) ++
    must (!mok f.resetDi) (o + 3) ++
    must (if f.fkind = 2 then f.thrMask == 0
      else decide (f.thrMask < 2 ^ nThr) && before.all (fun x => Nat.land x.thrMask f.thrMask == 0)) (o + 4) ++
    must (before.all (fun x => Nat.land x.soMask f.soMask == 0)) (o + 8) ++ must (!mok f.edmDi) (o + 12))

/-- FIELD_IO, Tables 18-4 to 18-6, R486. -/
def limFieldIo (peerMok capSrc : List Nat) (b : Bytes) : List Nat :=
  let outs := (readFieldIo b).outputs
  slotRows [0, 2] b 0 ++
  each 32 (fun i =>
    let o := 16 + 4 * i
    outOf b o [(0, 1, 1, if capSrc.any (fun v => v / 64 ≠ 0 && v % 64 == i + 1) then 16 else 64)] ++
    must (!(peerMok.contains (i + 1)) || (byteAt b (o + 1)).testBit 0) (o + 1)) ++
  each 24 (fun i =>
    let o := 144 + 8 * i
    let q := nth {} outs i
    outOf b o [(0, 1, 0, 2), (1, 1, 0, 1), (2, 1, 0, if q.src = 1 then 2 else 0), (3, 1, 0, 11), (6, 1, 1, 100),
      (4, 2, 0, if q.src = 0 then 0 else if q.src = 1 then 4095 else 5)] ++
    must (!(((outs.take i).drop (i / 12 * 12)).any (fun x => x.sagRank == q.sagRank))) (o + 3))

/-- ANALOG, Tables 5-3 and 5-4, R132, R133, R147. -/
def limAnalog (b : Bytes) : List Nat :=
  let tapOk (n : Nat) : Bool := n == 0 || [11, 15, 19, 23, 27, 31, 35, 39, 43, 47].contains n
  each 4 (fun g =>
    let o := 400 * g
    let st := byteAt b o
    outOf b o [(0, 1, 2, 8), (4, 4, 0, 4999996)] ++ must (fld b (o + 4) 4 % 4 == 0) (o + 4) ++
    each 8 (fun s =>
      let n := byteAt b (o + 8 + s)
      let k := if n = 0 ∨ n < 11 then 0 else (n + 1) / 4
      let c := o + 16 + 48 * s
      let sum := sumI (manyI b c 4 k)
      must (if s < st then tapOk n else n == 0) (o + 8 + s) ++
      must (k == 0 || decide ((sum - 536870912).natAbs ≤ 128)) c ++
      each 12 (fun i => if i < k then [] else notZero b c [(4 * i, 4, 0, 0)]))) ++
  each 16 (fun c =>
    let o := 1600 + 16 * c
    let dc := byteAt b (o + 3)
    let fz := byteAt b (o + 5)
    outOf b o [(0, 1, 0, 1), (1, 1, 0, 2), (2, 1, 0, 2), (3, 1, 0, 1), (4, 1, if dc = 0 then 0 else 4, if dc = 0 then 0 else 20)] ++
    must (if dc = 0 then fz == 0 else decide (fz ≤ 32) || fz == 0xFF) (o + 5))

/-- Codes of faults that an entry of FAULT_MAP may not map directly (R509). -/
def noReact (code : Nat) : Bool := code == 0x0C13 || code == 0x1114 || code == 0x1312 || within 0x1110 0x1117 code

/-- FAULT_MAP, Tables 19-8 and 19-9, R509. `known`: codes that name a fault. -/
def limFaultMap (known : Nat → Bool) (b : Bytes) : List Nat :=
  outOf b 0 [(0, 1, 1, 16), (1, 1, 1, 4), (2, 1, 0, 3), (3, 1, 0, 1), (4, 4, 100, 600000), (8, 2, 1, 65535)] ++
  each 512 (fun i =>
    let o := 16 + 4 * i
    let code := 256 * (i / 16) + 0x10 + i % 16
    if known code then
      must (decide (byteAt b o ≤ 3) || byteAt b o == 0xFF) o ++ must (decide (byteAt b (o + 1) ≤ 31) || byteAt b (o + 1) == 0xFF) (o + 1) ++
      must (decide (byteAt b (o + 2) ≤ 5) && (byteAt b (o + 2) == 0 || !noReact code)) (o + 2)
    else must (byteAt b o == 0xFF) o ++ must (byteAt b (o + 1) == 0xFF) (o + 1) ++ must (byteAt b (o + 2) == 0) (o + 2) ++
      must (byteAt b (o + 3) == 0) (o + 3))

/-- Step 12 for one section. -/
def limitsOf (serial : Bytes) (known : Nat → Bool) (img : Bytes) (id : Nat) (b : Bytes) : List Nat :=
  let format := fld img 4 2
  let osc := readOsc (secBytes img 17)
  let lock := readLock (secBytes img 13)
  let peers := if lock.nSlots ≤ 1 then [] else (lock.peerMokDi.take lock.nSlots).filter (· ≠ 0)
  if id = 1 then limNetwork b
  else if id = 2 then limFrame b
  else if id = 3 then limMap format b
  else if id = 4 then limVessel osc.conns.length (secAt? img 7) b
  else if id = 5 then limFusion b
  else if id = 6 then limObserver (secAt? img 7) b
  else if id = 7 then limGains format b
  else if id = 8 then limNotch b
  else if id = 9 then limProfile b
  else if id = 10 then limAllocation b
  else if id = 11 then limSolver b
  else if id = 12 then limBudget b
  else if id = 13 then limLock serial (secBytes img 19) b
  else if id = 14 then limTime (byteAt (secBytes img 2) 2) lock.nSlots b
  else if id = 15 then limGnss b
  else if id = 16 then limSchedule format osc b
  else if id = 17 then limOsc format lock.leaseLen (byteAt (secBytes img 2) 1) (readSchedule (secBytes img 16)) b
  else if id = 18 then limSafety (byteAt (secBytes img 4) 0) peers b
  else if id = 19 then limFieldIo peers (readTime (secBytes img 14)).capSrc b
  else if id = 20 then limAnalog b
  else limFaultMap known b

/-- Step 12 (R91, Table 3-8). -/
def limitsCheck (serial : Bytes) (known : Nat → Bool) (b : Bytes) : Option Verdict :=
  verdictOf 0x0011 (perSection b (limitsOf serial known b))

end Sys2Proof.Machine
end

