-- ==== Sys2Proof/Machine/ImgVerify.lean ====
section
/-! DEFINITION. Verification of an image by Table 3-6, steps 13 to 19, and the whole order (03_configuration R87, R100; 01_frame R22, R34,
R43; 07 R210; 16_can R423, R431 to R434). -/

namespace Sys2Proof.Machine

open Sys2Proof.Image

/-! ### Steps 13 and 14 -/

/-- Minimum budgets of Table 1-2 in µs. -/
def phaseMin : List Nat := [150, 300, 300, 200, 1500, 250, 200, 50]

/-- Step 13 (R22): each phase at or above its minimum, the budgets of a period sum to it. -/
def phasesCheck (b : Bytes) : Option Verdict :=
  let f := secBytes b 2
  verdictOf 0x000B [(2, each 4 (fun p =>
    let q := many f (4 + 16 * p) 2 8
    each 8 (fun i => must (decide (nth 0 phaseMin i ≤ nth 0 q i)) (4 + 16 * p + 2 * i)) ++
    must (q.foldl (· + ·) 0 == 5000 * 2 ^ p) (4 + 16 * p)))]

/-- Every permitted period has its tables. -/
def periodsOk (allowed periods : Nat) : Bool := (List.range 4).all (fun p => !allowed.testBit p || periods.testBit p)

/-- Step 14 (R34, 07 R210). -/
def modeTablesCheck (b : Bytes) : Option Verdict :=
  let allowed := byteAt (secBytes b 2) 1
  verdictOf 0x000C
    [(6, must (periodsOk allowed (byteAt (secBytes b 6) 1)) 1), (7, must (periodsOk allowed (byteAt (secBytes b 7) 3)) 3),
     (8, match secAt? b 8 with | some n => must (periodsOk allowed (byteAt n 0)) 0 | none => [])]

/-! ### Step 15: placement of slots. Times in units of 12.5 ns, 80 to a µs -/

/-- Worst-case duration of a frame (16 R431, Table 16-2). -/
def frameUnits (k : Ctrl) (idWord n : Nat) : Nat :=
  let nq := k.nbrp * (1 + k.ntseg1 + k.ntseg2)
  let dq := if idWord.testBit 29 then k.dbrp * (1 + k.dtseg1 + k.dtseg2) else nq
  let ext := idWord.testBit 31
  if idWord.testBit 30 then
    let lf := if n ≤ 16 then 23 else 28
    (if ext then 57 else 34) * nq + (9 + 8 * n + (5 + 8 * n) / 4 + lf) * dq
  else (if ext then 67 + 8 * n + (53 + 8 * n) / 4 else 47 + 8 * n + (33 + 8 * n) / 4) * nq

/-- An occupied stretch on a controller: start, end, cycles. -/
abbrev Occ := Nat × Nat × Nat

/-- Two stretches overlap in a cycle in which both are active; touching ones do not. -/
def overlap (x y : Occ) : Bool := Nat.land x.2.2 y.2.2 != 0 && decide (x.1 < y.2.1) && decide (y.1 < x.2.1)

/-- The occupancy of a slot in period `p` (R432). -/
def occOf (k : Ctrl) (p5 : Nat) (s : Image.Slot) : Occ :=
  let st := 80 * ((if s.ref = 0 then 0 else p5) + s.ofsUs)
  (st, st + 80 * s.windowUs + frameUnits k s.txId s.len, s.cycleMask % 2 ^ k.nCycles)

/-- The safety window of a controller in period `p` (R433, R434). -/
def safeOcc (k : Ctrl) (p5 : Nat) : Option Occ :=
  if k.mode = 1 ∧ k.safeLen ≠ 0 then
    let st := 80 * ((if k.safeRef = 0 then 0 else p5) + k.safeOfsUs)
    some (st, st + 48000, 0xFFFF)
  else none

/-- Placement of the slots and safety windows in one period. -/
def placePeriod (sched : Schedule) (budgets : List Nat) (period : Nat) : List Nat :=
  let p5 := (budgets.take 5).foldl (· + ·) 0
  let p5End := 80 * (p5 + nth 0 budgets 5)
  let tick := 80 * period
  each 4 (fun c =>
    let k := nth {} sched.ctrls c
    match safeOcc k p5 with
    | some w => must (decide (w.2.1 ≤ tick) && decide (frameUnits k k.safeId k.safeLen ≤ 48000)) (16 + 64 * c + 24)
    | none => []) ++
  each sched.slots.length (fun e =>
    let s := nth {} sched.slots e
    let k := nth {} sched.ctrls s.ctrl
    let o := occOf k p5 s
    let earlier := ((sched.slots.take e).filter (fun x => x.ctrl == s.ctrl)).map (occOf k p5)
    let clash := earlier.any (overlap o) || (match safeOcc k p5 with | some w => overlap o w | none => false)
    must ((s.kind != 1 || (decide (80 * (p5 + 40) ≤ o.1) && decide (o.2.1 ≤ p5End))) && decide (o.2.1 ≤ tick) && !clash) (1044 + 16 * e))

/-- The KIND 1 slots of a connection are active exactly once in every cycle of its controller (R432); a UDP connection has none (17
R464). -/
def covered (sched : Schedule) (conn : Nat) (q : Conn) : Bool :=
  4 ≤ q.ctrl ||
    (List.range (Nat.max 1 (nth {} sched.ctrls q.ctrl).nCycles)).all (fun cyc =>
      (sched.slots.filter (fun s => s.kind == 1 && s.conn == conn && s.cycleMask.testBit cyc)).length == 1)

/-- Step 15 (R43, R423, R432, R434). -/
def placementCheck (b : Bytes) : Option Verdict :=
  let f := readFrame (secBytes b 2)
  let v := readVessel (secBytes b 4)
  let sched := readSchedule (secBytes b 16)
  let osc := readOsc (secBytes b 17)
  verdictOf 0x000D
    [(4, each v.thrusters.length (fun i =>
        let c := (nth {} v.thrusters i).oscConn
        must (covered sched c (nth {} osc.conns c)) (322 + 80 * i))),
     (16, each sched.slots.length (fun e =>
        let s := nth {} sched.slots e
        must ((nth {} sched.ctrls s.ctrl).mode == 1 && (nth {} osc.conns s.conn).ctrl == s.ctrl) (1040 + 16 * e)) ++
      each 4 (fun p => if f.modesAllowed.testBit p then placePeriod sched (nth [] f.phaseUs p) (5000 * 2 ^ p) else []))]

/-! ### Steps 16 and 17: the Channel Map -/

/-- PORT by KIND (Table 3-9). -/
def portOk (e : Entry) : Bool :=
  if e.kind = 1 then within 1 8 e.port
  else if e.kind = 2 ∨ e.kind = 3 then within 1 3 e.port
  else if e.kind = 4 then within 1 4 e.port
  else if e.kind = 5 then within 1 16 e.port
  else if e.kind = 6 then within 1 32 e.port
  else if e.kind = 7 then decide (e.port ≤ 15)
  else
    let q := byteAt e.mtch 0
    if q = 6 then e.port == 0 else if q = 7 then decide (e.port ≤ 32) else within 1 32 e.port

/-- DECODE, FIELD and WIDTH by KIND (Tables 3-9, 3-14, R542). -/
def decodeOk (e : Entry) : Bool :=
  if e.kind ≤ 2 then within 1 5 e.decode && decide (e.width ≤ 9)
  else if e.kind ≤ 4 then within 16 21 e.decode && within 1 64 e.width && (decide (e.decode ≤ 19) || e.width == 32)
  else e.decode == 32 && e.field == 0 && e.width == 0

/-- DEST_TYPE as the kind and the quantity require (04 R116, R117; 15 R404, Table 15-2). -/
def destOk (e : Entry) : Bool :=
  if e.kind = 6 then e.destType == 4
  else if e.kind = 7 then e.destType == 2
  else if e.kind = 8 then
    let q := byteAt e.mtch 0
    if q = 1 then e.destType == 0
    else if q = 3 ∨ q = 5 ∨ q = 7 then e.destType == 1 else e.destType == 2
  else decide (e.destType ≤ 4)

/-- MATCH by KIND (Table 3-16). -/
def matchOk (e : Entry) : Bool :=
  if e.kind = 1 then (e.mtch.take 5).all (fun c => decide (c.toNat < 128))
  else if e.kind = 2 then (e.mtch.take 11).all (fun c => decide (c.toNat < 128))
  else if e.kind = 8 then decide (byteAt e.mtch 0 ≤ 7) else true

/-- QPOL (Table 3-15, R99, 04 R121). -/
def qpolOk (e : Entry) : Bool :=
  (!e.rangeEn || decide (e.destType ≤ 2)) && (!e.srcqEn || e.qref != 0xFFFF) && (!e.holdoverSrc || e.srcqEn) &&
  (!e.unsettledIn || e.kind == 5) && decide (e.staleAct ≤ 1) && (!e.cksumReq || decide (e.kind ≤ 2))

/-- An entry valid by Table 3-9; an unused one is all zero (R98). `enabled`: the analog channel of a KIND 5 entry is in use (05 R147). -/
def entryOk (enabled : Nat → Bool) (b : Bytes) : Bool :=
  let e := readEntry b
  if e.kind = 0 then allZero b 0 48
  else decide (e.kind ≤ 8) && portOk e && decodeOk e && destOk e && matchOk e && qpolOk e && decide (-32 ≤ e.gainE) &&
    decide (e.gainE ≤ 31) && decide (e.limLo ≤ e.limHi) && decide (e.maxAgeUs ≤ 0xFFFFFFFE) &&
    (decide (e.qref ≤ 4095) || e.qref == 0xFFFF) && (e.kind != 5 || enabled e.port)

/-- The index of the first entry that does not satisfy a condition. -/
def firstBad (n : Nat) (ok : Nat → Bool) : Option Nat := (List.range n).find? (fun i => !ok i)

/-- A verdict that names a Channel Map entry (R88). -/
def entryVerdict (code : Nat) : Option Nat → Option Verdict
  | some i => some (code, detail 3 i)
  | none => none

/-- Step 16. -/
def mapCheck (b : Bytes) : Option Verdict :=
  let m := secBytes b 3
  let a := secBytes b 20
  entryVerdict 0x000E (firstBad (m.length / 48) (fun i => entryOk (fun c => byteAt a (1600 + 16 * (c - 1)) == 1) (slice m (48 * i) 48)))

/-- Step 17 (R100). -/
def destCheck (b : Bytes) : Option Verdict :=
  let es := readMap (secBytes b 3)
  entryVerdict 0x000F (firstBad es.length (fun i =>
    let e := nth {} es i
    let t := nth {} es e.qref
    e.kind == 0 ||
      (!((es.take i).any (fun x => x.kind != 0 && x.dest == e.dest)) &&
        (e.qref == 0xFFFF || (decide (e.qref < es.length) && t.kind == e.kind && t.port == e.port && t.mtch == e.mtch)))))

/-! ### Steps 18 and 19 -/

/-- A slot is filled by an entry of one of the DEST_TYPEs, with MAX_AGE_US not 0. -/
def filledBy (es : List Entry) (types : List Nat) (slot : Nat) : Bool :=
  es.any (fun e => e.kind != 0 && e.dest == slot && types.contains e.destType && e.maxAgeUs != 0)

/-- As `filledBy`, or no slot named. -/
def noneOr (es : List Entry) (types : List Nat) (slot : Nat) : Bool := slot == 0xFFFF || filledBy es types slot

/-- DEST_TYPEs that Table 6-1 gives the value slots of a reference. -/
def refTypes (r : Ref) : List Nat :=
  if r.kind = 0 then (if r.format = 0 then [2, 2] else if r.format = 1 then [0, 0] else if r.format = 2 then [0, 3] else [])
  else if r.kind = 1 then [3] else if r.kind = 2 then [3, 3, 0] else [0, 3]

/-- Step 18. -/
def bindingCheck (b : Bytes) : Option Verdict :=
  let es := readMap (secBytes b 3)
  let v := secBytes b 4
  let f := secBytes b 5
  let io := secBytes b 19
  let g := readGains (fld b 4 2) (secBytes b 7)
  verdictOf 0x0010
    [(4, each (byteAt v 1) (fun i => [0, 2, 4, 6, 8, 10].flatMap (fun o =>
          must (noneOr es [if o = 10 then 4 else 0] (fld v (32 + 48 * i + o) 2)) (32 + 48 * i + o))) ++
        each (byteAt v 0) (fun i => must (noneOr es [4] (fld v (360 + 80 * i) 2)) (360 + 80 * i))),
     (5, each (nRefs f) (fun i =>
        let o := 192 + 80 * i
        let r := readRef (slice f o 80)
        (enumFrom 0 (refTypes r)).flatMap (fun p => must (filledBy es [p.2] (fld f (o + 4 + 2 * p.1) 2)) (o + 4 + 2 * p.1)) ++
        must (noneOr es [0, 1] r.slot3) (o + 10))),
     (7, must (noneOr es [0, 1, 2, 3, 4] g.pwrSlot) 4),
     (19, each 2 (fun i => must (noneOr es [4] (fld io (2 * i) 2)) (2 * i)) ++
        each 24 (fun i => let o := 144 + 8 * i
          must (byteAt io o != 1 || filledBy es [4] (fld io (o + 4) 2)) (o + 4)))]

/-- Step 19. -/
def groupsCheck (b : Bytes) : Option Verdict :=
  let v := secBytes b 4
  let a := secBytes b 10
  verdictOf 0x0012 [(10, each (byteAt a 2) (fun i =>
    must (decide (fld a (64 + 16 * i) 4 < 2 ^ byteAt v 0)) (64 + 16 * i) ++
    must (decide (byteAt a (68 + 16 * i) < 2 ^ byteAt v 1)) (68 + 16 * i)))]

/-! ### The whole order -/

/-- The first of several checks that fails. -/
def firstFail : List (Unit → Option Verdict) → Option Verdict
  | [] => none
  | c :: r => match c () with | some v => some v | none => firstFail r

/-- Steps 3 to 19 of Table 3-6 (R87): the verdict with its detail, (0, 0) when every check passes. -/
def verifyImage (u : Bool) (serial : Bytes) (keys : List Nat) (known : Nat → Bool) (b : Bytes) : Verdict :=
  (firstFail [fun _ => outerCheck keys b, fun _ => reservedCheck9 b, fun _ => variantCheck u b, fun _ => gnssCheck u b,
    fun _ => limitsCheck serial known b, fun _ => phasesCheck b, fun _ => modeTablesCheck b, fun _ => placementCheck b,
    fun _ => mapCheck b, fun _ => destCheck b, fun _ => bindingCheck b, fun _ => groupsCheck b]).getD (0, 0)

end Sys2Proof.Machine
end

