-- ==== Sys2Proof/Machine/Gnss.lean ====
section
/-! DEFINITION. The GNSS receiver, PPS_OUT and the pulse message (15_gnss R399 to R418; notes/assumptions/18.md). -/

namespace Sys2Proof.Machine

open Sys2Proof.Image (Entry)

def setGnss (f : GnssSt → GnssSt) (s : State) : State := { s with gnss := f s.gnss }

/-- The now lies at the clock nearest a whole second of the timebase (R414). -/
def atSecond (s : State) : Bool := let r := nowNs s % 1000000000; decide (r ≤ 4) || decide (999999996 ≤ r)

/-- The block GNSS is held in reset (19 R495). -/
def gnssHeld (s : State) : Bool := blockIdle s 7

/-! ### Starts -/

/-- Seconds of the GPS week at the timebase (R402, R407). -/
def gpsTow (s : State) : Int := ((nowNs s : Int) / 1000000000 - 19 - 315964800) % 604800

/-- Satellites whose retained ephemeris lies within `h` hours of its reference time t_oe (subframe 2, word 10, 16 s units). -/
def freshEph (s : State) (h : Nat) : Nat :=
  ((List.range 33).filter (fun prn =>
    match Table.find s.gnss.ret.nav ((prn * 8 + 2) * 16 + 10) with
    | some d =>
      let age := (gpsTow s - (d / 256 * 16 : Nat)) % 604800
      decide (age ≤ (h * 3600 : Nat)) || decide ((604800 - h * 3600 : Nat) ≤ age)
    | none => false)).length

/-- Start class of Table 15-1: 0 hot, 1 warm, 2 cold. Whether the retained satellites are in view is a free value. -/
def startClass (s : State) : Nat :=
  if hasTime s = false then 2
  else if s.gnss.ret.pos.isSome ∧ 4 ≤ freshEph s 4 ∧ Config.startInView s.nFree = true then 0
  else match s.gnss.ret.almanac with
    | some t => if nowNs s ≤ t + 2592000000000000 then 1 else 2
    | none => 2

/-- PD-GN is powered and the receiver starts (R402). -/
def gnssStart (s : State) : State :=
  let c := startClass s
  setGnss (fun g => { g with powered := true, asleep := false, wakeEl := elNs s, fullSince := none, grade := 0, startClass := c, burst := false
                             codeLock := List.replicate 33 false, subframe := List.replicate 33 0, bias := s.cfg.img.gnss.biasEn == 1 && g.shortEl.isNone }) (nextFree s)

/-- PD-GN off; its conditions of Table 15-8 cease. -/
def gnssOff (s : State) : State :=
  let s1 := setGnss (fun g => { g with powered := false, asleep := false, bias := false, shortEl := none, grade := 0, fullSince := none, burst := false, codeLock := List.replicate 33 false }) s
  faultSet 0x0F13 false [.gnss] (faultSet 0x0F11 false [.gnss] (faultSet 0x0F10 false [.gnss] s1))

/-- PD-GN as Table 11-1 has it: on duty on an OX-4800-A, unless it failed its built-in check (R399, R418). -/
def gnssDuty (s : State) : State :=
  if onDuty s.st ∧ s.unit.variantN = false ∧ s.gnss.failed = false then
    (if s.gnss.powered ∨ s.gnss.asleep then s else gnssStart s)
  else if s.gnss.powered ∨ s.gnss.asleep then gnssOff s else s

/-- Regime of Table 15-5. -/
def regimeFor (s : State) : Regime :=
  match s.frame.mode with
  | 2 => .burst
  | 3 => .longSleep
  | _ => if s.chandler.gnssShed then .burst else .continuous

/-- A change of regime at a tick (R412): a sleeping receiver wakes at once. -/
def gnssRegime (s : State) : State :=
  let r := regimeFor s
  if r = s.gnss.regime then s
  else
    let s1 := setGnss (fun g => { g with regime := r, burst := false }) s
    if s1.gnss.asleep then
      let s2 := gnssStart s1
      event 0x0F02 (u8 0 ++ u8 s2.gnss.startClass) s2
    else s1

/-! ### Measurements -/

/-- The last epoch instant of R403 at or before now; in burst tracking only those whose m is a multiple of MEAS_HZ (R410). -/
def epochInstant (s : State) : Nat :=
  let ofs := s.cfg.img.gnss.measOfsUs * 1000
  let hz := if s.gnss.regime = .burst ∨ s.cfg.img.gnss.measHz = 0 then 1 else s.cfg.img.gnss.measHz
  let p := 1000000000 / hz
  (nowNs s - ofs) / p * p + ofs

/-- Tracking state of a channel, Table 15-4. -/
def trackingWord (slip : Nat) (cl : Bool) (m : ChanMeas) : Nat :=
  maskOf [m.codeLock && !m.masked, cl, m.bitSync, m.subframeSync, m.eph, m.used, m.masked] + 65536 * (slip % 256)

/-- Native value of a quantity of a channel (Table 15-2). -/
def channelValue (m : ChanMeas) (slip : Nat) (cl : Bool) : Nat → Option Int
  | 0 => some m.pseudorangeMm
  | 1 => some m.dopplerMhz
  | 2 => some m.carrier
  | 3 => some m.cn0
  | 5 => some m.prn
  | 7 => some (trackingWord slip cl m : Nat)
  | _ => none

/-- One channel's set of measurements at an epoch (R403, R408). A channel in code lock delivers every quantity; an untracked
satellite, below the mask or unhealthy, only its tracking state (R400). -/
def commitChannel (epoch : Nat) (m : ChanMeas) (s : State) : State :=
  let lock := m.codeLock && !m.masked && decide (1 ≤ m.prn) && decide (m.prn ≤ 32)
  let bursty := decide (s.gnss.regime = .burst)
  let cl := m.carrierLock && lock && !bursty
  let broke := lock && nth false s.gnss.codeLock m.chan && !cl && !bursty
  let slip := nth 0 s.gnss.slip m.chan + (if broke then 1 else 0)
  let s1 := setGnss (fun g => { g with slip := upd (fun _ => slip % 256) g.slip m.chan, codeLock := upd (fun _ => lock) g.codeLock m.chan }) s
  (nativeEntries s1 8 m.chan).foldl (fun t e =>
    let q := byteAt e.mtch 0
    if lock || (m.masked && q == 7) then
      match channelValue m slip cl q with
      | some v => commitNative e v epoch 0 t
      | none => t
    else t) s1

/-- GNSS_MEASUREMENT_EPOCH (R403, R409, R410). -/
def measurementEpoch (ms : List ChanMeas) (s : State) : State :=
  let e := epochInstant s
  let due := decide (s.gnss.epoch < e) && s.gnss.powered && !gnssHeld s && (decide (s.gnss.regime ≠ .burst) || s.gnss.burst)
  if due then ms.foldl (fun t m => commitChannel e m t) (setGnss (fun g => { g with epoch := e, burst := false }) s) else s

def execGnssMeasurementEpoch (dt : Nat) (meas : List ChanMeas) (s : State) : Host.Outcome State Fault Refusal :=
  .next (settle (measurementEpoch meas (advance s dt)))

/-- GNSS_BURST (R410): the front end runs; SLIP_COUNT rises by one per burst. -/
def gnssBurst (s : State) : State :=
  if s.gnss.regime = .burst ∧ s.gnss.powered ∧ gnssHeld s = false ∧ s.gnss.burst = false then
    setGnss (fun g => { g with burst := true, slip := g.slip.map (fun n => (n + 1) % 256) }) s
  else s

def execGnssBurst (dt : Nat) (s : State) : Host.Outcome State Fault Refusal := .next (settle (gnssBurst (advance s dt)))

/-! ### Navigation words -/

/-- Data bits of each parity bit of IS-GPS-200, by number from D1 (notes/assumptions/18.md), D25 first; the flag says D29*. -/
def parityTable : List (Bool × List Nat) :=
  [(true, [1, 2, 3, 5, 6, 10, 11, 12, 13, 14, 17, 18, 20, 23]), (false, [2, 3, 4, 6, 7, 11, 12, 13, 14, 15, 18, 19, 21, 24]),
   (true, [1, 3, 4, 5, 7, 8, 12, 13, 14, 15, 16, 19, 20, 22]), (false, [2, 4, 5, 6, 8, 9, 13, 14, 15, 16, 17, 20, 21, 23]),
   (false, [1, 3, 5, 6, 7, 9, 10, 14, 15, 16, 17, 18, 21, 22, 24]), (true, [3, 5, 6, 8, 9, 10, 11, 13, 15, 19, 22, 23, 24])]

/-- Parity bits of 24 data bits (D1 at bit 23), D25 in bit 5, with D29* and D30*. -/
def parityOf (data d29 d30 : Nat) : Nat :=
  parityTable.foldl (fun a r =>
    2 * a + (r.2.foldl (fun x i => x + data / 2 ^ (24 - i) % 2) (if r.1 then d29 else d30)) % 2) 0

/-- Table 15-3 of a word, with the parity result; `star`: D29* and D30*, unknown for the first word after bit sync (R405). -/
def wordValue (w : NavWord) (star : Nat × Nat) : Nat × Bool × Nat :=
  let raw := w.bits / 64 % 2 ^ 24
  let data := if w.first = false ∧ star.2 = 1 then 2 ^ 24 - 1 - raw else raw
  let ok := !w.first && parityOf data star.1 star.2 == w.bits % 64
  (w.prn * 2 ^ 48 + (w.word % 16) * 2 ^ 40 + (if ok then 2 ^ 32 else 0) + data * 64 + w.bits % 64, ok, data)

/-- A word of good parity joins the retained set: its subframe is that of the last hand-over word; a complete new ephemeris copies
the set to MRAM (R402). -/
def retainWord (w : NavWord) (data : Nat) (s : State) : State :=
  let sf := if w.word = 2 then data / 4 % 8 else nth 0 s.gnss.subframe w.chan
  let s1 := setGnss (fun g => { g with subframe := upd (fun _ => sf) g.subframe w.chan }) s
  if 1 ≤ sf ∧ sf ≤ 5 ∧ 3 ≤ w.word then
    let key := (w.prn * 8 + sf) * 16 + w.word
    let new := decide (Table.find s1.gnss.ret.nav key ≠ some data)
    let r1 := { s1.gnss.ret with nav := Table.set s1.gnss.ret.nav key data, almanac := if 4 ≤ sf then some (nowNs s) else s1.gnss.ret.almanac }
    setGnss (fun g => { g with ret := r1, saved := if sf ≤ 3 ∧ w.word = 10 ∧ new = true then r1 else g.saved }) s1
  else s1

/-- NAVIGATION_WORD (R405): committed VALID whatever its parity, stamped at the end of its last bit. -/
def navigationWord (w : NavWord) (s : State) : State :=
  if s.gnss.powered ∧ gnssHeld s = false ∧ s.gnss.regime ≠ .burst then
    let (v, ok, data) := wordValue w (nth (0, 0) s.gnss.lastWord w.chan)
    let s1 := setGnss (fun g => { g with lastWord := upd (fun _ => (w.bits / 2 % 2, w.bits % 2)) g.lastWord w.chan }) s
    let s2 := (nativeEntries s1 8 w.chan).foldl (fun t e => if byteAt e.mtch 0 = 4 then commitNative e v (nowNs s) 0 t else t) s1
    if ok then retainWord w data s2 else s2
  else s

def execNavigationWord (dt : Nat) (w : NavWord) (s : State) : Host.Outcome State Fault Refusal :=
  .next (settle (navigationWord w (advance s dt)))

/-! ### Solutions -/

/-- Grade of R406: 0 none, 1 degraded, 2 full. -/
def gradeOf (s : State) (x : NavSol) : Nat :=
  if 4 ≤ x.sats then (if x.pdop ≤ s.cfg.img.gnss.pdopMax then 2 else 1)
  else if x.sats = 3 ∧ s.gnss.ret.pos.isSome then 1 else 0

/-- Values of port 0 (Table 15-2): measurement time with a time solution, and the solution state. -/
def commitSolution (grade : Nat) (x : NavSol) (s : State) : State :=
  (nativeEntries s 8 0).foldl (fun t e =>
    match byteAt e.mtch 0 with
    | 6 => if grade = 2 then commitNative e x.gpsNs s.gnss.epoch 0 t else t
    | 7 => commitNative e (Nat.min 255 x.sats * 256 + grade : Nat) s.gnss.epoch 0 t
    | _ => t) s

/-- NAV_SOLUTION_COMPLETE (R406, R407): graded, committed, latched for fusion, and, full, measured as a time source. -/
def navSolution (x : NavSol) (s : State) : State :=
  if s.gnss.powered ∧ gnssHeld s = false then
    let gr := gradeOf s x
    let s1 := if gr = s.gnss.grade then s else event 0x0F01 (u8 gr ++ u8 (Nat.min 255 x.sats) ++ u16 (Nat.min 0xFFFF x.pdop)) s
    let full := decide (gr = 2)
    let ret' := { s1.gnss.ret with utc := (match x.utcOffset with | some o => some o | none => s1.gnss.ret.utc)
                                   pos := if full then some (x.lat, x.lon) else s1.gnss.ret.pos }
    let s2 := setGnss (fun g => { g with grade := gr, sol := if gr = 0 then g.sol else some x, solEpoch := if gr = 0 then g.solEpoch else g.epoch
                                         fullSince := if full then some (g.fullSince.getD (elNs s)) else none
                                         fullEl := if full then elNs s else g.fullEl, ret := ret' }) s1
    let s3 := commitSolution gr x s2
    let s4 := if gr = 0 then s3 else faultSet 0x0F10 false [.gnss] s3
    if full then
      let s5 := faultSet 0x0F13 false [.gnss] { s4 with time := { s4.time with gnssUsable := true } }
      let s6 := applyUtc (reselect s5)
      if s6.time.source = some 2 then measure x.thetaNs s6 else s6
    else s4
  else s

def execNavSolutionComplete (dt : Nat) (sol : NavSol) (s : State) : Host.Outcome State Fault Refusal :=
  .next (settle (navSolution sol (advance s dt)))

/-- GNSS_SLEEP (R411): at a whole second in Harbour; `ephFresh`: every satellite used has an ephemeris within 2 h of its reference
time. -/
def gnssSleep (ephFresh : Bool) (s : State) : State :=
  let g := s.gnss
  let held : Bool := match g.fullSince with
    | some t => decide (t + s.cfg.img.gnss.awakeS * 1000000000 ≤ elNs s) && ephFresh
    | none => false
  let late := decide (g.wakeEl + s.cfg.img.gnss.wakeMaxS * 1000000000 ≤ elNs s)
  if g.regime = .longSleep ∧ g.powered ∧ atSecond s ∧ (held ∨ late) then
    let s1 := setGnss (fun h => { h with powered := false, asleep := true, sleepEl := elNs s, saved := h.ret, grade := 0, fullSince := none
                                         codeLock := List.replicate 33 false }) s
    event 0x0F02 (u8 1) (faultSet 0x0F13 false [.gnss] s1)
  else s

def execGnssSleep (dt : Nat) (ephFresh : Bool) (s : State) : Host.Outcome State Fault Refusal :=
  .next (settle (gnssSleep ephFresh (advance s dt)))

/-- GNSS_WAKE (R411): SLEEP_MIN minutes after the sleep began, at a whole second. -/
def gnssWake (s : State) : State :=
  if s.gnss.asleep ∧ s.gnss.sleepEl + s.cfg.img.gnss.sleepMin * 60000000000 ≤ elNs s ∧ atSecond s then
    let s1 := gnssStart s
    event 0x0F02 (u8 0 ++ u8 s1.gnss.startClass) s1
  else s

def execGnssWake (dt : Nat) (s : State) : Host.Outcome State Fault Refusal := .next (settle (gnssWake (advance s dt)))

/-- NO_FULL_SOLUTION_FAULT (Table 15-8). -/
def noFullFault (s : State) : State :=
  if s.gnss.powered ∧ s.gnss.grade ≠ 2 ∧ Nat.max s.gnss.wakeEl s.gnss.fullEl + 60000000000 ≤ elNs s then faultSet 0x0F13 true [.gnss] s else s

def execNoFullSolutionFault (dt : Nat) (s : State) : Host.Outcome State Fault Refusal := .next (settle (noFullFault (advance s dt)))

/-! ### Antenna -/

/-- ANTENNA_OPEN (R401): the condition ends with the next solution, or when the bias goes off. -/
def antennaOpen (s : State) : State := if s.gnss.bias then faultSet 0x0F10 true [.gnss] s else s

def execAntennaOpen (dt : Nat) (s : State) : Host.Outcome State Fault Refusal := .next (settle (antennaOpen (advance s dt)))

/-- ANTENNA_SHORT (R401): the bias is switched off. -/
def antennaShort (s : State) : State :=
  if s.gnss.bias then
    faultSet 0x0F11 true [.gnss] (faultSet 0x0F10 false [.gnss] (setGnss (fun g => { g with bias := false, shortEl := some (elNs s) }) s))
  else s

def execAntennaShort (dt : Nat) (s : State) : Host.Outcome State Fault Refusal := .next (settle (antennaShort (advance s dt)))

/-- BIAS_RETRY (R401): 10 s after a short. -/
def biasRetry (s : State) : State :=
  match s.gnss.shortEl with
  | some t =>
    if t + 10000000000 ≤ elNs s ∧ (s.gnss.powered ∨ s.gnss.asleep) then
      faultSet 0x0F11 false [.gnss] (setGnss (fun g => { g with bias := true, shortEl := none }) s)
    else s
  | none => s

def execBiasRetry (dt : Nat) (s : State) : Host.Outcome State Fault Refusal := .next (settle (biasRetry (advance s dt)))

/-! ### PPS_OUT -/

/-- A pulse would fall less than 0.5 s after the last one (R413). -/
def tooSoon (s : State) (el : Nat) : Bool := match s.gnss.ppsEl with | some t => decide (el < t + 500000000) | none => false

/-- What an announced pulse held back takes effect at the pulse (R415): the addend, and, while a source is selected, the correction of
its last θ. -/
def endDefer (s : State) : State :=
  let s1 := { s with time := { s.time with deferTo := none, deferAddend := none } }
  match s.time.deferAddend with
  | some a =>
    let s2 := setAddend a s1
    if s2.time.source.isSome then timeFaults (correct s2.time.theta s2) else s2
  | none => s1

/-- PPS_OUT_PULSE (R413): high at the whole second; one that falls too soon after the last pulse is not pulsed. A
forward step past the second fires it at the step (14 R377). -/
def ppsPulse (s : State) : State :=
  let fresh : Bool := match s.gnss.ppsEl with | some t => decide (t + 1000 ≤ elNs s) | none => true
  if s.frame.running ∧ hasTime s ∧ (atSecond s ∨ nth false s.time.lateFire 14) ∧ fresh then
    if tooSoon s (elNs s) then event 0x0F03 [] (setGnss (fun g => { g with msgSkip := true }) s)
    else
      endDefer (setGnss (fun g => { g with ppsHigh := true, ppsEl := some (elNs s) })
        { s with time := { s.time with lateFire := upd (fun _ => false) s.time.lateFire 14 } })
  else s

def execPpsOutPulse (dt : Nat) (s : State) : Host.Outcome State Fault Refusal := .next (settle (ppsPulse (advance s dt)))

/-- PPS_OUT_PULSE_END (R413). -/
def ppsEnd (s : State) : State :=
  match s.gnss.ppsEl with
  | some t => if s.gnss.ppsHigh ∧ t + s.cfg.img.gnss.ppsWidthMs * 1000000 ≤ elNs s then setGnss (fun g => { g with ppsHigh := false }) s else s
  | none => s

def execPpsOutPulseEnd (dt : Nat) (s : State) : Host.Outcome State Fault Refusal := .next (settle (ppsEnd (advance s dt)))

/-- Clocks from now to the clock nearest a whole second (R414). -/
def clocksTo (s : State) (sec : Nat) : Nat :=
  let err (n : Nat) : Nat := (((s.clk.tick s.st n).tb : Int) - (sec * 1000000000 * tbUnit : Nat)).natAbs
  let rate : Int := 4 * tbUnit + s.clk.addend
  let n0 := (divEven (((sec * 1000000000 * tbUnit : Nat) : Int) - s.clk.tb) rate.toNat).toNat
  let n1 := (divEven (((sec * 1000000000 * tbUnit : Nat) : Int) - ((s.clk.tick s.st n0).tb - (n0 : Int) * rate)) rate.toNat).toNat
  [n1 + 1, n1 - 1].foldl (fun b n => if err n < err b then n else b) n1

/-- QERR_PS of the pulse at a whole second: timebase at the nearest clock minus the second (R414). -/
def qerrPs (s : State) (sec : Nat) : Int :=
  divEven ((((s.clk.tick s.st (clocksTo s sec)).tb : Int) - (sec * 1000000000 * tbUnit : Nat)) * 1000) tbUnit

/-- The pulse message, Table 15-6. -/
def pulseMessage (s : State) (sec : Nat) : Bytes :=
  let n := clocksTo s sec
  let later := { s with clk := { s.clk with el := s.clk.el + 4 * n } }
  let lk := decide (s.time.state = .noTime ∨ s.time.state = .free ∨ s.time.state = .locking)
  let m := u32 0x5050584F ++ u8 1 ++ u8 s.lock.slot ++
    u16 (maskOf [decide (s.time.state = .holdover), lk, s.gnss.msgStepped, s.time.utcValid, s.gnss.msgSkip]) ++
    u48 sec ++ u16 0 ++ i32 (clamp (-2000) 2000 (qerrPs s sec)) ++ u8 (tbCode s.time.state) ++ u8 (s.time.source.getD 0xFF) ++
    i16 s.time.utcOffset ++ u32 (estErrNs later) ++ u32 0 ++ u64 (frameIndex s)
  m ++ u32 (crc32 m)

/-- P5 of the frame that ends at a pulse sends its message, and what would change the timebase waits for the pulse (R415). -/
def announcePulse (s : State) : State :=
  let sel := s.cfg.img.gnss.ppsMsgSel
  let sec := s.frame.nextTick / 1000000000
  if sel ≠ 0 ∧ onDuty s.st ∧ hasTime s ∧ s.frame.nextTick % 1000000000 = 0 ∧ tooSoon s (elNs s + 4 * clocksTo s sec) = false then
    let m := pulseMessage s sec
    let dst : Src := { addr := s.cfg.img.gnss.ppsMsgAddr, port := s.cfg.img.gnss.ppsMsgPort }
    let outs := (if sel.testBit 0 then [Out.msg .h1 dst m] else []) ++ (if sel.testBit 1 then [Out.msg .h2 dst m] else [])
    emitAll outs { s with time := { s.time with deferTo := some s.frame.nextTick }, gnss := { s.gnss with msgSkip := false, msgStepped := false } }
  else s

end Sys2Proof.Machine
end

