-- ==== Sys2Proof/Machine/Assembly.lean ====
section
/-! DEFINITION. Assembly of the programme in P3: variables, cost, balance, limits, power rows, scaling, warm and cold start (09_allocation R236
to R251, R255 to R258; 10_solver R272, R284, R287 to R289). -/

namespace Sys2Proof.Machine

open Sys2Proof.Image (Thruster)

/-! ### Rows -/

/-- Thruster number of the slack variables in a step's variable list. -/
def slackThr : Nat := 100

/-- Variables of a step: thrusters not in the mask, then the slack of the three axes (R237, R272). -/
def stepVars (s : State) (mask : Nat) : List (Nat × Nat) :=
  ((List.range (nThr s)).filter (fun i => !mask.testBit i)).flatMap (fun i => (axesOf (thrCfg s i).kind).map (fun a => (i, a))) ++
  [(slackThr, 0), (slackThr, 1), (slackThr, 2)]

/-- A row over the variables from coefficients of one thruster's axes. -/
def rowOf (vars : List (Nat × Nat)) (i : Nat) (cx cy : Frac) : List Frac :=
  vars.map (fun v => if v.1 = i then (if v.2 = 0 then cx else cy) else Frac.zero)

/-- Sine and cosine of `n/d` of a turn. -/
def turnAngle (n d : Nat) : Int := let m := n % d; (if 2 * m ≤ d then (m : Int) else (m : Int) - d) * fixTwoPi / (d : Int)
def sinTurn (n d : Nat) : Frac := let x := turnAngle n d; Frac.norm (trigSeries 16 x (x * x / fixOne) 2 x) (2 ^ 60)
def cosTurn (n d : Nat) : Frac := let x := turnAngle n d; Frac.norm (trigSeries 16 fixOne (x * x / fixOne) 1 fixOne) (2 ^ 60)

/-- The magnitude limits of a thruster (R240, R243) and its rudder regime. -/
def magRows (s : State) (vars : List (Nat × Nat)) (i : Nat) : List IneqRow :=
  let t := thrCfg s i
  let rev : Frac := Frac.norm t.revRatio 32768
  let k : Frac := Frac.norm t.rudK 65536
  let mk := fun (tag : Nat) (cx cy b : Frac) => ({ cur := rowOf vars i cx cy, rhs := b, tag := 1000 * i + tag } : IneqRow)
  let one := Frac.one
  let m1 := Frac.neg Frac.one
  let z := Frac.zero
  if t.kind ≤ 1 then
    let n := s.cfg.img.vessel.nFacets
    (List.range n).map (fun m => mk m (cosTurn (2 * m + 1) (2 * n)) (sinTurn (2 * m + 1) (2 * n)) (cosTurn 1 (2 * n)))
  else if t.kind = 2 then [mk 100 z one one, mk 101 z m1 rev]
  else if t.kind = 3 then [mk 100 one z one, mk 101 m1 z rev]
  else if (thrSt s i).astern then [mk 201 one z z, mk 101 m1 z rev, mk 110 z one z, mk 111 z m1 z]
  else
    let mx : Frac := Frac.norm t.rudMax 65536
    [mk 200 m1 z z, mk 100 one z one, mk 112 (Frac.neg k) one z, mk 113 (Frac.neg k) m1 z, mk 114 z one mx, mk 115 z m1 mx]

/-- Forbidden sectors (R242). -/
def sectorRows (s : State) (vars : List (Nat × Nat)) (i : Nat) : List IneqRow :=
  let t := thrCfg s i
  let x := thrSt s i
  let q : Int := 1073741824
  let one := fun (k : Nat) (side : Bool) (fromA toA : Nat) =>
    let a := if side then angWrap ((toA : Int) - q) else angWrap ((fromA : Int) + q)
    ({ cur := rowOf vars i (cosF a) (sinF a), tag := sectorTag i k side } : IneqRow)
  if t.kind ≤ 1 then
    (if 1 ≤ t.nSec then [one 1 x.side1 t.sec1From t.sec1To] else []) ++ (if 2 ≤ t.nSec then [one 2 x.side2 t.sec2From t.sec2To] else [])
  else []

/-- Rate limits and crossing bounds of a thruster at step `j` (R241, R245). -/
def rateRows (s : State) (vars : List (Nat × Nat)) (i j : Nat) : List IneqRow :=
  let t := thrCfg s i
  let e := emitOf s i
  let ax := axesOf t.kind
  let unit := fun (a : Nat) (sgn : Frac) => rowOf vars i (if a = 0 then sgn else Frac.zero) (if a = 1 then sgn else Frac.zero)
  let m1 := Frac.neg Frac.one
  let rate := ax.flatMap (fun a =>
    if j = 0 then
      let f := q29 (if a = 0 then e.1 else e.2)
      let r := rateOver t (tfMs s)
      [{ cur := unit a Frac.one, rhs := Frac.add r f, tag := 1000 * i + 300 + 2 * a }, { cur := unit a m1, rhs := Frac.sub r f, tag := 1000 * i + 301 + 2 * a }]
    else
      let r := rateOver t s.cfg.img.alloc.stepMs
      [{ cur := unit a Frac.one, prev := unit a m1, rhs := r, tag := 1000 * i + 300 + 2 * a },
       { cur := unit a m1, prev := unit a Frac.one, rhs := r, tag := 1000 * i + 301 + 2 * a }])
  let cross : List IneqRow := if (thrSt s i).crossing.isSome then
      ax.flatMap (fun a => [{ cur := unit a Frac.one, rhs := crossBound s i j, tag := 1000 * i + 500 + 2 * a },
                            { cur := unit a m1, rhs := crossBound s i j, tag := 1000 * i + 501 + 2 * a }])
    else []
  rate ++ cross

/-! ### Power rows (R250, R251) -/

/-- Linearised power: constant, and coefficients of f_x and f_y. -/
structure LinPow where
  c0 : Frac := Frac.zero
  cx : Frac := Frac.zero
  cy : Frac := Frac.zero

/-- The direction d̄ of R250 at a warm-start value; `dir` is the direction last used, Q2.29. -/
def linDir (t : Thruster) (dir f : Int × Int) : Frac × Frac :=
  let n := norm60 f
  if n < 2 ^ 44 then
    (if t.kind = 2 then (Frac.zero, if dir.2 < 0 then Frac.neg Frac.one else Frac.one)
     else if t.kind = 3 then (if dir.1 < 0 then Frac.neg Frac.one else Frac.one, Frac.zero)
     else (q29 dir.1, q29 dir.2))
  else if t.kind = 2 then (Frac.zero, if f.2 < 0 then Frac.neg Frac.one else Frac.one)
  else if t.kind = 3 then (if f.1 < 0 then Frac.neg Frac.one else Frac.one, Frac.zero)
  else (Frac.norm (f.1 * 2147483648) n, Frac.norm (f.2 * 2147483648) n)

/-- P_i linearised about a warm-start value (R250). -/
def linearise (t : Thruster) (dir f : Int × Int) : LinPow :=
  let a := Nat.max (norm60 f) (2 ^ 56)
  let ap1 : Frac := Frac.norm (pow60 a (t.pexp - 256) : Nat) (2 ^ 60)
  let ap : Frac := Frac.norm (pow60 a t.pexp : Nat) (2 ^ 60)
  let p : Frac := Frac.norm t.pexp 256
  let d := linDir t dir f
  let pr := Frac.ofNat t.pRated
  let k := Frac.mul pr (Frac.mul p ap1)
  { c0 := Frac.sub (Frac.ofNat t.pIdle) (Frac.mul pr (Frac.mul (Frac.sub p Frac.one) ap)), cx := Frac.mul k d.1, cy := Frac.mul k d.2 }

def LinPow.at_ (l : LinPow) (fx_ fy : Frac) : Frac := Frac.add l.c0 (Frac.add (Frac.mul l.cx fx_) (Frac.mul l.cy fy))

/-- f^min of R251 as a factor of f_emit. -/
def shrink (s : State) (i j : Nat) : Frac :=
  let t := thrCfg s i
  let n := infNorm (emitOf s i)
  if n = 0 then Frac.zero
  else Frac.max Frac.zero (Frac.sub Frac.one (Frac.div (rateOver t (tfMs s + j * s.cfg.img.alloc.stepMs)) (q29 (n : Nat))))

/-- Thrusters of a bus among those not masked. -/
def busThrs (s : State) (mask b : Nat) : List Nat := (List.range (nThr s)).filter (fun i => !mask.testBit i && (thrCfg s i).bus == b)

/-- Power limit r of a bus at a step, and whether the second term decided it (R251). -/
def busLimit (s : State) (mask b j : Nat) (lin : Nat → LinPow) : Frac × Bool :=
  let c := nth {} s.cfg.img.vessel.buses b
  let o := nth {} s.alloc.bus b
  let ramp : Frac := Frac.norm (o.ramp * (j * s.cfg.img.alloc.stepMs : Nat)) 1000
  let pav := Frac.min (Frac.ofInt c.busPmax) (Frac.max Frac.zero (Frac.add (Frac.ofInt o.pAv) ramp))
  let a := Frac.sub pav (Frac.ofInt c.marginW)
  let m := Frac.sum ((busThrs s mask b).map (fun i =>
    let k := shrink s i j
    (lin i).at_ (Frac.mul k (q29 (emitOf s i).1)) (Frac.mul k (q29 (emitOf s i).2))))
  if Frac.lt a m then (m, true) else (a, false)

/-- Tag of a bus row. -/
def busTag (b : Nat) : Nat := 100000 + b

/-- The power rows of a step, divided by BUS_PMAX (R251). -/
def busRows (s : State) (vars : List (Nat × Nat)) (mask out j : Nat) (lin : Nat → LinPow) : List IneqRow :=
  ((List.range (nBus s)).filter (fun b => !out.testBit b && !(busThrs s mask b).isEmpty)).map (fun b =>
    let is := busThrs s mask b
    let pm := Frac.inv (Frac.ofInt (nth {} s.cfg.img.vessel.buses b).busPmax)
    let c0 := Frac.sum (is.map (fun i => (lin i).c0))
    { cur := vars.map (fun v => if is.contains v.1 then Frac.mul pm (if v.2 = 0 then (lin v.1).cx else (lin v.1).cy) else Frac.zero)
      rhs := Frac.mul pm (Frac.sub (busLimit s mask b j lin).1 c0), tag := busTag b })

/-! ### Scaling (R258) -/

/-- Exponents by which a magnitude times `base`^e lies in [1/64, 64]. -/
def admissible (m : Frac) (base : Nat) : List Int :=
  ((List.range 129).map (fun k => (k : Int) - 64)).filter (fun e =>
    let v := Frac.mul m (Frac.pow2 ((base : Int) * e))
    Frac.le ⟨1, 64⟩ v && Frac.le v (Frac.ofNat 64))

/-- The exponent that P3 takes. -/
def pickExp (m : Frac) (base n k : Nat) : Int :=
  let c := admissible m base
  nth 0 c (Config.scalePick n k % Nat.max 1 c.length)

/-- Largest magnitude in a list. -/
def maxAbs (xs : List Frac) : Frac := xs.foldl (fun a x => Frac.max a (Frac.abs x)) Frac.zero

/-- The exponents of the balance rows of a step, one after the other: `diag` is each variable's diagonal element of Φ_j so far, before barrier
terms, and what a row takes leaves room below 128 for the rows to come at their smallest (10 R274). -/
def pickBal (n k : Nat) : List (List Frac) → List Frac → List Int
  | [], _ => []
  | r :: rest, diag =>
    let add := fun (d : List Frac) (row : List Frac) (e : Int) =>
      List.zipWith (fun a c => let v := Frac.mul c (Frac.pow2 e); Frac.add a (Frac.mul (Frac.ofNat 16) (Frac.mul v v))) d row
    let room := rest.foldl (fun d q => add d q (nth 0 (admissible (maxAbs q) 1) 0)) diag
    let c := (admissible (maxAbs r) 1).filter (fun e => (add room r e).all (fun v => Frac.le v (Frac.ofNat 128)))
    let e := nth 0 c (Config.scalePick n k % Nat.max 1 c.length)
    e :: pickBal n (k + 1) rest (add diag r e)

/-- Scale a step: one power of two per variable from the Hessian, one per row from its largest coefficient. -/
def scaleStep (n j : Nat) (prevExp : List Int) (p : StepProb) : StepProb :=
  let ve := (enumFrom 0 p.hess).map (fun h => pickExp h.2 2 n (10000 * j + h.1))
  let sc := fun (es : List Int) (r : List Frac) => List.zipWith (fun c e => Frac.mul c (Frac.pow2 e)) r es
  let re := (enumFrom 0 p.rows).map (fun r => pickExp (Frac.max (maxAbs (sc ve r.2.cur)) (maxAbs (sc prevExp r.2.prev))) 1 n (10000 * j + 200 + r.1))
  let diag := List.zipWith (fun h e => Frac.mul h (Frac.pow2 (2 * e))) p.hess ve
  let be := pickBal n (10000 * j + 9000) (p.bal.map (sc ve)) diag
  { p with varExp := ve, rowExp := re, balExp := be }

/-! ### A step, a horizon -/

/-- Step `j` of a programme (R238 to R251), about the warm start's values. -/
def assembleStep (s : State) (mask out n j : Nat) (warm : Solution) : StepProb :=
  let vars := stepVars s mask
  let al := s.cfg.img.alloc
  let last := decide (j + 1 = n)
  let wd := fun i => Frac.norm (thrCfg s i).wD 65536
  let two := Frac.ofNat 2
  let hess := vars.map (fun v =>
    if v.1 = slackThr then Frac.mul two (Frac.norm (nth 1 al.qSlack v.2 : Nat) 65536)
    else Frac.mul two (Frac.add (Frac.norm (thrCfg s v.1).wP 65536) (if last then wd v.1 else Frac.mul two (wd v.1))))
  let coup := vars.map (fun v => if v.1 = slackThr ∨ j = 0 then Frac.zero else Frac.neg (Frac.mul two (wd v.1)))
  let lin := vars.map (fun v =>
    if v.1 = slackThr ∨ j ≠ 0 then Frac.zero
    else Frac.neg (Frac.mul two (Frac.mul (wd v.1) (q29 (if v.2 = 0 then (emitOf s v.1).1 else (emitOf s v.1).2)))))
  let bal := (List.range 3).map (fun c => vars.map (fun v =>
    if v.1 = slackThr then (if v.2 = c then Frac.one else Frac.zero)
    else Frac.div (thrustPer (thrCfg s v.1) v.2 c) (Frac.ofInt (tauRef s c))))
  let d := (List.range 3).map (fun c => Frac.div (Frac.ofInt (nth 0 s.obs.tauDem c)) (Frac.ofInt (tauRef s c)))
  let is := (List.range (nThr s)).filter (fun i => !mask.testBit i)
  let lp := fun i => linearise (thrCfg s i) (thrSt s i).dir (solVar warm j i)
  let rows := is.flatMap (fun i => magRows s vars i ++ sectorRows s vars i ++ rateRows s vars i j) ++ busRows s vars mask out j lp
  { vars := vars, hess := hess, coup := coup, lin := lin, bal := bal, d := d, rows := rows }

/-- A horizon cut to, or filled up to, `n` steps (01 R40). -/
def fitSteps {α : Type} (n : Nat) (d : α) (xs : List α) : List α :=
  (List.range n).map (fun j => nth d xs (Nat.min j (xs.length - 1)))

/-- A solution on a horizon of `n` steps. -/
def fitSolution (n : Nat) (x : Solution) : Solution :=
  { x with x := fitSteps n [] x.x, slack := fitSteps n [] x.slack, lam := fitSteps n [] x.lam, z := fitSteps n [] x.z }

/-- Dot product of fractions. -/
def dotF (a b : List Frac) : Frac := Frac.sum (List.zipWith Frac.mul a b)

/-- Unscaled variables of a step of a warm start, the slack set to d − B f (R287). -/
def warmVars (p : StepProb) (x : Table Int) : List Frac :=
  let f := p.vars.map (fun v => if v.1 = slackThr then Frac.zero else q29 (Table.get 0 x (2 * v.1 + v.2)))
  let sl := List.zipWith (fun b d => Frac.sub d (dotF b f)) p.bal p.d
  List.zipWith (fun v y => if v.1 = slackThr then nth Frac.zero sl v.2 else y) p.vars f

/-- Saturation into Q10.21 and Q2.29 (Table 10-2). -/
def satQ10 (v : Int) : Int := satS 31 v

/-- The start of a programme (R287, R289): the variables in Q2.29, λ, w and z in scaled units. -/
def startIter (s : State) (steps : List StepProb) (warm : Solution) (cold : Bool) : Iter :=
  let push : Int := (s.cfg.img.solver.wsPush : Nat)
  let xs := (enumFrom 0 steps).map (fun p => warmVars p.2 (if cold then [] else nth [] warm.x p.1))
  let row := fun (j : Nat) (r : IneqRow) => Frac.sub r.rhs (Frac.add (dotF r.cur (nth [] xs j)) (dotF r.prev (nth [] xs (j - 1))))
  { x := (enumFrom 0 steps).map (fun p => (nth [] xs p.1).map (fun v => satS 31 (toFx 29 v)))
    lam := (enumFrom 0 steps).map (fun p => (List.range 3).map (fun c =>
      if cold then Config.coldLambda else satQ10 (toFx 21 (Frac.mul (Frac.norm (nth 0 (nth [] warm.lam p.1) c) (2 ^ 21)) (Frac.pow2 (-(nth 0 p.2.balExp c)))))))
    w := (enumFrom 0 steps).map (fun p => List.zipWith (fun r e =>
      max (satQ10 (toFx 21 (Frac.mul (row p.1 r) (Frac.pow2 e)))) (if cold then 2097152 else push)) p.2.rows p.2.rowExp)
    z := (enumFrom 0 steps).map (fun p => List.zipWith (fun (r : IneqRow) e =>
      if cold then 2097152
      else match Table.find (nth [] warm.z p.1) r.tag with
        | some z => max (satQ10 (toFx 21 (Frac.mul z (Frac.pow2 (-e))))) push
        | none => push) p.2.rows p.2.rowExp) }

/-- Scale the steps in order. -/
def scaleAll (n : Nat) : Nat → List Int → List StepProb → List StepProb
  | _, _, [] => []
  | j, pe, p :: r => let q := scaleStep n j pe p; q :: scaleAll n (j + 1) q.varExp r

/-- A whole programme (R255 to R258): the primary, or the shadow of a group. -/
def assemble (s : State) (group : Option Nat) (mask out : Nat) (warm0 : Option Solution) (cold : Bool) : Problem :=
  let n := grantSteps s
  let warm := fitSolution n (if cold then {} else warm0.getD {})
  let c := cold || warm0.isNone
  let steps := scaleAll s.nFree 0 [] ((List.range n).map (fun j => assembleStep s mask out n j warm))
  { group := group, steps := steps, start := startIter s steps warm c, cold := c }

/-- What the primary's assembly leaves: directions of R250, RATE_RAISED and the limits of step 0. -/
def notePrimary (s : State) (warm0 : Option Solution) : State :=
  let n := grantSteps s
  let warm := fitSolution n (warm0.getD {})
  let lp := fun i => linearise (thrCfg s i) (thrSt s i).dir (solVar warm 0 i)
  let mask := unavailMask s
  let dirs := (enumFrom 0 s.alloc.thr).map (fun p =>
    let d := linDir (thrCfg s p.1) p.2.dir (solVar warm 0 p.1)
    if p.2.avail then { p.2 with dir := (toQ29 d.1, toQ29 d.2) } else p.2)
  let bus := (enumFrom 0 s.alloc.bus).map (fun p =>
    if p.2.inService then
      let r := busLimit s mask p.1 0 lp
      { p.2 with rateRaised := r.2, pRhs := roundEven r.1 }
    else { p.2 with rateRaised := false, pRhs := 0 })
  setAlloc (fun a => { a with thr := dirs, bus := bus, steps := n }) s

/-- Linearised sum of a bus at step 0 for given variables, by the primary's linearisation (P_LIN of Table 9-10). -/
def busLin (s : State) (warm0 : Option Solution) (sol : Solution) (b : Nat) : Frac :=
  let warm := fitSolution (grantSteps s) (warm0.getD {})
  Frac.sum ((busThrs s (unavailMask s) b).map (fun i =>
    (linearise (thrCfg s i) (thrSt s i).dir (solVar warm 0 i)).at_ (q29 (solVar sol 0 i).1) (q29 (solVar sol 0 i).2)))

end Sys2Proof.Machine
end

