-- ==== Sys2Proof/Machine/Interior.lean ====
section
/-! DEFINITION. One iteration of the interior-point method: residual, blocks, factorisation, the affine and the corrected direction, the step
(10_solver R273 to R279). The centring and the weight of the second-order correction, which the manual leaves open, are free values;
everything else of an iteration is computed. Readings: notes/assumptions/28.md. -/

namespace Sys2Proof.Machine

/-! ### Residual (R276) -/

/-- Variables of an iterate: Q2.29, unscaled (09 R237, Table 10-2). -/
def iterVars (x : List Int) : List Frac := x.map (fun v => Frac.norm v (2 ^ 29))
def q21 (v : Int) : Frac := Frac.norm v (2 ^ 21)

/-- Multipliers of scaled rows as multipliers of the rows themselves. -/
def unscale (es : List Int) (v : List Frac) : List Frac := List.zipWith (fun x e => Frac.mul x (Frac.pow2 e)) v es

/-- Σ of rows times multipliers, by variable. -/
def addRows (n : Nat) (rs : List (List Frac × Frac)) : List Frac :=
  rs.foldl (fun acc r => List.zipWith (fun a c => Frac.add a (Frac.mul c r.2)) acc r.1) (List.replicate n Frac.zero)

/-- H x + c + Aᵀ z + Eᵀ λ at step `j`, in scaled units; `z`, `lam`: multipliers of the scaled rows by step. -/
def gradStep (steps : List StepProb) (x : List (List Int)) (z lam : List (List Frac)) (j : Nat) : List Frac :=
  let p := nth {} steps j
  let q := nth {} steps (j + 1)
  let xs := fun i => iterVars (nth [] x i)
  let x0 := xs j
  let xp := if j = 0 then x0.map (fun _ => Frac.zero) else xs (j - 1)
  let hx := List.zipWith Frac.add (List.zipWith Frac.mul p.hess x0) (List.zipWith Frac.mul p.coup xp)
  let hn := if j + 1 < steps.length then List.zipWith Frac.mul q.coup (xs (j + 1)) else x0.map (fun _ => Frac.zero)
  let az := addRows x0.length (List.zipWith (fun (r : IneqRow) m => (r.cur, m)) p.rows (unscale p.rowExp (nth [] z j)) ++
    (List.zipWith (fun (r : IneqRow) m => (r.prev, m)) q.rows (unscale q.rowExp (nth [] z (j + 1)))).filter (fun r => !r.1.isEmpty))
  let el := addRows x0.length (List.zip p.bal (unscale p.balExp (nth [] lam j)))
  List.zipWith (fun g e => Frac.mul g (Frac.pow2 e))
    (List.zipWith Frac.add (List.zipWith Frac.add hx hn) (List.zipWith Frac.add p.lin (List.zipWith Frac.add az el))) p.varExp

/-- A x + w − b of the rows of step `j`, in scaled units. -/
def ineqStep (steps : List StepProb) (x w : List (List Int)) (j : Nat) : List Frac :=
  let p := nth {} steps j
  let x0 := iterVars (nth [] x j)
  let xp := iterVars (nth [] x (j - 1))
  List.zipWith (fun (r : IneqRow × Int) e =>
    Frac.add (Frac.mul (Frac.sub (Frac.add (dotF r.1.cur x0) (dotF r.1.prev xp)) r.1.rhs) (Frac.pow2 e)) (q21 r.2))
    (List.zip p.rows (nth [] w j)) p.rowExp

/-- E x − d of step `j`, in scaled units. -/
def balStep (steps : List StepProb) (x : List (List Int)) (j : Nat) : List Frac :=
  let p := nth {} steps j
  let x0 := iterVars (nth [] x j)
  List.zipWith (fun (r : List Frac × Frac) e => Frac.mul (Frac.sub (dotF r.1 x0) r.2) (Frac.pow2 e)) (List.zip p.bal p.d) p.balExp

/-- The four quantities of R276 at one step. -/
def stepResid (steps : List StepProb) (t : Iter) (j : Nat) : Frac :=
  let dual := gradStep steps t.x (t.z.map (·.map q21)) (t.lam.map (·.map q21)) j
  let comp := List.zipWith (fun a b => Frac.mul (q21 a) (q21 b)) (nth [] t.w j) (nth [] t.z j)
  Frac.max (Frac.max (maxAbs dual) (maxAbs (ineqStep steps t.x t.w j))) (Frac.max (maxAbs (balStep steps t.x j)) (maxAbs comp))

/-- The residual in units of 2⁻²¹ before it enters its format, rounded up so that it is never below the true value (R276). -/
def residualRaw (steps : List StepProb) (t : Iter) : Nat :=
  let r := (List.range steps.length).foldl (fun a j => Frac.max a (stepResid steps t j)) Frac.zero
  (-(Frac.floor (Frac.neg (Frac.mul r (Frac.ofNat 2097152))))).toNat

/-- The residual in Q10.21, saturating at the top (Table 10-2). -/
def residual (steps : List StepProb) (t : Iter) : Nat := Nat.min 0x7FFFFFFF (residualRaw steps t)

/-- Evaluating the residual saturates a lane (R277, R279). -/
def residSat (steps : List StepProb) (t : Iter) : Bool := decide (0x7FFFFFFF < residualRaw steps t)

/-! ### Lanes (R277) -/

/-- What the lanes report: flags of Table 10-5 as a mask, a lane saturation or an indefinite factor. -/
structure Fac where
  flags : Nat := 0
  bad : Bool := false

def Fac.mark (f : Fac) (bit : Nat) : Fac := { f with flags := Nat.lor f.flags (2 ^ bit) }

/-- A value entering Q10.21. -/
def intoQ10 (v : Int) (f : Fac) : Int × Fac := (satQ10 v, if satQ10 v = v then f else { f with bad := true })

/-- A list, and a matrix, entering Q10.21. -/
def rowQ10 (r : List Int) (f : Fac) : List Int × Fac := (r.map satQ10, if r.any (fun v => decide (satQ10 v ≠ v)) then { f with bad := true } else f)
def matQ10 (m : List (List Int)) (f : Fac) : List (List Int) × Fac :=
  (m.map (fun r => r.map satQ10), if m.any (fun r => r.any (fun v => decide (satQ10 v ≠ v))) then { f with bad := true } else f)

/-- `b` − Σ of products of two operands in Q10.21, accumulated in Q16.47: beyond it, a lane saturation. -/
def macSub (b : Int) (xs ys : List Int) (f : Fac) : Int × Fac :=
  let num := b * 2097152 - sumI (List.zipWith (· * ·) xs ys)
  intoQ10 (divEven num 2097152) (if satS 58 num = num then f else { f with bad := true })

/-- `v / d` in Q10.21. -/
def divQ10 (v d : Int) (f : Fac) : Int × Fac :=
  intoQ10 (if d = 0 then 0 else divEven (if d < 0 then -(v * 2097152) else v * 2097152) d.natAbs) f

/-- `b` − M x, by rows. -/
def subMat : List (List Int) → List Int → List Int → Fac → List Int × Fac
  | r :: rs, x, b :: bs, f =>
    let (y, f1) := macSub b r x f
    let (ys, f2) := subMat rs x bs f1
    (y :: ys, f2)
  | _, _, _, f => ([], f)

/-! ### L D Lᵀ (R275, R278) -/

/-- A pivot by R278. -/
def pivot (epsPivot epsReg : Nat) (d : Int) (f : Fac) : Int × Fac :=
  if d = 0 then ((epsReg : Int), f.mark 2)
  else if d.natAbs < epsPivot then ((if d < 0 then -(epsReg : Int) else epsReg), f.mark 1)
  else if d < 0 then (d, { f.mark 4 with bad := true })
  else (d, f)

/-- The entries of row `i` left of the diagonal, columns in order: those of L D and those of L. `rows`: rows of L above, each up to its
diagonal. -/
def ldRow : List (List Int) → List Int → List Int → List Int → List Int → Fac → List Int × List Int × Fac
  | rk :: rows, m :: ms, ds, us, ls, f =>
    let (u, f1) := macSub m us rk f
    let (l, f2) := divQ10 u (nth 1 ds us.length) f1
    ldRow rows ms ds (us ++ [u]) (ls ++ [l]) f2
  | _, _, _, us, ls, f => (us, ls, f)

/-- L D Lᵀ of a symmetric matrix in raw Q10.21, given by its rows: rows of L left of the diagonal, and pivots. -/
def ldlt (epsPivot epsReg : Nat) : List (List Int) → List (List Int) → List Int → Fac → List (List Int) × List Int × Fac
  | [], ls, ds, f => (ls, ds, f)
  | m :: ms, ls, ds, f =>
    let i := ls.length
    let (us, row, f1) := ldRow ls (m.take i) ds [] [] f
    let (d0, f2) := macSub (nth 0 m i) us row f1
    let (d, f3) := pivot epsPivot epsReg d0 f2
    ldlt epsPivot epsReg ms (ls ++ [row]) (ds ++ [d]) f3

/-- Forward substitution with unit lower-triangular L. -/
def forwardSub : List (List Int) → List Int → List Int → Fac → List Int × Fac
  | r :: rs, b :: bs, acc, f =>
    let (x, f1) := macSub b r acc f
    forwardSub rs bs (acc ++ [x]) f1
  | _, _, acc, f => (acc, f)

/-- Division by the pivots. -/
def pivotDiv : List Int → List Int → Fac → List Int × Fac
  | d :: ds, y :: ys, f =>
    let (x, f1) := divQ10 y d f
    let (r, f2) := pivotDiv ds ys f1
    (x :: r, f2)
  | _, _, f => ([], f)

/-- Backward substitution with Lᵀ, from the last column; `k` counts down, `acc` holds the entries after `k`. -/
def backSub (ls : List (List Int)) (ys : List Int) : Nat → List Int → Fac → List Int × Fac
  | 0, acc, f => (acc, f)
  | k + 1, acc, f =>
    let (x, f1) := macSub (nth 0 ys k) ((ls.drop (k + 1)).map (fun r => nth 0 r k)) acc f
    backSub ls ys k (x :: acc) f1

/-- The factors of a D_j, with the Ψ_j that led to it. -/
structure FacBlock where
  ls : List (List Int) := []
  ds : List Int := []
  psi : List (List Int) := []

/-- D_j⁻¹ b from the factors. -/
def FacBlock.solve (k : FacBlock) (b : List Int) (f : Fac) : List Int × Fac :=
  let (y, f1) := forwardSub k.ls b [] f
  let (u, f2) := pivotDiv k.ds y f1
  backSub k.ls u k.ls.length [] f2

/-! ### The blocks (R273, R274) -/

/-- Scaled coefficients of a row over the variables of its own step and of the step before. -/
def scaledRow (ve : List Int) (re : Int) (r : List Frac) : List Frac := List.zipWith (fun c e => Frac.mul c (Frac.pow2 (e + re))) r ve

/-- The rows of step `j`, scaled, as pairs (own step, step before). -/
def scaledRows (steps : List StepProb) (j : Nat) : List (List Frac × List Frac) :=
  let p := nth {} steps j
  let pe := (nth {} steps (j - 1)).varExp
  List.zipWith (fun (r : IneqRow) re => (scaledRow p.varExp re r.cur, scaledRow pe re r.prev)) p.rows p.rowExp

/-- Rows of step j + 1 as they bear on step `j`. -/
def nextRows (steps : List StepProb) (j : Nat) : List (List Frac) := (scaledRows steps (j + 1)).map Prod.snd

/-- The greatest σ by which no diagonal element of Φ_j gets more than 256 from its rows. -/
def sigmaCap (steps : List StepProb) (j : Nat) : Frac :=
  let rows := (scaledRows steps j).map Prod.fst ++ (nextRows steps j).filter (fun r => !r.isEmpty)
  let diag := addRows (nth {} steps j).vars.length (rows.map (fun r => (r.map (fun c => Frac.mul c c), Frac.one)))
  Frac.div (Frac.ofNat 256) (Frac.max (maxAbs diag) (Frac.pow2 (-40)))

/-- The ratio σ of every row of every step, clamped so that the barrier terms on any diagonal element sum to at most 256 (R274): a row that
couples two steps keeps within the bounds of both. -/
def sigmas (n : Nat) (steps : List StepProb) (t : Iter) : List (List Frac) :=
  let free : Frac := Frac.norm (Config.sigmaClamp n : Nat) (2 ^ 21)
  (List.range steps.length).map (fun j =>
    let cap := Frac.min free (Frac.min (sigmaCap steps j) (sigmaCap steps (j - 1)))
    List.zipWith (fun w z => Frac.min (Frac.div (q21 z) (q21 (max w 1))) cap) (nth [] t.w j) (nth [] t.z j))

/-- Blocks Φ_j and Ψ_j of an iteration, raw Q10.21 before saturation (R273). -/
def kktBlocks (steps : List StepProb) (sg : List (List Frac)) (j : Nat) : List (List Int) × List (List Int) :=
  let p := nth {} steps j
  let pp := nth {} steps (j - 1)
  let nv := p.vars.length
  let own := List.zip (scaledRows steps j) (nth [] sg j)
  let bal := List.zipWith (fun r e => scaledRow p.varExp e r) p.bal p.balExp
  let weighted := own.map (fun r => (r.1.1, r.2)) ++ (List.zip (nextRows steps j) (nth [] sg (j + 1))).filter (fun r => !r.1.isEmpty) ++
    bal.map (fun r => (r, Frac.ofNat 16))
  let phi := (List.range nv).map (fun u =>
    let base := (List.range nv).map (fun v => if u = v then Frac.mul (nth Frac.zero p.hess u) (Frac.pow2 (2 * nth 0 p.varExp u)) else Frac.zero)
    (weighted.foldl (fun acc r => let c := Frac.mul (nth Frac.zero r.1 u) r.2; List.zipWith (fun a b => Frac.add a (Frac.mul c b)) acc r.1) base).map (toFx 21))
  let psi := if j = 0 then [] else (List.range nv).map (fun u =>
    let base := (List.range pp.vars.length).map (fun v =>
      if u = v then Frac.mul (nth Frac.zero p.coup u) (Frac.pow2 (nth 0 p.varExp u + nth 0 pp.varExp v)) else Frac.zero)
    ((own.filter (fun r => !r.1.2.isEmpty)).foldl
      (fun acc r => let c := Frac.mul (nth Frac.zero r.1.1 u) r.2; List.zipWith (fun a b => Frac.add a (Frac.mul c b)) acc r.1.2) base).map (toFx 21))
  (phi, psi)

/-- D_j from Φ_j, Ψ_j and the factors of D_{j−1} (R275). -/
def schur (phi psi : List (List Int)) (prev : Option FacBlock) (f : Fac) : List (List Int) × Fac :=
  match prev with
  | none => (phi, f)
  | some k =>
    let cols := psi.map (fun r => k.solve r f)
    let rows := List.zipWith (fun (r : List Int) (pr : List Int) => List.zipWith (fun (e : Int) (c : List Int × Fac) => macSub e pr c.1 f) r cols) phi psi
    let bad := cols.any (·.2.bad) || rows.any (fun r => r.any (·.2.bad))
    (rows.map (fun r => r.map Prod.fst), if bad then { f with bad := true } else f)

/-- The forward recursion of R275 over `k` steps more: the factors in step order. -/
def factorise (epsPivot epsReg : Nat) (steps : List StepProb) (sg : List (List Frac)) : Nat → Option FacBlock → Fac → List FacBlock × Fac
  | 0, _, f => ([], f)
  | k + 1, prev, f =>
    let (phi0, psi0) := kktBlocks steps sg (steps.length - (k + 1))
    let (phi, f1) := matQ10 phi0 f
    let (psi, f2) := matQ10 psi0 f1
    let (d, f3) := schur phi psi prev f2
    let (ls, ds, f4) := ldlt epsPivot epsReg d [] [] f3
    let b : FacBlock := { ls := ls, ds := ds, psi := psi }
    let (bs, f5) := factorise epsPivot epsReg steps sg k (some b) f4
    (b :: bs, f5)

/-! ### Directions (R273, R275) -/

/-- Forward over the steps: y_j = g_j − Ψ_j D_{j−1}⁻¹ y_{j−1}. -/
def blockForward : List FacBlock → List (List Int) → Option (FacBlock × List Int) → Fac → List (FacBlock × List Int) × Fac
  | b :: bs, g :: gs, prev, f =>
    let (y, f1) : List Int × Fac := match prev with
      | none => (g, f)
      | some (k, y) => let (v, h) := k.solve y f; subMat b.psi v g h
    let (r, f2) := blockForward bs gs (some (b, y)) f1
    ((b, y) :: r, f2)
  | _, _, _, f => ([], f)

/-- Back over the steps, from the last: D_j x_j = y_j − Ψ_{j+1}ᵀ x_{j+1}. `next`: Ψ_{j+1} and x_{j+1}. -/
def blockBack : List (FacBlock × List Int) → Option (List (List Int) × List Int) → List (List Int) → Fac → List (List Int) × Fac
  | [], _, acc, f => (acc, f)
  | (b, y) :: r, next, acc, f =>
    let (v, f1) : List Int × Fac := match next with
      | none => (y, f)
      | some (psi, x) => subMat ((List.range y.length).map (fun c => psi.map (fun q => nth 0 q c))) x y f
    let (x, f2) := b.solve v f1
    blockBack r (some (b.psi, x)) (x :: acc) f2

/-- A direction in raw Q10.21: of the scaled variables, of w and of z, by step. -/
structure Dir where
  x : List (List Int) := []
  w : List (List Int) := []
  z : List (List Int) := []

/-- A matrix formed row by row from a step number enters Q10.21. -/
def stepsQ10 (n : Nat) (row : Nat → List Frac) (f : Fac) : List (List Int) × Fac := matQ10 ((List.range n).map (fun j => (row j).map (toFx 21))) f

/-- A dx of the rows of step `j`. -/
def rowMove (steps : List StepProb) (dx : List (List Int)) (j : Nat) : List Frac :=
  let d := fun i => (nth [] dx i).map q21
  (scaledRows steps j).map (fun r => Frac.add (dotF r.1 (d j)) (dotF r.2 (d (j - 1))))

/-- The direction of a primal-dual step with the factors at hand, when the complementarity z w of each row is to change by −z w + `corr`.
With σ = z/w and r_p = A x + w − b, the Newton equations give (H + Aᵀ σ A + 16 Eᵀ E) dx = −(H x + c + Eᵀ(λ + 16 (E x − d)) + Aᵀ q), where
q = corr/w + σ r_p, and dw = −r_p − A dx, dz = q − z + σ A dx. -/
def direction (steps : List StepProb) (t : Iter) (bs : List FacBlock) (sg : List (List Frac)) (corr : Nat → List Frac) (f : Fac) : Dir × Fac :=
  let n := steps.length
  let rp := (List.range n).map (ineqStep steps t.x t.w)
  let q := (List.range n).map (fun j =>
    List.zipWith Frac.add (List.zipWith (fun c w => Frac.div c (q21 (max w 1))) (corr j) (nth [] t.w j)) (List.zipWith Frac.mul (nth [] sg j) (nth [] rp j)))
  let lam := (List.range n).map (fun j =>
    List.zipWith (fun l e => Frac.add (q21 l) (Frac.mul (Frac.ofNat 16) e)) (nth [] t.lam j) (balStep steps t.x j))
  let (g, f1) := stepsQ10 n (fun j => (gradStep steps t.x q lam j).map Frac.neg) f
  let (ys, f2) := blockForward bs g none f1
  let (dx, f3) := blockBack ys.reverse none [] f2
  let mv := (List.range n).map (rowMove steps dx)
  let (dw, f4) := stepsQ10 n (fun j => List.zipWith (fun r m => Frac.neg (Frac.add r m)) (nth [] rp j) (nth [] mv j)) f3
  let (dz, f5) := stepsQ10 n (fun j =>
    List.zipWith Frac.add (List.zipWith (fun c z => Frac.sub c (q21 z)) (nth [] q j) (nth [] t.z j)) (List.zipWith Frac.mul (nth [] sg j) (nth [] mv j))) f4
  ({ x := dx, w := dw, z := dz }, f5)

/-- Mean complementarity of an iterate. -/
def meanComp (t : Iter) : Frac :=
  let zs := List.zipWith (fun a b => Frac.mul (q21 a) (q21 b)) (t.w.flatMap id) (t.z.flatMap id)
  if zs.isEmpty then Frac.zero else Frac.div (Frac.sum zs) (Frac.ofNat zs.length)

/-- The corrected direction: after the affine one, with the same factors, towards a share of the mean complementarity and against a share of
the affine direction's second-order term. Both shares are open (R273). -/
def corrected (n : Nat) (steps : List StepProb) (t : Iter) (bs : List FacBlock) (sg : List (List Frac)) (f : Fac) : Dir × Fac :=
  let (a, f1) := direction steps t bs sg (fun j => (nth [] t.w j).map (fun _ => Frac.zero)) f
  let share := fun (v : Nat) => Frac.norm (Nat.min 65536 v : Nat) 65536
  let mu := Frac.mul (share (Config.centring n)) (meanComp t)
  let k := share (Config.secondOrder n)
  direction steps t bs sg
    (fun j => List.zipWith (fun dw dz => Frac.sub mu (Frac.mul k (Frac.mul (q21 dw) (q21 dz)))) (nth [] a.w j) (nth [] a.z j)) f1

/-! ### The step (R273) -/

/-- Largest step that keeps a positive quantity positive. -/
def maxStep (v d : Int) : Frac := if d < 0 then Frac.norm v d.natAbs else Frac.ofNat 1000000

/-- The step length α. -/
def stepLength (t : Iter) (d : Dir) : Frac :=
  let most := fun (m e : List (List Int)) => (List.zipWith maxStep (m.flatMap id) (e.flatMap id)).foldl Frac.min (Frac.ofNat 1000000)
  Frac.min Frac.one (Frac.mul ⟨99, 100⟩ (Frac.min (most t.w d.w) (most t.z d.z)))

/-- Move quantities in Q10.21 along a direction. -/
def moveList (a : Frac) (m d : List (List Int)) : List (List Int) :=
  List.zipWith (fun r e => List.zipWith (fun v x => v + roundEven (Frac.mul a (Frac.ofInt x))) r e) m d

/-- The variables moved along the direction of the scaled ones: Q2.29, unscaled. -/
def moveVars (a : Frac) (steps : List StepProb) (m d : List (List Int)) : List (List Int) :=
  (enumFrom 0 (List.zip m d)).map (fun r =>
    List.zipWith (fun (v : Int × Int) e => v.1 + roundEven (Frac.mul (Frac.mul a (Frac.ofInt v.2)) (Frac.pow2 (8 + e))))
      (List.zip r.2.1 r.2.2) (nth {} steps r.1).varExp)

/-- A matrix within 31 bits. -/
def inRange (m : List (List Int)) : Bool := m.all (fun r => r.all (fun v => decide (satS 31 v = v)))

/-- The iterate after a step along a direction, with λ; the residual is evaluated with it. -/
def takeStep (steps : List StepProb) (t : Iter) (d : Dir) : Iter :=
  let a := stepLength t d
  let x := moveVars a steps t.x d.x
  let lam := (enumFrom 0 t.lam).map (fun r => List.zipWith (fun l e => l + toFx 21 (Frac.mul (Frac.ofNat 16) e)) r.2 (balStep steps x r.1))
  let u : Iter := { x := x, lam := lam, w := moveList a t.w d.w, z := moveList a t.z d.z }
  { u with resid := residual steps u }

/-- One iteration of a solve: kept, or discarded with ε_reg raised (R279, R280). An iteration that overflowed, was indefinite or met a zero pivot
is noted for event 0x0A04. -/
def iterate (cfg : Image.Solver) (n : Nat) (v : Solve) : Solve :=
  let steps := v.prob.steps
  let sg := sigmas n steps v.cur
  let (bs, f0) := factorise cfg.epsPivot v.epsReg steps sg steps.length none {}
  let (d, f) := corrected n steps v.cur bs sg f0
  let u := takeStep steps v.cur d
  let bad := f.bad || residSat steps u || !inRange u.x || !inRange u.lam || !inRange u.w || !inRange u.z
  let v1 := { v with
    iters := v.iters + 1, flags := Nat.lor v.flags f.flags, epsPeak := Nat.max v.epsPeak v.epsReg
    marks := if bad || f.flags.testBit 2 then v.marks ++ [(v.iters + 1, v.epsReg)] else v.marks }
  if bad then
    let e := Nat.min (16 * v.epsReg) cfg.epsRegMax
    { v1 with epsReg := e, flags := Nat.lor v1.flags (if e = cfg.epsRegMax then 40 else 8) }
  else { v1 with cur := u, best := if u.resid < v.best.resid then u else v.best }

end Sys2Proof.Machine
end

