-- ==== Sys2Proof/Machine/Solver.lean ====
section
/-! DEFINITION. Solves, the solver arrays, the shadow schedule, consequence analysis and the use of a shadow after a failure (10_solver R269 to
R272, R280 to R301). Readings: notes/assumptions/28.md. -/

namespace Sys2Proof.Machine

def setSol (f : SolverSt → SolverSt) (s : State) : State := { s with solver := f s.solver }

/-- A solve has ended by itself: converged (R281), or at the cap (R282). -/
def solveEnded (cfg : Image.Solver) (v : Solve) : Bool := decide (v.cur.resid ≤ cfg.tolPrimary) || decide (cfg.iterCap ≤ v.iters)

/-- Iterations until the solve ends, at most `fuel`. -/
def runSolve (cfg : Image.Solver) : Nat → Nat → Solve → Solve
  | 0, _, v => v
  | k + 1, n, v => if solveEnded cfg v then v else runSolve cfg k (n + 1) (iterate cfg n v)

/-- A solve starts: iterate 0 with its residual (R276). -/
def startSolve (s : State) (p : Problem) : Solve :=
  let t := { p.start with resid := residual p.steps p.start }
  let e := s.cfg.img.solver.epsReg
  { prob := p, cur := t, best := t, epsReg := e
    flags := Nat.lor (if p.cold then 64 else 0) (if e = s.cfg.img.solver.epsRegMax then 32 else 0) }

/-- An iterate as a solution in reported units. -/
def toSolution (p : Problem) (t : Iter) : Solution :=
  let vs := fun (j : Nat) (q : StepProb) => List.zip q.vars (iterVars (nth [] t.x j))
  { x := (enumFrom 0 p.steps).map (fun q => ((vs q.1 q.2).filter (fun v => v.1.1 ≠ slackThr)).foldl (fun m v => Table.set m (2 * v.1.1 + v.1.2) (toQ29 v.2)) [])
    slack := (enumFrom 0 p.steps).map (fun q => ((vs q.1 q.2).filter (fun v => v.1.1 == slackThr)).map (fun v => toQ29 v.2))
    lam := (enumFrom 0 p.steps).map (fun q => List.zipWith (fun l e => satQ10 (toFx 21 (Frac.mul (q21 l) (Frac.pow2 e)))) (nth [] t.lam q.1) q.2.balExp)
    z := (enumFrom 0 p.steps).map (fun q => (List.zip q.2.rows (unscale q.2.rowExp ((nth [] t.z q.1).map q21))).foldl (fun m r => Table.set m r.1.tag r.2) [])
    resid := t.resid }

/-- Outcome of a solve (R281, R282): the iterate that stands, and 0 converged, 1 accepted, 2 none. -/
def outcome (cfg : Image.Solver) (v : Solve) : Option Iter × Nat :=
  if v.cur.resid ≤ cfg.tolPrimary then (some v.cur, 0)
  else if v.best.resid ≤ cfg.tolAccept then (some v.best, 1) else (none, 2)

/-! ### Groups and the schedule (R290 to R292) -/

/-- The lost set of a group as a mask of thrusters (R290). -/
def groupMask (s : State) (g : Nat) : Nat :=
  let c := nth {} s.cfg.img.alloc.groups g
  maskOf ((enumFrom 0 s.cfg.img.vessel.thrusters).map (fun p => c.thrMask.testBit p.1 || c.busMask.testBit p.2.bus))

def nGroups (s : State) : Nat := s.cfg.img.alloc.groups.length
def shadowOf (s : State) (g : Nat) : Shadow := nth {} s.solver.shadows g
def setShadow (g : Nat) (f : Shadow → Shadow) (s : State) : State := setSol (fun v => { v with shadows := upd f v.shadows g }) s
def prioOf (s : State) (g : Nat) : Nat := (nth {} s.cfg.img.alloc.groups g).priority

/-- `a` is a subset of `b`. -/
def subMask (a b : Nat) : Bool := decide (Nat.land a b = a)

/-- AGE of a group at an instant, µs (R291). -/
def ageAt (x : Shadow) (tic : Nat) : Nat := match x.sol with | some _ => satU 32 ((tic - x.refreshTic) / 1000) | none => 0xFFFFFFFF

def isMoot (s : State) (g : Nat) : Bool := subMask (groupMask s g) (unavailMask s)

/-- F of R292. -/
def fixedCount (s : State) : Nat :=
  let n := grantShadows s
  if s.cfg.img.solver.fixedShadows = 0xFF then (n + 1) / 2 else Nat.min s.cfg.img.solver.fixedShadows n

/-- The shadow schedule of the frame: groups in order, and the fixed ones (R292). -/
def schedule (s : State) : List Nat × List Nat :=
  let n := grantShadows s
  let f := fixedCount s
  let live := (List.range (nGroups s)).filter (fun g => !isMoot s g)
  let byPrio := sortBy (fun a b => decide (prioOf s a < prioOf s b)) live
  let fixed := byPrio.take f
  let rest := (byPrio.drop f)
  let age := fun g => ageAt (shadowOf s g) s.frame.tic
  let turns := (sortBy (fun a b => decide (age b < age a)) rest).take (n - fixed.length)
  (fixed ++ byPrio.filter (fun g => turns.contains g), fixed)

/-! ### Use of a shadow after a failure (R295 to R297) -/

/-- Groups that match L_k (R295). -/
def matching (s : State) : List Nat :=
  (List.range (nGroups s)).filter (fun g => subMask s.alloc.lostNow (groupMask s g) && subMask (groupMask s g) (unavailMask s))

/-- Why a shadow is not usable: 1 never solved, 2 basis changed, 3 too old, 4 image changed; none when it is usable (R295, R297).
`out0`: buses out in frame k − 1. -/
def unusable (s : State) (out0 g : Nat) : Option Nat :=
  let x := shadowOf s g
  if x.sol.isNone then some 1
  else if x.basisThr ≠ s.alloc.prevUnavail ∨ x.basisBus ≠ out0 then some 2
  else if x.foreignImg then some 4
  else if s.cfg.img.solver.shadowUseMs = 0 ∨ s.cfg.img.solver.shadowUseMs * 1000 < ageAt x s.frame.tic then some 3
  else none

/-- Step 0 limited to within 2 × RATE × T_F of f_emit; whether the limit acted (R296). -/
def limitStep0 (s : State) (k : Nat) (sol : Solution) : Solution × Bool :=
  let lim := fun (i : Nat) (e v : Int) =>
    let r := toQ29 (Frac.mul (Frac.ofNat k) (rateOver (thrCfg s i) (tfMs s)))
    clamp (e - r) (e + r) v
  let old := nth [] sol.x 0
  let new := (availList s).foldl (fun t i =>
    (axesOf (thrCfg s i).kind).foldl (fun t a => Table.set t (2 * i + a) (lim i (if a = 0 then (emitOf s i).1 else (emitOf s i).2) (Table.get 0 old (2 * i + a)))) t)
    (old.filter (fun p => (availList s).contains (p.1 / 2)))
  ({ sol with x := upd (fun _ => new) sol.x 0 }, (availList s).any (fun i => (axesOf (thrCfg s i).kind).any (fun a => decide (Table.get 0 new (2 * i + a) ≠ Table.get 0 old (2 * i + a)))))

/-- The emission decision of P3 (R295 to R297). -/
def decideEmission (out0 : Nat) (s : State) : State :=
  let s0 := setSol (fun v => { v with shadowEmitted := false, solvFlags := 0 }) (setAlloc (fun a => { a with emitGroup := none }) s)
  if s.alloc.lostNow = 0 then s0
  else
    let ms := matching s
    let ok := ms.filter (fun g => (unusable s out0 g).isNone)
    match sortBy (fun a b => decide (ageAt (shadowOf s a) s.frame.tic < ageAt (shadowOf s b) s.frame.tic))
        (sortBy (fun a b => decide (prioOf s a < prioOf s b)) ok) with
    | g :: _ =>
      let sol := fitSolution (grantSteps s) ((shadowOf s g).sol.getD {})
      let (lim, acted) := limitStep0 s 2 sol
      event 0x0A01 (u8 g ++ u32 (ageAt (shadowOf s g) s.frame.tic) ++ u32 s.alloc.lostNow ++ flag acted)
        (setSol (fun v => { v with shadowEmitted := true, emitSol := some lim, emitSource := 3, solvFlags := if acted then 256 else 0 })
          (setAlloc (fun a => { a with emitGroup := some g }) s0))
    | [] =>
      let why := match sortBy (fun a b => decide (prioOf s a < prioOf s b)) ms with
        | g :: _ => (unusable s out0 g).getD 0
        | [] => 0
      faultOnce 0x0A14 (event 0x0A02 (u32 s.alloc.lostNow ++ u8 why) s0)

/-! ### P3 -/

/-- The solution of the shadow that is emitted, as it stands before the limit of R296. -/
def emittedShadow (s : State) : Option Solution := s.alloc.emitGroup.bind (fun g => (shadowOf s g).sol.map (fitSolution (grantSteps s)))

/-- The solution from which the primary warm-starts: the emitted shadow's after a failure (R296), else the one that stood (R287). -/
def primaryWarm (s : State) : Option Solution := if s.solver.shadowEmitted then emittedShadow s else s.solver.standing

/-- A shadow's programme (R256, R288). -/
def shadowProblem (s : State) (g : Nat) : Problem :=
  let x := shadowOf s g
  let same := x.sol.isSome && x.basisThr == unavailMask s && x.basisBus == outMask s && !x.foreignImg
  let warm := if same then x.sol else primaryWarm s
  assemble s (some g) (Nat.lor (unavailMask s) (groupMask s g)) (Nat.lor (outMask s) (nth {} s.cfg.img.alloc.groups g).busMask) warm s.solver.cold

/-- An array takes work in the frame in progress: not lost, not in reset (10 R270, 19 R495). -/
def arrayWorks (s : State) (a : Arr) : Bool :=
  let k := match a with | .A => 1 | .B => 2
  (match a with | .A => !s.chandler.lostA | .B => !s.chandler.lostB) && !blockIdle s k

/-- The array that takes the role of SA-A: SA-B when SA-A is lost or takes no work (11 R311). -/
def roleA (s : State) : Option Arr :=
  if arrayWorks s .A then some .A else if arrayWorks s .B = true ∧ sbReady s = true then some .B else none

/-- The second array, when it is granted. -/
def roleB (s : State) : Option Arr := if roleA s = some .A ∧ arrayWorks s .B = true ∧ sbGranted s = true then some .B else none

def onArr (s : State) (a : Arr) : Option Solve := match a with | .A => s.solver.onA | .B => s.solver.onB
def setArr (a : Arr) (v : Option Solve) (s : State) : State :=
  setSol (fun q => match a with | .A => { q with onA := v } | .B => { q with onB := v }) s

/-- An array starts the next problem: the primary on the role of SA-A when it waits, else the next shadow in schedule order (R270). -/
def startNext (a : Arr) (s : State) : State :=
  match (if roleA s = some a then s.solver.primary else none) with
  | some p => setArr a (some (startSolve s p)) (setSol (fun v => { v with primary := none }) s)
  | none =>
    match s.solver.queue with
    | p :: q => setArr a (some (startSolve s p)) (setSol (fun v => { v with queue := q }) s)
    | [] => setArr a none s

/-- Dispatch at the start of P4 (R270). -/
def dispatch (s : State) : State :=
  let s1 := match roleA s with | some a => startNext a s | none => s
  match roleB s with | some b => startNext b s1 | none => s1

/-- P3 of a frame (09 R257): availability, crossings, the emission decision, the schedule, the assembled problems, the start of P4.
`primary`: whether the primary was assembled; `k`: how many shadows were. -/
def p3Run (primary : Bool) (k : Nat) (s0 : State) : State :=
  let out0 := outMask s0
  let s1 := allocCross (allocAvail s0)
  let s2 := setAlloc (fun a => { a with tauDem := s1.obs.tauDem }) (decideEmission out0 s1)
  let (sched, fixed) := schedule s2
  let warm := primaryWarm s2
  let s3 := notePrimary s2 (if s2.solver.cold then none else warm)
  let p := if primary then some (assemble s3 none (unavailMask s3) (outMask s3) warm s3.solver.cold) else none
  let ps := (sched.take k).map (shadowProblem s3)
  let s4 := setSol (fun v => { v with
    primary := p, queue := ps, sched := sched, fixed := fixed, primSol := none, primResult := 3, primIters := 0, primResid := 0xFFFFFFFF
    epsPeak := 0, busyA := 0, busyB := 0
    shadows := (enumFrom 0 v.shadows).map (fun x => { x.2 with iters := 0, gflags := if fixed.contains x.1 then 32 else 0, fresh := false }) }) s3
  dispatch { s4 with nFree := s4.nFree + 1 }

/-! ### Results (R281 to R286, R293) -/

/-- Slack of a step as force and moment (R293), N and N·m. -/
def slackForce (s : State) (sol : Solution) (j : Nat) : List Int :=
  (List.range 3).map (fun c => satS 32 (roundEven (Frac.mul (q29 (nth 0 (nth [] sol.slack j) c)) (Frac.ofInt (tauRef s c)))))

/-- Events 0x0A04 of a solve: one for each iteration that overflowed, was indefinite or met a zero pivot, with its ε_reg (Table 10-7). -/
def solveEvent (v : Solve) (s : State) : State :=
  v.marks.foldl (fun t m => event 0x0A04 (u8 (v.prob.group.getD 0xFF) ++ u8 m.1 ++ u32 m.2) t) s

/-- The result of a solve enters the state. `cut`: the end of P4 stopped it. -/
def takeResult (a : Arr) (cut : Bool) (v0 : Solve) (s : State) : State :=
  let cfg := s.cfg.img.solver
  let v := if cut then { v0 with flags := Nat.lor v0.flags 1, iters := v0.iters + 1, epsPeak := Nat.max v0.epsPeak v0.epsReg } else v0
  let (best, res) := outcome cfg v
  let s1 := setSol (fun q => { q with epsPeak := Nat.max q.epsPeak v.epsPeak }) (solveEvent v s)
  match v.prob.group with
  | none =>
    setSol (fun q => { q with
      primSol := best.map (toSolution v.prob), primResult := res, primIters := v.iters
      primResid := (match best with | some t => t.resid | none => 0xFFFFFFFF), solvFlags := Nat.lor q.solvFlags v.flags }) s1
  | some g =>
    let bits := (if v.flags.testBit 0 then 2 else 0) + (if v.flags.testBit 1 then 4 else 0) + (if v.flags.testBit 2 then 8 else 0) +
      (if v.flags.testBit 3 then 16 else 0) + (match a with | .A => 0 | .B => 64)
    setShadow g (fun x =>
      let y := { x with iters := v.iters, gflags := Nat.lor x.gflags bits }
      match best with
      | none => y
      | some t =>
        let sol := toSolution v.prob t
        let n := v.prob.steps.length
        { y with sol := some sol, steps := n, basisThr := unavailMask s, basisBus := outMask s, refreshTic := s.frame.tic
                 loss := slackForce s sol 0, lossFinal := slackForce s sol (n - 1), resid := t.resid, accepted := decide (res = 1)
                 fresh := true, foreignImg := false }) s1

def addBusy (a : Arr) (us : Nat) (s : State) : State :=
  setSol (fun q => match a with | .A => { q with busyA := satU 16 (q.busyA + us) } | .B => { q with busyB := satU 16 (q.busyB + us) }) s

/-- SOLVE_COMPLETE (R270): the array's solve ends by itself, its result is taken, and the array starts the next problem. -/
def solveComplete (a : Arr) (busyUs : Nat) (s : State) : State :=
  if s.frame.phase = 4 then
    match onArr s a with
    | some v =>
      let r := runSolve s.cfg.img.solver s.cfg.img.solver.iterCap s.nFree v
      startNext a (takeResult a false r { addBusy a busyUs s with nFree := s.nFree + 32 })
    | none => s
  else s

def execSolveComplete (dt : Nat) (arr : Arr) (busyUs : Nat) (s : State) : Host.Outcome State Fault Refusal :=
  .next (settle (solveComplete arr busyUs (advance s dt)))

/-- The end of P4 on one array (R282, R283): `iters` further iterations were complete. -/
def deadlineArr (a : Arr) (r : ArrIn) (s : State) : State :=
  match onArr s a with
  | none => s
  | some v =>
    let w := runSolve s.cfg.img.solver (Nat.min r.iters s.cfg.img.solver.iterCap) s.nFree v
    setArr a none (takeResult a (!solveEnded s.cfg.img.solver w) w { addBusy a r.busyUs s with nFree := s.nFree + 32 })

/-- The hold-shift (R284). -/
def holdShift (s : State) : Solution :=
  let n := grantSteps s
  let old := fitSolution n (s.solver.standing.getD {})
  let sh := fun {α : Type} (d : α) (xs : List α) => (List.range n).map (fun j => nth d xs (Nat.min (j + 1) (n - 1)))
  let keep := fun (t : Table Int) => t.filter (fun p => (availList s).contains (p.1 / 2))
  let x := (sh [] old.x).map keep
  let lim := (limitStep0 s 1 { old with x := x }).1
  let bnd := (availList s).foldl (fun t i =>
    if (thrSt s i).crossing.isSome then
      let b := toQ29 (crossBound s i 0)
      (axesOf (thrCfg s i).kind).foldl (fun t a => Table.set t (2 * i + a) (clamp (-b) b (Table.get 0 t (2 * i + a)))) t
    else t) (nth [] lim.x 0)
  { x := upd (fun _ => bnd) lim.x 0, slack := sh [] old.slack, lam := sh [] old.lam, z := sh [] old.z }

/-- The primary's result stands, or the frame is a hold-shift, or a shadow was emitted (R284, R285, R296). -/
def standPrimary (s : State) : State :=
  let q := s.solver
  if q.shadowEmitted then
    let st := match q.primSol with | some x => some x | none => emittedShadow s
    setSol (fun v => { v with standing := st }) s
  else
    match q.primSol with
    | some x =>
      let s1 := setSol (fun v => { v with standing := some x, emitSol := some x, emitSource := v.primResult, holdRun := 0 }) s
      endCond 0x0A10 false (if 0 < q.holdRun then event 0x0A03 (flag false ++ u8 (Nat.min 255 q.holdRun)) s1 else s1)
    | none =>
      let h := holdShift s
      let s1 := setSol (fun v => { v with standing := some h, emitSol := some h, emitSource := 2, holdRun := v.holdRun + 1, solvFlags := Nat.lor v.solvFlags 128 }) s
      if q.holdRun = 0 then event 0x0A03 (flag true ++ u8 1) s1 else s1

/-- A shadow is standing: refreshed, with the present basis (R294). -/
def standingShadow (s : State) (g : Nat) : Bool :=
  let x := shadowOf s g
  x.sol.isSome && x.basisThr == unavailMask s && x.basisBus == outMask s && !x.foreignImg

/-- Greatest AGE among non-moot groups (R294). -/
def oldestAge (s : State) : Nat := maxL (((List.range (nGroups s)).filter (fun g => !isMoot s g)).map (fun g => ageAt (shadowOf s g) s.frame.tic))

/-- A standing shadow exceeds a limit (R294). -/
def conseqNow (s : State) : Bool :=
  ((List.range (nGroups s)).filter (standingShadow s)).any (fun g => (List.range 3).any (fun c =>
    let l := nth 0 s.cfg.img.solver.conseqLim c
    decide (l ≠ 0) && decide (l < (nth 0 (shadowOf s g).lossFinal c).natAbs)))

/-- What the frame reports of the power rows at step 0 of the primary (Table 9-10): P_LIN, BIND, MARGINAL, SLACK_PEAK. -/
def powerReport (warm : Option Solution) (s : State) : State :=
  let sol := s.solver.standing.getD {}
  let bus := (enumFrom 0 s.alloc.bus).map (fun p =>
    let lin := busLin s warm sol p.1
    let z := Table.get Frac.zero (nth [] sol.z 0) (busTag p.1)
    let w := Frac.div (Frac.sub (Frac.ofInt p.2.pRhs) lin) (Frac.ofInt (nth {} s.cfg.img.vessel.buses p.1).busPmax)
    let act := p.2.inService && Config.rowActive w z
    { p.2 with pLin := roundEven lin, bind := act, marginal := if act then satU 32 (roundEven (Frac.mul z (Frac.ofNat 65536))).toNat else 0 })
  let peak := (List.range 3).map (fun c =>
    let xs := sol.slack.map (fun r => nth 0 r c)
    let m := xs.foldl (fun (a : Int) x => if a.natAbs < x.natAbs then x else a) 0
    satS 32 (roundEven (Frac.mul (q29 m) (Frac.ofInt (tauRef s c)))))
  setAlloc (fun a => { a with bus := bus, slackPeak := peak, pwrBind := bus.any (·.bind), solSource := s.solver.emitSource }) s

/-- The end of P4 (R282 to R286, R293, R294, 09 R252). -/
def p4End (a b : ArrIn) (s0 : State) : State :=
  let warm := if s0.solver.cold then none else primaryWarm s0
  let assembled := s0.solver.primary.isNone
  let s1 := deadlineArr .B b (deadlineArr .A a s0)
  let s2 := standPrimary (setSol (fun v => { v with queue := [], primary := none, cold := v.cold && !(assembled && decide (v.primResult ≠ 3)) }) s1)
  let q := s2.solver
  let acc := if q.primResult = 1 then q.accRun + 1 else 0
  let eps := if q.primResult ≠ 3 ∧ q.solvFlags.testBit 5 then q.epsRun + 1 else 0
  let con := conseqNow s2
  let s3 := setSol (fun v => { v with accRun := acc, epsRun := eps, conseq := con, conseqEl := since (elNs s0) con v.conseqEl }) s2
  let s4 := allocAfter (s3.solver.emitSol.getD {}) (grantSteps s3) (powerReport warm s3)
  let lim := s4.cfg.img.solver.coverAgeMs
  endCond 0x0A13 (decide (lim ≠ 0) && decide (lim * 1000 < oldestAge s4))
    (endCond 0x0A12 con (endCond 0x0A11 (decide (20 ≤ acc)) (endCond 0x0A15 (decide (20 ≤ eps)) s4)))

/-! ### Rows -/

/-- HOLD_SHIFT_FAULT (R285). -/
def holdShiftFault (s : State) : State := if 3 ≤ s.solver.holdRun then faultCond 0x0A10 true s else s

def execHoldShiftFault (dt : Nat) (s : State) : Host.Outcome State Fault Refusal := .next (settle (holdShiftFault (advance s dt)))

/-- SOLVER_RUN_FAULT (Table 10-7): 20 consecutive frames accepted, or flagged EPS_MAX. -/
def solverRunFault (epsMax : Bool) (s : State) : State :=
  if epsMax then (if 20 ≤ s.solver.epsRun then faultCond 0x0A15 true s else s)
  else if 20 ≤ s.solver.accRun then faultCond 0x0A11 true s else s

def execSolverRunFault (dt : Nat) (epsMax : Bool) (s : State) : Host.Outcome State Fault Refusal := .next (settle (solverRunFault epsMax (advance s dt)))

/-- CONSEQ_FAULT (R294): CONSEQ set for longer than CONSEQ_MS. -/
def conseqFault (s : State) : State :=
  match s.solver.conseqEl with
  | some t => if t + s.cfg.img.solver.conseqMs * 1000000 < elNs s then faultCond 0x0A12 true s else s
  | none => s

def execConseqFault (dt : Nat) (s : State) : Host.Outcome State Fault Refusal := .next (settle (conseqFault (advance s dt)))

/-- COVER_AGE_FAULT (R294). -/
def coverAgeFault (s : State) : State :=
  let lim := s.cfg.img.solver.coverAgeMs
  if dpRuns s = true ∧ lim ≠ 0 ∧ lim * 1000 < oldestAge s then faultCond 0x0A13 true s else s

def execCoverAgeFault (dt : Nat) (s : State) : Host.Outcome State Fault Refusal := .next (settle (coverAgeFault (advance s dt)))

/-! ### Start, image, takeover -/

/-- The solver starts cold (R289). A shadow refreshed under an image that is no longer in force stays on record as such (R295, R297); every other
one is never solved. -/
def solverStart (s : State) : State :=
  { s with solver := { shadows := (List.range (nGroups s)).map (fun g => let x := shadowOf s g; if x.foreignImg then x else {}) } }

/-- The solver's conditions end when P1 to P4 cease to run. -/
def solverStop (s : State) : State :=
  [0x0910, 0x0911, 0x0912, 0x0913, 0x0914, 0x0A10, 0x0A11, 0x0A12, 0x0A13, 0x0A15, 0x0710, 0x0711, 0x0712].foldl (fun t c => faultCond c false t)
    { s with solver := {}, alloc := {} }

/-! ### The COVERAGE section (R300) -/

/-- GSTATE of Table 10-6. -/
def gstate (s : State) (g : Nat) : Nat :=
  let x := shadowOf s g
  if isMoot s g then 4 else if x.fresh then (if x.accepted then 1 else 0) else if x.sol.isNone then 3 else if standingShadow s g then 2 else 5

/-- The standing group of largest normalised LOSS_FINAL (Table 10-4). -/
def worstGroup (s : State) : Nat :=
  let rel := fun g => (List.range 3).foldl (fun a c => Frac.max a (Frac.abs (Frac.div (Frac.ofInt (nth 0 (shadowOf s g).lossFinal c)) (Frac.ofInt (tauRef s c))))) Frac.zero
  match (List.range (nGroups s)).filter (fun g => standingShadow s g && !isMoot s g) with
  | [] => 0xFF
  | g :: r => r.foldl (fun a b => if Frac.lt (rel a) (rel b) then b else a) g

/-- A group record. A moot group carries the primary's slack as its loss (R290). -/
def groupRecord (s : State) (g : Nat) : Bytes :=
  let x := shadowOf s g
  let none_ : List Int := [-2147483648, -2147483648, -2147483648]
  let (l0, l1) : List Int × List Int :=
    if isMoot s g then
      (match s.solver.primSol with
       | some sol => (slackForce s sol 0, slackForce s sol (grantSteps s - 1))
       | none => (slackForce s (s.solver.standing.getD {}) 0, slackForce s (s.solver.standing.getD {}) (grantSteps s - 1)))
    else if x.sol.isNone then (none_, none_) else (x.loss, x.lossFinal)
  u8 g ++ u8 (prioOf s g) ++ u8 (gstate s g) ++ u8 x.iters ++ u32 (ageAt x s.frame.tic) ++ l0.flatMap i32 ++ l1.flatMap i32 ++ u32 x.resid ++
  u16 (x.gflags + (if s.alloc.emitGroup = some g then 1 else 0)) ++ u16 0

def coverageSection (s : State) : Bytes :=
  let q := s.solver
  let n := nGroups s
  u8 n ++ u8 q.sched.length ++ u8 (fixedCount s) ++ u8 ((q.shadows.filter (·.fresh)).length) ++ u8 (((List.range n).filter (isMoot s)).length) ++
  u8 q.primResult ++ u8 q.primIters ++ u8 (Nat.min 255 q.holdRun) ++ u32 q.primResid ++ u16 q.solvFlags ++ u16 0 ++ u32 q.epsPeak ++ u16 q.busyA ++
  u16 q.busyB ++ u32 (oldestAge s) ++ u8 (worstGroup s) ++ u8 (maskOf [q.shadowEmitted, q.conseq]) ++ u16 0 ++ (List.range n).flatMap (groupRecord s)

end Sys2Proof.Machine
end

