-- ==== Sys2Proof/Machine/Duty.lean ====
section
/-! DEFINITION. Entering and leaving duty: domains and their checks (12_lock_group R344, Table 12-8; 13_bringup R366), what duty starts
and what ends with it (11_power_budget Table 11-1, R313; 02_mailbox R70). -/

namespace Sys2Proof.Machine

/-- The command is at the tick: no time has passed since FRAME_TICK. -/
def atTick (s : State) : Bool := decide (s.clk.el = s.frame.ticEl) && s.frame.running

/-! ### Mailboxes -/

/-- A frame-bound request accepted and not applied is refused with STATE; held responses of applied ones are held no longer (R70). -/
def refuseBound (s : State) : State :=
  (List.range 9).foldl (fun t m =>
    let b := boxOf t m
    let q := b.queue.map (fun r =>
      if r.applyTic.isSome ∧ r.answer.isNone then { r with answer := some (respond r [] (some (errState t))), hold := false }
      else { r with hold := false })
    serve m (setBox m { b with queue := q } t)) s

/-! ### Domains -/

/-- Bit of a domain, Table 11-1. -/
def dHC : Nat := 4
def dSF : Nat := 5
def dSA : Nat := 6
def dSB : Nat := 7
def dFC : Nat := 8
def dGN : Nat := 9
def dAN : Nat := 10
def dIO : Nat := 11

/-- Both arrays are lost, counting those that fail now. -/
def bothArrays (s : State) (failed : Nat) : Bool :=
  (s.chandler.lostA || failed.testBit dSA) && (s.chandler.lostB || failed.testBit dSB)

/-- A failure with which a claim is aborted (Table 12-8). -/
def claimFails (s : State) (failed : Nat) : Bool :=
  failed.testBit dHC || failed.testBit dSF || failed.testBit dFC || failed.testBit dIO || bothArrays s failed

/-- What a failed check of an array, of PD-GN and of PD-AN leaves (Tables 12-8 and 13-2). -/
def domainLosses (failed : Nat) (s : State) : State :=
  let s1 := if failed.testBit dSA then degrade 1 (setCh (fun c => { c with lostA := true }) s) else s
  let s2 := if failed.testBit dSB then degrade 1 (setCh (fun c => { c with lostB := true }) s1) else s1
  let s3 := if failed.testBit dGN ∧ s2.unit.variantN = false then
      degrade 2 (setGnss (fun g => { g with failed := true }) s2) else s2
  if failed.testBit dAN then noteSettled (analogOff { s3 with analog := { s3.analog with failed := true } }) else s3

/-- Domains a claimer powers and checks (R344). -/
def claimDomains (s : State) : Nat :=
  maskOf ([false, false, false, false, true, true, true, true, true, !s.unit.variantN, !(usedGroups s).isEmpty, true])

/-- The domains of duty are powered in the frame of a claim or of PREPARE (R344, R348). Settling that an election's claimer has completed stays
complete (13 R358). -/
def claimPower (s : State) : State :=
  let s0 := { s with bring := { s.bring with done7 := s.bring.done7 && decide (s.bring.step ≤ 4) } }
  let s1 := safetyOn (noteAnalog (analogOn s0))
  if s1.unit.variantN = false ∧ s1.gnss.failed = false ∧ s1.gnss.powered = false then gnssStart s1 else s1

/-- The domains of duty but PD-AN are off (Table 11-1). -/
def dutyPowerOffKeep (s : State) : State :=
  let s1 := safetyOff s
  ioOff (if s1.gnss.powered ∨ s1.gnss.asleep then gnssOff s1 else s1)

/-- The domains of duty are off again (Table 11-1, 05 R142). -/
def dutyPowerOff (s : State) : State := dutyPowerOffKeep (analogOff s)

/-! ### Duty -/

/-- The module writes the operating seconds at which it first entered STANDBY when it has never ended a frame on duty (R339). -/
def noteStandby (s : State) : State :=
  { s with lock := { s.lock with drillOp := some (s.lock.drillOp.getD s.ledger.opS) } }

/-- Duty ends, `off` being what is switched off: the module is in STANDBY, and is good from the first checkpoint it commits (R332, R336, R346, Table 12-12). -/
def leaveDutyWith (off : State → State) (s : State) : State :=
  let s1 := { s with
    st := .standby, obs := {}, sp := {}, osc := List.replicate s.cfg.img.osc.conns.length {}
    lock := { s.lock with held := false, change := none, claim := none, claimOk := false, prepared := none, yielding := false
                          cpGood := false, cpLoaded := none, firstDuty := none }
    mb := { s.mb with dpReq := false, dpNext := none }
    frame := { s.frame with emitSuppressed := false }
    bring := { s.bring with complete := false, obsAtTick := false } }
  let s2 := off (solverStop (chStop (fusionStop (refuseBound s1))))
  noteStandby (faultCond 0x0D12 false (faultCond 0x0D10 false (faultCond 0x0D11 false (canStartAll s2))))

/-- Duty ends for STANDBY. -/
def leaveDuty (s : State) : State := leaveDutyWith dutyPowerOff s

/-- What duty starts at the tick at which the lease passes, whatever the state (R344 to R346). -/
def dutyStart (s : State) : State := gnssDuty (canStartAll (startIntake s))

/-- The stages start as after SELFTEST or a committed image (06 R171, 07 R196, 09 R246, 10 R289). -/
def stagesStart (s : State) : State := solverStart (allocStart (obsReset { s with fusion := {}, sp := {} }))

end Sys2Proof.Machine
end

