-- ==== Sys2Proof/Machine/CpParts.lean ====
section
/-! DEFINITION. The parts of a checkpoint (12_lock_group R341, Table 12-6; 06_fusion R172, 07_observer_control R197, 08_setpoints R233,
09_allocation R246, 17_safety_osc R454, R463).

The manual says what each part carries and how long it is, not where in the part a value stands. A part is a list of items, each read and
written by the same entry, so that what a module composes is what its successor reads; the order of the bytes in a part is the free
`Config.cpOrder` (notes/assumptions/29.md). -/

namespace Sys2Proof.Machine

/-- One value that a part carries: its width in bytes, whether it is signed, and how it is read from and put into what carries it. -/
structure CpItem (α : Type) where
  bytes : Nat := 1
  signed : Bool := false
  get : α → Int
  put : Int → α → α

/-! ### Items -/

def cpNat {α : Type} (n : Nat) (g : α → Nat) (p : Nat → α → α) : CpItem α := { bytes := n, get := fun a => (g a : Int), put := fun v a => p v.toNat a }
def cpInt {α : Type} (n : Nat) (g : α → Int) (p : Int → α → α) : CpItem α := { bytes := n, signed := true, get := g, put := p }
def cpBool {α : Type} (g : α → Bool) (p : Bool → α → α) : CpItem α := cpNat 1 (fun a => if g a then 1 else 0) (fun v a => p (v == 1) a)

/-- An instant or a number that may be absent: 0 absent, else one more. -/
def cpOpt {α : Type} (n : Nat) (g : α → Option Nat) (p : Option Nat → α → α) : CpItem α :=
  cpNat n (fun a => match g a with | some v => v + 1 | none => 0) (fun v a => p (if v = 0 then none else some (v - 1)) a)

/-- Several flags in one byte, the first in bit 0. -/
def cpBits {α : Type} (n : Nat) (g : α → List Bool) (p : List Bool → α → α) : CpItem α :=
  cpNat n (fun a => maskOf (g a)) (fun v a => p ((List.range (8 * n)).map v.testBit) a)

/-- A fraction with `k` fraction bits. -/
def cpFrac {α : Type} (n k : Nat) (g : α → Frac) (p : Frac → α → α) : CpItem α := cpInt n (fun a => toFx k (g a)) (fun v a => p (fx k v) a)

/-- Items of a component. -/
def cpInto {α β : Type} (g : α → β) (p : (β → β) → α → α) (is : List (CpItem β)) : List (CpItem α) :=
  is.map (fun i => { bytes := i.bytes, signed := i.signed, get := fun a => i.get (g a), put := fun v a => p (i.put v) a })

/-- Items of the first `n` elements of a list. -/
def cpEach {α β : Type} (n : Nat) (d : β) (g : α → List β) (p : (List β → List β) → α → α) (is : List (CpItem β)) : List (CpItem α) :=
  (List.range n).flatMap (fun k => cpInto (fun a => nth d (g a) k) (fun f a => p (fun l => upd f l k) a) is)

/-- Signed numbers of `w` bytes, the first `n` of a list. -/
def cpInts {α : Type} (n w : Nat) (g : α → List Int) (p : (List Int → List Int) → α → α) : List (CpItem α) :=
  cpEach n 0 g p [cpInt w id (fun v _ => v)]

/-! ### Bytes -/

/-- The bytes of items, in their order. -/
def cpPut {α : Type} (is : List (CpItem α)) (a : α) : Bytes := is.flatMap (fun i => leInt i.bytes (i.get a))

/-- What bytes say, put into a base. -/
def cpTake {α : Type} : List (CpItem α) → Bytes → α → α
  | [], _, a => a
  | i :: r, bs, a => cpTake r (bs.drop i.bytes) (i.put (if i.signed then fldI bs 0 i.bytes else (fld bs 0 i.bytes : Int)) a)

/-- The bytes of a string in another order: next comes the byte at `f n` of the `n` that are left. -/
def cpScatter (f : Nat → Nat) : Nat → Bytes → Bytes
  | 0, _ => []
  | n + 1, bs => let k := f (n + 1) % (n + 1); bs.getD k 0 :: cpScatter f n (bs.eraseIdx k)

/-- The string whose bytes stand in that order. -/
def cpGather (f : Nat → Nat) : Bytes → Bytes
  | [] => []
  | b :: r => let k := f (r.length + 1) % (r.length + 1); (cpGather f r).insertIdx k b

/-- Part `k` of `len` bytes (0 STATION, 1 FUSION, 2 CONTROL, 3 SETPOINT, 4 ALLOC); bytes that it does not use are zero. -/
def cpLay (k len : Nat) (bs : Bytes) : Bytes := cpScatter (fun n => Config.cpOrder (4096 * k + n)) len (padTo len bs)

/-- The bytes of part `k` in the order of its items. -/
def cpUnlay (k : Nat) (bs : Bytes) : Bytes := cpGather (fun n => Config.cpOrder (4096 * k + n)) bs

/-! ### STATION (12 Table 12-6, 17 R454, R463) -/

def connItems : List (CpItem OscConn) :=
  [cpNat 1 (·.st) (fun v c => { c with st := v }), cpNat 1 (·.ver) (fun v c => { c with ver := v }),
   cpNat 2 (·.txSeq) (fun v c => { c with txSeq := v }), cpNat 2 (·.rxLast) (fun v c => { c with rxLast := v }),
   cpNat 2 (·.rxExpMs) (fun v c => { c with rxExpMs := v })]

def stationItems : List (CpItem Checkpoint) :=
  [cpNat 1 (·.state) (fun v c => { c with state := v }), cpBool (·.dpReq) (fun v c => { c with dpReq := v }),
   cpNat 1 (·.mode) (fun v c => { c with mode := v }),
   cpOpt 1 (fun c => c.pendingMode.map Prod.fst) (fun v c => { c with pendingMode := v.map (fun m => (m, 0)) }),
   cpNat 8 (fun c => match c.pendingMode with | some p => p.2 | none => 0)
     (fun v c => { c with pendingMode := c.pendingMode.map (fun p => (p.1, v)) }),
   cpNat 2 (·.tripCount) (fun v c => { c with tripCount := v })] ++
  cpEach 4 0 (·.fstates) (fun f c => { c with fstates := f c.fstates }) [cpNat 1 id (fun v _ => v)] ++
  cpEach 64 {} (·.osc) (fun f c => { c with osc := f c.osc }) connItems ++
  cpEach 4 1 (·.safeSeq) (fun f c => { c with safeSeq := f c.safeSeq }) [cpNat 2 id (fun v _ => v)]

/-! ### FUSION (06 R172) -/

def refStateCode (x : RefState) : Nat := match x with | .isIn => 0 | .masked => 1 | .conflict => 2
def refStateOf (v : Nat) : RefState := if v = 0 then .isIn else if v = 1 then .masked else .conflict

def refItems : List (CpItem RefSt) :=
  [cpNat 1 (fun r => refStateCode r.state) (fun v r => { r with state := refStateOf v }),
   cpNat 1 (·.c) (fun v r => { r with c := v }), cpNat 1 (·.run) (fun v r => { r with run := v }),
   cpOpt 8 (·.evalStamp) (fun v r => { r with evalStamp := v }), cpNat 8 (·.freezeStamp) (fun v r => { r with freezeStamp := v }),
   cpNat 1 (fun r => r.freezeVals.length) (fun v r => { r with freezeVals := List.replicate v 0 })] ++
  cpInts 3 6 (·.freezeVals) (fun f r => { r with freezeVals := f r.freezeVals }) ++
  [cpBool (fun r => r.sRef.isSome) (fun v r => { r with sRef := if v then some 0 else none }),
   cpInt 8 (fun r => r.sRef.getD 0) (fun v r => { r with sRef := r.sRef.map (fun _ => v) }),
   cpNat 4 (·.learn) (fun v r => { r with learn := v }), cpInt 8 (·.learnMin) (fun v r => { r with learnMin := v }),
   cpOpt 1 (·.partner) (fun v r => { r with partner := v })]

def outFlagList (x : OutFlags) : List Bool :=
  [x.warmup, x.headingPred, x.motionUncomp, x.noPred, x.skew, x.holdoverUsed, x.conflict, x.redundancyLow, x.drLimit, x.dr, x.fresh, x.valid]
def outFlagsOf (l : List Bool) : OutFlags :=
  let b := nth false l
  { warmup := b 0, headingPred := b 1, motionUncomp := b 2, noPred := b 3, skew := b 4, holdoverUsed := b 5, conflict := b 6
    redundancyLow := b 7, drLimit := b 8, dr := b 9, fresh := b 10, valid := b 11 }

def fusedItems : List (CpItem Fused) :=
  cpInts 3 5 (·.v) (fun f x => { x with v := f x.v }) ++
  [cpOpt 8 (·.stamp) (fun v x => { x with stamp := v }), cpNat 4 (·.ageUs) (fun v x => { x with ageUs := v }),
   cpNat 4 (·.sigma) (fun v x => { x with sigma := v }), cpBits 2 (fun x => outFlagList x.flags) (fun v x => { x with flags := outFlagsOf v }),
   cpNat 4 (·.used) (fun v x => { x with used := v }), cpNat 1 (·.nIn) (fun v x => { x with nIn := v }),
   cpOpt 8 (·.lastValidTic) (fun v x => { x with lastValidTic := v }), cpNat 4 (·.drMs) (fun v x => { x with drMs := v })]

def fusionItems (nRef : Nat) : List (CpItem FusionSt) :=
  [cpBits 1 (fun f => [f.running, f.warmup]) (fun v f => { f with running := nth false v 0, warmup := nth false v 1 }),
   cpNat 8 (·.tov) (fun v f => { f with tov := v })] ++
  cpInto (·.heading) (fun g f => { f with heading := g f.heading }) fusedItems ++
  cpInto (·.motion) (fun g f => { f with motion := g f.motion }) fusedItems ++
  cpInto (·.position) (fun g f => { f with position := g f.position }) fusedItems ++
  cpInto (·.wind) (fun g f => { f with wind := g f.wind }) fusedItems ++
  cpEach nRef {} (·.refs) (fun g f => { f with refs := g f.refs }) refItems

/-! ### CONTROL (07 R197) -/

def notchItems : List (CpItem NotchSt) :=
  [cpInt 8 (·.x1) (fun v n => { n with x1 := v }), cpInt 8 (·.x2) (fun v n => { n with x2 := v }),
   cpInt 8 (·.y1) (fun v n => { n with y1 := v }), cpInt 8 (·.y2) (fun v n => { n with y2 := v })]

/-- Up-crossings that the part holds: the newest. -/
def cpUps : Nat := 700

/-- f as a count of `fadeMs`, since it moves in whole ms of it (R201); the up-crossings' ticks as steps of 5 ms before `tov`. -/
def controlItems (fadeMs : Nat) : List (CpItem ObsSt) :=
  cpInts 15 8 (·.x) (fun f o => { o with x := f o.x }) ++
  [cpBits 1 (fun o => [o.init, o.waveHeave, o.waveLow]) (fun v o =>
     { o with init := nth false v 0, waveHeave := nth false v 1, waveLow := nth false v 2 })] ++
  cpInts 3 4 (·.tauEmit) (fun f o => { o with tauEmit := f o.tauEmit }) ++
  cpInts 3 4 (·.tauWind) (fun f o => { o with tauWind := f o.tauWind }) ++
  [cpNat 8 (·.tov) (fun v o => { o with tov := v }), cpNat 1 (·.region) (fun v o => { o with region := v }),
   cpOpt 1 (fun o => o.blend.map Prod.fst) (fun v o => { o with blend := v.map (fun g => (g, 0)) }),
   cpNat 1 (fun o => match o.blend with | some p => p.2 | none => 0) (fun v o => { o with blend := o.blend.map (fun p => (p.1, v)) }),
   cpNat 4 (·.selWind) (fun v o => { o with selWind := v }), cpNat 4 (·.selSog) (fun v o => { o with selSog := v }),
   cpNat 2 (·.selWave) (fun v o => { o with selWave := v }), cpNat 1 (·.selPwr) (fun v o => { o with selPwr := v }),
   cpNat 1 (·.selHeld) (fun v o => { o with selHeld := v }), cpNat 8 (·.waveStart) (fun v o => { o with waveStart := v }),
   cpOpt 3 (·.waveF) (fun v o => { o with waveF := v }),
   cpNat 4 (fun o => (roundEven (Frac.mul o.fade (Frac.ofNat (Nat.max 1 fadeMs)))).toNat) (fun v o => { o with fade := Frac.norm v fadeMs })] ++
  cpEach 3 [] (·.notch) (fun f o => { o with notch := f o.notch }) (cpEach 2 {} id (fun f l => f l) notchItems) ++
  [cpNat 2 (fun o => Nat.min cpUps o.waveUps.length) (fun v o => { o with waveUps := List.replicate v 0 })] ++
  (List.range cpUps).map (fun k => cpInt 3
    (fun o => ((o.tov : Int) - nth 0 (o.waveUps.drop (o.waveUps.length - cpUps)) k) / 5000000)
    (fun v o => { o with waveUps := upd (fun _ => ((o.tov : Int) - v * 5000000).toNat) o.waveUps k }))

/-! ### SETPOINT (08 R233) -/

def blkItems : List (CpItem Image.ProfBlk) :=
  [cpNat 4 (·.vStart) (fun v b => { b with vStart := v }), cpNat 4 (·.vBreak) (fun v b => { b with vBreak := v }),
   cpNat 4 (·.vCruise) (fun v b => { b with vCruise := v }), cpNat 4 (·.vStop) (fun v b => { b with vStop := v }),
   cpNat 4 (·.a1) (fun v b => { b with a1 := v }), cpNat 4 (·.a2) (fun v b => { b with a2 := v }),
   cpNat 4 (·.d2) (fun v b => { b with d2 := v }), cpNat 4 (·.d1) (fun v b => { b with d1 := v }),
   cpNat 4 (·.stopDec) (fun v b => { b with stopDec := v })]

/-- A profile: how it runs, its latched block, its length in `lb` bytes with `lf` fraction bits, and where its braking began. -/
def profItems (lb lf : Nat) : List (CpItem ProfRun) :=
  [cpNat 1 (fun p => 2 * p.kind + (if p.dirNeg then 1 else 0)) (fun v p => { p with kind := v / 2, dirNeg := v % 2 == 1 })] ++
  cpInto (·.blk) (fun f p => { p with blk := f p.blk }) blkItems ++
  [cpFrac lb lf (·.len) (fun v p => { p with len := v }), cpFrac 8 24 (·.s0) (fun v p => { p with s0 := v }),
   cpFrac 6 14 (·.v0) (fun v p => { p with v0 := v }), cpNat 8 (·.tBrake) (fun v p => { p with tBrake := v })]

def moveItems : List (CpItem Move) :=
  [cpFrac 8 16 (·.p0N) (fun v m => { m with p0N := v }), cpFrac 8 16 (·.p0E) (fun v m => { m with p0E := v }),
   cpNat 4 (·.psi0) (fun v m => { m with psi0 := v }),
   cpInt 4 (·.tgtN) (fun v m => { m with tgtN := v }), cpInt 4 (·.tgtE) (fun v m => { m with tgtE := v }),
   cpNat 4 (·.tgtHdg) (fun v m => { m with tgtHdg := v }),
   cpNat 1 (fun m => 8 * m.sel + maskOf [m.limit, m.stopping, m.braking])
     (fun v m => { m with sel := v / 8, limit := v.testBit 0, stopping := v.testBit 1, braking := v.testBit 2 }),
   cpNat 8 (·.trans.t0) (fun v m => { m with trans := { m.trans with t0 := v }, head := { m.head with t0 := v } })] ++
  cpInto (·.trans) (fun f m => { m with trans := f m.trans }) (profItems 8 24) ++
  cpInto (·.head) (fun f m => { m with head := f m.head }) (profItems 5 0)

def targetItems : List (CpItem Target) :=
  [cpInt 4 (·.n) (fun v t => { t with n := v }), cpInt 4 (·.e) (fun v t => { t with e := v }), cpNat 4 (·.hdg) (fun v t => { t with hdg := v }),
   cpNat 1 (·.tflags) (fun v t => { t with tflags := v }), cpNat 1 (·.sel) (fun v t => { t with sel := v }),
   cpNat 4 (·.vReq) (fun v t => { t with vReq := v }), cpNat 4 (·.rReq) (fun v t => { t with rReq := v })]

def pushItems : List (CpItem Push) :=
  [cpBits 2 (fun p => p.free ++ p.clearing ++ p.latch ++ [p.inForce, p.release, p.ramping, p.limit, p.announce])
    (fun v p => { p with free := v.take 3, clearing := (v.drop 3).take 3, latch := (v.drop 6).take 3, inForce := nth false v 9
                         release := nth false v 10, ramping := nth false v 11, limit := nth false v 12, announce := nth false v 13 })] ++
  cpEach 3 Frac.zero (·.from_) (fun f p => { p with from_ := f p.from_ }) [cpFrac 6 15 id (fun v _ => v)] ++
  cpInts 3 4 (·.to_) (fun f p => { p with to_ := f p.to_ }) ++
  [cpNat 8 (·.t0) (fun v p => { p with t0 := v }),
   cpNat 4 (fun p => (p.t1 - p.t0) / 1000000) (fun v p => { p with t1 := p.t0 + v * 1000000 })] ++
  cpInts 3 4 (·.z) (fun f p => { p with z := f p.z })

/-- The resting set-point stands where a move's P₀ would. -/
def restItems : List (CpItem SpSt) :=
  [cpInt 8 (·.n) (fun v p => { p with n := v }), cpInt 8 (·.e) (fun v p => { p with e := v }), cpNat 4 (·.psi) (fun v p => { p with psi := v })]

/-- The part of a stage in which a move runs (`run`) or not. -/
def stageItems (run : Bool) : List (CpItem SpSt) :=
  [cpBits 1 (fun p => [p.move.isSome, p.pending.isSome]) (fun v p =>
     { p with move := if nth false v 0 then some {} else none, pending := if nth false v 1 then some {} else none })] ++
  cpInto (·.push) (fun f p => { p with push := f p.push }) pushItems ++
  cpInto (fun p => p.pending.getD {}) (fun f p => { p with pending := p.pending.map f }) targetItems ++
  (if run then cpInto (fun p => p.move.getD {}) (fun f p => { p with move := p.move.map f }) moveItems else restItems)

/-- A profile as planned from its block and length (R217, R218), with where its braking stands. -/
def profAgain (p : ProfRun) : ProfRun :=
  { startProfile p.blk p.len p.dirNeg p.t0 with kind := p.kind, s0 := p.s0, v0 := p.v0, tBrake := p.tBrake }

/-- The bytes of the stage. -/
def stagePut (p : SpSt) : Bytes := cpPut (stageItems p.move.isSome) p

/-- The stage that a part says. -/
def stageTake (bs : Bytes) : SpSt :=
  let p := cpTake (stageItems (fld bs 0 1 % 2 == 1)) bs {}
  { p with move := p.move.map (fun m => { m with trans := profAgain m.trans, head := profAgain m.head }) }

/-! ### ALLOC (09 R246, 10 R298) -/

def thrItems : List (CpItem ThrSt) :=
  [cpBits 1 (fun t => [t.avail, t.side1, t.side2, t.astern]) (fun v t =>
     { t with avail := nth false v 0, side1 := nth false v 1, side2 := nth false v 2, astern := nth false v 3 }),
   cpOpt 1 (·.crossing) (fun v t => { t with crossing := v }),
   cpFrac 8 32 (·.muLeft) (fun v t => { t with muLeft := v }), cpOpt 8 (·.muEndTic) (fun v t => { t with muEndTic := v }),
   cpInt 4 (·.dir.1) (fun v t => { t with dir := (v, t.dir.2) }), cpInt 4 (·.dir.2) (fun v t => { t with dir := (t.dir.1, v) }),
   cpInt 4 (·.fEmit.1) (fun v t => { t with fEmit := (v, t.fEmit.2) }), cpInt 4 (·.fEmit.2) (fun v t => { t with fEmit := (t.fEmit.1, v) })]

def allocItems (nT nB : Nat) : List (CpItem (AllocSt × Nat)) :=
  cpInto Prod.fst (fun f a => (f a.1, a.2))
    (cpEach nT {} (·.thr) (fun f a => { a with thr := f a.thr }) thrItems ++
     cpEach nB ({} : BusSt) (·.bus) (fun f a => { a with bus := f a.bus }) [cpBool (·.inService) (fun v b => { b with inService := v })]) ++
  [cpNat 4 Prod.snd (fun v a => (a.1, v))]

end Sys2Proof.Machine
end

