-- ==== Sys2Proof/Machine/Checkpoint.lean ====
section
/-! DEFINITION. The checkpoint: composing, sending, reading and loading it (12_lock_group R341 to R346, Tables 12-4 to 12-7; 06 R172,
07 R197, 08 R233, 09 R246, 17 R454, R463).

Readings: notes/assumptions/29.md. -/

namespace Sys2Proof.Machine

/-- Lengths of the parts (Table 12-6). -/
def partLens : List Nat := [640, 2048, 2560, 256, 1024]

/-- Offset of the solution records, and the least length. -/
def cpMin : Nat := 6592

/-- x(k+1|k) as a checkpoint carries it: updates that P2 did not reach count with ε = 0, as R186 makes them up. -/
def cpObs (s : State) : ObsSt := (s.obs.missed.foldl (fun t m => applyUpdate m [0, 0, 0] t) s).obs

/-- The checkpoint of the frame in progress (R341). -/
def composeCp (s : State) : Checkpoint :=
  { version := rVersion s, srcSlot := s.lock.slot, frame := frameIndex s, ledgerSeq := newestSeq s, digest := s.cfg.img.digest
    state := stateCode s.st, dpReq := s.mb.dpReq, mode := s.frame.mode, pendingMode := s.frame.pendingMode
    fstates := s.safety.funcs.map (·.st), tripCount := s.safety.tripCount, osc := s.osc, safeSeq := s.safety.seq
    fusion := s.fusion, obs := cpObs s, sp := s.sp, alloc := s.alloc, holdRun := s.solver.holdRun
    standing := s.solver.standing, shadows := s.solver.shadows }

/-! ### Solution records (Table 12-7) -/

/-- A solution record. -/
def solRecord (g sstate age bThr bBus : Nat) (loss lossFinal : List Int) (resid : Nat) (x : Solution) : Bytes :=
  let n := x.x.length
  u8 g ++ u8 n ++ u8 ((nth [] x.x 0).length + 3) ++ u8 sstate ++ u32 age ++ u32 bThr ++ u8 bBus ++ zeros 3 ++
  loss.flatMap i32 ++ lossFinal.flatMap i32 ++ u32 resid ++ u32 0 ++
  (List.range n).flatMap (fun j =>
    (nth [] x.x j).flatMap (fun p => i32 p.2) ++ (nth [0, 0, 0] x.slack j).flatMap i32 ++ (nth [0, 0, 0] x.lam j).flatMap i32)

/-- Thrusters that hold no variable in a solution. -/
def basisOf (s : State) (x : Solution) : Nat :=
  maskOf ((List.range (nThr s)).map (fun i => (nth [] x.x 0).all (fun p => decide (p.1 / 2 ≠ i))))

/-- The records: the primary, then the standing shadows in ascending group index (Table 12-6). -/
def solRecords (s : State) : List Bytes :=
  let prim := match s.solver.standing with
    | some x => [solRecord 0xFF s.alloc.solSource 0 (basisOf s x) (outMask s) [0, 0, 0] [0, 0, 0] x.resid x]
    | none => []
  prim ++ ((List.range (nGroups s)).filter (standingShadow s)).map (fun g =>
    let w := shadowOf s g
    solRecord g (gstate s g) (ageAt w s.frame.tic) w.basisThr w.basisBus w.loss w.lossFinal w.resid (w.sol.getD {}))

/-- The five parts (Table 12-6). -/
def cpParts (s : State) (c : Checkpoint) : Bytes :=
  let img := s.cfg.img
  cpLay 0 640 (cpPut stationItems c) ++ cpLay 1 2048 (cpPut (fusionItems img.fusion.refs.length) c.fusion) ++
  cpLay 2 2560 (cpPut (controlItems img.gains.windFadeMs) c.obs) ++ cpLay 3 256 (stagePut c.sp) ++
  cpLay 4 1024 (cpPut (allocItems (nThr s) (nBus s)) (c.alloc, c.holdRun))

/-- The bytes of a checkpoint (Tables 12-5 and 12-6); version 1 ends after the ALLOC part (R349). -/
def cpBytes (s : State) : Bytes :=
  let c := composeCp s
  let recs := if c.version = 1 then [] else solRecords s
  let parts := cpParts s c
  let body := parts ++ recs.flatMap id
  let hdr := u32 0x5043584F ++ u8 c.version ++ u8 c.srcSlot ++ u8 recs.length ++ u8 0 ++ u64 c.frame ++ u32 (64 + body.length) ++
    u32 c.ledgerSeq ++ padTo 32 c.digest ++ u32 0
  hdr ++ u32 (crc32 (hdr ++ u32 0 ++ body)) ++ body

/-- The fragments leave on both L ports in ascending order (R341, Table 12-4). -/
def sendCheckpoint (s : State) : State :=
  let b := cpBytes s
  let n := (b.length + 1439) / 1440
  let s1 := (List.range n).foldl (fun t i =>
    sendRaf 2 (frameIndex s) (u16 i ++ u16 n ++ u32 b.length ++ slice b (1440 * i) 1440) t) s
  { s1 with lock := { s1.lock with cpSent := frameIndex s }, frame := { s1.frame with cpHanded := true } }

/-! ### Reading -/

/-- A record as read: group, basis, and what it holds. -/
structure SolRead where
  group : Nat := 0
  age : Nat := 0
  shadow : Shadow := {}
  deriving DecidableEq, Repr

/-- Variables of a step, by thruster and axis: those available in the basis and outside the group. -/
def solKeys (s : State) (unavail : Nat) : List Nat :=
  ((List.range (nThr s)).filter (fun i => !unavail.testBit i)).flatMap (fun i => (axesOf (thrCfg s i).kind).map (fun a => 2 * i + a))

/-- A record at the head of a string, and the rest. -/
def readSol (s : State) (bs : Bytes) : SolRead × Bytes :=
  let g := byteAt bs 0
  let n := byteAt bs 1
  let nv := byteAt bs 2
  let len := 48 + n * (4 * nv + 12)
  let keys := solKeys s (if g = 0xFF then fld bs 8 4 else Nat.lor (fld bs 8 4) (groupMask s g))
  let at_ := fun (j k : Nat) => fldI bs (48 + j * (4 * nv + 12) + 4 * k) 4
  let sol : Solution :=
    { x := (List.range n).map (fun j => (enumFrom 0 keys).foldl (fun t p => Table.set t p.2 (at_ j p.1)) [])
      slack := (List.range n).map (fun j => [at_ j (nv - 3), at_ j (nv - 2), at_ j (nv - 1)])
      lam := (List.range n).map (fun j => [at_ j nv, at_ j (nv + 1), at_ j (nv + 2)])
      resid := fld bs 40 4 }
  ({ group := g, age := fld bs 4 4
     shadow := { sol := some sol, steps := n, basisThr := fld bs 8 4, basisBus := byteAt bs 12
                 loss := [fldI bs 16 4, fldI bs 20 4, fldI bs 24 4], lossFinal := [fldI bs 28 4, fldI bs 32 4, fldI bs 36 4]
                 resid := fld bs 40 4 } }, bs.drop len)

def readSols (s : State) : Nat → Bytes → List SolRead
  | 0, _ => []
  | n + 1, bs => let (r, q) := readSol s bs; r :: readSols s n q

/-- A checkpoint read from its bytes, when CP_CRC and the header's constants pass (R342). -/
def parseCp (s : State) (bs : Bytes) : Option Checkpoint :=
  let hdr := bs.take 60
  if bs.length < cpMin ∨ fld bs 0 4 ≠ 0x5043584F ∨ fld bs 16 4 ≠ bs.length then none
  else if crc32 (hdr ++ zeros 4 ++ bs.drop 64) ≠ fld bs 60 4 then none
  else
    let img := s.cfg.img
    let part := fun (k : Nat) => cpUnlay k (slice bs (64 + (partLens.take k).sum) (nth 0 partLens k))
    let st := cpTake stationItems (part 0) { fstates := List.replicate 4 0, osc := List.replicate 64 {}, safeSeq := List.replicate 4 1 }
    let al := cpTake (allocItems (nThr s) (nBus s)) (part 4) ({ thr := List.replicate (nThr s) {}, bus := List.replicate (nBus s) {} }, 0)
    let tic := fld bs 8 8 * periodNs st.mode
    let recs := readSols s (byteAt bs 6) (bs.drop cpMin)
    some { version := byteAt bs 4, srcSlot := byteAt bs 5, frame := fld bs 8 8, ledgerSeq := fld bs 20 4, digest := slice bs 24 32
           state := st.state, dpReq := st.dpReq, mode := st.mode, pendingMode := st.pendingMode, fstates := st.fstates
           tripCount := st.tripCount, osc := st.osc, safeSeq := st.safeSeq
           fusion := cpTake (fusionItems img.fusion.refs.length) (part 1) { refs := List.replicate img.fusion.refs.length {} }
           obs := cpTake (controlItems img.gains.windFadeMs) (part 2) { notch := List.replicate 3 (List.replicate 2 {}) }
           sp := stageTake (part 3), alloc := al.1, holdRun := al.2
           standing := (recs.find? (fun r => r.group == 0xFF)).bind (·.shadow.sol)
           shadows := (List.range (nGroups s)).map (fun g =>
             match recs.find? (fun r => r.group == g) with
             | some r => { r.shadow with refreshTic := tic - r.age * 1000 }
             | none => {}) }

/-- A committed checkpoint is FOREIGN to the module's active image (R343). -/
def isForeign (s : State) (c : Checkpoint) : Bool := decide (c.digest ≠ s.cfg.img.digest)

/-! ### Loading (R344 to R346) -/

/-- The safety functions of a checkpoint: armed stays armed, everything else is tripped, each with event 0x1101 (17 R454). -/
def loadFuncs (c : Checkpoint) (s : State) : State :=
  let old := s.safety.funcs
  let fs := (enumFrom 0 s.cfg.img.safety.funcs).map (fun p =>
    { st := if nth 2 c.fstates p.1 = 1 then 1 else 2, autoUsed := true, lastTripOp := (nth {} old p.1).lastTripOp : FuncSt })
  let s1 := { s with safety := { s.safety with funcs := fs, tripCount := c.tripCount } }
  (funcIds s1).foldl (fun t f => if (funcOf t f).st = 1 then t else tripQuiet f 7 t) s1

/-- The connections of a checkpoint: an open one stays open, its produced sequence LEASE_LEN further; watchdogs wait for tick c + 1; one
being opened begins again (17 R463). -/
def loadConns (c : Checkpoint) (s : State) : State :=
  let skip := s.cfg.img.lock.leaseLen
  let conv (q : OscConn) : OscConn :=
    if q.st = 2 then { st := 2, ver := q.ver, txSeq := (q.txSeq + skip) % 65536, rxLast := q.rxLast, rxExpMs := q.rxExpMs, watchPending := true }
    else if q.st = 1 then { st := 1 } else {}
  { s with osc := (List.range s.cfg.img.osc.conns.length).map (fun n => conv (nth {} c.osc n))
           safety := { s.safety with seq := (List.range 4).map (fun k => (nth 1 c.safeSeq k + skip) % 65536) } }

/-- The observer's updates of the gap: ε = 0 and the checkpoint's τ_emit and faded τ_wind, once for each frame from the checkpoint's frame
+ 1 up to c (R345). -/
def advanceObs (n : Nat) (s : State) : State :=
  if s.obs.init then
    let u := obsInputs s
    let s1 := (List.range n).foldl (fun t _ => applyUpdate u [0, 0, 0] t) s
    let (pn, pe, ph) := obsPrediction s1
    setObs (fun o => { o with pred := some (s.frame.nextTick, pn, pe, ph), missed := [], tov := s.frame.nextTick }) s1
  else s

/-- The parts other than STATION (R345, R346): the inequality multipliers and every μ are 0; the set-point is evaluated at tick c + 1. -/
def loadParts (c : Checkpoint) (s : State) : State :=
  let s1 := fusionLoad c.fusion s.frame.nextTick s
  let s2 := { s1 with
    fusion := { s1.fusion with running := c.fusion.running }
    obs := { c.obs with notchPrime := false, steps := 0 }
    sp := c.sp, alloc := c.alloc
    solver := { standing := c.standing.map (fun x => { x with z := [] }), cold := c.standing.isNone
                shadows := c.shadows, holdRun := c.holdRun } }
  spEval s.frame.nextTick (advanceObs (frameIndex s - c.frame) s2)

/-- Load a checkpoint in the frame of the claim. From a FOREIGN one only the STATION part is used, and the stages start anew (R343, R346). -/
def loadCheckpoint (c : Checkpoint) (s : State) : State :=
  let s1 := loadConns c (loadFuncs c s)
  let s2 := if isForeign s c then stagesStart s1 else loadParts c s1
  { s2 with mb := { s2.mb with dpReq := c.dpReq && !isForeign s c, dpNext := none }
            lock := { s2.lock with cpLoaded := some c.frame } }

end Sys2Proof.Machine
end

