-- ==== Sys2Proof/Machine/Lock.lean ====
section
/-! DEFINITION. The lock group: beats, paths, discovery, election, lease, takeover, lock change (12_lock_group R321 to R351;
13_bringup R359 to R361). -/

namespace Sys2Proof.Machine

def setLock (f : LockSt → LockSt) (s : State) : State := { s with lock := f s.lock }

def setPeer (slot : Nat) (f : Peer → Peer) (s : State) : State := setLock (fun l => { l with peers := upd f l.peers slot }) s

/-! ### Receiving (R322, R323, R325) -/

/-- The module takes Rafoger messages for itself: STANDBY and duty (Table 13-3; SELFTEST and HELD relay only). -/
def rafTakes (s : State) : Bool := decide (s.st = .standby) || onDuty s.st

/-- The checks of R323 and the shapes of Table 12-2: version, reserved fields, type, source slot, length, CRC. At version 1 PREPARE is a reserved
bit of LFLAGS (R349). -/
def rafValid (s : State) (m : Bytes) : Bool :=
  let ty := byteAt m 1
  let bl := fld m 6 2
  decide (28 ≤ m.length) && decide (m.length = 28 + bl) && decide (crc32 (m.take (m.length - 4)) = fld m (m.length - 4) 4) &&
  (byteAt m 0 == 1 || byteAt m 0 == 2) && (ty == 1 || ty == 2) && decide (byteAt m 3 ≤ 1) && decide (byteAt m 4 < 8) &&
  byteAt m 5 == 0 && decide (fld m 20 4 = 0) && (otherSlots s).contains (byteAt m 2) &&
  (if ty = 1 then decide (bl = 64) && decide (byteAt m 25 < 128) && !(byteAt m 0 == 1 && (byteAt m 25).testBit 5) && allZero m 68 20 else decide (16 ≤ bl) && decide (bl ≤ 1448))

/-- A dropped message is counted for its port (R323). -/
def rafDrop (port : Nat) (s : State) : State :=
  setLock (fun l => { l with drops := upd (fun n => Nat.min 0xFFFFFFFF (n + 1)) l.drops port }) s

/-- The beat of a message (Table 12-3). -/
def beatOf (s : State) (m : Bytes) : Beat :=
  { slot := byteAt m 2, frame := fld m 8 8, state := byteAt m 24, lflags := byteAt m 25, mode := byteAt m 26, verMax := byteAt m 27
    groupVer := byteAt m 28, succ := [byteAt m 29, byteAt m 30, byteAt m 31], expiry := fld m 32 8, cpFrame := fld m 40 8
    digest8 := slice m 48 8, serial := slice m 56 12, atFrame := frameIndex s }

/-- A beat is in step (R325); in steps 3 and 4 of bring-up every beat counts (R360). -/
def inStepBeat (s : State) (b : Beat) : Bool :=
  undecided s || b.frame == frameIndex s || b.frame + 1 == frameIndex s

/-- A path is up from the first valid beat along it (R322), with event 0x0C04. -/
def notePath (slot port : Nat) (s : State) : State :=
  let p := peerOf s slot
  let was := if port = 0 then p.pathL1 else p.pathL2
  let s1 := setPeer slot (fun q => if port = 0 then { q with pathL1 := some (frameIndex s) } else { q with pathL2 := some (frameIndex s) }) s
  if was.isSome then s1 else event 0x0C04 (flag true ++ u8 slot ++ u8 (port + 1)) s1

/-- Yielding begins (R337): no emission from the next P5, the lease is given up at the next tick, fault 0x0C13. -/
def startYield (s : State) : State :=
  if s.lock.yielding then s
  else
    let s1 := setLock (fun l => { l with yielding := true, yieldTick := frameIndex s + 1 }) s
    faultOnce 0x0C13 { s1 with frame := { s1.frame with emitSuppressed := s1.frame.emitSuppressed || decide (s1.frame.phase < 5) } }

/-- A beat with LEASE_HELD or CLAIM from a lower slot, which is no step of a lock change of the module's own (R337, R348). -/
def yieldBeat (s : State) (b : Beat) : Bool :=
  (s.lock.held || s.lock.claim.isSome) && (b.held || b.claim) && decide (b.slot < s.lock.slot) &&
  !(b.claim && (match s.lock.change with | some (t, _) => t == b.slot | none => false)) &&
  !(match s.lock.claim, s.lock.renewal with | some (_, 2), some r => r.slot == b.slot && decide (b.frame = r.frame) | _, _ => false)

/-- Step 4 leaves the module in STANDBY: its bring-up ends, PD-AN is off (R330, R359). -/
def decideStandby (s : State) : State :=
  dutyPowerOff (endStep 4 s)

/-- The lease as an in-step beat tells it (R329, R333, R334). -/
def leaseBeat (b : Beat) (s : State) : State :=
  if b.held ∨ b.claim ∨ b.release then
    setLock (fun l => { l with renewal := some b, laterClaim := false
                               groupVer := if (b.held || b.claim) && b.groupVer != 0 then b.groupVer else l.groupVer }) s
  else
    match s.lock.renewal with
    | some r => if b.slot ≠ r.slot ∧ r.expiry < b.expiry then setLock (fun l => { l with laterClaim := true }) s else s
    | none => s

/-- The pair of PREPARE and first place in SUCC names this module the target of a lock change (R348). -/
def prepareBeat (b : Beat) (s : State) : State :=
  if b.prepare ∧ b.held ∧ s.st = .standby ∧ undecided s = false ∧ s.lock.groupVer = 2 ∧ nth 0 b.succ 0 = s.lock.slot ∧ s.lock.claim = none ∧ s.lock.periodDiff = false then
    claimPower (setLock (fun l => { l with prepared := some b.frame }) s)
  else s

/-- The frame mode of the holder differs from the one at which a standby ticks, and no pending change accounts for it (R350). -/
def judgePeriod (mode : Nat) (s : State) : State :=
  let pend := match s.frame.pendingMode with | some (m, _) => decide (m = mode) | none => false
  if s.st = .standby ∧ undecided s = false ∧ mode ≠ s.frame.mode ∧ pend = false then
    setLock (fun l => { l with periodDiff := true, cpGood := false }) s
  else s

/-- A beat is taken (R322, R325, R329, R330, R333, R337, R348, R350). -/
def takeBeat (port : Nat) (b : Beat) (s0 : State) : State :=
  let step := inStepBeat s0 b
  let s1 := setPeer b.slot (fun p => { p with last := some b, inStep := if step then some b else p.inStep, heard := true, holdAt := if b.held || b.claim then some (frameIndex s0) else p.holdAt }) (notePath b.slot port s0)
  let s2 := if b.held ∨ b.claim then judgePeriod b.mode s1 else s1
  let s3 :=
    if step then
      let t := prepareBeat b (leaseBeat b s2)
      let u := if undecided s0 then t else faultCond 0x0C17 false (setLock (fun l => { l with frameSlip := false }) t)
      if yieldBeat s0 b then startYield u
      else if s0.st = .standby ∧ s0.bring.step = 4 ∧ s0.lock.claim = none ∧ (b.held = true ∨ b.claim = true) then decideStandby u
      else u
    else faultCond 0x0C17 true (setLock (fun l => { l with frameSlip := true }) s2)
  linkFaults (faultCond 0x0C19 (decide (2 < s3.lock.groupVer)) s3)

/-- A Rafoger message reaches the module itself: dropped and counted, or given to its type (R323). `ety`: the frame's Ethertype. -/
def rafReceive (type port ety : Nat) (m : Bytes) (f : Bytes → State → State) (s : State) : State :=
  if rafTakes s then
    if decide (ety = 0x88B5) && rafValid s m then
      (if byteAt m 1 = type ∧ (byteAt m 4).testBit (s.lock.slot - 1) = true then f m s else s)
    else rafDrop port s
  else s

def beatReceive (port ety : Nat) (m : Bytes) (s : State) : State :=
  rafReceive 1 port ety m (fun x t => takeBeat port (beatOf t x) t) s

def execBeatReceive (dt port : Nat) (msg : EtherFrame) (s : State) : Host.Outcome State Fault Refusal :=
  .next (settle (beatReceive (port % 2) msg.ethertype msg.msg (advance s dt)))

/-! ### The relay (R321) -/

/-- A frame with HOPS 0 for another slot leaves by the other L port with HOPS 1; a frame that fails a check leaves with a wrong frame check
sequence. -/
def forward (port : Nat) (m : Bytes) (etherOk : Bool) (s : State) : State :=
  let others := Nat.land (byteAt m 4) (if s.lock.slot = 0 then 7 else 7 - 2 ^ (s.lock.slot - 1))
  if s.st ≠ .off ∧ 28 ≤ m.length ∧ byteAt m 3 = 0 ∧ others ≠ 0 then
    let ok := decide (crc32 (m.take (m.length - 4)) = fld m (m.length - 4) 4)
    let body := m.take 3 ++ u8 1 ++ (m.take (m.length - 4)).drop 4
    emit (rafOut (1 - port) (body ++ u32 (crc32 body)) (!(etherOk && ok))) s
  else s

def execRafogerForward (dt port : Nat) (msg : Bytes) (etherOk : Bool) (s : State) : Host.Outcome State Fault Refusal :=
  .next (settle (forward (port % 2) msg etherOk (advance s dt)))

/-- Once per second the drops of each port that had some are recorded (R323). -/
def dropSecond (s : State) : State :=
  let one (p : Nat) (t : State) : State :=
    let n := nth 0 t.lock.drops p
    if n = 0 then t else event 0x0C08 (u8 (p + 1) ++ u32 n) (setLock (fun l => { l with drops := upd (fun _ => 0) l.drops p }) t)
  if rafTakes s then one 1 (one 0 s) else s

def execRafogerDropSecond (dt : Nat) (s : State) : Host.Outcome State Fault Refusal := .next (settle (dropSecond (advance s dt)))

/-- A path goes down: its port's link is down, or no valid beat came along it within the last 2 frames (R322, R351). -/
def pathDown (peer port : Nat) (linkDown : Bool) (s : State) : State :=
  let p := peerOf s peer
  let f := if port = 0 then p.pathL1 else p.pathL2
  match f with
  | some k =>
    if linkDown ∨ recent s k = false then
      let s1 := setPeer peer (fun q => if port = 0 then { q with pathL1 := none } else { q with pathL2 := none }) s
      linkFaults (event 0x0C04 (flag false ++ u8 peer ++ u8 (port + 1)) s1)
    else s
  | none => s

def execPathDown (dt peer port : Nat) (linkDown : Bool) (s : State) : Host.Outcome State Fault Refusal :=
  .next (settle (pathDown peer (port % 2) linkDown (advance s dt)))

/-- At a tick: since when each peer has been unreachable with its MOK energised (R337), and the link's conditions. -/
def lockTick (s : State) : State :=
  let upd1 (t : State) (x : Nat) : State :=
    setPeer x (fun p => { p with lostSince := if reachable p || !mokAlive t x then none else some (p.lostSince.getD (frameIndex t)) }) t
  if rafTakes s then linkFaults ((otherSlots s).foldl upd1 s) else s

/-! ### Checkpoints of the holder (R342, R343, R348, R350) -/

/-- The checks of Table 12-4 on a fragment. -/
def fragOk (m : Bytes) : Bool :=
  let n := fld m 26 2
  let tot := fld m 28 4
  let i := fld m 24 2
  let data := fld m 6 2 - 8
  decide (5 ≤ n) && decide (n ≤ 27) && decide (i < n) && decide (n = (tot + 1439) / 1440) && decide (cpMin ≤ tot) && decide (tot ≤ 38128) &&
  decide (data = if i + 1 = n then tot - 1440 * i else 1440)

/-- The events of a claim once its checkpoint is loaded (R334, 20 R524). -/
def claimEvents (reason : Nat) (c : Option Checkpoint) (s : State) : State :=
  let f := match c with | some x => x.frame | none => 0
  let s1 := event 0x0C02 (u8 reason ++ u64 f ++ u64 s.lock.expiry) s
  match c with
  | some x => event 0x1402 (u8 x.srcSlot ++ u32 x.ledgerSeq) s1
  | none => s1

/-- The target of a lock change loads its checkpoint in the frame of its claim (R348). -/
def targetLoad (c : Checkpoint) (s : State) : State := claimEvents 3 (some c) (loadCheckpoint c s)

/-- Whether the committed checkpoint is FOREIGN, with fault 0x0C16, in a standby (R343). -/
def noteForeign (s : State) : State :=
  let fg := decide (s.st = .standby) && (match s.lock.committed with | some c => isForeign s c | none => false)
  faultCond 0x0C16 fg (setLock (fun l => { l with foreign := fg }) s)

/-- The frame mode that a checkpoint shows at the tick in progress: a change that it carries and that has come due accounts for its mode
(R350). -/
def modeShown (c : Checkpoint) (s : State) : Nat :=
  match c.pendingMode with
  | some (m, t) => if t ≤ s.frame.tic then m else c.mode
  | none => c.mode

/-- A complete, intact checkpoint is committed in one step; an older one is discarded (R342). -/
def commitCp (c : Checkpoint) (s : State) : State :=
  let older := match s.lock.committed with | some o => decide (c.frame < o.frame) | none => false
  if older then s
  else
    let pend := match c.pendingMode with | some (m, t) => if s.frame.tic < t then some (m, t) else none | none => none
    let s1 := setLock (fun l => { l with committed := some c, cpArr := some (frameIndex s) }) s
    let s2 := { s1 with frame := { s1.frame with pendingMode := pend } }
    let s3 := judgePeriod (modeShown c s) s2
    let s4 := setLock (fun l => { l with cpGood := l.cpGood || !l.periodDiff }) s3
    let s5 := noteForeign s4
    match s.lock.claim with
    | some (k, 2) => if s.lock.cpLoaded = none ∧ s.lock.claimOk = true ∧ c.frame + 1 = k then targetLoad c s5 else s5
    | _ => s5

/-- A FRAME_INDEX of the last frame, in the count of the frame in progress: what the holder stamped before a change of the count moves with it
(01 R19, R350). -/
def countedFrame (s : State) (f : Nat) : Nat :=
  let d := s.lock.shift
  if d ≠ 0 ∧ (f : Int) + d + 1 = frameIndex s then ((f : Int) + d).toNat else f

/-- A fragment is taken (R342). -/
def takeFragment (m : Bytes) (s : State) : State :=
  if fragOk m = false ∨ s.st ≠ .standby then s
  else
    let f := countedFrame s (fld m 8 8)
    let n := fld m 26 2
    let fresh : Assembly := { src := byteAt m 2, frame := f, count := n }
    let cur : Option Assembly := match s.lock.asm with
      | some a => if a.frame = f ∧ a.count = n ∧ a.src = byteAt m 2 then some a else if a.frame < f ∨ a.frame = f then some fresh else none
      | none => some fresh
    match cur with
    | none => s
    | some a =>
      let i := fld m 24 2
      let a1 := { a with parts := Table.set a.parts i (slice m 32 (fld m 6 2 - 8)) }
      if a1.parts.length = n then
        let s1 := setLock (fun l => { l with asm := none }) s
        match parseCp s (a1.parts.flatMap Prod.snd) with
        | some c => if c.frame = fld m 8 8 then commitCp { c with frame := f } s1 else s1
        | none => s1
      else setLock (fun l => { l with asm := some a1 }) s

def checkpointFragment (port ety : Nat) (m : Bytes) (s : State) : State := rafReceive 2 port ety m takeFragment s

def execCheckpointFragment (dt port : Nat) (msg : EtherFrame) (s : State) : Host.Outcome State Fault Refusal :=
  .next (settle (checkpointFragment (port % 2) msg.ethertype msg.msg (advance s dt)))

/-! ### Beats of the module (R324, R329, R331) -/

/-- The module sends beats: from the end of SELFTEST, not in HELD. -/
def beats (s : State) : Bool := rafTakes s

/-- The beat of a tick for a module with or without the lease. -/
def sendBeat (prepare : Bool) (s : State) : State :=
  let h := s.lock.held
  let cl := s.lock.claim.isSome && !h
  sendRaf 1 (frameIndex s) (beatBody s prepare false cl h (if h || cl then s.lock.expiry else 0) (if h || cl then succOrder s false else [0, 0, 0])) s

/-- The holder renews while its lease lasts: P5 of the frame before completed in time and its checkpoint was handed over, or this is the first
frame after a claim (R331, R332). -/
def renew (s : State) : State :=
  if s.lock.held ∧ frameIndex s < s.lock.expiry ∧ (s.lock.firstDuty = some (frameIndex s) ∨ (s.frame.p5Done = true ∧ s.frame.cpHanded = true)) then
    setLock (fun l => { l with expiry := frameIndex s + s.cfg.img.lock.leaseLen }) s
  else s

/-- The group version a claimer sets: the lowest VER_MAX among itself and every module heard in the last 2 frames (R329). -/
def claimVer (s : State) : Nat :=
  (otherSlots s).foldl (fun v x => match (peerOf s x).last with | some b => if recent s b.atFrame then Nat.min v b.verMax else v | none => v) 2

/-! ### Discovery and election (R328, R330) -/

/-- Discovery begins (R328): at the end of image verification, or when an image takes effect. -/
def startDiscovery (s : State) : State :=
  setLock (fun l => { l with discStart := some (elNs s), discEnd := none, peers := l.peers.map (fun p => { p with heard := false }) }) s

/-- A beat with LEASE_HELD or CLAIM has been heard within the last 2 frames, whatever its sender has said since. -/
def hearsHolder (s : State) : Bool :=
  (otherSlots s).any (fun x => match (peerOf s x).holdAt with | some k => recent s k | none => false)

def discoveryEnd (s : State) : State :=
  match s.st, s.lock.discStart with
  | .standby, some t0 =>
    if s.bring.step = 3 ∧ ((otherSlots s).all (fun x => (peerOf s x).heard) = true ∨ t0 + 2000000000 ≤ elNs s) then
      let mask := maskOf ([1, 2, 3].map (fun x => (otherSlots s).contains x && (peerOf s x).heard))
      let vers := (otherSlots s).filter (fun x => (peerOf s x).heard) |>.flatMap (fun x => u8 (match (peerOf s x).last with | some b => b.verMax | none => 0))
      let s1 := event 0x0C01 (u8 mask ++ vers) (setLock (fun l => { l with discStart := none, discEnd := some (elNs s) }) s)
      let s2 := endStep 3 s1
      if hearsHolder s2 then decideStandby s2 else s2
    else s
  | _, _ => s

def execDiscoveryEnd (dt : Nat) (s : State) : Host.Outcome State Fault Refusal := .next (settle (discoveryEnd (advance s dt)))

/-- An election claim is due at this tick: j × 100 ms after discovery ended, j the number of lower slots heard (R330). -/
def electionDue (s : State) : Bool :=
  match s.lock.discEnd with
  | some t =>
    let j := ((otherSlots s).filter (fun x => decide (x < s.lock.slot) && (peerOf s x).heard)).length
    decide (s.st = .standby) && s.bring.step == 4 && s.lock.claim.isNone && atTick s && decide (t + j * 100000000 ≤ elNs s)
  | none => false

/-- A claim at this tick (R334): the claim beat, and the domains powered and checked (R344, Table 12-8). `kind`: 0 election, 1 takeover,
2 lock change. -/
def claimStart (kind : Nat) (failed0 : Nat) (s : State) : State :=
  let k := frameIndex s
  let checked := claimDomains s
  let failed := Nat.land failed0 checked
  let bad := claimFails s failed
  let s1 := setLock (fun l => { l with claim := some (k, kind), claimOk := !bad, expiry := k + 1 + s.cfg.img.lock.leaseLen
                                       groupVer := claimVer s, cpLoaded := none, release := false }) s
  let s2 := chStart (claimPower (sendBeat false s1))
  let s3 := event 0x0C06 (u16 checked ++ u16 failed) s2
  let s4 := domainLosses failed s3
  let s5 := if failed.testBit dGN then faultSet 0x0F12 true [.gnss] s4 else s4
  let s6 := if failed.testBit dAN then faultCond 0x0D13 true s5 else s5
  if bad then faultOnce 0x0C15 (setLock (fun l => { l with aborted := true }) s6) else s6

def electionClaim (failed : Nat) (s : State) : State :=
  if electionDue s then
    let s1 := claimStart 0 failed s
    if s1.lock.claimOk then claimEvents 0 none (stagesStart s1) else s1
  else s

def execElectionClaim (dt failed : Nat) (s : State) : Host.Outcome State Fault Refusal :=
  .next (settle (electionClaim failed (advance s dt)))

/-! ### Takeover (R333) -/

/-- A slot is silent: its latest in-step beat, if recent, shows LEASE_HELD and CLAIM clear; or none is recent and its MOK reads dead. -/
def slotSilent (s : State) (x : Nat) : Bool :=
  match freshBeat s x with
  | some b => !b.held && !b.claim
  | none => mokDead s x

/-- Place of the module in an order, from 1; 0 when absent. -/
def placeIn (s : State) (o : List Nat) : Nat :=
  if nth 0 o 0 = s.lock.slot then 1 else if nth 0 o 1 = s.lock.slot then 2 else if nth 0 o 2 = s.lock.slot then 3 else 0

/-- A standby claims at this tick (R333, R350). -/
def claimDue (s : State) : Bool :=
  match s.lock.renewal with
  | some r =>
    let j := placeIn s r.succ
    decide (s.st = .standby) && !undecided s && s.lock.claim.isNone && atTick s && !s.lock.periodDiff &&
    decide (1 ≤ j) && decide (frameIndex s = r.expiry + j) && !s.lock.laterClaim &&
    (r.slot :: (r.succ.take (j - 1))).all (fun x => decide (x = s.lock.slot) || decide (x = 0) || slotSilent s x) &&
    (match s.lock.committed with | some c => decide (r.expiry ≤ c.frame + s.cfg.img.lock.leaseLen + 1) | none => false)
  | none => false

def leaseClaim (failed : Nat) (s : State) : State :=
  if claimDue s then
    let reason := match s.lock.renewal with | some r => if r.release then 2 else 1 | none => 1
    let s1 := claimStart 1 failed s
    match s.lock.committed with
    | some c => if s1.lock.claimOk then claimEvents reason (some c) (loadCheckpoint c s1) else s1
    | none => s1
  else s

def execLeaseClaim (dt failed : Nat) (s : State) : Host.Outcome State Fault Refusal :=
  .next (settle (leaseClaim failed (advance s dt)))

/-! ### The lease passes (R334, R346) -/

/-- The tick after a claim. -/
def passDue (s : State) : Bool :=
  match s.lock.claim with
  | some (c, _) => atTick s && decide (frameIndex s = c + 1) && !s.lock.yielding
  | none => false

/-- The state that a checkpoint's code names, on duty (R346). -/
def stateOfCode (c : Nat) : ModState := if c = 5 then .active else if c = 6 then .tripped else .ready

/-- An aborted claim releases at tick c + 1 (Table 12-8). -/
def abortClaim (s : State) : State :=
  let k := frameIndex s
  let s1 := setLock (fun l => { l with claim := none, claimOk := false, release := true, expiry := k }) s
  dutyPowerOff (chStop (sendRelease k k s1))

/-- Bring-up as the new holder finds it: an election goes on with step 5; a takeover with the step that the checkpoint's fusion shows; a
FOREIGN checkpoint starts at step 5 (R346, 13 R358, R364). -/
def bringAtDuty (kind : Nat) (s : State) : State :=
  if kind = 0 then bringProgress { (endStep 4 s) with bring := { (endStep 4 s).bring with timeDone := false, oscDone := false } }
  else
    let done := s.fusion.running && !s.fusion.warmup
    let n := if s.fusion.running then (if s.fusion.warmup then 8 else 9) else 5
    bringProgress { s with bring := { s.bring with step := n, stepEl := elNs s, timeDone := false, oscDone := false, complete := done, boundFrom := elNs s } }

/-- On reaching READY by an election the module enters START_MODE (01 R33). Frames already run in it, but for a module that reaches
READY in another mode: that one changes at the next tick that is a multiple of 40 ms (R37). -/
def startMode (kind : Nat) (s : State) : State :=
  let m := s.cfg.img.frame.startMode
  if kind = 0 then
    { s with frame := { s.frame with pendingMode := if m = s.frame.mode then none else some (m, (s.frame.tic / 40000000 + 1) * 40000000) } }
  else s

/-- The module takes duty at tick c + 1. -/
def takeDuty (kind : Nat) (s : State) : State :=
  let k := frameIndex s
  let foreign := match s.lock.committed with | some c => isForeign s c | none => true
  let st := if kind = 0 ∨ foreign = true then ModState.ready
    else match s.lock.committed with | some c => stateOfCode c.state | none => .ready
  let s1 := { s with
    st := st
    lock := { s.lock with held := true, claim := none, claimOk := false, prepared := none, firstDuty := some k, aborted := false
                          expiry := k + s.cfg.img.lock.leaseLen, change := none, release := false }
    frame := { s.frame with emitSuppressed := false, p5Done := false, cpHanded := false, dpOk := false
                            sf1At := kindTripped s 1, sf2At := kindTripped s 2 }
    osc := s.osc.map (fun q => if q.watchPending then { q with watchPending := false, rxEl := elNs s } else q) }
  let s2 := startMode kind (bringAtDuty kind (dutyStart s1))
  let s3 := { s2 with bring := { s2.bring with obsAtTick := s2.obs.init } }
  mokAtTick (linkFaults (faultCond 0x0C16 false (faultCond 0x0C12 false (sendBeat false s3))))

def leasePass (s : State) : State :=
  if passDue s then
    match s.lock.claim with
    | some (_, kind) =>
      if s.lock.claimOk then
        let s1 := match kind, s.lock.cpLoaded, s.lock.committed with
          | 2, none, some c => targetLoad c s
          | _, _, _ => s
        takeDuty kind s1
      else abortClaim s
    | none => s
  else s

def execLeasePass (dt : Nat) (s : State) : Host.Outcome State Fault Refusal := .next (settle (leasePass (advance s dt)))

/-! ### The lease ends (R332, R336, R337) -/

/-- Tick EXPIRY. -/
def leaseEndDue (s : State) : Bool := s.lock.held && atTick s && decide (s.lock.expiry ≤ frameIndex s)

def leaseEnd (s : State) : State :=
  if leaseEndDue s then sendBeat false (linkFaults (leaveDuty (event 0x0C03 (u8 1) s))) else s

def execLeaseEnd (dt : Nat) (s : State) : Host.Outcome State Fault Refusal := .next (settle (leaseEnd (advance s dt)))

/-- The lease is given up at the tick after yielding began. -/
def yieldDue (s : State) : Bool := s.lock.yielding && atTick s && decide (s.lock.yieldTick ≤ frameIndex s)

/-- A lower slot has been unreachable for more than 2 × LEASE_LEN frames with its MOK energised (R337). -/
def yieldLost (s : State) : Bool :=
  (s.lock.held || s.lock.claim.isSome) && !s.lock.yielding && (otherSlots s).any (fun x => decide (x < s.lock.slot) && longLost s x)

def leaseYield (s : State) : State :=
  if yieldDue s then
    let s1 := event 0x0C03 (u8 2) s
    sendBeat false (linkFaults (leaveDuty s1))
  else if yieldLost s then startYield s else s

def execLeaseYield (dt : Nat) (s : State) : Host.Outcome State Fault Refusal := .next (settle (leaseYield (advance s dt)))

/-! ### Lock change (R347, R348, Table 12-12) -/

/-- LOCK.CHANGE as it is applied (R347, Tables 12-10 and 12-11). -/
def cmdLockChange (r : Request) (s : State) : Reply :=
  let t0 := byteAt r.payload 0
  let t := if t0 = 0 then nth 0 (succOrder s false) 0 else t0
  let k := frameIndex s
  if s.st ≠ .ready ∧ s.st ≠ .active then .refuse (errState s)
  else
    match freshBeat s t with
    | none => .refuse (errState s)
    | some b =>
      if b.good = false ∨ b.verMax < s.lock.groupVer then .refuse (errState s)
      else if s.st = .active ∧ b.digest8 ≠ digest8 s then .refuse (errState s)
      else if s.lock.change.isSome then .refuse errBusy
      else
        let h := if s.lock.groupVer = 2 then k + 3 else k + 4
        let s1 := setLock (fun l => { l with change := some (t, k) }) s
        .ok (event 0x0C05 (u8 t ++ u64 h) s1) (u64 k ++ u8 t ++ zeros 7 ++ u64 h)

/-- Tick k + 1 and tick k + 2 of a lock change applied in frame k. -/
def changeTick (n : Nat) (s : State) : Bool :=
  match s.lock.change with | some (_, k) => s.lock.held && atTick s && decide (frameIndex s = k + n) && !s.lock.yielding | none => false

/-- The beat with PREPARE, and the renewal of the last frame on duty; at group version 1 the beat carries no PREPARE (R348, R349). -/
def lockPrepare (s : State) : State := if changeTick 1 s && !leaseEndDue s then sendBeat (s.lock.groupVer == 2) (renew s) else s

def execLockChangePrepare (dt : Nat) (s : State) : Host.Outcome State Fault Refusal := .next (settle (lockPrepare (advance s dt)))

/-- The release beat; the old holder enters STANDBY. -/
def lockRelease (s : State) : State :=
  if changeTick 2 s then linkFaults (leaveDuty (releaseAtTick (event 0x0C03 (u8 0) s))) else s

def execLockChangeRelease (dt : Nat) (s : State) : Host.Outcome State Fault Refusal := .next (settle (lockRelease (advance s dt)))

/-- A target that received PREPARE in the frame before claims at this tick with the checkpoint of frame k (R348). -/
def targetDue (s : State) : Bool :=
  match s.lock.prepared, s.lock.committed with
  | some f, some c =>
    decide (s.st = .standby) && atTick s && decide (frameIndex s = f + 1) && s.lock.claim.isNone && !s.lock.periodDiff && decide (f ≤ c.frame + 1)
  | _, _ => false

/-- A target whose PREPARE led to no claim: its domains are off again. -/
def dropPrepare (s : State) : State :=
  match s.lock.prepared with
  | some f => if f + 1 < frameIndex s ∧ s.lock.claim = none ∧ s.st = .standby then dutyPowerOff (setLock (fun l => { l with prepared := none }) s) else s
  | none => s

/-- A failed check withholds the claim (R348, Table 12-8). -/
def withholdClaim (checked failed : Nat) (s : State) : State :=
  let s1 := event 0x0C06 (u16 checked ++ u16 failed) s
  let s2 := faultOnce 0x0C15 (setLock (fun l => { l with aborted := true, prepared := none }) (domainLosses failed s1))
  sendBeat false (dutyPowerOff s2)

def targetClaim (failed : Nat) (s : State) : State :=
  if targetDue s then
    let f := Nat.land failed (claimDomains s)
    if claimFails s f then withholdClaim (claimDomains s) f s
    else
      let s1 := claimStart 2 f s
      match s.lock.committed with
      | some c => if c.frame + 1 = frameIndex s then targetLoad c s1 else s1
      | none => s1
  else s

def execTargetClaim (dt failed : Nat) (s : State) : Host.Outcome State Fault Refusal :=
  .next (settle (targetClaim failed (advance s dt)))

/-- 4.0 ms after tick k + 2 the target loads the checkpoint it holds (R348). -/
def checkpointFallback (s : State) : State :=
  match s.lock.claim, s.lock.committed with
  | some (c, 2), some cp =>
    if s.lock.cpLoaded = none ∧ s.lock.claimOk = true ∧ frameIndex s = c ∧ s.frame.ticEl + 4000000 ≤ elNs s then targetLoad cp s else s
  | _, _ => s

def execCheckpointFallback (dt : Nat) (s : State) : Host.Outcome State Fault Refusal := .next (settle (checkpointFallback (advance s dt)))

/-! ### Frame numbers (01 R19) -/

/-- FRAME_INDEX is T_IC / T_F, so a mode change or a timebase step moves its count by `d` frames; what the module counts in frames moves
with it (the Lockkeeper counts frames, R332, R338). -/
def shiftFrame (d : Int) (n : Nat) : Nat := ((n : Int) + d).toNat

/-- `d`: what the module counts itself moves by it; `e`: what the sender counted. -/
def shiftBeat (d e : Int) (b : Beat) : Beat := { b with frame := shiftFrame e b.frame, atFrame := shiftFrame d b.atFrame, expiry := if b.expiry = 0 then 0 else shiftFrame e b.expiry }

def shiftPeer (d e : Int) (p : Peer) : Peer :=
  { p with pathL1 := p.pathL1.map (shiftFrame d), pathL2 := p.pathL2.map (shiftFrame d), lostSince := p.lostSince.map (shiftFrame d)
           last := p.last.map (shiftBeat d e), inStep := p.inStep.map (shiftBeat d e), holdAt := p.holdAt.map (shiftFrame d) }

def shiftSlot (d : Int) (m : SlotMsg) : SlotMsg := { m with frame := shiftFrame d m.frame, opened := m.opened.map (shiftFrame d) }

/-- Every number of a frame that the module holds in its own count moves by `d`, and every one that a peer gave by `e`: the same at a mode change
or a step of the timebase, which the whole station makes; 0 where the module takes up the count of a holder it was out of step with. -/
def rebase (d e : Int) (s : State) : State :=
  if d = 0 then s
  else
    let g := shiftFrame d
    let h := shiftFrame e
    let l := s.lock
    { s with
      lock := { l with expiry := g l.expiry, claim := l.claim.map (fun p => (g p.1, p.2)), change := l.change.map (fun p => (p.1, g p.2))
                       prepared := l.prepared.map g, yieldTick := g l.yieldTick, peers := l.peers.map (shiftPeer d e)
                       renewal := l.renewal.map (shiftBeat d e), committed := l.committed.map (fun c => { c with frame := h c.frame })
                       cpArr := l.cpArr.map g, firstDuty := l.firstDuty.map g, asm := l.asm.map (fun a => { a with frame := h a.frame }) }
      slots := s.slots.map (shiftSlot d)
      can := s.can.map (fun c => { c with safe := shiftSlot d c.safe })
      faults := { s.faults with
        src := s.faults.src.map (fun p => (p.1, { p.2 with sluiceTick := p.2.sluiceTick.map g }))
        blkWork := s.faults.blkWork.map g, criticalAt := s.faults.criticalAt.map g } }

/-! ### Period and drill (R339, R350) -/

/-- The frame mode the holder shows, by its latest beat or else by the committed checkpoint. -/
def holderMode (s : State) : Nat :=
  match (s.lock.renewal.bind (fun r => (peerOf s r.slot).last)), s.lock.committed with
  | some b, _ => b.mode
  | none, some c => c.mode
  | none, none => s.frame.mode

/-- A standby whose period differs adopts the holder's at a tick that is a multiple of 40 ms (R350); the tick bounds the new frame. -/
def periodAdopt (s : State) : State :=
  if s.st = .standby ∧ s.lock.periodDiff = true ∧ atTick s = true ∧ s.frame.tic % 40000000 = 0 then
    let m := holderMode s
    let k := s.frame.tic / periodNs m
    let s1 := rebase ((k : Int) - frameIndex s) 0 s
    { s1 with lock := { s1.lock with periodDiff := false, cpGood := false }
              frame := { s1.frame with mode := m, index := k, nextTick := s.frame.tic + periodNs m
                                       status := { s1.frame.status with mode := m } } }
  else s

def execPeriodAdopt (dt : Nat) (s : State) : Host.Outcome State Fault Refusal := .next (settle (periodAdopt (advance s dt)))

/-- The condition of fault 0x0C12 (R339). -/
def drillOverdue (s : State) : Bool :=
  let d := s.cfg.img.lock.lockDrillDays
  decide (s.st = .standby) && decide (d ≠ 0) && (match s.lock.drillOp with | some t => decide (t + d * 86400 < s.ledger.opS) | none => false)

def execLockDrillOverdue (dt : Nat) (s : State) : Host.Outcome State Fault Refusal :=
  .next (settle (let t := advance s dt; if drillOverdue t then faultCond 0x0C12 true t else t))

end Sys2Proof.Machine
end

