-- ==== Sys2Proof/Machine/Configuration.lean ====
section
/-! DEFINITION. Banks, staging, commit and effect of an image; reading a configuration (03_configuration R89 to R104; 12_lock_group R326,
R327; 13_bringup R365). -/

namespace Sys2Proof.Machine

def setCfg (f : CfgSt → CfgSt) (s : State) : State := { s with cfg := f s.cfg }

/-! ### Banks (R92, R93) -/

def bankOf (s : State) (b : Nat) : Bank := if b = 0 then s.cfg.bank0 else s.cfg.bank1
def activeBank (s : State) : Bank := bankOf s s.cfg.active
def inactiveNo (s : State) : Nat := 1 - s.cfg.active
def inactiveBank (s : State) : Bank := bankOf s (inactiveNo s)

def setBank (b : Nat) (k : Bank) (s : State) : State :=
  if b = 0 then setCfg (fun c => { c with bank0 := k }) s else setCfg (fun c => { c with bank1 := k }) s

/-- The bytes of a copy of the commit record that its CRC covers (R92). -/
def CommitCopy.body (c : CommitCopy) : Bytes := u32 c.seq ++ u8 c.bank ++ c.reserved ++ c.digest

/-- A copy is valid: whole, with the CRC-32 of R51 over it (R92). -/
def CommitCopy.isValid (c : CommitCopy) : Bool := c.reserved.length == 3 && c.digest.length == 32 && c.crc == crc32 c.body

/-- The valid copy of the commit record with the higher SEQ (R92). -/
def commitRecord (s : State) : Option CommitCopy :=
  let a := s.cfg.copy0
  let b := s.cfg.copy1
  if a.isValid ∧ b.isValid then some (if a.seq < b.seq then b else a) else if a.isValid then some a else if b.isValid then some b else none

/-- The copy that a commit overwrites is copy 1 (R92); without a valid copy it is copy 0, the model's choice (DESIGN CHOICE,
notes/assumptions/10.md). -/
def writesSecond (s : State) : Bool :=
  s.cfg.copy0.isValid && (!s.cfg.copy1.isValid || decide (s.cfg.copy1.seq ≤ s.cfg.copy0.seq))

/-- A copy is written over the one that does not stand. -/
def putCopy (c : CommitCopy) (s : State) : State :=
  if writesSecond s then setCfg (fun x => { x with copy1 := c }) s else setCfg (fun x => { x with copy0 := c }) s

/-- A copy whole, with its CRC. -/
def sealedCopy (seq bank : Nat) (digest : Bytes) : CommitCopy :=
  let c : CommitCopy := { seq := seq, bank := bank, reserved := zeros 3, digest := padTo 32 digest }
  { c with crc := crc32 c.body }

/-- A commit overwrites the other copy with SEQ + 1 (R92); the first of all takes SEQ 1, the model's choice (DESIGN CHOICE,
notes/assumptions/10.md). -/
def writeCommit (bank : Nat) (digest : Bytes) (s : State) : State :=
  let seq := (match commitRecord s with | some c => c.seq + 1 | none => 1) % 2 ^ 32
  setCfg (fun x => { x with active := bank }) (putCopy (sealedCopy seq bank digest) s)

/-- Bytes that a commit cut short leaves in a copy: its 44 bytes (R92). -/
def copyOf (b : Bytes) : CommitCopy :=
  { seq := fld b 0 4, bank := byteAt b 4, reserved := slice b 5 3, digest := slice b 8 32, crc := fld b 40 4 }

/-- Power is lost while a commit is being written: the copy it overwrites is left invalid, and the earlier commit stands (R92). `cut`: the
bytes left in that copy; bytes that no cut commit leaves (another number of them, or a copy that is valid) stand for no commit. -/
def commitCut (cut : Bytes) (s : State) : State :=
  let writing := (List.range 9).any (fun m => (turnRequest s m wConfigCommit).isSome)
  if writing ∧ cut.length = 44 ∧ (copyOf cut).isValid = false then putCopy (copyOf cut) s else s

/-- Codes that name a fault (R509). -/
def knownCode (c : Nat) : Bool := (defaultSev c).isSome

/-- Verification of bytes by Table 3-6, steps 2 to 19; an uncorrectable MRAM error gives STORE (step 2, 19 R504). -/
def verifyBytes (s : State) (bankErr : Bool) (b : Bytes) : Verdict :=
  if bankErr then (0x0013, 0) else verifyImage s.unit.variantN s.unit.serial s.unit.keyState knownCode b

/-- A verification is in progress: of the staged bank, or, in SELFTEST, of the active one. -/
def stagingOpen (s : State) : Bool := (inactiveBank s).state == 1 || (inactiveBank s).state == 2

/-- PD-HC has its full clock in STANDBY: while staging is open or verifying, and for 10 s after the last configuration command (R94, 11
R313). -/
def hcFull (s : State) : Bool :=
  decide (s.st = .standby) && (stagingOpen s || (match s.cfg.grantUntil with | some t => decide (elNs s < t) | none => false))

/-- A configuration command in STANDBY renews the grant (R94); that only an answered one does is the model's choice (DESIGN CHOICE,
notes/assumptions/31.md). -/
def noteGrant (s : State) : State :=
  if s.st = .standby then setCfg (fun c => { c with grantUntil := some (elNs s + 10000000000) }) s else s

/-- STAGING_GRANT_EXPIRY (R94). -/
def grantExpiry (s : State) : State :=
  match s.cfg.grantUntil with
  | some t => if t ≤ elNs s ∧ stagingOpen s = false then setCfg (fun c => { c with grantUntil := none }) s else s
  | none => s

def execStagingGrantExpiry (dt : Nat) (s : State) : Host.Outcome State Fault Refusal := .next (settle (grantExpiry (advance s dt)))

/-! ### CONFIG.STAGE (R94, Tables 3-10 and 3-11) -/

/-- The request continues the staging: its OFFSET is NEXT_OFFSET and its TOTAL_LEN the staging's. -/
def cmdStage (r : Request) (s : State) : Reply :=
  let ofs := fld r.payload 0 4
  let total := fld r.payload 4 4
  let data := r.payload.drop 8
  let k := inactiveBank s
  let others := stagingOpen s && decide (s.cfg.owner ≠ some r.mbox) && !(s.cfg.owner.isNone && ofs == 0)
  if ofs ≠ 0 ∧ (k.state ≠ 1 ∨ ofs ≠ s.cfg.nextOffset) then .refuse (errRange 0)
  else if total % 4 ≠ 0 ∨ total < 512 ∨ 8388608 < total ∨ (ofs ≠ 0 ∧ total ≠ k.totalLen) then .refuse (errRange 4)
  else if total < ofs + data.length then .refuse (errRange 8)
  else if others then .refuse errBusy
  else
    let s0 := if ofs = 0 then
        event 0x0302 [] (setCfg (fun c => { c with owner := some r.mbox, verifying := none }) (setBank (inactiveNo s) { state := 1, totalLen := total } s))
      else s
    let next := ofs + data.length
    let done := decide (next = total)
    let k1 := inactiveBank s0
    let s1 := setBank (inactiveNo s0) { k1 with bytes := k1.bytes ++ data, state := if done then 2 else 1 } s0
    let s2 := setCfg (fun c => { c with nextOffset := next, verifying := if done then some (inactiveNo s0) else none }) s1
    .ok (noteGrant s2) (u32 next ++ u8 (if done then 2 else 1) ++ zeros 3)

def execConfigStage (dt mbox : Nat) (s : State) : Host.Outcome State Fault Refusal :=
  .next (settle (runImmediate wConfigStage cmdStage mbox (advance s dt)))

/-! ### CONFIG.COMMIT (R95, Tables 3-12 and 3-13) -/

/-- The first tick after a response given now has left (R96): behind frame-bound responses that are held, the tick after the P5 in which the
last of them leaves. -/
def effectTick (s : State) (m : Nat) : Nat :=
  let next := s.frame.nextTick
  if (boxOf s m).queue.any (fun q => q.hold && (match q.applyTic with | some t => decide (next ≤ t) | none => false)) then
    next + gridPeriod s next
  else next

/-- CONFIG.COMMIT. A former active bank that never passed verification does not become VERIFIED (Table 3-7). -/
def cmdCommit (writeOk : Bool) (r : Request) (s : State) : Reply :=
  let k := inactiveBank s
  let may := decide (s.st = .held) || decide (s.st = .standby) || (decide (s.st = .ready) && r.mbox != 0)
  let kept (v : Nat) : Reply := .ok (noteGrant s) (u16 v ++ u8 s.cfg.active ++ zeros 5 ++ u64 0)
  if may = false then .refuse (errState s)
  else if k.state = 2 ∨ (k.state = 1 ∧ s.cfg.owner ≠ some r.mbox) then .refuse errBusy
  else if k.state = 0 ∨ k.state = 1 then kept 0x0004
  else if k.state = 4 then kept k.verdict
  else if r.payload.take 8 ≠ (imageDigest k.bytes).take 8 then .refuse (errRange 0)
  else if writeOk = false then .refuse { code := 0x0011 }
  else
    let old := activeBank s
    let f := effectTick s r.mbox
    let to1 := inactiveNo s
    let s1 := setBank s.cfg.active { old with state := if old.bytes.isEmpty then 0 else if old.verdict = 0 then 3 else 4 } s
    let s2 := setBank to1 { k with state := 5 } s1
    let s3 := setCfg (fun c => { c with owner := none, effect := some f }) (writeCommit to1 (imageDigest k.bytes) s2)
    .ok (noteGrant (event 0x0303 [] s3)) (u16 0 ++ u8 to1 ++ zeros 5 ++ u64 (frameAt s f))

def execConfigCommit (dt mbox : Nat) (writeOk : Bool) (s : State) : Host.Outcome State Fault Refusal :=
  .next (settle (runImmediate wConfigCommit (cmdCommit writeOk) mbox (advance s dt)))

/-! ### CONFIG.ABORT (R97) -/

def cmdAbort (r : Request) (s : State) : Reply :=
  let k := inactiveBank s
  match s.cfg.owner with
  | some o =>
    if o ≠ r.mbox then .refuse errBusy
    else if k.state = 1 ∨ k.state = 2 ∨ k.state = 4 then
      .ok (noteGrant (event 0x0304 []
        (setCfg (fun c => { c with owner := none, verifying := none, nextOffset := 0 }) (setBank (inactiveNo s) {} s)))) []
    else .ok (noteGrant s) []
  | none => .ok (noteGrant s) []

def execConfigAbort (dt mbox : Nat) (s : State) : Host.Outcome State Fault Refusal :=
  .next (settle (runImmediate wConfigAbort cmdAbort mbox (advance s dt)))

/-! ### CONFIG.READ (R104, Tables 3-18 and 3-19) -/

/-- One bank in the summary: what its header and digest say once all bytes are written. -/
def bankSummary (k : Bank) : Bytes :=
  let whole := decide (3 ≤ k.state)
  u8 k.state ++ u8 (if whole then byteAt k.bytes 4 else 0) ++ zeros 2 ++ u32 (if whole then fld k.bytes 16 4 else 0) ++ u32 k.totalLen ++
    u16 k.verdict ++ zeros 2 ++ (if whole then imageDigest k.bytes else zeros 32)

/-- The summary of Table 3-19. HELD_REASON and HELD_DETAIL read 0 outside HELD, and a staged bank's detail is not reported: the model's choice
(DESIGN CHOICE, notes/assumptions/31.md). -/
def configSummary (s : State) : Bytes :=
  let held := decide (s.st = .held)
  u8 s.cfg.active ++ u8 (s.cfg.owner.getD 0xFF) ++ u16 (if held then s.cfg.heldReason else 0) ++ u32 (if held then s.cfg.heldDetail else 0) ++
    u32 s.cfg.nextOffset ++ zeros 4 ++ bankSummary s.cfg.bank0 ++ bankSummary s.cfg.bank1

/-- The entry that fills a slot, Table 3-17. -/
def fillingEntry (es : List Image.Entry) (slot : Nat) : Nat :=
  match (enumFrom 0 es).find? (fun p => p.2.kind != 0 && p.2.dest == slot) with | some (i, _) => i | none => 0xFFFF

/-- A slot of the store, Table 3-17. -/
def slotBytes (es : List Image.Entry) (t : Table Slot) (i : Nat) : Bytes :=
  let x := Table.get {} t i
  i64 x.value ++ u64 x.stamp ++ u16 (fillingEntry es i) ++ u8 x.quality ++ u8 x.seq ++ zeros 4

/-- What CONFIG.READ answers for its SELECT from the values captured (R66): items returned and their bytes. -/
def readItems (s : State) (sel count index : Nat) : Nat × Bytes :=
  let (summary, image, snap) := match s.view with
    | some v => (v.configRead, if v.active = 0 then v.bank0 else v.bank1, v.snap)
    | none => (configSummary s, (activeBank s).bytes, s.snap)
  if sel = 0 then (0, summary)
  else if sel = 1 then let b := slice image index count; (b.length, b)
  else if sel = 2 then
    let n := Nat.min count (4096 - index)
    (n, (List.range n).flatMap (fun i => slotBytes s.cfg.img.map snap (index + i)))
  else
    let m := secBytes image 3
    let n := Nat.min count (m.length / 48 - index)
    (n, slice m (48 * index) (48 * n))

def cmdConfigRead (r : Request) (s : State) : Reply :=
  let sel := byteAt r.payload 0
  let count := fld r.payload 2 2
  let index := fld r.payload 4 4
  let hi := if r.version = 1 then 1016 else 1024
  let countOk :=
    if sel = 0 then decide (count = 0)
    else if sel = 1 then decide (count % 4 = 0) && within 4 hi count
    else if sel = 2 then within 1 32 count else within 1 16 count
  if 3 < sel then .refuse (errRange 0)
  else if countOk = false then .refuse (errRange 2)
  else if sel = 1 ∧ index % 4 ≠ 0 then .refuse (errRange 4)
  else
    let (n, items) := readItems s sel count index
    .ok (noteGrant s) (u8 sel ++ zeros 1 ++ u16 n ++ u32 index ++ items)

def execConfigRead (dt mbox : Nat) (s : State) : Host.Outcome State Fault Refusal :=
  .next (settle (runImmediate wConfigRead cmdConfigRead mbox (advance s dt)))

/-! ### An image in force -/

/-- The slot of the module's serial number (12 R326); 0 when the image names none. -/
def slotOf (serial : Bytes) (img : Image.Img) : Nat :=
  let l := img.lock
  match (enumFrom 1 (l.slotSerial.take l.nSlots)).find? (fun p => p.2 == padTo 12 serial) with | some (i, _) => i | none => 0

/-- An image has passed verification: in HELD its addresses, of this module's slot in it, are those of H1 and H2 (02 R48, 12 R327). -/
def noteVerified (img : Image.Img) (s : State) : State :=
  let slot := slotOf s.unit.serial img
  setCfg (fun c => { c with netOpen := true, addrH1 := (img.network.h1Addr + slot - 1) % 2 ^ 32, addrH2 := (img.network.h2Addr + slot - 1) % 2 ^ 32 }) s

/-- The image is in force, with its slot (R96, 12 R326). -/
def adoptImage (img : Image.Img) (s : State) : State :=
  let slot := slotOf s.unit.serial img
  let s1 := setCfg (fun c => { c with img := img, heldReason := 0, heldDetail := 0 }) s
  { s1 with lock := { s1.lock with slot := slot } }

/-- The stages that a committed image resets in every state: the store (R103), notches (07), regimes (09 R246), solves (10 R289), latched
outputs (18 R486), digital input filters keep. -/
def imageStages (s : State) : State :=
  let s1 := fieldImage (resetStore s)
  let s2 := solverStart (allocStart { s1 with obs := { s1.obs with notchPrime := true } })
  reselect (canStartAll { s2 with osc := List.replicate s2.cfg.img.osc.conns.length {} })

/-- Bring-up begins again at discovery with the image now in force (R96, 13 R365): the module is in STANDBY, not good. -/
def restartBringup (oldAnalog : Image.Analog) (s : State) : State :=
  let s1 := startTrips (stagesStart (imageStages s))
  let s2 := analogImage oldAnalog (safetyOff s1)
  startDiscovery { s2 with
    st := .standby
    bring := { s2.bring with step := 3, stepEl := elNs s2, analogDone := analogSettled s2, done7 := false, complete := false, timeDone := false, oscDone := false
                             boundFrom := elNs s2 }
    lock := { s2.lock with aborted := false, cpGood := false } }

/-- A committed image takes effect at its tick (R96). -/
def imageEffect (s : State) : State :=
  match s.cfg.effect with
  | none => s
  | some f =>
    if atTick s = true ∧ f ≤ s.frame.tic then
      let old := s.cfg.img.analog
      let img := readImage (activeBank s).bytes
      let s0 := setCfg (fun c => { c with effect := none }) s
      if s.st = .standby then
        let s1 := imageStages (adoptImage img s0)
        noteForeign (if s1.analog.powered = true ∨ s1.bring.step = 3 ∨ s1.bring.step = 4 then analogImage old s1 else s1)
      else
        let s1 := if s0.lock.held then releaseAtTick (event 0x0C03 (u8 0) s0) else s0
        let s2 := leaveDutyWith dutyPowerOffKeep (closeAll s1)
        noteForeign <| restartBringup old (adoptImage img { s2 with solver := { shadows := s1.solver.shadows.map (fun x => { x with foreignImg := x.sol.isSome }) } })
    else s

def execImageEffect (dt : Nat) (s : State) : Host.Outcome State Fault Refusal := .next (settle (imageEffect (advance s dt)))

end Sys2Proof.Machine
end

