-- ==== Sys2Proof/Machine/Bringup.lean ====
section
/-! DEFINITION. Supplies, starts and the steps of bring-up before and beside duty (13_bringup R354 to R367; 20_ledger R514, R517, R519). -/

namespace Sys2Proof.Machine

/-! ### Starts -/

/-- What a start keeps of configuration: both banks, the commit record, what addresses were last in force; a staging is left without
owner (03 R92, R94, R48), the active bank is the one the commit record names. -/
def cfgAtStart (s : State) : CfgSt :=
  { s.cfg with
    owner := none, effect := none, grantUntil := none, heldReason := 0, heldDetail := 0
    active := match commitRecord s with | some c => c.bank % 2 | none => s.cfg.active }

/-- What a start keeps of the safety pair: when each function last tripped, for the proof test (17 R468). -/
def safetyAtStart (s : State) : SafetySt :=
  { funcs := s.safety.funcs.map (fun f => { lastTripOp := f.lastTripOp : FuncSt }) }

/-- The Ledger at a start: BOOT rises; after a loss of supply OP_S resumes from the greater of the saved value and one more than that of
the newest record (R514); counters of this start are cleared (R518). -/
def ledgerAtStart (powerGood : Bool) (l : LedgerSt) : LedgerSt :=
  let op := match l.recs with | r :: _ => Nat.min 0xFFFFFFFF (Nat.max l.savedOp (r.opS + 1)) | [] => l.savedOp
  { l with queue := [], lost := 0, lostSince := 0, boot := (l.boot + 1) % 2 ^ 32, counting := true
           opS := if powerGood then op else l.opS, opNs := if powerGood then 0 else l.opNs, discarded := 0 }

/-- A start from the other firmware bank runs the version that stands there (02 R81); where an image states it the manual does not say. -/
def unitAtStart (s : State) : UnitId :=
  if s.mb.fwNext = s.mb.fwActive then s.unit else { s.unit with fwVersion := Config.fwVersionOf s.mb.fwBank % 2 ^ 32 }

/-- Every start, from power-good or by a module reset: everything volatile takes its reset value, self-test begins (R358). A power-fail detected
before a module reset still leads to OFF (R355, R356). -/
def startOver (powerGood : Bool) (cause : Nat) (s : State) : State :=
  let s1 : State :=
    { pending := s.pending, out := s.out, nFree := s.nFree, unit := unitAtStart s, clk := { el := s.clk.el }, st := .selftest
      time := { link100 := s.time.link100 }
      rtc := if powerGood then { s.rtc with alarms := [{}, {}, {}, {}] } else s.rtc
      mb := { usbAttached := s.mb.usbAttached, fwBank := if s.mb.fwNext = s.mb.fwActive then s.mb.fwBank else []
              fwActive := s.mb.fwNext, fwNext := s.mb.fwNext }
      cfg := cfgAtStart s
      lock := { drillOp := s.lock.drillOp }
      bring := { step := 1, stepEl := s.clk.el, goodEl := s.clk.el, boundFrom := s.clk.el, resetHold := false, powerFailEl := if powerGood then none else s.bring.powerFailEl }
      gnss := { ret := if powerGood then s.gnss.saved else s.gnss.ret, saved := s.gnss.saved }
      safety := safetyAtStart s
      ledger := ledgerAtStart powerGood s.ledger }
  event 0x1403 (u8 cause ++ u8 s.ledger.discarded) s1

/-- POWER_GOOD (R354): the higher supply has stood at or above 17.0 V for 10 ms; in mV. `h1Fast`, `h2Fast`: H1, H2 link
at 100BASE-TX (14 R380). -/
def powerGood (lvA lvB : Nat) (h1Fast h2Fast : Bool) (s : State) : State :=
  if s.st = .off ∧ 17000 ≤ Nat.max lvA lvB then
    let s1 := startOver true 0 s
    { s1 with bring := { s1.bring with lvA := lvA, lvB := lvB }, time := { s1.time with link100 := [h1Fast, h2Fast] } }
  else s

def execPowerGood (dt lvA lvB : Nat) (h1Fast h2Fast : Bool) (s : State) : Host.Outcome State Fault Refusal :=
  .next (settle (powerGood lvA lvB h1Fast h2Fast (advance s dt)))

/-- MODULE_RESET (R358, 19 R494, 20 R517): the write queue is drained first. In a module that self-test holds in SELFTEST it changes
nothing (R366). -/
def moduleReset (s : State) : State :=
  match s.st with
  | .off => s
  | .selftest => if s.bring.step = 0 then s else startOver false (if s.faults.mustReset then 1 else 2) (drainQueue s)
  | _ => startOver false (if s.faults.mustReset then 1 else 2) (drainQueue s)

def execModuleReset (dt : Nat) (s : State) : Host.Outcome State Fault Refusal := .next (settle (moduleReset (advance s dt)))

/-! ### Power-fail -/

/-- POWER_FAIL (R355, R357, 20 R514, R519): the higher supply falls below 16.0 V. `started`: slots whose start of frame is on a bus. -/
def powerFail (lvA lvB : Nat) (started : List Nat) (s : State) : State :=
  if s.st ≠ .off ∧ s.bring.powerFailEl = none ∧ Nat.max lvA lvB < 16000 then
    let s1 := { s with bring := { s.bring with powerFailEl := some (elNs s), lvA := lvA, lvB := lvB } }
    let s2 := event 0x0D03 (u8 (stateCode s1.st) ++ u64 (frameIndex s1) ++ u16 lvA ++ u16 lvB) (suppressSlots started s1)
    let s3 := if s2.lock.held then releaseBetweenTicks (event 0x0C03 (u8 3) s2) else s2
    let s4 := { s3 with frame := { s3.frame with emitSuppressed := true }, ledger := { s3.ledger with savedOp := s3.ledger.opS } }
    drainQueue s4
  else s

def execPowerFail (dt lvA lvB : Nat) (started : List Nat) (s : State) : Host.Outcome State Fault Refusal :=
  .next (settle (powerFail lvA lvB started (advance s dt)))

/-- OFF: what stands in PD-BK and in MRAM or NOR stays, everything else is at its reset value (Table 11-1). -/
def offState (vbak : Bool) (s : State) : State :=
  { pending := s.pending, out := s.out, nFree := s.nFree, unit := s.unit, clk := { el := s.clk.el }
    time := { link100 := s.time.link100 }
    rtc := { s.rtc with alarms := [{}, {}, {}, {}], bkExt := vbak }
    mb := { usbAttached := s.mb.usbAttached, fwBank := s.mb.fwBank, fwActive := s.mb.fwActive, fwNext := s.mb.fwNext }
    cfg := cfgAtStart s
    lock := { drillOp := s.lock.drillOp }
    gnss := { saved := s.gnss.saved }
    safety := safetyAtStart s
    ledger := { s.ledger with queue := [], counting := false } }

/-- POWER_OFF (R355, R356): 2.0 ms after detection, whatever the supply does meanwhile. `cut`: what a commit cut short leaves (03 R92). -/
def powerOff (vbak : Bool) (cut : Bytes) (s : State) : State :=
  match s.bring.powerFailEl with
  | some t => if t + 2000000 ≤ elNs s then offState vbak (commitCut cut s) else s
  | none => s

def execPowerOff (dt : Nat) (left : PowerLoss) (s : State) : Host.Outcome State Fault Refusal :=
  .next (settle (powerOff left.vbak left.cut (advance s dt)))

/-! ### Self-test and verification -/

/-- Domains with whose failure the module stays in SELFTEST (Table 13-2): PD-AO, PD-CK, PD-NW, PD-HC, PD-SF, PD-FC, PD-IO, or both
arrays. -/
def staysInSelftest (failed : Nat) : Bool :=
  [1, 2, 3, 4, 5, 8, 11].any (fun i => failed.testBit i) || (failed.testBit dSA && failed.testBit dSB)

/-- SELFTEST_COMPLETE (R366, Table 13-2). -/
def selftestComplete (failed0 : Nat) (s : State) : State :=
  if s.st = .selftest ∧ s.bring.step = 1 then
    let tested := if s.unit.variantN then 0xDFF else 0xFFF
    let failed := Nat.land failed0 tested
    let s1 := event 0x0D04 (u16 tested ++ u16 failed) s
    if staysInSelftest failed then
      { s1 with bring := { s1.bring with step := 0 }, field := { s1.field with repl := true } }
    else
      let s2 := domainLosses failed s1
      endStep 1 (if failed.testBit dAN then faultCond 0x0D13 true s2 else s2)
  else s

def execSelftestComplete (dt failed : Nat) (s : State) : Host.Outcome State Fault Refusal :=
  .next (settle (selftestComplete failed (advance s dt)))

/-- Seconds from the PTP epoch to 2000-01-01 00:00:00 on the count of a calendar in UTC. -/
def calEpoch : Nat := 946684800

/-- At the end of SELFTEST a timebase without time takes the RTC's, when its calendar is valid and its oscillator has not stopped (14
R388, R362). -/
def timeFromRtc (s : State) : State :=
  if s.time.state = .noTime ∧ s.rtc.calValid = true ∧ s.rtc.osf = false then
    let sec : Int := (calSeconds (calOf s.rtc) + calEpoch : Nat) + s.cfg.img.time.utcOffsetDef
    let t := (sec * 1000000000 + ((elNs s - s.rtc.subEl : Nat) : Int)).toNat
    setTb .free { s with clk := { s.clk with tb := t * tbUnit } }
  else s

/-- Ticks begin (01 R18): the first lies on the grid of the mode. -/
def startFrames (mode : Nat) (s : State) : State :=
  let p := periodNs mode
  let next := (nowNs s / p + 1) * p
  { s with frame := { running := true, mode := mode, nextTick := next, index := next / p - 1, tic := next - p, ticEl := 0
                      status := { mode := mode } } }

/-- SELFTEST ends with a verified image: STANDBY, not good, discovery begins (R358, R359, 17 R453). -/
def startStation (img : Image.Img) (s : State) : State :=
  let s1 := timeFromRtc (endStep 2 (adoptImage img s))
  let s2 := startFrames img.frame.startMode { s1 with st := .standby }
  let s3 := startDiscovery (stagesStart (imageStages (startTrips s2)))
  noteStandby (noteAnalog (analogOn s3))

/-- SELFTEST ends with the active bank refused: HELD (03 R89). -/
def startHeld (v : Verdict) (s : State) : State :=
  let s1 := timeFromRtc { s with st := .held, bring := { s.bring with step := 0 } }
  startFrames s1.cfg.img.frame.startMode
    (event 0x0301 (u16 v.1 ++ u32 v.2) (setCfg (fun c => { c with heldReason := v.1, heldDetail := v.2 }) s1))

/-- Verdict of the active bank (Table 3-6): step 1 first. -/
def activeVerdict (s : State) (bankErr : Bool) : Verdict :=
  match commitRecord s with
  | none => (0x0001, 0)
  | some _ => if (activeBank s).bytes.isEmpty then (0x0001, 0) else verifyBytes s bankErr (activeBank s).bytes

/-- The verdict of a bank is noted; an image that passes gives the addresses of HELD (02 R48). -/
def noteVerdict (b : Nat) (st : Nat) (v : Verdict) (s : State) : State :=
  let s1 := setBank b { bankOf s b with state := st, verdict := v.1, detail := v.2 } s
  if v.1 = 0 then noteVerified (readImage (bankOf s b).bytes) s1 else s1

/-- IMAGE_VERIFICATION_COMPLETE (03 R87, R89, R94): in SELFTEST of the active bank, otherwise of the staged one. `bankErr`: the bank
held an uncorrectable MRAM word (19 R504). -/
def verificationComplete (bankErr : Bool) (s : State) : State :=
  if s.st = .selftest then
    if s.bring.step = 2 then
      let v := activeVerdict s bankErr
      let s1 := if bankErr then faultOnce 0x1315 s else s
      let s2 := if v.1 = 0x0001 then s1 else noteVerdict s.cfg.active 5 v s1
      if v.1 = 0 then startStation (readImage (activeBank s).bytes) s2 else startHeld v s2
    else s
  else if s.st = .off then s
  else
    match s.cfg.verifying with
    | none => s
    | some b =>
      let v := verifyBytes s bankErr (bankOf s b).bytes
      let s1 := if bankErr then faultOnce 0x1315 s else s
      noteVerdict b (if v.1 = 0 then 3 else 4) v (setCfg (fun c => { c with verifying := none }) s1)

def execImageVerificationComplete (dt : Nat) (bankErr : Bool) (s : State) : Host.Outcome State Fault Refusal :=
  .next (settle (verificationComplete bankErr (advance s dt)))

/-! ### Bounds of steps 5, 6 and 8 -/

/-- TIME_LOCK_TIMEOUT (R362). -/
def timeLockTimeout (s : State) : State :=
  if onDuty s.st = true ∧ s.bring.step = 5 ∧ s.time.state ≠ .locked ∧ s.bring.stepEl + 8000000000 ≤ elNs s then
    bringProgress (faultCond 0x0D11 true { s with bring := { s.bring with timeDone := true } })
  else s

def execTimeLockTimeout (dt : Nat) (s : State) : Host.Outcome State Fault Refusal := .next (settle (timeLockTimeout (advance s dt)))

/-- OSC_SETUP_TIMEOUT (R363). -/
def oscSetupTimeout (s : State) : State :=
  if onDuty s.st = true ∧ s.bring.step = 6 ∧ allConnsOpen s = false ∧ s.bring.stepEl + 3000000000 ≤ elNs s then
    bringProgress (faultCond 0x0D12 true { s with bring := { s.bring with oscDone := true } })
  else s

def execOscSetupTimeout (dt : Nat) (s : State) : Host.Outcome State Fault Refusal := .next (settle (oscSetupTimeout (advance s dt)))

/-- The bound of R367 in ns: 45 s, or 105 s when every position reference is of FORMAT 3. -/
def bringBound (s : State) : Nat :=
  if (s.cfg.img.fusion.refs.filter (fun r => r.kind == 0)).all (fun r => r.format == 3) then 105000000000 else 45000000000

/-- BRINGUP_TIMEOUT (R367). -/
def bringupTimeout (s : State) : State :=
  if onDuty s.st = true ∧ s.bring.complete = false ∧ s.bring.boundFrom + bringBound s ≤ elNs s then faultCond 0x0D10 true s else s

def execBringupTimeout (dt : Nat) (s : State) : Host.Outcome State Fault Refusal := .next (settle (bringupTimeout (advance s dt)))

/-- Step 8 ends: bring-up is complete (R358). -/
def bringComplete (s : State) : State :=
  let s1 := endStep 8 s
  faultCond 0x0D10 false (event 0x0D02 (u32 (msSinceGood s)) { s1 with bring := { s1.bring with complete := true } })

/-! ### Pins that the state fixes (Table 13-3) -/

/-- FLT_N asserted: by the state in SELFTEST and HELD, by the fault rules from STANDBY on; in OFF while a supply holds the module in reset, and
released without one. -/
def fltLevel (supplied : Bool) (s : State) : Bool :=
  match s.st with
  | .off => supplied
  | .selftest => true
  | .held => true
  | _ => s.field.fltN

/-- FLT_N of a module that runs. -/
def fltPin (s : State) : Bool := fltLevel true s

/-- What CAN1 to CAN4 do. -/
inductive CanUse where
  | unpowered | recessive | noAcknowledge | listenOnly | oscOnly | schedule
  deriving DecidableEq, Repr

/-- What H1 and H2 do. -/
inductive HostUse where
  | down | noMailbox | held | mailboxes
  deriving DecidableEq, Repr

/-- What L1 and L2 do. -/
inductive LockUse where
  | down | relay | beats | checkpoints
  deriving DecidableEq, Repr

/-- The transmitters of S1 to S8. -/
inductive SerialUse where
  | highImpedance | idle | driven
  deriving DecidableEq, Repr

/-- The outputs and buses of Table 13-3. `pulses`: PPS_OUT pulses; `trigs`: TRIG1 to TRIG4 follow their trains. -/
structure Pins where
  mok : Bool := false
  flt : Bool := false
  repl : Bool := false
  dout : List Bool := List.replicate 24 false
  so : List Bool := List.replicate 8 false
  can : CanUse := .unpowered
  host : HostUse := .down
  lockLink : LockUse := .down
  serial : SerialUse := .highImpedance
  pulses : Bool := false
  trigs : Bool := false
  bias : Bool := false
  deriving DecidableEq, Repr

/-- What a state makes of the buses (Table 13-3); in READY bring-up and what follows it differ. -/
def busUse (supplied : Bool) (s : State) : CanUse × HostUse × LockUse × SerialUse :=
  match s.st with
  | .off => (if supplied then .recessive else .unpowered, .down, .down, .highImpedance)
  | .selftest => (.recessive, .noMailbox, .relay, .highImpedance)
  | .held => (.noAcknowledge, .held, .relay, .highImpedance)
  | .standby => (.listenOnly, .mailboxes, .beats, .highImpedance)
  | _ => if s.bring.complete then (.schedule, .mailboxes, .checkpoints, .driven) else (.oscOnly, .mailboxes, .checkpoints, .idle)

/-- Every output and bus as it stands (R369). `supplied`: a logic supply is present, which in OFF holds the module in reset. -/
def pins (supplied : Bool) (s : State) : Pins :=
  let u := busUse supplied s
  let duty := onDuty s.st
  { mok := s.field.mok && mokCond s, flt := fltLevel supplied s, repl := decide (s.st ≠ .off) && s.field.repl
    dout := s.field.dout.map (fun d => d.pin && duty && s.bring.complete), so := s.safety.so.map (fun o => o.on && duty)
    can := u.1, host := u.2.1, lockLink := u.2.2.1, serial := u.2.2.2
    pulses := decide (s.st ≠ .off) && decide (s.st ≠ .selftest), trigs := s.frame.running && decide (s.frame.ticEl ≠ 0)
    bias := duty && !s.unit.variantN && s.gnss.bias }

end Sys2Proof.Machine
end

