-- ==== Sys2Proof/Machine/Faults.lean ====
section
/-! DEFINITION. Fault collection and reaction: acknowledgement, sluices, block resets, classes, memory errors, FAULT.READ and FAULT.ACK
(19_faults R491 to R508; notes/assumptions/32.md). -/

namespace Sys2Proof.Machine

/-! ### Acknowledgement and sluices -/

def modSrc (code : Nat) (f : FaultSt → FaultSt) (s : State) : State := setSrc code (f (srcOf s code)) s

/-- FIRMWARE_ACK (R492, R493): PENDING is cleared, and with it the sluice, unless the firmware withholds or does not run. -/
def firmwareAck (code : Nat) (s : State) : State :=
  let f := srcOf s code
  if f.pending = true ∧ f.withheld = false ∧ s.faults.hostStop = false then
    modSrc code (fun x => { x with pending := false, sluiceTick := none }) s
  else s

def execFirmwareAck (dt code : Nat) (s : State) : Host.Outcome State Fault Refusal := .next (settle (firmwareAck code (advance s dt)))

/-- The reaction at the expiry of a source's sluice, as event 0x1301 numbers it: 1 block reset, 2 Critical (R491, R494, R495). -/
def sluiceReaction (code : Nat) (f : FaultSt) : Nat :=
  if fixedCritical code || decide (f.sev = 3) || f.blocks.contains .host then 2 else 1

/-- A source's sluice has expired at this tick. -/
def sluiceDue (s : State) (f : FaultSt) : Bool :=
  f.pending && (match f.sluiceTick with | some t => decide (t ≤ frameIndex s) | none => false)

/-- A Critical expiry falls on this tick (R494). -/
def criticalDue (s : State) : Bool :=
  s.faults.src.any (fun p => sluiceDue s p.2 && sluiceReaction (indexCode p.1) p.2 == 2)

/-- The Critical reaction at a tick (R494): the release beat with its event 0x0C03, emission suppressed, then the module's reset. -/
def criticalReaction (s : State) : State :=
  let s1 := releaseAtTick (if s.lock.held then event 0x0C03 (u8 0) s else s)
  demandReset { s1 with faults := { s1.faults with criticalAt := some (frameIndex s) } }

/-- SLUICE_EXPIRY (R494): event 0x1301 with the reaction taken; beside a Critical expiry of the same tick a Serious one has none. -/
def sluiceExpiry (code : Nat) (s : State) : State :=
  let f := srcOf s code
  if atTick s = true ∧ sluiceDue s f = true then
    let want := sluiceReaction code f
    let crit := criticalDue s || decide (s.faults.criticalAt = some (frameIndex s))
    let r := if want = 1 ∧ crit = true then 0 else want
    let s1 := modSrc code (fun x => { x with pending := false, sluiceTick := none }) s
    let s2 := event 0x1301 (u16 code ++ u8 r) s1
    if r = 2 then criticalReaction s2 else if r = 1 then f.blocks.foldl (fun t b => holdBlock code b t) s2 else s2
  else s

def execSluiceExpiry (dt code : Nat) (s : State) : Host.Outcome State Fault Refusal := .next (settle (sluiceExpiry code (advance s dt)))

/-! ### Block resets -/

/-- The slots of a controller after its reset: nothing open, no content (R495). -/
def canRestart (c : Nat) (s : State) : State :=
  let clear (m : SlotMsg) : SlotMsg := { m with content := none, st := 0, openMsg := none }
  let sl := (enumFrom 0 s.slots).map (fun p => if (slotCfg s p.1).ctrl = c then clear p.2 else p.2)
  canStart c (setSafe c clear { s with slots := sl })

/-- A block other than an array starts again (R495, 05 R137, 15 Table 15-1, 16 R436). -/
def blockRestart (b : Block) (s : State) : State :=
  match b with
  | .analog g => groupTick (stopGroup (g % 4 + 1) s) (g % 4 + 1)
  | .gnss => if s.gnss.powered then gnssStart s else s
  | .can c => canRestart (c % 4) s
  | _ => s

/-- Elapsed instant of an array's last block reset, with the present one noted. -/
def noteReset (a : Arr) (s : State) : Option Nat × State :=
  match a with
  | .A => (s.faults.lastResetA, { s with faults := { s.faults with lastResetA := some (elNs s) } })
  | .B => (s.faults.lastResetB, { s with faults := { s.faults with lastResetB := some (elNs s) } })

/-- An array is lost: it stays in reset until module reset (R495, R505). -/
def loseArray (a : Arr) (s : State) : State :=
  degrade 1 (faultCond 0x1316 true
    (setCh (fun c => match a with | .A => { c with lostA := true } | .B => { c with lostB := true }) s))

def releaseBlock (b : Block) (s : State) : State :=
  { s with faults := { s.faults with blkReset := upd (fun _ => false) s.faults.blkReset (blockNo b) } }

/-- An array's reset ends (R495): lost when its check fails or when it was reset twice within 600 s. -/
def arrayReset (a : Arr) (b : Block) (pass : Bool) (s0 : State) : State :=
  let (last, s) := noteReset a s0
  let again := match last with | some t => decide (elNs s ≤ t + 600000000000) | none => false
  if pass = false ∨ again = true then loseArray a s else releaseBlock b s

/-- Any other block's reset ends; when its check fails, its source is raised again (R495). -/
def plainReset (b : Block) (pass : Bool) (s : State) : State :=
  let s1 := blockRestart b (releaseBlock b s)
  if pass then s1
  else
    let code := nth 0 s.faults.blkBy (blockNo b)
    let f := srcOf s code
    lossCheck s1.ledger.lost (raiseCore code f.oneShot f.blocks s1)

/-- The block is in reset and this is the next tick. -/
def resetDue (b : Block) (s : State) : Bool :=
  let k := blockNo b
  atTick s && nth false s.faults.blkReset k && decide (nth 0 s.faults.blkWork k ≤ frameIndex s + 1) &&
  (match b with | .saA => !s.chandler.lostA | .saB => !s.chandler.lostB | .host => false | _ => true)

/-- BLOCK_RESET_COMPLETE (R495): event 0x1307 with the block and the check's result. -/
def blockResetComplete (b : Block) (pass : Bool) (s : State) : State :=
  if resetDue b s then
    let s1 := event 0x1307 (u8 (blockNo b) ++ u8 (if pass then 0 else 1)) s
    match b with
    | .saA => arrayReset .A b pass s1
    | .saB => arrayReset .B b pass s1
    | _ => plainReset b pass s1
  else s

def execBlockResetComplete (dt : Nat) (b : Block) (pass : Bool) (s : State) : Host.Outcome State Fault Refusal :=
  .next (settle (blockResetComplete b pass (advance s dt)))

/-! ### Classes and FLT_N -/

/-- A source of a class is active or PENDING (R499). -/
def classBusy (s : State) (c : Nat) : Bool :=
  s.faults.src.any (fun p => decide (cfgClass s (indexCode p.1) = c) && (p.2.active || p.2.pending))

/-- CLASS_RECOVERY (R499): at a tick, quiet for QUIET_MS. -/
def classRecovery (c : Nat) (s : State) : State :=
  let k := Table.get {} s.faults.cls c
  if atTick s = true ∧ k.inFault = true ∧ classBusy s c = false ∧ k.lastEl + s.cfg.img.faultMap.quietMs * 1000000 ≤ elNs s then
    let n := Nat.min 0xFFFF (k.recovery + 1)
    event 0x1303 (u8 c ++ u16 n) { s with faults := { s.faults with cls := Table.set s.faults.cls c { k with inFault := false, recovery := n } } }
  else s

def execClassRecovery (dt cls : Nat) (s : State) : Host.Outcome State Fault Refusal := .next (settle (classRecovery cls (advance s dt)))

/-- FLT_N_HOLD_EXPIRY (R500): the 10 ms are over; released when nothing holds it. -/
def execFltNHoldExpiry (dt : Nat) (s : State) : Host.Outcome State Fault Refusal := .next (settle (updateFlt (advance s dt)))

/-! ### Memory errors -/

/-- Domain index of an owner (20 Table 20-9). -/
def ownerIndex (o : SramOwner) : Nat :=
  match o with
  | .checkpoint => 2
  | .host => 4
  | .safety => 5
  | .saA => 6
  | .saB => 7
  | .fce => 8
  | .gnss => 9

/-- One more corrected word in the present operating second; those of 3600 s ago leave (R502). -/
def eccAdd (op : Nat) (l : List (Nat × Nat)) : List (Nat × Nat) :=
  let keep := l.filter (fun p => decide (op < p.1 + 3600))
  match keep with
  | (t, n) :: r => if t = op then (t, n + 1) :: r else (op, 1) :: keep
  | [] => [(op, 1)]

/-- Corrected words of the last 3600 operating seconds. -/
def eccHour (op : Nat) (l : List (Nat × Nat)) : Nat := ((l.filter (fun p => decide (op < p.1 + 3600))).map (·.2)).sum

/-- A word is corrected and counted (R501). -/
def wordCorrected (o : SramOwner) (s : State) : State :=
  event 0x1306 (u8 (ownerIndex o))
    { s with faults := { s.faults with ecc := eccAdd s.ledger.opS s.faults.ecc, eccTotal := Nat.min 0xFFFFFFFF (s.faults.eccTotal + 1) } }

/-- An array's SRAM is uncorrectable (Table 19-4): its solve ends with nothing, and it takes no solve until its reset. -/
def arrayWord (a : Arr) (b : Block) (s : State) : State :=
  let s1 := setArr a none { s with faults := { s.faults with blkWork := upd (fun _ => 2 ^ 64) s.faults.blkWork (blockNo b) } }
  if (srcOf s1 0x1311).active then modSrc 0x1311 (fun f => { f with blocks := if f.blocks.contains b then f.blocks else f.blocks ++ [b] }) s1
  else faultShot 0x1311 [b] s1

/-- The checkpoint's SRAM is uncorrectable (Table 19-4): on duty the frame's checkpoint is not sent; in STANDBY the committed one is
discarded. -/
def checkpointWord (s : State) : State :=
  faultOnce 0x1313
    (if onDuty s.st then { s with lock := { s.lock with cpBad := true } }
     else { s with lock := { s.lock with committed := none, cpArr := none, cpGood := false } })

/-- An uncorrectable word by its owner, Table 19-4. -/
def uncorrectable (o : SramOwner) (s : State) : State :=
  match o with
  | .host => faultOnce 0x1312 s
  | .fce => faultOnce 0x1312 s
  | .safety => lockstep s
  | .saA => arrayWord .A .saA s
  | .saB => arrayWord .B .saB s
  | .checkpoint => checkpointWord s
  | .gnss => faultShot 0x1314 [.gnss] (setGnss (fun g => { g with epoch := Nat.max g.epoch (epochInstant s) }) s)

/-- SRAM_SCRUB (R501, R503): a word is read with a number of bit errors. Four or more are taken as the code happens to take them. -/
def sramScrub (o : SramOwner) (bits : Nat) (s : State) : State :=
  match s.st with
  | .off => s
  | _ =>
    if bits = 0 then s
    else if bits ≤ 2 then wordCorrected o s
    else if bits = 3 then uncorrectable o s
    else if Config.eccWide s.nFree = 0 then uncorrectable o (nextFree s)
    else if Config.eccWide s.nFree = 1 then wordCorrected o (nextFree s)
    else nextFree s

def execSramScrub (dt : Nat) (owner : SramOwner) (bitErrors : Nat) (s : State) : Host.Outcome State Fault Refusal :=
  .next (settle (sramScrub owner bitErrors (advance s dt)))

/-- ECC_RATE_WINDOW (R502, R505). -/
def eccRate (s : State) : State :=
  let on := decide (s.cfg.img.faultMap.eccRate < eccHour s.ledger.opS s.faults.ecc)
  match s.st with
  | .off => s
  | _ => let s1 := faultCond 0x1310 on s; if on then degrade 0 s1 else s1

def execEccRateWindow (dt : Nat) (s : State) : Host.Outcome State Fault Refusal := .next (settle (eccRate (advance s dt)))

/-! ### Reports and commands -/

/-- Bits of the classes in the fault state (Table 19-6). -/
def classFaultBits (f : FaultsSt) : Nat := maskOf ((List.range 32).map (fun c => (Table.get {} f.cls c).inFault))

/-- Bits of the classes with a PENDING source. -/
def classPendBits (s : State) (f : FaultsSt) : Nat :=
  maskOf ((List.range 32).map (fun c => f.src.any (fun p => p.2.pending && decide (cfgClass s (indexCode p.1) = c))))

/-- OUTS of Table 19-6. -/
def outsByte (f : FaultsSt) (flt repl : Bool) : Nat := maskOf [f.degraded, flt, repl]

/-- A source's record, Table 19-7, as it stands at an elapsed instant. An index that names none has CODE 0 and is never raised (R488);
its class is its group. -/
def sourceRecord (s : State) (f : FaultsSt) (el i : Nat) : Bytes :=
  let code := indexCode i
  match defaultSev code with
  | none => u16 0 ++ u8 0 ++ u8 (indexGroup i) ++ u16 0 ++ u16 0xFFFF
  | some _ =>
    let x := Table.get {} f.src i
    let status := maskOf [x.sev.testBit 0, x.sev.testBit 1, false, false, decide (cfgReact s code ≠ 0), x.pending, x.latched, x.active]
    let age := if x.raised = 0 then 0xFFFF else Nat.min 65534 ((el - x.lastEl) / 1000000000)
    u16 code ++ u8 status ++ u8 (cfgClass s code) ++ u16 x.raised ++ u16 age

/-- Highest effective severity among active sources, 0xFF for none. -/
def sevMax (f : FaultsSt) : Nat :=
  match f.src.filter (fun p => p.2.active) with
  | [] => 0xFF
  | xs => maxL (xs.map (fun p => p.2.sev))

/-- The faults, FLT_N, REPL and the instant that FAULT.READ reports: of the end of P6 of the last completed frame (02 R66). -/
def faultView (s : State) : FaultsSt × Bool × Nat :=
  match s.view with
  | some v => (v.faults, v.fltN, v.el)
  | none => (s.faults, fltPin s, elNs s)

/-- FAULT.READ (R506). -/
def faultReadCmd (r : Request) (s : State) : Reply :=
  let first := fld r.payload 0 2
  let count := fld r.payload 2 2
  if 511 < first then .refuse (errRange 0)
  else if (if r.version = 1 then 116 else 128) < count then .refuse (errRange 2)
  else
    let (f, flt, el) := faultView s
    let n := Nat.min count (512 - first)
    .ok s (u16 first ++ u16 n ++ u32 (classFaultBits f) ++ u32 (classPendBits s f) ++ u8 f.degrCause ++ u8 (outsByte f flt f.degraded) ++
      u8 (sevMax f) ++ u8 0 ++ u32 (eccHour s.ledger.opS f.ecc) ++ u32 f.eccTotal ++ zeros 8 ++
      (List.range 32).flatMap (fun c => u16 (Table.get {} f.cls c).recovery) ++
      (List.range n).flatMap (fun i => sourceRecord s f el (first + i)))

def execFaultRead (dt mbox : Nat) (s : State) : Host.Outcome State Fault Refusal :=
  .next (settle (runImmediate wFaultRead faultReadCmd mbox (advance s dt)))

/-- FAULT.ACK (R507): LATCHED of one source or of all; it acknowledges no PENDING source. -/
def faultAckCmd (r : Request) (s : State) : Reply :=
  let code := fld r.payload 0 2
  if code ≠ 0xFFFF ∧ (defaultSev code).isNone then .refuse (errRange 0)
  else
    let clear (p : Nat × FaultSt) : Nat × FaultSt := if code = 0xFFFF ∨ indexCode p.1 = code then (p.1, { p.2 with latched := false }) else p
    let s1 := updateFlt (event 0x1305 (u16 code) { s with faults := { s.faults with src := s.faults.src.map clear } })
    let left := (s1.faults.src.filter (fun p => p.2.latched)).length
    .ok s1 (u16 left ++ flag (fltPin s1) ++ u8 0)

def execFaultAck (dt mbox : Nat) (s : State) : Host.Outcome State Fault Refusal :=
  .next (settle (runImmediate wFaultAck faultAckCmd mbox (advance s dt)))

/-- Sources of section 7, ordered: by effective severity descending, then by code ascending (R508). -/
def reportedSources (s : State) : List Nat :=
  let xs := s.faults.src.filter (fun p => p.2.active || p.2.latched || p.2.pending)
  (sortBy (fun a b => decide (b.2.sev < a.2.sev) || (decide (a.2.sev = b.2.sev) && decide (indexCode a.1 < indexCode b.1))) xs).map Prod.fst

/-- Section 7 of FRAME.REPORT (R508), as it stands now. -/
def faultSection (s : State) : Bytes :=
  let xs := reportedSources s
  let n := Nat.min 64 xs.length
  u32 (classFaultBits s.faults) ++ u32 (classPendBits s s.faults) ++ u8 s.faults.degrCause ++ u8 (outsByte s.faults (fltPin s) s.faults.degraded) ++
  u8 n ++ u8 (Nat.min 255 (xs.length - n)) ++ u32 0 ++ (xs.take n).flatMap (sourceRecord s s.faults (elNs s))

end Sys2Proof.Machine
end

