-- ==== Sys2Proof/Machine/Session.lean ====
section
/-! DEFINITION. Mailbox commands of chapter 02: arrival, sessions, reading, subscriptions, service access, firmware, MODE.SET
(02_mailbox R53 to R81; 01_frame R37, R38; notes/assumptions/9.md). -/

namespace Sys2Proof.Machine

def execOxmpRequestArrival (dt : Nat) (port : HostPort) (src : Src) (msg : Datagram) (s : State) : Host.Outcome State Fault Refusal :=
  .next (settle (arrive port src msg.dst msg.data (advance s dt)))

/-- TAG_CACHE_EXPIRY (R55): entries whose request arrived more than 2 s ago leave the cache; one of exactly 2 s is in time (00 R15). -/
def tagExpiry (m : Nat) (s : State) : State :=
  let b := boxOf s m
  setBox m { b with cache := b.cache.filter (fun c => decide (elNs s ≤ c.stampEl + 2000000000)) } s

def execTagCacheExpiry (dt mbox : Nat) (s : State) : Host.Outcome State Fault Refusal := .next (settle (tagExpiry mbox (advance s dt)))

/-! ### Sessions -/

/-- A mailbox's session ends (R61, R62): its tag cache is emptied, its subscription cancelled, its Ledger window closed (20 R521), and a
staging of its own loses its owner (03 R94). -/
def endSession (m : Nat) (s : State) : State :=
  let b := boxOf s m
  let s1 := setBox m { b with session := none, cache := [], sub := none, window := none } s
  if s1.cfg.owner = some m then { s1 with cfg := { s1.cfg with owner := none } } else s1

/-- MBOX_CLASS (Table 2-6). -/
def mboxClass (s : State) (m : Nat) : Nat :=
  if m = 0 then maskOf [decide (1 ≤ s.mb.unlock), false, decide (1 ≤ s.mb.unlock)] else maskOf [true, controlHeld s m]

/-- HELLO's response, Table 2-6. -/
def helloResp (s : State) (m ver : Nat) : Bytes :=
  u8 ver ++ u8 (if s.unit.variantN then 1 else 0) ++ u8 s.unit.hwIssue ++ u8 s.lock.slot ++ u32 s.unit.fwVersion ++ u8 (stateCode s.st) ++
  u8 (sflags s % 4) ++ u16 (if ver = 1 then 1024 else 1440) ++ u32 s.ledger.boot ++ padTo 12 s.unit.serial ++ u8 (mboxClass s m) ++ zeros 3

/-- HELLO (R60, R61): the highest common version; event 0x0201. -/
def cmdHello (r : Request) (s : State) : Reply :=
  let lo := byteAt r.payload 0
  let hi := byteAt r.payload 1
  if lo = 0 then .refuse (errRange 0)
  else if hi < lo then .refuse (errRange 1)
  else if 3 < lo then .fail (endSession r.mbox s) { code := 0x0002 }
  else
    let ver := Nat.min 3 hi
    let s1 := endSession r.mbox s
    let s2 := setBox r.mbox { boxOf s1 r.mbox with session := some ver } s1
    .ok (event 0x0201 (u8 r.mbox ++ u8 ver ++ u32 (fld r.payload 4 4)) s2) (helloResp s2 r.mbox ver)

def execHello (dt mbox : Nat) (s : State) : Host.Outcome State Fault Refusal := .next (settle (runImmediate wHello cmdHello mbox (advance s dt)))

/-- USB_DETACH (R62, R78): the service mailbox's session and unlock end; what waits on it has no port to go to. -/
def usbDetach (s : State) : State :=
  let s1 := endSession 0 s
  let s2 := setBox 0 { boxOf s1 0 with queue := [] } s1
  { s2 with mb := { s2.mb with usbAttached := false, unlock := 0 } }

def execUsbDetach (dt : Nat) (s : State) : Host.Outcome State Fault Refusal := .next (settle (usbDetach (advance s dt)))

/-! ### Reading -/

/-- STATE.READ's response, Table 2-10; `last`: the last completed frame. -/
def stateReadResp (last : Nat) (s : State) : Bytes :=
  u64 last ++ u8 (stateCode s.st) ++ u8 (sflags s) ++ u8 s.frame.mode ++ u8 s.lock.slot ++ u16 (if s.st = .held then s.cfg.heldReason else 0) ++
  u16 0 ++ u32 s.mb.formatDrops ++ u32 s.mb.crcDrops ++ u32 s.mb.queueDrops ++ u16 (Nat.min 0xFFFF s.mb.serviceFails) ++ u16 0

/-- FRAME_INDEX of the last completed frame, 0 before the first. -/
def lastFrame (s : State) : Nat := match s.frame.history with | (k, _) :: _ => k | [] => 0

/-- STATE.READ (R71, R66). -/
def cmdStateRead (_ : Request) (s : State) : Reply :=
  .ok s (match s.view with | some v => v.stateRead | none => stateReadResp (lastFrame s) s)

def execStateRead (dt mbox : Nat) (s : State) : Host.Outcome State Fault Refusal :=
  .next (settle (runImmediate wStateRead cmdStateRead mbox (advance s dt)))

/-- TARGET.READ (08 R234, R66). -/
def cmdTargetRead (_ : Request) (s : State) : Reply :=
  .ok s (match s.view with | some v => v.targetRead | none => targetReadResp (lastFrame s) s)

def execTargetRead (dt mbox : Nat) (s : State) : Host.Outcome State Fault Refusal :=
  .next (settle (runImmediate wTargetRead cmdTargetRead mbox (advance s dt)))

/-- FRAME.READ (R73): newest first. -/
def cmdFrameRead (r : Request) (s : State) : Reply :=
  let n := byteAt r.payload 0
  if n = 0 ∨ 64 < n then .refuse (errRange 0)
  else
    let xs := s.frame.history.take n
    .ok s (u8 xs.length ++ zeros 3 ++ xs.flatMap (fun p => u64 p.1 ++ u32 p.2 ++ u32 0))

def execFrameRead (dt mbox : Nat) (s : State) : Host.Outcome State Fault Refusal :=
  .next (settle (runImmediate wFrameRead cmdFrameRead mbox (advance s dt)))

/-- What reads return from the next tick on (R66): the values at the end of P6 of the frame in progress. -/
def captureView (s : State) : View :=
  { stateRead := stateReadResp (frameIndex s) s, targetRead := targetReadResp (frameIndex s) s, configRead := configSummary s
    bank0 := s.cfg.bank0.bytes, bank1 := s.cfg.bank1.bytes, active := s.cfg.active, snap := s.snap
    faults := s.faults, fltN := fltPin s, el := elNs s }

/-! ### Subscriptions and reports -/

/-- FRAME.SUBSCRIBE (R74): at most four subscriptions. -/
def cmdFrameSubscribe (r : Request) (s : State) : Reply :=
  let dec := byteAt r.payload 0
  let sel := byteAt r.payload 1
  let b := boxOf s r.mbox
  if sel = 0 ∨ 3 < sel then .refuse (errRange 1)
  else if dec = 0 then .ok (setBox r.mbox { b with sub := none } s) []
  else if b.sub.isNone ∧ 4 ≤ (s.mb.boxes.filter (fun x => x.sub.isSome)).length then .refuse errBusy
  else
    let q : Sub := { decimate := dec, portSel := sel, sections := fld r.payload 4 4, src := r.src, port := r.port }
    .ok (setBox r.mbox { b with sub := some q } s) []

def execFrameSubscribe (dt mbox : Nat) (s : State) : Host.Outcome State Fault Refusal :=
  .next (settle (runImmediate wFrameSubscribe cmdFrameSubscribe mbox (advance s dt)))

/-- Content of a section of FRAME.REPORT (Table 2-16). -/
def reportSection (s : State) (id : Nat) : Bytes :=
  if id = 1 then positionSection s else if id = 2 then controlSection s else if id = 3 then allocSection s else if id = 4 then coverageSection s
  else if id = 5 then powerSection s else if id = 6 then budgetSection s else s.frame.sec7

/-- The sections requested, in ascending identity, while they fit within 1440 bytes; OMITTED names the others (R75). -/
def reportBody (s : State) (mask : Nat) : List Nat → Bytes → Nat → Bytes × Nat
  | [], acc, om => (acc, om)
  | id :: ids, acc, om =>
    if mask.testBit id then
      let c := reportSection s id
      let x := u16 id ++ u16 c.length ++ c
      if 20 + acc.length + x.length ≤ 1440 then reportBody s mask ids (acc ++ x) om
      else reportBody s mask ids acc (om + 2 ^ id)
    else reportBody s mask ids acc om

/-- A FRAME.REPORT (R75, Table 2-15). -/
def reportMessage (s : State) (m ver mask : Nat) : Bytes :=
  let (body, om) := reportBody s mask [1, 2, 3, 4, 5, 6, 7] [] 0
  let pl := u64 (frameIndex s) ++ u32 (statusWord s.frame.status) ++ u8 (stateCode s.st) ++ u8 (sflags s) ++ u16 0 ++ u32 om ++ body
  let h := u16 0x584F ++ u8 ver ++ u8 m ++ u16 0 ++ u16 5 ++ u32 wFrameReport ++ u16 pl.length ++ u16 0 ++ u16 0 ++ u16 0 ++ pl
  h ++ u32 (crc32 h)

/-- Reports of a mailbox in P5 (R74): on the ports of PORT_SEL; of the service mailbox on X5, where its request came from. -/
def mboxReport (s : State) (m : Nat) : List Out :=
  let b := boxOf s m
  match b.sub with
  | some q =>
    if frameIndex s % (if q.decimate = 0 then 1 else q.decimate) = 0 then
      let x := reportMessage s m (b.session.getD 0) q.sections
      match q.port with
      | .x5 => [Out.msg .x5 q.src x]
      | _ => (if q.portSel.testBit 0 then [Out.msg .h1 q.src x] else []) ++ (if q.portSel.testBit 1 then [Out.msg .h2 q.src x] else [])
    else []
  | none => []

def sendReports (s : State) : State := emitAll ((List.range 9).flatMap (mboxReport s)) s

/-! ### Service access (R76 to R79) -/

/-- SERVICE.CHALLENGE (R76): 32 random bytes; a new challenge voids the nonce before. -/
def cmdServiceChallenge (r : Request) (s : State) : Reply :=
  let lvl := byteAt r.payload 0
  if lvl = 0 ∨ 3 < lvl then .refuse (errRange 0)
  else
    let nonce := (List.range 32).map (Config.nonceByte s.nFree)
    let s1 := nextFree { s with mb := { s.mb with nonce := some (nonce, lvl, elNs s) } }
    .ok s1 (nonce ++ padTo 12 s.unit.serial ++ u8 s.unit.serviceKeySlot ++ u8 lvl ++ u16 0)

def execServiceChallenge (dt mbox : Nat) (s : State) : Host.Outcome State Fault Refusal :=
  .next (settle (runImmediate wServiceChallenge cmdServiceChallenge mbox (advance s dt)))

/-- What the answer signs (R77). -/
def challengeDigest (s : State) (nonce : Bytes) (lvl : Nat) : Bytes := sha256 (nonce ++ padTo 12 s.unit.serial ++ u8 lvl ++ ascii "OXSVC")

/-- A failed answer (R77): counted; the third in a row begins the lockout, event 0x0202. -/
def respondFail (s : State) : Reply :=
  let n := s.mb.failRun + 1
  let s1 := { s with mb := { s.mb with serviceFails := Nat.min 0xFFFF (s.mb.serviceFails + 1), nonce := none, failRun := if n < 3 then n else 0
                                       lockoutUntil := if n < 3 then s.mb.lockoutUntil else some (elNs s + 60000000000) } }
  .fail (if n < 3 then s1 else event 0x0202 (u8 n) s1) { code := 0x000E, detail := n }

/-- SERVICE.RESPOND (R77): a nonce serves one answer, within 30 s of its issue. -/
def cmdServiceRespond (r : Request) (s : State) : Reply :=
  let locked := match s.mb.lockoutUntil with | some t => decide (elNs s < t) | none => false
  if locked then .refuse { code := 0x000D, detail := lockoutLeft s }
  else
    match s.mb.nonce with
    | none => respondFail s
    | some (nonce, lvl, at_) =>
      if elNs s ≤ at_ + 30000000000 ∧ Config.sigValid 4 (challengeDigest s nonce lvl) r.payload = true then
        .ok { s with mb := { s.mb with nonce := none, unlock := lvl, failRun := 0 } } (u8 lvl ++ zeros 3)
      else respondFail s

def execServiceRespond (dt mbox : Nat) (s : State) : Host.Outcome State Fault Refusal :=
  .next (settle (runImmediate wServiceRespond cmdServiceRespond mbox (advance s dt)))

/-- SERVICE.LOCK (R78). -/
def cmdServiceLock (_ : Request) (s : State) : Reply := .ok { s with mb := { s.mb with unlock := 0 } } []

def execServiceLock (dt mbox : Nat) (s : State) : Host.Outcome State Fault Refusal :=
  .next (settle (runImmediate wServiceLock cmdServiceLock mbox (advance s dt)))

/-- SERVICE_UNLOCK_TIMEOUT (R78): more than 15 min without a request on the service mailbox; one at the deadline is in time (00 R15). -/
def unlockTimeout (s : State) : State :=
  if s.mb.lastServiceEl + 900000000000 < elNs s then { s with mb := { s.mb with unlock := 0 } } else s

def execServiceUnlockTimeout (dt : Nat) (s : State) : Host.Outcome State Fault Refusal := .next (settle (unlockTimeout (advance s dt)))

/-- SERVICE_LOCKOUT_EXPIRY (R77): the 60 s are over. -/
def lockoutExpiry (s : State) : State :=
  match s.mb.lockoutUntil with
  | some t => if t ≤ elNs s then { s with mb := { s.mb with lockoutUntil := none } } else s
  | none => s

def execServiceLockoutExpiry (dt : Nat) (s : State) : Host.Outcome State Fault Refusal := .next (settle (lockoutExpiry (advance s dt)))

/-! ### Firmware (R79 to R81) -/

/-- Size of a firmware bank in bytes (R80). -/
def fwSize : Nat := 67108864

/-- What a byte that nothing has written reads as (notes/assumptions/33.md). -/
def fwEmpty : Byte := 0

/-- A byte of the staged firmware bank. -/
def fwRead : List Host.Cell → Nat → Byte
  | [], _ => fwEmpty
  | (k, v) :: r, a => if k = a then v else fwRead r a

/-- One byte written; the list stays canonical: addresses rising, no entry equal to what an unlisted one reads as. -/
def fwWrite : List Host.Cell → Nat → Byte → List Host.Cell
  | [], a, b => if b = fwEmpty then [] else [(a, b)]
  | (k, v) :: r, a, b =>
    if a < k then (if b = fwEmpty then (k, v) :: r else (a, b) :: (k, v) :: r)
    else if a = k then (if b = fwEmpty then r else (a, b) :: r)
    else (k, v) :: fwWrite r a b

/-- The canonical form of a bank (notes/assumptions/33.md). -/
def Memory.wf : List Host.Cell → Bool
  | [] => true
  | [(_, v)] => decide (v ≠ fwEmpty)
  | (k, v) :: (l, w) :: r => decide (v ≠ fwEmpty) && decide (k < l) && Memory.wf ((l, w) :: r)

/-- Bytes written from an address on. -/
def fwWriteAll : List Host.Cell → Nat → Bytes → List Host.Cell
  | m, _, [] => m
  | m, a, b :: bs => fwWriteAll (fwWrite m a b) (a + 1) bs

/-- FW.STAGE (R80). -/
def cmdFwStage (readBackOk : Bool) (r : Request) (s : State) : Reply :=
  let ofs := fld r.payload 0 4
  let data := r.payload.drop 4
  if ofs % 4 ≠ 0 ∨ fwSize ≤ ofs ∨ fwSize < ofs + data.length then .refuse (errRange 0)
  else if readBackOk = false then .refuse { code := 0x0011 }
  else .ok { s with mb := { s.mb with fwBank := fwWriteAll s.mb.fwBank ofs data } } []

def execFwStage (dt mbox : Nat) (readBackOk : Bool) (s : State) : Host.Outcome State Fault Refusal :=
  .next (settle (runImmediate wFwStage (cmdFwStage readBackOk) mbox (advance s dt)))

/-- FW.ACTIVATE (R79, R81): the signature of the staged image, whose place in it the manual does not state. R81 gives TOTAL_LEN no
range: one past the bank of 64 MiB (R80) is refused with RANGE (DESIGN CHOICE, notes/assumptions/9.md). -/
def cmdFwActivate (r : Request) (s : State) : Reply :=
  let len := fld r.payload 0 4
  if fwSize < len then .refuse (errRange 0)
  else if s.st ≠ .held ∧ s.st ≠ .standby then .refuse (errState s)
  else if Config.fwValid len s.mb.fwBank = true then .ok { s with mb := { s.mb with fwNext := 1 - s.mb.fwActive, fwFails := 0 } } []
  else .fail { s with mb := { s.mb with fwFails := s.mb.fwFails + 1 } } { code := 0x000E, detail := s.mb.fwFails + 1 }

def execFwActivate (dt mbox : Nat) (s : State) : Host.Outcome State Fault Refusal :=
  .next (settle (runImmediate wFwActivate cmdFwActivate mbox (advance s dt)))

/-! ### MODE.SET (R72) and the state of a frame (17 R448) -/

/-- The state of the frame in progress from the DP request and the functions tripped at its T_IC (17 R448, 08 R215). -/
def decideState (s : State) : State :=
  if onDuty s.st then
    let s1 := if s.frame.sf2At then { s with mb := { s.mb with dpReq := false } } else s
    let st : ModState := if s1.mb.dpReq then (if s1.frame.sf1At then .tripped else .active) else .ready
    let s2 := if st = .ready ∧ s1.st ≠ .ready then spDiscard s1 else s1
    { s2 with st := st }
  else s

/-- A DP request takes effect in the frame of a tick: at that tick, or, when P0 of that frame is in progress, at once. -/
def requestDp (tick : Nat) (v : Bool) (s : State) : State :=
  if s.frame.tic < tick then { s with mb := { s.mb with dpNext := some (tick, v) } }
  else
    let s1 := { s with mb := { s.mb with dpReq := v, dpNext := none } }
    if s.frame.phase = 0 then decideState s1 else s1

/-- The change tick of a mode change accepted at an instant (01 R37). -/
def changeTickNs (t : Nat) : Nat := (t + 40000000 + 39999999) / 40000000 * 40000000

/-- MODE.SET (R72): range, MODES_ALLOWED, state, pending change; HELD and STANDBY refuse every one with STATE. -/
def cmdModeSet (r : Request) (s : State) : Reply :=
  let dp := byteAt r.payload 0
  let fm := byteAt r.payload 1
  let allowed := s.cfg.img.frame.modesAllowed
  if onDuty s.st = false then .refuse (errState s)
  else if 2 < dp then .refuse (errRange 0)
  else if 3 < fm ∧ fm ≠ 0xFF then .refuse (errRange 1)
  else if fm ≠ 0xFF ∧ allowed.testBit fm = false then .refuse { code := 0x000F, ofs := pOfs 1, detail := allowed }
  else if dp = 1 ∧ (kindTripped s 2 = true ∨ (s.st = .ready ∧ s.frame.dpOk = false)) then .refuse (errState s)
  else if fm ≠ 0xFF ∧ s.frame.pendingMode.isSome = true then .refuse errBusy
  else
    let tick := applyTick s r.stamp
    let pend := if fm = 0xFF ∨ fm = s.frame.mode then s.frame.pendingMode else some (fm, changeTickNs r.stamp)
    let s1 := { s with frame := { s.frame with pendingMode := pend, status := { s.frame.status with modePending := pend.isSome } } }
    let s2 := if dp = 0 then s1 else requestDp tick (dp == 1) s1
    let resp := u64 (frameAt s1 tick) ++ u8 (stateCode s.st) ++ u8 s.frame.mode ++
      (match changeAt s1 with
       | some (m, t) => u8 m ++ u8 0 ++ u48 (t / 1000000000) ++ u16 0 ++ u32 (t % 1000000000)
       | none => u8 0xFF ++ u8 0 ++ u48 0 ++ u16 0 ++ u32 0)
    .ok s2 resp

def execModeSet (dt mbox : Nat) (s : State) : Host.Outcome State Fault Refusal :=
  .next (settle (runImmediate wModeSet cmdModeSet mbox (advance s dt)))

end Sys2Proof.Machine
end

