-- ==== Sys2Proof/Machine/Frame.lean ====
section
/-! DEFINITION. The frame: ticks, phases, late work, mode change, frame-bound commands, emission in P5 (01_frame R16 to R44; 02_mailbox
R67, R68, R74; 09_allocation R259; 16_can R427; notes/assumptions/34.md). -/

namespace Sys2Proof.Machine

/-! ### Frame-bound commands (02 R66 to R70) -/

/-- Requests accepted for this frame or an earlier one and not yet applied, with their mailboxes. -/
def dueRequests (s : State) : List Request :=
  let xs := (List.range 9).flatMap (fun m =>
    (boxOf s m).queue.filter (fun r => r.answer.isNone && (match r.applyTic with | some t => decide (t ≤ s.frame.tic) | none => false)))
  sortBy (fun a b => decide (a.stamp < b.stamp) || (decide (a.stamp = b.stamp) && decide (a.mbox < b.mbox))) xs

/-- The effect of a frame-bound command in the frame's state (R70, 08 R215). -/
def boundEffect (r : Request) (s : State) : Reply :=
  let running := decide (s.st = .active ∨ s.st = .tripped)
  if r.cmd = wTargetSet then (if running then cmdTargetSet r s else .refuse (errState s))
  else if r.cmd = wPushSet then (if running then cmdPushSet r s else .refuse (errState s))
  else if r.cmd = wTargetStop then cmdTargetStop r s
  else cmdLockChange r s

/-- An applied request has its answer; the response is held until P5 (R67). -/
def storeAnswer (r : Request) (msg : Bytes) (s : State) : State :=
  let b := boxOf s r.mbox
  let same (q : Request) : Bool := decide (q.tag = r.tag) && decide (q.crc = r.crc) && q.answer.isNone && q.applyTic.isSome
  setBox r.mbox { b with queue := answerFirst same (fun q => { q with answer := some msg }) b.queue } s

def applyRequest (r : Request) (s : State) : State :=
  match boundEffect r s with
  | .ok t p => storeAnswer r (respond r p none) t
  | .refuse e => storeAnswer r (respond r [] (some e)) s
  | .fail t e => storeAnswer r (respond r [] (some e)) t

/-- Every due request, in the order of R68. -/
def applyAll (s : State) : State := (dueRequests s).foldl (fun t r => applyRequest r t) s

/-- A frame-bound command's row: the request whose turn it is in R68's order is applied in P0, if it is of this command and mailbox. -/
def boundRow (word m : Nat) (s : State) : State :=
  match s.frame.phase, dueRequests s with
  | 0, r :: _ => if r.cmd = word ∧ r.mbox = m ∧ onDuty s.st = true then applyRequest r s else s
  | _, _ => s

def execTargetSet (dt mbox : Nat) (s : State) : Host.Outcome State Fault Refusal := .next (settle (boundRow wTargetSet mbox (advance s dt)))
def execTargetStop (dt mbox : Nat) (s : State) : Host.Outcome State Fault Refusal := .next (settle (boundRow wTargetStop mbox (advance s dt)))
def execPushSet (dt mbox : Nat) (s : State) : Host.Outcome State Fault Refusal := .next (settle (boundRow wPushSet mbox (advance s dt)))
def execLockChange (dt mbox : Nat) (s : State) : Host.Outcome State Fault Refusal := .next (settle (boundRow wLockChange mbox (advance s dt)))

/-! ### The tick -/

/-- Consecutive late frames per phase as the tick closes the frame (R29). -/
def lateRuns (s : State) : List Nat :=
  (enumFrom 0 s.frame.lateRun).map (fun p => if nth false s.frame.status.late p.1 then p.2 + 1 else 0)

/-- A phase has been late in three frames or more in a row. -/
def lateRun3 (s : State) : Bool := s.frame.lateRun.any (fun n => decide (3 ≤ n))

/-- One-shot sources end at the tick (19 R490). -/
def endShots (s : State) : State :=
  { s with faults := { s.faults with src := s.faults.src.map (fun p => if p.2.oneShot && p.2.active then (p.1, { p.2 with active := false }) else p) } }

/-- Blocks of fault 0x0117 (19 Table 19-1). -/
def stoppedBlocks (stopped : List Engine) : List Block :=
  if stopped.contains .fce || stopped.contains .host then [.host]
  else (if stopped.contains .saA then [Block.saA] else []) ++ (if stopped.contains .saB then [Block.saB] else [])

/-- The frame in progress closes (R29 to R31, 12 R339, 13 R368, 02 R66). R30 does not say what an engine that hardware stopped at the tick
does afterwards: apart from the solver arrays the phases work on until the reaction (DESIGN CHOICE, notes/assumptions/32.md). -/
def closeFrame (stopped : List Engine) (s : State) : State :=
  let st := { s.frame.status with overrun := !stopped.isEmpty }
  let begun := decide (s.frame.ticEl ≠ 0)
  let s1 := { s with
    frame := { s.frame with
      history := if begun then ((frameIndex s, statusWord st) :: s.frame.history).take 64 else s.frame.history
      lateRun := lateRuns s
      dpOk := onDuty s.st && s.bring.complete && s.bring.obsAtTick && decide (s.solver.primResult ≤ 1) }
    view := match s.viewNext with | some v => some v | none => s.view
    viewNext := none
    lock := { s.lock with drillOp := if onDuty s.st && begun then some s.ledger.opS else s.lock.drillOp, cpBad := false } }
  let s2 := endShots (endCond 0x0118 (lateRun3 s1) s1)
  if stopped.isEmpty then s2
  else faultShot 0x0117 (stoppedBlocks stopped) { s2 with faults := { s2.faults with hostStop := s2.faults.hostStop || stopped.contains .host } }

/-- Frame k begins (R16, R17): FRAME_INDEX is T_IC / T_F of the mode in force. -/
def openFrame (s : State) : State :=
  let p := periodNs s.frame.mode
  let k := s.frame.nextTick / p
  let d : Int := (k : Int) - (frameIndex s + 1 : Nat)
  let s2 := rebase d d s
  { s2 with
    lock := { s2.lock with shift := d }
    frame := { s2.frame with
      index := k, tic := s.frame.nextTick, ticEl := elNs s, nextTick := s.frame.nextTick + p, phase := 0, kind1Miss := false
      status := { mode := s.frame.mode, modePending := s.frame.pendingMode.isSome }
      sf1At := kindTripped s 1, sf2At := kindTripped s 2 }
    safety := { s2.safety with sf2Gate := false }
    obs := { s2.obs with steps := 0 }
    bring := { s2.bring with obsAtTick := s2.obs.init } }

/-- The DP request stamped at or before T_IC, and the state of the frame (17 R448). -/
def tickState (s : State) : State :=
  if onDuty s.st then
    decideState (match s.mb.dpNext with
      | some (t, v) => if t ≤ s.frame.tic then { s with mb := { s.mb with dpReq := v, dpNext := none } } else s
      | none => s)
  else s

/-- What else a tick does: intake closes, grants, regimes and starts take effect, the link's conditions are judged. -/
def tickWork (s : State) : State :=
  let s1 := closeIntake (serveAll s)
  let s2 := analogTick (floodTick s1)
  let s3 := if onDuty s2.st then gnssRegime (chTick s2) else s2
  let s4 := if onDuty s3.st ∧ s3.bring.step = 8 ∧ s3.fusion.running = false then fusionStart s3 else s3
  endCond 0x0C12 (drillOverdue s4) (dropPrepare (lockTick s4))

/-- The lease is given up at this tick (12 R336, R337, R348, 19 R494). -/
def releaseDue (s : State) : Bool :=
  changeTick 2 s || yieldDue s || (s.lock.held && (criticalDue s || (match s.cfg.effect with | some t => decide (t ≤ s.frame.tic) | none => false)))

/-- An action of the Lockkeeper is due at this tick, whose own command sends the tick's beat. -/
def actionDue (s : State) : Bool :=
  electionDue s || claimDue s || passDue s || leaseEndDue s || changeTick 1 s || targetDue s || releaseDue s

/-- The tick's renewal and beat (12 R324, R331). -/
def tickBeat (s : State) : State :=
  if beats s then
    let s1 := if releaseDue s then s else renew s
    if actionDue s1 then s1 else sendBeat false s1
  else s

/-- FRAME_TICK (R16 to R20): at the instant of CU0. `stopped`: engines still executing, which hardware stops (R30). -/
def frameTick (stopped : List Engine) (s : State) : State :=
  if s.frame.running = true ∧ s.frame.nextTick ≤ nowNs s then
    mokAtTick (tickBeat (tickWork (tickState (openFrame (closeFrame stopped s)))))
  else s

def execFrameTick (dt : Nat) (stopped : List Engine) (s : State) : Host.Outcome State Fault Refusal :=
  .next (settle (frameTick stopped (advance s dt)))

/-- LATE_RUN_FAULT (R29). -/
def execLateRunFault (dt : Nat) (s : State) : Host.Outcome State Fault Refusal :=
  .next (settle (let t := advance s dt; if lateRun3 t then faultCond 0x0118 true t else t))

/-- MODE_CHANGE_TICK (R37, R40): at the change tick, just before FRAME_TICK. What the new mode asks of the grant, the horizon, the shadows
and the domains follows from the mode in force. -/
def modeChange (s : State) : State :=
  match s.frame.pendingMode with
  | some (m, t) =>
    if s.frame.running = true ∧ t ≤ s.frame.nextTick ∧ s.frame.nextTick ≤ nowNs s ∧ s.frame.nextTick % 40000000 = 0 then
      { s with frame := { s.frame with mode := m, pendingMode := none }, obs := { s.obs with notchPrime := true } }
    else s
  | none => s

def execModeChangeTick (dt : Nat) (s : State) : Host.Outcome State Fault Refusal := .next (settle (modeChange (advance s dt)))

/-! ### Emission in P5 (09 R259, 16 R427, 17 R461 to R464) -/

/-- A horizon solution stands, so that thrust commands go out (13 R364). -/
def commandsStand (s : State) : Bool := onDuty s.st && s.bring.obsAtTick && s.solver.emitSol.isSome

/-- An entry is active in this frame's cycle on a controller of MODE 1 (16 R425, R426). -/
def entryActive (s : State) (e : Image.Slot) : Bool :=
  let q := ctrlCfg s e.ctrl
  q.mode == 1 && e.cycleMask.testBit (frameIndex s % (if q.nCycles = 0 then 1 else q.nCycles))

/-- The thrust command telegram of a connection, placed. -/
def placeCommand (n : Nat) (s : State) : State × Bytes :=
  let i := nth 0 (thrustersOn s n) 0
  placeTelegram n 3 (commandData (frameIndex s) (commandOf s i).1) s

/-- Thrust commands of the CAN connections; `unplaced`: entries whose content does not come by their slot's start. -/
def placeKind1 (unplaced : List Nat) (s : State) : State :=
  if commandsStand s then
    (enumFrom 0 s.cfg.img.schedule.slots).foldl (fun t p =>
      let e := p.2
      if e.kind = 1 ∧ entryActive t e = true ∧ (connOf t e.conn).st = 2 ∧ unplaced.contains p.1 = false ∧ (thrustersOn t e.conn).isEmpty = false then
        let (u, b) := placeCommand e.conn t
        setSlot p.1 (fun m => { m with content := some b, frame := frameIndex u }) u
      else t) s
  else s

/-- Status telegrams of the CAN connections, as P5 ends: `placed` names the entries whose content a late P5 placed whole (R427). -/
def placeKind2 (late : Bool) (placed : List Nat) (s : State) : State :=
  (enumFrom 0 s.cfg.img.schedule.slots).foldl (fun t p =>
    let e := p.2
    if e.kind = 2 ∧ (ctrlCfg t e.ctrl).mode = 1 ∧ (connOf t e.conn).st = 2 ∧ (late = false ∨ placed.contains p.1 = true) then
      let (u, b) := placeTelegram e.conn 4 (mstatusData t) t
      setSlot p.1 (fun m => { m with content := some b, frame := frameIndex u }) u
    else t) s

/-- One UDP connection in P5: its command, or a SETUP; `room`: copies that can still be queued. Third component: the command left. -/
def udpConn (n room : Nat) (s : State) : State × Nat × Bool :=
  let c := connCfg s n
  if (connOf s n).st = 2 then
    if commandsStand s = true ∧ (thrustersOn s n).isEmpty = false then
      let (u, b) := placeCommand n s
      if gated s n = true ∨ suppressed s = true ∨ room < 2 then (u, room, false) else (sendUdp c b u, room - 2, true)
    else (s, room, false)
  else if setupDue s n = true ∧ 2 ≤ room then (sendSetup n (sendUdp c (setupTelegram c) s), room - 2, false)
  else (s, room, false)

/-- Every UDP connection, in order; the connections whose command left. -/
def udpAll (room : Nat) (s : State) : State × Nat × List Nat :=
  (enumFrom 0 s.cfg.img.osc.conns).foldl (fun a p =>
    if p.2.ctrl = 4 then
      let (t, r, sent) := udpConn p.1 a.2.1 a.1
      (t, r, if sent then p.1 :: a.2.2 else a.2.2)
    else a) (s, room, [])

/-- Thrusters to which a command of this frame went: placed, neither gated nor suppressed (09 R261). `udp`: UDP connections served. -/
def commandsSent (s : State) (udp : List Nat) : List Nat :=
  (List.range (nThr s)).filter (fun i =>
    let n := (thrCfg s i).oscConn
    if (connCfg s n).ctrl = 4 then udp.contains n
    else !gated s n && !suppressed s &&
      (enumFrom 0 s.cfg.img.schedule.slots).any (fun p =>
        p.2.kind == 1 && p.2.conn == n && decide ((slotMsg s p.1).frame = frameIndex s) && decide ((slotMsg s p.1).run = 0 ∨ (slotMsg s p.1).st ≠ 0)))

/-- The responses of this frame's frame-bound commands leave (02 R67). -/
def releaseHeld (s : State) : State :=
  (List.range 9).foldl (fun t m =>
    let b := boxOf t m
    if b.queue.any (fun r => r.hold && r.answer.isSome) then
      serve m (setBox m { b with queue := b.queue.map (fun r => if r.answer.isSome then { r with hold := false } else r) } t)
    else t) s

/-- The start of P5: outputs, pulse message, thrust commands, and section 7 of this frame's reports. -/
def p5Begin (r : PhaseIn) (s : State) : State :=
  if onDuty s.st then
    let s1 := placeKind1 r.unplaced (announcePulse (applyOutputs s))
    { s1 with frame := { s1.frame with sec7 := faultSection s1, kind1Miss := r.kind1Late || !r.unplaced.isEmpty } }
  else s

/-- The phase does work in this frame (Table 1-1, 13 R364). -/
def phaseWorks (s : State) (p : Nat) : Bool :=
  if onDuty s.st then (if p = 1 ∨ p = 2 then s.fusion.running else if p = 3 ∨ p = 4 then s.bring.obsAtTick else true)
  else decide (s.st = .held) && p == 6

/-- A shadow of the frame's schedule was not refreshed, so that P4's margin does not count (Table 1-6). -/
def shadowLeft (s : State) : Bool := s.solver.sched.any (fun g => !(shadowOf s g).fresh)

/-- LATE and FREE_US of the phase that ends (Table 1-6). A second stamp with the same figures changes nothing, so P5 has its figures before the
frame's reports are composed (02 R75). -/
def stampPhase (p : Nat) (late : Bool) (margin : Nat) (s : State) : State :=
  let counted := phaseWorks s p && !(p == 4 && shadowLeft s)
  let x := s.frame.status
  let free := if counted then some (match x.freeUs with | some n => Nat.min n margin | none => margin) else x.freeUs
  { s with frame := { s.frame with status := { x with late := upd (fun _ => late) x.late p, freeUs := free } } }

/-- The end of P5: datagrams as far as they were queued, status telegrams, what the commands leave behind (09 R261). -/
def p5End (late : Bool) (r : PhaseIn) (s : State) : State :=
  let s0 := chMeasure r.pInMw r.plate1 r.plate2 r.pDomain s
  if onDuty s0.st then
    let room := if late then r.datagrams else 65536
    let base := s0.out.length
    let (s1, _, udp) := udpAll room s0
    let s2 := placeKind2 late r.placed s1
    let s3 := if s2.bring.obsAtTick then allocEmitted (commandsSent s2 udp) s2 else s2
    let s4 := sendReports (stampPhase 5 late r.marginUs (releaseHeld s3))
    { s4 with out := s4.out.take (base + room), frame := { s4.frame with p5Done := !late } }
  else s0

/-! ### Phase boundaries (R21 to R31) -/

/-- Instant of the boundary that ends a phase: the tick plus the budgets up to it (R21, R22). -/
def boundaryNs (s : State) (p : Nat) : Nat := s.frame.tic + 1000 * ((nth [] s.cfg.img.frame.phaseUs s.frame.mode).take (p + 1)).sum

/-- P4 reaches its boundary with a solve unfinished (Table 1-6). -/
def solveLeft (s : State) : Bool := s.solver.onA.isSome || s.solver.onB.isSome || s.solver.primary.isSome || !s.solver.queue.isEmpty

/-- The phase that ends is late (R27, R28). -/
def phaseLate (s : State) (p : Nat) (r : PhaseIn) : Bool :=
  phaseWorks s p && (if p = 4 then solveLeft s else if p = 5 then r.late || s.frame.kind1Miss else r.late)

/-- LATE and FREE_US of the phase that ends, and the fault of a late one (Tables 1-5 and 1-6). -/
def notePhase (p : Nat) (late : Bool) (margin : Nat) (s : State) : State :=
  let s1 := stampPhase p late margin s
  if late then faultOnce (0x0110 + p) s1 else s1

/-- The end of P0: the snapshot, the frame-bound commands, the internal receiver's latch. -/
def p0End (late : Bool) (s : State) : State :=
  let s1 := serveAll { s with frame := { s.frame with p5Done := false, cpHanded := false } }
  if onDuty s1.st then
    let s2 := if late then s1 else latchNav (armStep 1 (armStep 0 (takeSnapshot s1)))
    applyAll s2
  else s1

/-- The end of P1: fusion, or the outputs of the frame before grown older; with warm-up ends bring-up (13 R358). -/
def p1End (late : Bool) (s : State) : State :=
  if phaseWorks s 1 then
    let s1 := if late then fusionLate s else fusionP1 s
    if s1.bring.step = 8 ∧ s1.fusion.warmup = false then bringComplete s1 else s1
  else s

/-- The end of P6: the next grant, the checkpoint (12 R341). -/
def p6End (late : Bool) (s : State) : State :=
  if onDuty s.st then
    let t := chDecide s
    if late = true ∨ t.lock.cpBad = true then t else sendCheckpoint t
  else s

/-- The work of the phase that ends takes effect. -/
def phaseEnd (p : Nat) (late : Bool) (r : PhaseIn) (s : State) : State :=
  match p with
  | 0 => p0End late s
  | 1 => p1End late s
  | 2 => if phaseWorks s 2 then p2End (if late then Nat.min 6 r.stepsDone else 6) s else s
  | 3 => if phaseWorks s 3 then p3Run (!late || r.primaryDone) (if late then r.shadowsDone else 16) s else s
  | 4 => if phaseWorks s 4 then p4End r.arrA r.arrB (chEnergies r.eShadowUj r.ePrimaryUj s) else s
  | 5 => p5End late r s
  | _ => p6End late s

/-- The next phase begins at its boundary; as P6 ends, what reads will return is captured (02 R66). -/
def phaseBegin (p : Nat) (r : PhaseIn) (s : State) : State :=
  let s1 := { s with frame := { s.frame with phase := p, p5Start := if p = 5 then boundaryNs s 4 else s.frame.p5Start } }
  if p = 5 then p5Begin r s1 else if p = 7 then { s1 with viewNext := some (captureView s1) } else s1

/-- PHASE_BOUNDARY (R21, R27, R28). -/
def phaseBoundary (r : PhaseIn) (s : State) : State :=
  let p := s.frame.phase
  if s.frame.running = true ∧ p < 7 ∧ boundaryNs s p ≤ nowNs s then
    let late := phaseLate s p r
    phaseBegin (p + 1) r (notePhase p late r.marginUs (phaseEnd p late r s))
  else s

def execPhaseBoundary (dt : Nat) (r : PhaseIn) (s : State) : Host.Outcome State Fault Refusal :=
  .next (settle (phaseBoundary r (advance s dt)))

end Sys2Proof.Machine
end

