-- ==== Sys2Proof/Machine/Dispatch.lean ====
section
/-! DEFINITION. Which meaning each command has: one arm per constructor of `Instr`. -/

namespace Sys2Proof.Machine

def exec (i : Instr) (s : State) : Host.Outcome State Fault Refusal :=
  match i with
  | .frameTick dt stopped => Sys2Proof.Machine.execFrameTick dt stopped s
  | .phaseBoundary dt r => Sys2Proof.Machine.execPhaseBoundary dt r s
  | .lateRunFault dt => Sys2Proof.Machine.execLateRunFault dt s
  | .timebaseStep dt => Sys2Proof.Machine.execTimebaseStep dt s
  | .modeChangeTick dt => Sys2Proof.Machine.execModeChangeTick dt s
  | .trigPulse dt n => Sys2Proof.Machine.execTrigPulse dt n s
  | .trigPulseEnd dt n => Sys2Proof.Machine.execTrigPulseEnd dt n s
  | .solveComplete dt arr busyUs => Sys2Proof.Machine.execSolveComplete dt arr busyUs s
  | .oxmpRequestArrival dt port src msg => Sys2Proof.Machine.execOxmpRequestArrival dt port src msg s
  | .tagCacheExpiry dt mbox => Sys2Proof.Machine.execTagCacheExpiry dt mbox s
  | .hello dt mbox => Sys2Proof.Machine.execHello dt mbox s
  | .stateRead dt mbox => Sys2Proof.Machine.execStateRead dt mbox s
  | .modeSet dt mbox => Sys2Proof.Machine.execModeSet dt mbox s
  | .frameRead dt mbox => Sys2Proof.Machine.execFrameRead dt mbox s
  | .frameSubscribe dt mbox => Sys2Proof.Machine.execFrameSubscribe dt mbox s
  | .targetSet dt mbox => Sys2Proof.Machine.execTargetSet dt mbox s
  | .targetStop dt mbox => Sys2Proof.Machine.execTargetStop dt mbox s
  | .targetRead dt mbox => Sys2Proof.Machine.execTargetRead dt mbox s
  | .pushSet dt mbox => Sys2Proof.Machine.execPushSet dt mbox s
  | .configStage dt mbox => Sys2Proof.Machine.execConfigStage dt mbox s
  | .stagingGrantExpiry dt => Sys2Proof.Machine.execStagingGrantExpiry dt s
  | .configCommit dt mbox writeOk => Sys2Proof.Machine.execConfigCommit dt mbox writeOk s
  | .configRead dt mbox => Sys2Proof.Machine.execConfigRead dt mbox s
  | .configAbort dt mbox => Sys2Proof.Machine.execConfigAbort dt mbox s
  | .imageVerificationComplete dt bankErr => Sys2Proof.Machine.execImageVerificationComplete dt bankErr s
  | .imageEffect dt => Sys2Proof.Machine.execImageEffect dt s
  | .ledgerWindow dt mbox => Sys2Proof.Machine.execLedgerWindow dt mbox s
  | .ledgerRead dt mbox readErr => Sys2Proof.Machine.execLedgerRead dt mbox readErr s
  | .timeRead dt mbox => Sys2Proof.Machine.execTimeRead dt mbox s
  | .timeSet dt mbox => Sys2Proof.Machine.execTimeSet dt mbox s
  | .snap dt => Sys2Proof.Machine.execSnap dt s
  | .commit dt => Sys2Proof.Machine.execCommit dt s
  | .stDate dt v => Sys2Proof.Machine.execStDate dt v s
  | .stTime dt v => Sys2Proof.Machine.execStTime dt v s
  | .status dt v => Sys2Proof.Machine.execStatus dt v s
  | .rawWindowWrite dt ofs v => Sys2Proof.Machine.execRawWindowWrite dt ofs v s
  | .timeAdjust dt mbox => Sys2Proof.Machine.execTimeAdjust dt mbox s
  | .alarmSet dt mbox => Sys2Proof.Machine.execAlarmSet dt mbox s
  | .faultRead dt mbox => Sys2Proof.Machine.execFaultRead dt mbox s
  | .faultAck dt mbox => Sys2Proof.Machine.execFaultAck dt mbox s
  | .lockChange dt mbox => Sys2Proof.Machine.execLockChange dt mbox s
  | .fwStage dt mbox readBackOk => Sys2Proof.Machine.execFwStage dt mbox readBackOk s
  | .fwActivate dt mbox => Sys2Proof.Machine.execFwActivate dt mbox s
  | .serviceChallenge dt mbox => Sys2Proof.Machine.execServiceChallenge dt mbox s
  | .serviceRespond dt mbox => Sys2Proof.Machine.execServiceRespond dt mbox s
  | .serviceLock dt mbox => Sys2Proof.Machine.execServiceLock dt mbox s
  | .serviceUnlockTimeout dt => Sys2Proof.Machine.execServiceUnlockTimeout dt s
  | .serviceLockoutExpiry dt => Sys2Proof.Machine.execServiceLockoutExpiry dt s
  | .usbDetach dt => Sys2Proof.Machine.execUsbDetach dt s
  | .sentenceReceive dt port baud chars ending => Sys2Proof.Machine.execSentenceReceive dt port baud chars ending s
  | .serialUnlock dt port => Sys2Proof.Machine.execSerialUnlock dt port s
  | .serialUnlockedFault dt port => Sys2Proof.Machine.execSerialUnlockedFault dt port s
  | .floodFault dt port => Sys2Proof.Machine.execFloodFault dt port s
  | .malformedRateFault dt port => Sys2Proof.Machine.execMalformedRateFault dt port s
  | .datagram450Receive dt port data => Sys2Proof.Machine.execDatagram450Receive dt port data s
  | .udpBinaryReceive dt port dst src data => Sys2Proof.Machine.execUdpBinaryReceive dt port dst src data s
  | .canFrameReceive dt ctrl idWord remote data => Sys2Proof.Machine.execCanFrameReceive dt ctrl idWord remote data s
  | .inputWindowEnd dt w => Sys2Proof.Machine.execInputWindowEnd dt w s
  | .captureEdge dt unit rising => Sys2Proof.Machine.execCaptureEdge dt unit rising s
  | .groupStart dt g => Sys2Proof.Machine.execGroupStart dt g s
  | .analogSample dt ch mods => Sys2Proof.Machine.execAnalogSample dt ch mods s
  | .modulatorOverload dt ch => Sys2Proof.Machine.execModulatorOverload dt ch s
  | .modulatorRestart dt ch => Sys2Proof.Machine.execModulatorRestart dt ch s
  | .analogChannelFault dt ch => Sys2Proof.Machine.execAnalogChannelFault dt ch s
  | .intakeCounterSecond dt => Sys2Proof.Machine.execIntakeCounterSecond dt s
  | .gnssMeasurementEpoch dt meas => Sys2Proof.Machine.execGnssMeasurementEpoch dt meas s
  | .navigationWord dt w => Sys2Proof.Machine.execNavigationWord dt w s
  | .navSolutionComplete dt sol => Sys2Proof.Machine.execNavSolutionComplete dt sol s
  | .gnssBurst dt => Sys2Proof.Machine.execGnssBurst dt s
  | .gnssSleep dt ephFresh => Sys2Proof.Machine.execGnssSleep dt ephFresh s
  | .gnssWake dt => Sys2Proof.Machine.execGnssWake dt s
  | .noFullSolutionFault dt => Sys2Proof.Machine.execNoFullSolutionFault dt s
  | .antennaOpen dt => Sys2Proof.Machine.execAntennaOpen dt s
  | .antennaShort dt => Sys2Proof.Machine.execAntennaShort dt s
  | .biasRetry dt => Sys2Proof.Machine.execBiasRetry dt s
  | .skewRelearn dt ref => Sys2Proof.Machine.execSkewRelearn dt ref s
  | .awaitTimeout dt ref => Sys2Proof.Machine.execAwaitTimeout dt ref s
  | .drLimit dt heading => Sys2Proof.Machine.execDrLimit dt heading s
  | .kindNotValidFault dt wind => Sys2Proof.Machine.execKindNotValidFault dt wind s
  | .blendEnd dt => Sys2Proof.Machine.execBlendEnd dt s
  | .controlPersistFault dt noRegion => Sys2Proof.Machine.execControlPersistFault dt noRegion s
  | .moveAtRest dt => Sys2Proof.Machine.execMoveAtRest dt s
  | .pushRampEnd dt => Sys2Proof.Machine.execPushRampEnd dt s
  | .slackFault dt => Sys2Proof.Machine.execSlackFault dt s
  | .exceedFault dt bus => Sys2Proof.Machine.execExceedFault dt bus s
  | .holdShiftFault dt => Sys2Proof.Machine.execHoldShiftFault dt s
  | .solverRunFault dt epsMax => Sys2Proof.Machine.execSolverRunFault dt epsMax s
  | .conseqFault dt => Sys2Proof.Machine.execConseqFault dt s
  | .coverAgeFault dt => Sys2Proof.Machine.execCoverAgeFault dt s
  | .shadowCutFault dt => Sys2Proof.Machine.execShadowCutFault dt s
  | .beatReceive dt port msg => Sys2Proof.Machine.execBeatReceive dt port msg s
  | .checkpointFragment dt port msg => Sys2Proof.Machine.execCheckpointFragment dt port msg s
  | .rafogerForward dt port msg etherOk => Sys2Proof.Machine.execRafogerForward dt port msg etherOk s
  | .rafogerDropSecond dt => Sys2Proof.Machine.execRafogerDropSecond dt s
  | .pathDown dt peer port linkDown => Sys2Proof.Machine.execPathDown dt peer port linkDown s
  | .discoveryEnd dt => Sys2Proof.Machine.execDiscoveryEnd dt s
  | .electionClaim dt failed => Sys2Proof.Machine.execElectionClaim dt failed s
  | .leaseEnd dt => Sys2Proof.Machine.execLeaseEnd dt s
  | .leaseClaim dt failed => Sys2Proof.Machine.execLeaseClaim dt failed s
  | .leasePass dt => Sys2Proof.Machine.execLeasePass dt s
  | .leaseYield dt => Sys2Proof.Machine.execLeaseYield dt s
  | .lockChangePrepare dt => Sys2Proof.Machine.execLockChangePrepare dt s
  | .lockChangeRelease dt => Sys2Proof.Machine.execLockChangeRelease dt s
  | .targetClaim dt failed => Sys2Proof.Machine.execTargetClaim dt failed s
  | .checkpointFallback dt => Sys2Proof.Machine.execCheckpointFallback dt s
  | .periodAdopt dt => Sys2Proof.Machine.execPeriodAdopt dt s
  | .lockDrillOverdue dt => Sys2Proof.Machine.execLockDrillOverdue dt s
  | .powerGood dt lvA lvB h1Fast h2Fast => Sys2Proof.Machine.execPowerGood dt lvA lvB h1Fast h2Fast s
  | .powerFail dt lvA lvB started => Sys2Proof.Machine.execPowerFail dt lvA lvB started s
  | .powerOff dt left => Sys2Proof.Machine.execPowerOff dt left s
  | .moduleReset dt => Sys2Proof.Machine.execModuleReset dt s
  | .selftestComplete dt failed => Sys2Proof.Machine.execSelftestComplete dt failed s
  | .timeLockTimeout dt => Sys2Proof.Machine.execTimeLockTimeout dt s
  | .oscSetupTimeout dt => Sys2Proof.Machine.execOscSetupTimeout dt s
  | .bringupTimeout dt => Sys2Proof.Machine.execBringupTimeout dt s
  | .ptpMessage dt port m => Sys2Proof.Machine.execPtpMessage dt port m s
  | .sourceLoss dt ptpPort gnss => Sys2Proof.Machine.execSourceLoss dt ptpPort gnss s
  | .permitExpiry dt => Sys2Proof.Machine.execPermitExpiry dt s
  | .timeNotLockedFault dt => Sys2Proof.Machine.execTimeNotLockedFault dt s
  | .rtcSecondCarry dt => Sys2Proof.Machine.execRtcSecondCarry dt s
  | .oscillatorStop dt => Sys2Proof.Machine.execOscillatorStop dt s
  | .pdBkReset dt => Sys2Proof.Machine.execPdBkReset dt s
  | .rtcFollowCheck dt => Sys2Proof.Machine.execRtcFollowCheck dt s
  | .ppsOutPulse dt => Sys2Proof.Machine.execPpsOutPulse dt s
  | .ppsOutPulseEnd dt => Sys2Proof.Machine.execPpsOutPulseEnd dt s
  | .slotStart dt e sof => Sys2Proof.Machine.execSlotStart dt e sof s
  | .slotEnd dt e sof arbLost => Sys2Proof.Machine.execSlotEnd dt e sof arbLost s
  | .safetySlotStart dt ctrl => Sys2Proof.Machine.execSafetySlotStart dt ctrl s
  | .canTxComplete dt ctrl entry acked arbLost => Sys2Proof.Machine.execCanTxComplete dt ctrl entry acked arbLost s
  | .busoffHoldExpiry dt ctrl => Sys2Proof.Machine.execBusoffHoldExpiry dt ctrl s
  | .busoffRecovered dt ctrl => Sys2Proof.Machine.execBusoffRecovered dt ctrl s
  | .canCounterSecond dt => Sys2Proof.Machine.execCanCounterSecond dt s
  | .slotRunFault dt ctrl entry => Sys2Proof.Machine.execSlotRunFault dt ctrl entry s
  | .safetyCycle dt fs1Mv fs2Mv started => Sys2Proof.Machine.execSafetyCycle dt fs1Mv fs2Mv started s
  | .soRefreshTimeout dt so => Sys2Proof.Machine.execSoRefreshTimeout dt so s
  | .lockstepMismatch dt => Sys2Proof.Machine.execLockstepMismatch dt s
  | .discrepancy dt pair => Sys2Proof.Machine.execDiscrepancy dt pair s
  | .stuckReset dt di => Sys2Proof.Machine.execStuckReset dt di s
  | .edmCheck dt f => Sys2Proof.Machine.execEdmCheck dt f s
  | .soTestPulse dt so readBackOk => Sys2Proof.Machine.execSoTestPulse dt so readBackOk s
  | .proofTestOverdue dt f => Sys2Proof.Machine.execProofTestOverdue dt f s
  | .fieldSupplyRecovered dt supply level => Sys2Proof.Machine.execFieldSupplyRecovered dt supply level s
  | .oscTelegramReceive dt conn data => Sys2Proof.Machine.execOscTelegramReceive dt conn data s
  | .setupAck dt conn data => Sys2Proof.Machine.execSetupAck dt conn data s
  | .oscWatchdogExpiry dt conn => Sys2Proof.Machine.execOscWatchdogExpiry dt conn s
  | .outputOverload dt ch => Sys2Proof.Machine.execOutputOverload dt ch s
  | .outputOverheat dt ch => Sys2Proof.Machine.execOutputOverheat dt ch s
  | .groupOvercurrent dt g still => Sys2Proof.Machine.execGroupOvercurrent dt g still s
  | .firmwareAck dt code => Sys2Proof.Machine.execFirmwareAck dt code s
  | .sluiceExpiry dt code => Sys2Proof.Machine.execSluiceExpiry dt code s
  | .blockResetComplete dt b pass => Sys2Proof.Machine.execBlockResetComplete dt b pass s
  | .classRecovery dt cls => Sys2Proof.Machine.execClassRecovery dt cls s
  | .fltNHoldExpiry dt => Sys2Proof.Machine.execFltNHoldExpiry dt s
  | .sramScrub dt owner bitErrors => Sys2Proof.Machine.execSramScrub dt owner bitErrors s
  | .eccRateWindow dt => Sys2Proof.Machine.execEccRateWindow dt s
  | .ledgerRecordWrite dt failedTwice => Sys2Proof.Machine.execLedgerRecordWrite dt failedTwice s
  | .canReceiveError dt ctrl => Sys2Proof.Machine.execCanReceiveError dt ctrl s
  | .canProtocolException dt ctrl => Sys2Proof.Machine.execCanProtocolException dt ctrl s
  | .operatingSecondsSave dt => Sys2Proof.Machine.execOperatingSecondsSave dt s
  | .ptpMessageSend dt port m => Sys2Proof.Machine.execPtpMessageSend dt port m s

end Sys2Proof.Machine
end

