-- ==== Sys2Proof/WellFormed.lean ====
section
/-! DEFINITION. Which commands can occur: operands within what the wires, units and tables of the manual admit.

`exec` is total on every command; a term that is not well formed stands for nothing that can reach the module. -/

namespace Sys2Proof

/-- A list of at most `n` entries. -/
def lenLe {α : Type} (n : Nat) (l : List α) : Bool := decide (l.length ≤ n)

/-- An index of 1 to `n`. -/
def in1 (n i : Nat) : Bool := decide (1 ≤ i) && decide (i ≤ n)

/-- An index below `n`. -/
def below (n i : Nat) : Bool := decide (i < n)

/-- Baud rates of a serial port (04_intake R107). -/
def baudOk (b : Nat) : Bool := b == 4800 || b == 38400

/-- A destination that IPv4 and UDP can spell. -/
def dstOk (d : IpDst) : Bool := below (2 ^ 32) d.addr && below 65536 d.port

/-- Well-formed commands. -/
def Instr.wf : Instr → Bool
  | .frameTick _ es => lenLe 4 es
  | .phaseBoundary _ r => decide (r.stepsDone ≤ 6) && lenLe 12 r.pDomain
  | .trigPulse _ n => in1 4 n
  | .trigPulseEnd _ n => in1 4 n
  | .oxmpRequestArrival _ _ _ m => dstOk m.dst && lenLe 1464 m.data
  | .tagCacheExpiry _ m => below 9 m
  | .hello _ m => below 9 m
  | .stateRead _ m => below 9 m
  | .modeSet _ m => below 9 m
  | .frameRead _ m => below 9 m
  | .frameSubscribe _ m => below 9 m
  | .targetSet _ m => below 9 m
  | .targetStop _ m => below 9 m
  | .targetRead _ m => below 9 m
  | .pushSet _ m => below 9 m
  | .configStage _ m => below 9 m
  | .configCommit _ m _ => below 9 m
  | .configRead _ m => below 9 m
  | .configAbort _ m => below 9 m
  | .ledgerWindow _ m => below 9 m
  | .ledgerRead _ m es => below 9 m && es.all (fun q => decide (q < 2 ^ 32))
  | .timeRead _ m => below 9 m
  | .timeSet _ m => below 9 m
  | .stDate _ v => decide (v < 2 ^ 32)
  | .stTime _ v => decide (v < 2 ^ 32)
  | .status _ v => decide (v < 2 ^ 32)
  | .rawWindowWrite _ o v => decide (o < 128) && decide (o % 4 = 0) && decide (v < 2 ^ 32)
  | .timeAdjust _ m => below 9 m
  | .alarmSet _ m => below 9 m
  | .faultRead _ m => below 9 m
  | .faultAck _ m => below 9 m
  | .lockChange _ m => below 9 m
  | .fwStage _ m _ => below 9 m
  | .fwActivate _ m => below 9 m
  | .serviceChallenge _ m => below 9 m
  | .serviceRespond _ m => below 9 m
  | .serviceLock _ m => below 9 m
  | .sentenceReceive _ p b cs e => in1 8 p && baudOk b && (decide (e ≠ .lf) || cs.getLast? == some 0x0A)
  | .serialUnlock _ p => in1 8 p
  | .serialUnlockedFault _ p => in1 8 p
  | .floodFault _ p => in1 14 p
  | .malformedRateFault _ p => in1 14 p
  | .datagram450Receive _ p d => (p == 9 || p == 10) && dstOk d.dst && lenLe 65535 d.data
  | .udpBinaryReceive _ p t _ d => (p == 9 || p == 10) && dstOk t && lenLe 65535 d
  | .canFrameReceive _ c i _ d => in1 4 c && decide (i < 2 ^ 32) && lenLe 64 d
  | .inputWindowEnd _ w => lenLe 32 w.di && lenLe 8 w.sx
  | .captureEdge _ u _ => below 16 u
  | .groupStart _ g => in1 4 g
  | .analogSample _ c xs => in1 16 c && lenLe 16384 xs
  | .modulatorOverload _ x => in1 16 x.ch
  | .modulatorRestart _ c => in1 16 c
  | .analogChannelFault _ c => in1 16 c
  | .gnssMeasurementEpoch _ ms => lenLe 32 ms && ms.all (fun m => in1 32 m.chan)
  | .navigationWord _ w => in1 32 w.chan && decide (w.bits < 2 ^ 30)
  | .skewRelearn _ r => below 28 r
  | .awaitTimeout _ r => below 28 r
  | .exceedFault _ b => below 6 b
  | .beatReceive _ p f => below 2 p && below 65536 f.ethertype
  | .checkpointFragment _ p f => below 2 p && below 65536 f.ethertype
  | .rafogerForward _ p _ _ => below 2 p
  | .pathDown _ q p _ => in1 3 q && below 2 p
  | .electionClaim _ f => decide (f < 2 ^ 16)
  | .leaseClaim _ f => decide (f < 2 ^ 16)
  | .targetClaim _ f => decide (f < 2 ^ 16)
  | .selftestComplete _ f => decide (f < 2 ^ 16)
  | .ptpMessage _ p _ => below 2 p
  | .sourceLoss _ p _ => (match p with | some q => below 2 q | none => true)
  | .safetySlotStart _ c => in1 4 c
  | .canTxComplete _ c _ _ _ => in1 4 c
  | .busoffHoldExpiry _ c => in1 4 c
  | .busoffRecovered _ c => in1 4 c
  | .slotRunFault _ c _ => in1 4 c
  | .soRefreshTimeout _ o => below 8 o
  | .discrepancy _ p => below 4 p
  | .stuckReset _ d => in1 32 d
  | .edmCheck _ f => below 4 f
  | .soTestPulse _ o _ => below 8 o
  | .proofTestOverdue _ f => below 4 f
  | .fieldSupplyRecovered _ u _ => below 2 u
  | .oscTelegramReceive _ c _ => below 64 c
  | .setupAck _ c _ => below 64 c
  | .oscWatchdogExpiry _ c => below 64 c
  | .outputOverload _ c => in1 24 c
  | .outputOverheat _ c => in1 24 c
  | .groupOvercurrent _ g _ => below 2 g
  | .firmwareAck _ c => decide (c < 65536)
  | .sluiceExpiry _ c => decide (c < 65536)
  | .classRecovery _ c => below 32 c
  | .sramScrub _ _ n => in1 64 n
  | .canReceiveError _ c => in1 4 c
  | .canProtocolException _ c => in1 4 c
  | .ptpMessageSend _ p _ => below 2 p
  | .lateRunFault _ => true
  | .timebaseStep _ => true
  | .modeChangeTick _ => true
  | .solveComplete _ _ _ => true
  | .stagingGrantExpiry _ => true
  | .imageVerificationComplete _ _ => true
  | .imageEffect _ => true
  | .snap _ => true
  | .commit _ => true
  | .serviceUnlockTimeout _ => true
  | .serviceLockoutExpiry _ => true
  | .usbDetach _ => true
  | .intakeCounterSecond _ => true
  | .navSolutionComplete _ _ => true
  | .gnssBurst _ => true
  | .gnssSleep _ _ => true
  | .gnssWake _ => true
  | .noFullSolutionFault _ => true
  | .antennaOpen _ => true
  | .antennaShort _ => true
  | .biasRetry _ => true
  | .drLimit _ _ => true
  | .kindNotValidFault _ _ => true
  | .blendEnd _ => true
  | .controlPersistFault _ _ => true
  | .moveAtRest _ => true
  | .pushRampEnd _ => true
  | .slackFault _ => true
  | .holdShiftFault _ => true
  | .solverRunFault _ _ => true
  | .conseqFault _ => true
  | .coverAgeFault _ => true
  | .shadowCutFault _ => true
  | .rafogerDropSecond _ => true
  | .discoveryEnd _ => true
  | .leaseEnd _ => true
  | .leasePass _ => true
  | .leaseYield _ => true
  | .lockChangePrepare _ => true
  | .lockChangeRelease _ => true
  | .checkpointFallback _ => true
  | .periodAdopt _ => true
  | .lockDrillOverdue _ => true
  | .powerGood _ _ _ _ _ => true
  | .powerFail _ _ _ _ => true
  | .powerOff _ l => l.cut.isEmpty || l.cut.length == 44
  | .moduleReset _ => true
  | .timeLockTimeout _ => true
  | .oscSetupTimeout _ => true
  | .bringupTimeout _ => true
  | .permitExpiry _ => true
  | .timeNotLockedFault _ => true
  | .rtcSecondCarry _ => true
  | .oscillatorStop _ => true
  | .pdBkReset _ => true
  | .rtcFollowCheck _ => true
  | .ppsOutPulse _ => true
  | .ppsOutPulseEnd _ => true
  | .slotStart _ _ _ => true
  | .slotEnd _ _ _ _ => true
  | .canCounterSecond _ => true
  | .safetyCycle _ _ _ _ => true
  | .lockstepMismatch _ => true
  | .fltNHoldExpiry _ => true
  | .blockResetComplete _ _ _ => true
  | .eccRateWindow _ => true
  | .ledgerRecordWrite _ _ => true
  | .operatingSecondsSave _ => true

end Sys2Proof
end

