-- ==== Sys2Proof/Safety.lean ====
section
/-! DEFINITION. What counts as a safe run of the block, and the terms in which claims about its commands are stated: what a raise may
touch, a request on its turn, the invariant of the mailboxes and queues. -/

namespace Sys2Proof.Safety

open Sys2Proof.Machine

/-- Every command that waits is well formed. -/
def queueWf (s : State) : Prop := ∀ c ∈ s.pending, c.wf = true

/-- A step from the state answers a next state: neither a fault nor a refusal. -/
def runs (s : State) : Prop := ∃ t, step s = .next t

/-- A state with everything blanked out that recording an event or raising a fault may touch: what was sent, the Ledger's queue and loss
counts, the fault sources, whether the frame still emits, the lease, and the pins MOK, FLT_N and REPL. Two states that agree by `rest`
differ in these at most. -/
def rest (s : State) : State :=
  { s with
    out := [], ledger := { s.ledger with queue := [], lost := 0, lostSince := 0 }, faults := {}
    frame := { s.frame with emitSuppressed := false }
    lock := { s.lock with held := false, expiry := 0, release := false, seqTx := 0 }
    field := { s.field with mok := false, fltN := false, fltEl := 0, repl := false } }

/-- A state without the contents of its mailboxes, what was sent and the pins MOK and FLT_N. -/
def quiet (s : State) : State :=
  { s with out := [], mb := { s.mb with boxes := [] }, field := { s.field with mok := false, fltN := false } }

/-- A state without its pins MOK and FLT_N, which `settle` judges after every command (18 R484, 19 R500). -/
def noPins (s : State) : State := { s with field := { s.field with mok := false, fltN := false } }

/-- The invariant of the parts whose size or form the manual bounds: nine mailboxes with the queue of R65 and the tag cache of R55, the
firmware bank's canonical form, the write queue of 20 R517, the history of 01 R31, and fault sources in rising order of index (19 R488). -/
structure Inv (s : State) : Prop where
  boxes : s.mb.boxes.length = 9
  queues : ∀ m, (boxOf s m).queue.length ≤ boxCap m
  caches : ∀ m, (boxOf s m).cache.length ≤ 64
  bank : Memory.wf s.mb.fwBank = true
  write : queueSize s.ledger.queue ≤ queueCap
  history : s.frame.history.length ≤ 64
  sources : Table.sorted s.faults.src = true

/-- The request at the head of a mailbox, whose turn it is, names this command, passes steps 1 to 10 of Table 2-4 in the state and is in
time (02 R53, R69). -/
structure Turn (u : State) (m word : Nat) (r : Request) (q : List Request) : Prop where
  box : m < u.mb.boxes.length
  queue : (boxOf u m).queue = r :: q
  waiting : r.waiting = true
  hold : r.hold = false
  cmd : r.cmd = word
  header : headerCheck u r = none
  command : commandCheck u r = none
  inTime : expiryCheck r (nowNs u) = none

/-- A read or immediate command is answered: a next state in which its response, with the payload named, has left where its request came
from (02 R47, R66), and which differs from `v` in the mailboxes' contents, what was sent and the pins MOK and FLT_N at most. -/
def Answered (c : Instr) (s : State) (r : Request) (payload : Bytes) (v : State) : Prop :=
  ∃ t, exec c s = .next t ∧ Out.msg r.port r.src (respond r payload none) ∈ t.out ∧ quiet t = quiet v

/-- A read or immediate command that records an event is answered: as `Answered`, but for what recording an event may touch. -/
def AnsweredRest (c : Instr) (s : State) (r : Request) (payload : Bytes) (v : State) : Prop :=
  ∃ t, exec c s = .next t ∧ Out.msg r.port r.src (respond r payload none) ∈ t.out ∧ quiet (rest t) = quiet (rest v)

/-- An immediate command is refused: a next state in which the refusal has left where its request came from and nothing else of the
module has changed (02 R53, R47). -/
def Refused (c : Instr) (s : State) (u : State) (r : Request) (e : Err) : Prop :=
  ∃ t, exec c s = .next t ∧ Out.msg r.port r.src (respond r [] (some e)) ∈ t.out ∧ quiet t = quiet u

/-- A command raises a fault: a next state in which the source is active and which differs from `v` in what a raise may touch at most. -/
def Raises (c : Instr) (s : State) (code : Nat) (v : State) : Prop :=
  ∃ t, exec c s = .next t ∧ faultActive t code = true ∧ rest t = rest v

/-- A command answers the state `v`, but for the pins MOK and FLT_N. -/
def Gives (c : Instr) (s v : State) : Prop := ∃ t, exec c s = .next t ∧ noPins t = noPins v

/-- A command answers the state `v`, but for what recording an event or raising a fault may touch. -/
def GivesRest (c : Instr) (s v : State) : Prop := ∃ t, exec c s = .next t ∧ rest t = rest v

/-- The frame-bound request whose turn it is in P0 by the order of 02 R68, of this command and mailbox, on a module on duty. -/
structure BoundTurn (u : State) (m word : Nat) (r : Request) (q : List Request) : Prop where
  phase : u.frame.phase = 0
  duty : onDuty u.st = true
  due : dueRequests u = r :: q
  cmd : r.cmd = word
  mbox : r.mbox = m
  box : m < u.mb.boxes.length
  queued : r ∈ (boxOf u m).queue

/-- A frame-bound command is applied: a next state in which its mailbox holds the response `msg` for it, which P5 sends (02 R67), and which
differs from `v` in mailbox contents and in what recording an event or raising a fault may touch at most. -/
def Applied (c : Instr) (s : State) (m : Nat) (msg : Bytes) (v : State) : Prop :=
  ∃ t, exec c s = .next t ∧ (∃ x ∈ (boxOf t m).queue, x.answer = some msg) ∧ quiet (rest t) = quiet (rest v)

/-- A Rafoger message composed in the state `v` has left on both L ports (12 R323, Table 12-2). -/
def Sends (t v : State) (type frame : Nat) (body : Bytes) : Prop := ∀ p ∈ [0, 1], rafOut p (rafMessage v type frame body) false ∈ t.out

end Sys2Proof.Safety
end

