-- ==== Sys2Proof/Certificates/Slice0/Obligations.lean ====
section
/-! DEFINITION. The statements about the model that the provers prove, as they follow from the numbered rules of spec/. Where a statement
rests on a choice of the model its docstring names the log entry. -/

open Sys2Proof Sys2Proof.Machine Sys2Proof.Safety

/-- A step takes the front command and runs it with the queue's rest, and answers a next state; with nothing waiting the block idles (the
model's choice, notes/assumptions/1.md). -/
def Obligations.StepTakesFrontCommand : Prop :=
  (∀ (s : State) (c : Instr) (q : List Instr), s.pending = c :: q → step s = exec c { s with pending := q }) ∧
  (∀ s : State, s.pending = [] → step s = .next s) ∧ (∀ s : State, runs s)

/-- The invariant holds at reset. -/
def Obligations.InvariantAtReset : Prop := Inv State.reset

/-- Every step keeps the invariant; the bank's canonical form rests on log entry 33 (what an unwritten byte reads as). -/
def Obligations.InvariantKept : Prop := ∀ s t : State, Inv s → step s = .next t → Inv t

/-- No command changes the queue of commands that wait. -/
def Obligations.CommandsLeaveTheQueue : Prop := ∀ (c : Instr) (s t : State), exec c s = .next t → t.pending = s.pending

/-- STATE.READ and TARGET.READ (02 R66, R71; 08 R234): the captured values, and no effect. When the capture is taken: log entry 34. -/
def Obligations.ReadsAnswerTheLastFrame : Prop :=
  ∀ (dt m : Nat) (s : State) (r : Request) (q : List Request) (v : View), (advance s dt).view = some v →
    (Turn (advance s dt) m wStateRead r q → Answered (.stateRead dt m) s r v.stateRead (advance s dt)) ∧
    (Turn (advance s dt) m wTargetRead r q → Answered (.targetRead dt m) s r v.targetRead (advance s dt))

/-- FRAME.READ (02 R73). -/
def Obligations.FrameReadNewestFirst : Prop :=
  ∀ (dt m : Nat) (s : State) (r : Request) (q : List Request), Turn (advance s dt) m wFrameRead r q →
    let n := byteAt r.payload 0
    let h := s.frame.history
    (1 ≤ n → n ≤ 64 → Answered (.frameRead dt m) s r
      (u8 (Nat.min n h.length) ++ zeros 3 ++ (h.take n).flatMap (fun p => u64 p.1 ++ u32 p.2 ++ u32 0)) (advance s dt)) ∧
    (n = 0 ∨ 64 < n → Refused (.frameRead dt m) s (advance s dt) r { code := 0x0006, ofs := 20 })

/-- HELLO (02 R60, R61; 20 R521; the owner of a staging, 03 R94). -/
def Obligations.HelloOpensASession : Prop :=
  ∀ (dt m : Nat) (s : State) (r : Request) (q : List Request), Turn (advance s dt) m wHello r q → r.mbox = m →
    let u := advance s dt
    let lo := byteAt r.payload 0
    let hi := byteAt r.payload 1
    (1 ≤ lo → lo ≤ hi → lo ≤ 3 → ∃ t, exec (.hello dt m) s = .next t ∧ (boxOf t m).session = some (Nat.min 3 hi) ∧
      (boxOf t m).sub = none ∧ (boxOf t m).window = none ∧
      quiet (rest t) = quiet (rest (if u.cfg.owner = some m then { u with cfg := { u.cfg with owner := none } } else u))) ∧
    (3 < lo → lo ≤ hi → ∃ t, exec (.hello dt m) s = .next t ∧ (boxOf t m).session = none ∧
      Out.msg r.port r.src (respond r [] (some { code := 0x0002 })) ∈ t.out)

/-- FRAME.SUBSCRIBE (02 R74, Table 2-14). -/
def Obligations.FrameSubscribeKeepsOnePerMailbox : Prop :=
  ∀ (dt m : Nat) (s : State) (r : Request) (q : List Request), Turn (advance s dt) m wFrameSubscribe r q → r.mbox = m →
    let u := advance s dt
    let dec := byteAt r.payload 0
    let sel := byteAt r.payload 1
    let room := (boxOf u m).sub.isSome = true ∨ (u.mb.boxes.filter (fun b => b.sub.isSome)).length < 4
    (1 ≤ sel → sel ≤ 3 →
      (dec = 0 → ∃ t, exec (.frameSubscribe dt m) s = .next t ∧ (boxOf t m).sub = none ∧ quiet t = quiet u) ∧
      (dec ≠ 0 → room → ∃ t, exec (.frameSubscribe dt m) s = .next t ∧ quiet t = quiet u ∧
        (boxOf t m).sub = some { decimate := dec, portSel := sel, sections := fld r.payload 4 4, src := r.src, port := r.port }) ∧
      (dec ≠ 0 → ¬room → Refused (.frameSubscribe dt m) s u r { code := 0x0009 }))

/-- SERVICE.CHALLENGE and SERVICE.LOCK (02 R76, R78). The nonce's bytes are free values, log entry 4. -/
def Obligations.ServiceChallengeAndLock : Prop :=
  ∀ (dt m : Nat) (s : State) (r : Request) (q : List Request),
    let u := advance s dt
    let lvl := byteAt r.payload 0
    let nonce := (List.range 32).map (Config.nonceByte u.nFree)
    (Turn u m wServiceChallenge r q → 1 ≤ lvl → lvl ≤ 3 → Answered (.serviceChallenge dt m) s r
      (nonce ++ padTo 12 u.unit.serial ++ u8 u.unit.serviceKeySlot ++ u8 lvl ++ u16 0)
      { u with nFree := u.nFree + 1, mb := { u.mb with nonce := some (nonce, lvl, elNs u) } }) ∧
    (Turn u m wServiceChallenge r q → lvl = 0 ∨ 3 < lvl → Refused (.serviceChallenge dt m) s u r { code := 0x0006, ofs := 20 }) ∧
    (Turn u m wServiceLock r q → Answered (.serviceLock dt m) s r [] { u with mb := { u.mb with unlock := 0 } })

/-- SERVICE.RESPOND (02 R76, R77). The validity of a signature is the free value `Config.sigValid`, log entry 4. -/
def Obligations.ServiceRespondUsesTheNonceOnce : Prop :=
  ∀ (dt m : Nat) (s : State) (r : Request) (q : List Request) (nonce : Bytes) (lvl at_ : Nat),
    let u := advance s dt
    Turn u m wServiceRespond r q → u.mb.nonce = some (nonce, lvl, at_) → u.mb.lockoutUntil = none →
    let good := decide (elNs u ≤ at_ + 30000000000) && Config.sigValid 4 (challengeDigest u nonce lvl) r.payload
    ∃ t, exec (.serviceRespond dt m) s = .next t ∧ t.mb.nonce = none ∧ t.mb.unlock = (if good then lvl else u.mb.unlock) ∧
      t.mb.failRun = (if good then 0 else if u.mb.failRun + 1 < 3 then u.mb.failRun + 1 else 0) ∧
      t.mb.serviceFails = (if good then u.mb.serviceFails else Nat.min 0xFFFF (u.mb.serviceFails + 1)) ∧
      t.mb.lockoutUntil = (if good = false ∧ 2 ≤ u.mb.failRun then some (elNs u + 60000000000) else none)

/-- USB_DETACH, SERVICE_UNLOCK_TIMEOUT, SERVICE_LOCKOUT_EXPIRY, TAG_CACHE_EXPIRY (02 R55, R62, R77, R78; 00 R15). -/
def Obligations.ServiceAndCacheTimers : Prop :=
  ∀ (dt m : Nat) (s : State), let u := advance s dt
    (0 < u.mb.boxes.length → ∃ t, exec (.usbDetach dt) s = .next t ∧ (boxOf t 0).session = none ∧ (boxOf t 0).queue = [] ∧
      (boxOf t 0).sub = none ∧ (boxOf t 0).window = none ∧ t.mb.unlock = 0 ∧ ∀ k, k ≠ 0 → boxOf t k = boxOf u k) ∧
    (u.mb.lastServiceEl + 900000000000 < elNs u → Gives (.serviceUnlockTimeout dt) s { u with mb := { u.mb with unlock := 0 } }) ∧
    (elNs u ≤ u.mb.lastServiceEl + 900000000000 → Gives (.serviceUnlockTimeout dt) s u) ∧
    (∀ e, u.mb.lockoutUntil = some e → e ≤ elNs u → Gives (.serviceLockoutExpiry dt) s { u with mb := { u.mb with lockoutUntil := none } }) ∧
    (m < u.mb.boxes.length → ∃ t, exec (.tagCacheExpiry dt m) s = .next t ∧ quiet t = quiet u ∧
      (∀ k, k ≠ m → boxOf t k = boxOf u k) ∧
      boxOf t m = { boxOf u m with cache := (boxOf u m).cache.filter (fun c => decide (elNs u ≤ c.stampEl + 2000000000)) })

/-- FW.STAGE and FW.ACTIVATE (02 R79 to R81): the stored bytes are those at OFFSET, of the data's length. What an unwritten byte reads
as is log entry 33; whether an image is signed is the free value `Config.fwValid`, log entry 4. -/
def Obligations.FwStageWritesTheInactiveBank : Prop :=
  ∀ (dt m : Nat) (s : State) (r : Request) (q : List Request), let u := advance s dt
    (Turn u m wFwStage r q → Memory.wf u.mb.fwBank = true →
      let ofs := fld r.payload 0 4
      let data := r.payload.drop 4
      ofs % 4 = 0 → ofs < fwSize → ofs + data.length ≤ fwSize →
      (∃ t, exec (.fwStage dt m true) s = .next t ∧ Out.msg r.port r.src (respond r [] none) ∈ t.out ∧
        (∀ a, fwRead t.mb.fwBank a = if ofs ≤ a ∧ a < ofs + data.length then nth fwEmpty data (a - ofs) else fwRead u.mb.fwBank a) ∧
        Memory.wf t.mb.fwBank = true ∧ quiet { t with mb := { t.mb with fwBank := [] } } = quiet { u with mb := { u.mb with fwBank := [] } }) ∧
      Refused (.fwStage dt m false) s u r { code := 0x0011 }) ∧
    (Turn u m wFwActivate r q → fld r.payload 0 4 ≤ fwSize → u.st = .held ∨ u.st = .standby →
      ∃ t, exec (.fwActivate dt m) s = .next t ∧ t.mb.fwActive = u.mb.fwActive ∧ t.mb.fwBank = u.mb.fwBank ∧
        t.mb.fwNext = if Config.fwValid (fld r.payload 0 4) u.mb.fwBank = true then 1 - u.mb.fwActive else u.mb.fwNext)

/-- MODE.SET (02 R72; 01 R37, R38). -/
def Obligations.ModeSetChangesModeAndDp : Prop :=
  ∀ (dt m : Nat) (s : State) (r : Request) (q : List Request), let u := advance s dt
    let dp := byteAt r.payload 0
    let fm := byteAt r.payload 1
    let ct := changeTickNs r.stamp
    let ok := fm ≤ 3 ∧ u.cfg.img.frame.modesAllowed.testBit fm = true
    Turn u m wModeSet r q →
    (onDuty u.st = true → dp = 0 → ok → fm ≠ u.frame.mode → u.frame.pendingMode = none →
      ct % 40000000 = 0 ∧ r.stamp + 40000000 ≤ ct ∧ ct < r.stamp + 80000000 ∧
      ∃ t, exec (.modeSet dt m) s = .next t ∧
        quiet t = quiet { u with frame := { u.frame with pendingMode := some (fm, ct), status := { u.frame.status with modePending := true } } }) ∧
    (onDuty u.st = true → dp = 2 → fm = 0xFF →
      let k := applyTick u r.stamp
      ∃ t, exec (.modeSet dt m) s = .next t ∧ t.frame.pendingMode = u.frame.pendingMode ∧
        (u.frame.tic < k → t.mb.dpNext = some (k, false) ∧ t.mb.dpReq = u.mb.dpReq ∧ t.st = u.st) ∧
        (k ≤ u.frame.tic → t.mb.dpNext = none ∧ t.mb.dpReq = false ∧ (u.frame.phase = 0 → t.st = .ready))) ∧
    (onDuty u.st = true → dp = 0 → ok → u.frame.pendingMode.isSome = true → Refused (.modeSet dt m) s u r { code := 0x0009 }) ∧
    (u.st = .held ∨ u.st = .standby → Refused (.modeSet dt m) s u r { code := 0x0008, detail := stateCode u.st })

/-- OXMP_REQUEST_ARRIVAL (02 R45, R48, R52, R55, R56, R66). -/
def Obligations.ArrivalDropsCountsAndQueues : Prop :=
  ∀ (dt : Nat) (port : HostPort) (src : Src) (dst : IpDst) (msg : Bytes) (s : State), let u := advance s dt
    let p := parseMessage port src (nowNs u) (elNs u) msg
    let open_ := portOpen u port = true ∧ forMailbox u port dst = true
    (¬open_ → Gives (.oxmpRequestArrival dt port src ⟨dst, msg⟩) s u) ∧
    (open_ → p = .format →
      Gives (.oxmpRequestArrival dt port src ⟨dst, msg⟩) s { u with mb := { u.mb with formatDrops := Nat.min 0xFFFFFFFF (u.mb.formatDrops + 1) } }) ∧
    (open_ → p = .crc →
      Gives (.oxmpRequestArrival dt port src ⟨dst, msg⟩) s { u with mb := { u.mb with crcDrops := Nat.min 0xFFFFFFFF (u.mb.crcDrops + 1) } }) ∧
    (∀ r : Request, open_ → p = .req r → r.mbox < u.mb.boxes.length →
      (∀ e ∈ (boxOf u r.mbox).cache, e.tag = r.tag → e.crc = r.crc → elNs u ≤ e.stampEl + 2000000000 →
        (∀ f ∈ (boxOf u r.mbox).cache, f.tag = r.tag → f = e) →
        ∃ t, exec (.oxmpRequestArrival dt port src ⟨dst, msg⟩) s = .next t ∧ t.out = [.msg port src e.resp] ∧ (boxOf t r.mbox).queue = (boxOf u r.mbox).queue) ∧
      ((boxOf u r.mbox).cache = [] → (boxOf u r.mbox).queue = [] → headerCheck u r = none → commandCheck u r = none →
        (∀ c, cmdInfo r.cmd = some c → c.bound = false) →
        ∃ t, exec (.oxmpRequestArrival dt port src ⟨dst, msg⟩) s = .next t ∧ t.out = [] ∧ (boxOf t r.mbox).queue = [r]))

/-- FRAME_TICK (01 R16, R17; 02 R66 with log entry 34). -/
def Obligations.FrameTickBeginsTheNextFrame : Prop :=
  ∀ (dt : Nat) (stopped : List Engine) (s : State), let u := advance s dt
    (u.frame.running = true → u.frame.nextTick ≤ nowNs u → ∃ t, exec (.frameTick dt stopped) s = .next t ∧
      t.frame.tic = u.frame.nextTick ∧ t.frame.index = u.frame.nextTick / periodNs u.frame.mode ∧
      t.frame.nextTick = u.frame.nextTick + periodNs u.frame.mode ∧ t.frame.phase = 0 ∧ t.frame.mode = u.frame.mode ∧
      t.frame.running = true ∧ t.viewNext = none ∧ ∀ v, u.viewNext = some v → t.view = some v) ∧
    (u.frame.running = false ∨ nowNs u < u.frame.nextTick → Gives (.frameTick dt stopped) s u)

/-- PHASE_BOUNDARY (01 R21, R22, R27, Table 1-5). -/
def Obligations.PhasesBeginAtTheirBoundaries : Prop :=
  ∀ (dt : Nat) (r : PhaseIn) (s : State), let u := advance s dt
    let p := u.frame.phase
    let due := u.frame.tic + 1000 * ((nth [] u.cfg.img.frame.phaseUs u.frame.mode).take (p + 1)).sum
    (u.frame.running = true → p < 7 → due ≤ nowNs u → ∃ t, exec (.phaseBoundary dt r) s = .next t ∧ t.frame.phase = p + 1 ∧
      (p = 6 → t.viewNext.isSome = true) ∧ (p = 0 → onDuty u.st = true → r.late = true → t.snap = u.snap)) ∧
    (u.frame.running = false ∨ 7 ≤ p ∨ nowNs u < due → Gives (.phaseBoundary dt r) s u)

/-- MODE_CHANGE_TICK (01 R37, R40). -/
def Obligations.ModeChangeTickEntersThePendingMode : Prop :=
  ∀ (dt m ct : Nat) (s : State), let u := advance s dt
    u.frame.running = true → u.frame.pendingMode = some (m, ct) →
    (ct ≤ u.frame.nextTick → u.frame.nextTick ≤ nowNs u → u.frame.nextTick % 40000000 = 0 → Gives (.modeChangeTick dt) s
      { u with frame := { u.frame with mode := m, pendingMode := none }, obs := { u.obs with notchPrime := true } }) ∧
    (u.frame.nextTick < ct ∨ nowNs u < u.frame.nextTick ∨ u.frame.nextTick % 40000000 ≠ 0 → Gives (.modeChangeTick dt) s u)

/-- TARGET.SET (08 R215, R220, R221, R227; 02 R67, R68). -/
def Obligations.TargetSetStartsOrWaits : Prop :=
  ∀ (dt m : Nat) (s : State) (r : Request) (q : List Request), let u := advance s dt
    let tg := targetOf r.payload
    let te := u.frame.nextTick
    let dn := tg.n * 65536 - u.sp.n
    let de := tg.e * 65536 - u.sp.e
    let far := tg.tflags.testBit 1 = false ∧ ((u.cfg.img.profile.maxMoveMm * 65536 : Nat) : Int) ^ 2 < dn * dn + de * de
    let mv := planMove u u.sp.n u.sp.e u.sp.psi tg te
    let lim := (reqBlocks u tg).2.2
    BoundTurn u m wTargetSet r q →
    (u.st = .ready → Applied (.targetSet dt m) s m (respond r [] (some { code := 0x0008, detail := 4 })) u) ∧
    (u.st = .active ∨ u.st = .tripped →
      (far → Applied (.targetSet dt m) s m (respond r [] (some { code := 0x0006, ofs := 20 })) u) ∧
      (¬far → tg.sel < u.cfg.img.profile.sets.length → u.sp.push.inForce = true →
        Applied (.targetSet dt m) s m (respond r [] (some { code := 0x0009 })) u) ∧
      (¬far → tg.sel < u.cfg.img.profile.sets.length → u.sp.push.inForce = false → u.sp.move = none →
        (mv.absent = true → ∃ t, exec (.targetSet dt m) s = .next t ∧ quiet (rest t) = quiet (rest u) ∧
          ∃ x ∈ (boxOf t m).queue, x.answer = some (respond r (targetSetResp u 3 lim 0 0) none)) ∧
        (mv.absent = false → ∃ t, exec (.targetSet dt m) s = .next t ∧ quiet (rest t) = quiet (rest { u with sp := { u.sp with move := some mv } }) ∧
          ∃ x ∈ (boxOf t m).queue, x.answer = some (respond r (targetSetResp u 0 lim 0 (msOf (moveLeft mv te))) none))) ∧
      (∀ old, ¬far → tg.sel < u.cfg.img.profile.sets.length → u.sp.push.inForce = false → u.sp.move = some old →
        let m1 : Move := if old.stopping = true ∨ old.braking = true then old
          else { old with trans := brakeProfile te old.trans, head := brakeProfile te old.head, braking := true }
        let left := mmOf (Frac.max Frac.zero (Frac.sub (endDist m1.trans) (profAt m1.trans te).s))
        ∃ t, exec (.targetSet dt m) s = .next t ∧ quiet (rest t) = quiet (rest { u with sp := { u.sp with move := some m1, pending := some tg } }) ∧
          ∃ x ∈ (boxOf t m).queue, x.answer = some (respond r
            (targetSetResp u (if u.sp.pending.isSome = true then 2 else 1) lim left (pendingEta u m1 tg te)) none)))

/-- TARGET.STOP (08 R225; 02 R67, R68). The event at rest: log entry 25. -/
def Obligations.TargetStopBrakesBothProfiles : Prop :=
  ∀ (dt m : Nat) (s : State) (r : Request) (q : List Request), let u := advance s dt
    let te := u.frame.nextTick
    let stopped := fun (p p' : ProfRun) =>
      (p.kind = 1 ∨ p.kind = 2 → (profAt p te).ended = false → p' = { p with kind := 3, s0 := (profAt p te).s, v0 := (profAt p te).v, tBrake := te }) ∧
      (p.kind = 0 ∨ p.kind = 3 ∨ (profAt p te).ended = true → p' = p)
    BoundTurn u m wTargetStop r q →
    (u.sp.move = none → ∃ t, exec (.targetStop dt m) s = .next t ∧ quiet (rest t) = quiet (rest { u with sp := { u.sp with pending := none } }) ∧
      ∃ x ∈ (boxOf t m).queue, x.answer = some (respond r (u64 u.frame.index ++ u32 0 ++ u32 0) none)) ∧
    (∀ old, u.sp.move = some old → ∃ t mv, exec (.targetStop dt m) s = .next t ∧
      quiet (rest t) = quiet (rest { u with sp := { u.sp with move := some mv, pending := none } }) ∧
      stopped old.trans mv.trans ∧ stopped old.head mv.head ∧ mv.stopping = true ∧ mv.tgtN = old.tgtN ∧ mv.tgtE = old.tgtE ∧ mv.tgtHdg = old.tgtHdg ∧
      ∃ x ∈ (boxOf t m).queue, x.answer = some (respond r (u64 u.frame.index ++
        u32 (mmOf (Frac.div (sqF (profAt old.trans te).v) (Frac.ofNat (2 * old.trans.blk.stopDec)))) ++ u32 (msOf (moveLeft mv te))) none))

/-- PUSH.SET (08 R215, R228, R229, R231; 02 R67, R68). A release with no push in force: log entry 25. -/
def Obligations.PushSetRampsOrIsRefused : Prop :=
  ∀ (dt m : Nat) (s : State) (r : Request) (q : List Request), let u := advance s dt
    let te := u.frame.nextTick
    let f := [fldI r.payload 0 4, fldI r.payload 4 4, fldI r.payload 8 4]
    let b := byteAt r.payload 12
    let req := fld r.payload 14 2
    let ms := if req = 0 then u.cfg.img.profile.pushRampMs else Nat.max req u.cfg.img.profile.pushRampMinMs
    let lim := decide (req ≠ 0) && decide (req < u.cfg.img.profile.pushRampMinMs)
    let zero := b = 0 ∧ f = [0, 0, 0]
    BoundTurn u m wPushSet r q →
    (u.st = .ready → Applied (.pushSet dt m) s m (respond r [] (some { code := 0x0008, detail := 4 })) u) ∧
    (u.st = .active ∨ u.st = .tripped →
      (¬zero → u.sp.move.isSome = true ∨ u.sp.pending.isSome = true → Applied (.pushSet dt m) s m (respond r [] (some { code := 0x0009 })) u) ∧
      (zero → u.sp.push.inForce = false →
        Applied (.pushSet dt m) s m (respond r (u64 u.frame.index ++ flag lim ++ zeros 3) none) u) ∧
      (¬zero → u.sp.move = none → u.sp.pending = none → u.sp.push.inForce = false → u.sp.push.free = [false, false, false] →
        ∃ t, exec (.pushSet dt m) s = .next t ∧ t.sp.push.inForce = true ∧ t.sp.push.to_ = f ∧
          t.sp.push.from_ = [⟨0, 1⟩, ⟨0, 1⟩, ⟨0, 1⟩] ∧ t.sp.push.t0 = te ∧ t.sp.push.t1 = te + ms * 1000000 ∧
          t.sp.push.free = [b.testBit 0, b.testBit 1, b.testBit 2] ∧ t.sp.push.release = false ∧
          t.sp.n = u.sp.n ∧ t.sp.e = u.sp.e ∧ t.sp.psi = u.sp.psi) ∧
      (zero → u.sp.push.inForce = true → ∃ t, exec (.pushSet dt m) s = .next t ∧ t.sp.push.inForce = true ∧ t.sp.push.release = true ∧
          t.sp.push.to_ = [0, 0, 0] ∧ (u.sp.push.free.length = 3 → t.sp.push.free = u.sp.push.free) ∧ t.sp.push.t1 = te + ms * 1000000))

/-- LOCK.CHANGE (12 R347, Tables 12-10, 12-11). TARGET 0: log entry 30. -/
def Obligations.LockChangeNamesAGoodTarget : Prop :=
  ∀ (dt m : Nat) (s : State) (r : Request) (q : List Request) (b : Beat), let u := advance s dt
    let tgt := byteAt r.payload 0
    let k := u.frame.index
    let h := if u.lock.groupVer = 2 then k + 3 else k + 4
    BoundTurn u m wLockChange r q → tgt ≠ 0 →
    (u.st = .ready ∨ u.st = .active → freshBeat u tgt = some b → b.good = true → u.lock.groupVer ≤ b.verMax → u.lock.change = none →
      (u.st = .active → b.digest8 = digest8 u) →
      Applied (.lockChange dt m) s m (respond r (u64 k ++ u8 tgt ++ zeros 7 ++ u64 h) none)
        { u with lock := { u.lock with change := some (tgt, k) } }) ∧
    (u.st = .ready → freshBeat u tgt = some b → b.good = true → u.lock.groupVer ≤ b.verMax → u.lock.change.isSome = true →
      Applied (.lockChange dt m) s m (respond r [] (some { code := 0x0009 })) u) ∧
    (u.st = .tripped ∨ freshBeat u tgt = none →
      Applied (.lockChange dt m) s m (respond r [] (some { code := 0x0008, detail := stateCode u.st })) u)

/-- LATE_RUN_FAULT, SERIAL_UNLOCKED_FAULT, FLOOD_FAULT, MALFORMED_RATE_FAULT, LOCK_DRILL_OVERDUE, PROOF_TEST_OVERDUE (01 R29; 04 R127, Table 4-4;
12 R339; 17 R468; 19 R490). -/
def Obligations.IntakeAndFrameConditionsRaise : Prop :=
  ∀ (dt p : Nat) (s : State), let u := advance s dt
    let q := nth {} u.intake.ports p
    let lateRun := ∃ n ∈ u.frame.lateRun, 3 ≤ n
    let unlocked := onDuty u.st = true ∧ q.baud = 0 ∧ q.unlockEl + 10000000000 ≤ elNs u ∧ ∃ e ∈ u.cfg.img.map, e.kind = 1 ∧ e.port = p
    let drill := u.st = .standby ∧ u.cfg.img.lock.lockDrillDays ≠ 0 ∧
      ∃ d, u.lock.drillOp = some d ∧ d + u.cfg.img.lock.lockDrillDays * 86400 < u.ledger.opS
    let proof := u.cfg.img.safety.proofDays ≠ 0 ∧ p < u.safety.funcs.length ∧
      (funcOf u p).lastTripOp + u.cfg.img.safety.proofDays * 86400 < u.ledger.opS
    s.st ≠ .off →
    (lateRun → ∃ t, exec (.lateRunFault dt) s = .next t ∧ faultActive t 0x0118 = true ∧ rest t = rest u) ∧
    (¬lateRun → Gives (.lateRunFault dt) s u) ∧
    (unlocked → ∃ t, exec (.serialUnlockedFault dt p) s = .next t ∧ faultActive t 0x0412 = true ∧ rest t = rest u) ∧
    (¬unlocked → Gives (.serialUnlockedFault dt p) s u) ∧
    (20 ≤ q.floodRun → ∃ t, exec (.floodFault dt p) s = .next t ∧ faultActive t 0x0410 = true ∧ rest t = rest u) ∧
    (q.floodRun < 20 → Gives (.floodFault dt p) s u) ∧
    (q.rateBad = true → ∃ t, exec (.malformedRateFault dt p) s = .next t ∧ faultActive t 0x0411 = true ∧ rest t = rest u) ∧
    (q.rateBad = false → Gives (.malformedRateFault dt p) s u) ∧
    (drill → ∃ t, exec (.lockDrillOverdue dt) s = .next t ∧ faultActive t 0x0C12 = true ∧ rest t = rest u) ∧
    (¬drill → Gives (.lockDrillOverdue dt) s u) ∧
    (proof → ∃ t, exec (.proofTestOverdue dt p) s = .next t ∧ faultActive t 0x1116 = true ∧ rest t = rest u) ∧
    (¬proof → Gives (.proofTestOverdue dt p) s u)

/-- DR_LIMIT, KIND_NOT_VALID_FAULT, CONTROL_PERSIST_FAULT (06 R176, R177, Table 6-13; 07 R213; 19 R490). -/
def Obligations.FusionAndControlConditionsRaise : Prop :=
  ∀ (dt : Nat) (b : Bool) (s : State), let u := advance s dt
    let f := if b then u.fusion.heading else u.fusion.position
    let lim := (if b then u.cfg.img.fusion.hdgDrLimitS else u.cfg.img.fusion.drLimitS) * 1000000000
    let k := if b then u.fusion.wind else u.fusion.motion
    let mark := fun (g : Fused) => { g with flags := { g.flags with drLimit := true } }
    let marked := { u with fusion := if b then { u.fusion with heading := mark u.fusion.heading } else { u.fusion with position := mark u.fusion.position } }
    let lost := u.fusion.running = true ∧ (∃ r ∈ u.cfg.img.fusion.refs, r.kind = if b then 3 else 2) ∧ k.flags.valid = false ∧
      ∃ t0, k.sinceEl = some t0 ∧ t0 + 1000000000 ≤ elNs u
    let stands := ∃ t0, (if b then u.obs.noRegionEl else u.obs.demLimEl) = some t0 ∧ t0 + 1000000000 ≤ elNs u
    s.st ≠ .off →
    (∀ v, f.lastValidTic = some v →
      (u.fusion.running = true → f.flags.valid = false → v + lim < u.fusion.tov →
        ∃ t, exec (.drLimit dt b) s = .next t ∧ faultActive t (if b then 0x0611 else 0x0610) = true ∧ rest t = rest marked) ∧
      (u.fusion.tov ≤ v + lim → Gives (.drLimit dt b) s u)) ∧
    (u.fusion.running = false ∨ f.flags.valid = true → Gives (.drLimit dt b) s u) ∧
    (lost → ∃ t, exec (.kindNotValidFault dt b) s = .next t ∧ faultActive t (if b then 0x0615 else 0x0614) = true ∧ rest t = rest u) ∧
    (¬lost → Gives (.kindNotValidFault dt b) s u) ∧
    (stands → ∃ t, exec (.controlPersistFault dt b) s = .next t ∧ faultActive t (if b then 0x0712 else 0x0711) = true ∧ rest t = rest u) ∧
    (¬stands → Gives (.controlPersistFault dt b) s u)

/-- SLACK_FAULT, EXCEED_FAULT, HOLD_SHIFT_FAULT, SOLVER_RUN_FAULT, CONSEQ_FAULT, COVER_AGE_FAULT, SHADOW_CUT_FAULT (09 R252, R262; 10 R285,
R294, Table 10-8; 11 Table 11-5; 19 R490). -/
def Obligations.AllocationAndSolverConditionsRaise : Prop :=
  ∀ (dt b : Nat) (s : State), let u := advance s dt
    let slack := ∃ t0, u.alloc.slackEl = some t0 ∧ t0 + u.cfg.img.alloc.slackFaultMs * 1000000 < elNs u
    let exceed := 20 ≤ (nth {} u.alloc.bus b).exceedRun
    let conseq := ∃ t0, u.solver.conseqEl = some t0 ∧ t0 + u.cfg.img.solver.conseqMs * 1000000 < elNs u
    let cover := onDuty u.st = true ∧ u.fusion.running = true ∧ u.cfg.img.solver.coverAgeMs ≠ 0 ∧ u.cfg.img.solver.coverAgeMs * 1000 < oldestAge u
    let cut := ∃ t0, u.chandler.shadowCutEl = some t0 ∧ t0 + 10000000000 ≤ elNs u
    s.st ≠ .off →
    (slack → ∃ t, exec (.slackFault dt) s = .next t ∧ faultActive t 0x0910 = true ∧ rest t = rest u) ∧ (¬slack → Gives (.slackFault dt) s u) ∧
    (exceed → ∃ t, exec (.exceedFault dt b) s = .next t ∧ faultActive t 0x0912 = true ∧ rest t = rest u) ∧ (¬exceed → Gives (.exceedFault dt b) s u) ∧
    (3 ≤ u.solver.holdRun → ∃ t, exec (.holdShiftFault dt) s = .next t ∧ faultActive t 0x0A10 = true ∧ rest t = rest u) ∧
    (u.solver.holdRun < 3 → Gives (.holdShiftFault dt) s u) ∧
    (20 ≤ u.solver.accRun → ∃ t, exec (.solverRunFault dt false) s = .next t ∧ faultActive t 0x0A11 = true ∧ rest t = rest u) ∧
    (u.solver.accRun < 20 → Gives (.solverRunFault dt false) s u) ∧
    (20 ≤ u.solver.epsRun → ∃ t, exec (.solverRunFault dt true) s = .next t ∧ faultActive t 0x0A15 = true ∧ rest t = rest u) ∧
    (u.solver.epsRun < 20 → Gives (.solverRunFault dt true) s u) ∧
    (conseq → ∃ t, exec (.conseqFault dt) s = .next t ∧ faultActive t 0x0A12 = true ∧ rest t = rest u) ∧ (¬conseq → Gives (.conseqFault dt) s u) ∧
    (cover → ∃ t, exec (.coverAgeFault dt) s = .next t ∧ faultActive t 0x0A13 = true ∧ rest t = rest u) ∧ (¬cover → Gives (.coverAgeFault dt) s u) ∧
    (cut → ∃ t, exec (.shadowCutFault dt) s = .next t ∧ faultActive t 0x0B12 = true ∧ rest t = rest u) ∧ (¬cut → Gives (.shadowCutFault dt) s u)

/-- SLOT_RUN_FAULT (16 R439, Table 16-6) and ANALOG_CHANNEL_FAULT (05 R141, Table 5-7). -/
def Obligations.CanAndAnalogConditionsRaise : Prop :=
  ∀ (dt c e : Nat) (s : State), let u := advance s dt
    let q := chanSt u c
    let run := (slotCfg u e).kind = 1 ∧ (slotCfg u e).ctrl = c - 1 ∧ 3 ≤ (slotMsg u e).run
    let safe := 2 ≤ (canOf u (c - 1)).safe.run
    let stood := fun (x : Option Nat) => ∃ t0, x = some t0 ∧ t0 + 1000000000 ≤ elNs u
    s.st ≠ .off → 1 ≤ c →
    (run → ∃ t, exec (.slotRunFault dt c (some e)) s = .next t ∧ faultActive t 0x1012 = true ∧ rest t = rest u) ∧
    (¬run → Gives (.slotRunFault dt c (some e)) s u) ∧
    (safe → ∃ t, exec (.slotRunFault dt c none) s = .next t ∧ faultActive t 0x1013 = true ∧ rest t = rest u) ∧
    (¬safe → Gives (.slotRunFault dt c none) s u) ∧
    (stood q.ovlEl ∨ stood q.lowEl ∨ stood q.highEl → ∃ t, exec (.analogChannelFault dt c) s = .next t ∧ rest t = rest u ∧
      (stood q.ovlEl → faultActive t 0x0510 = true) ∧ (stood q.lowEl → faultActive t 0x0511 = true) ∧ (stood q.highEl → faultActive t 0x0512 = true)) ∧
    (¬stood q.ovlEl → ¬stood q.lowEl → ¬stood q.highEl → Gives (.analogChannelFault dt c) s u)

/-- PERMIT_EXPIRY, TIME_NOT_LOCKED_FAULT, TRIG_PULSE, TRIG_PULSE_END (14 R376, R381, R383, R398; 01 Table 1-3). -/
def Obligations.TimebaseTimersAndTriggers : Prop :=
  ∀ (dt n : Nat) (s : State), let u := advance s dt
    let i := n - 1
    let tr := nth {} u.cfg.img.time.trigs i
    let per := tr.periodUs * 1000
    let x := (nowNs u - tr.phaseNs) / per * per + tr.phaseNs
    let raised := fun (at_ width : Nat) => { u with time := { u.time with
      trigHigh := upd (fun _ => true) u.time.trigHigh i, trigEndEl := upd (fun _ => elNs u + width) u.time.trigEndEl i
      trigLast := upd (fun _ => at_) u.time.trigLast i, lateFire := upd (fun _ => false) u.time.lateFire (10 + i) } }
    (∀ e, u.time.permitUntil = some e →
      (e < elNs u → Gives (.permitExpiry dt) s { u with time := { u.time with permitUntil := none } }) ∧
      (elNs u ≤ e → Gives (.permitExpiry dt) s u)) ∧
    (u.time.permitUntil = none → Gives (.permitExpiry dt) s u) ∧
    (s.st ≠ .off → u.cfg.img.time.sourcePri ≠ 2 → u.time.state ≠ .locked → u.time.notLockedEl + 10000000000 ≤ elNs u →
      ∃ t, exec (.timeNotLockedFault dt) s = .next t ∧ faultActive t 0x0E10 = true ∧ rest t = rest u) ∧
    (u.cfg.img.time.sourcePri = 2 ∨ u.time.state = .locked ∨ elNs u < u.time.notLockedEl + 10000000000 → Gives (.timeNotLockedFault dt) s u) ∧
    (u.frame.running = true → u.cfg.img.frame.tickTrig = n → 
      (nth 0 u.time.trigLast i < u.frame.tic → ∃ t, exec (.trigPulse dt n) s = .next t ∧ noPins t = noPins (raised u.frame.tic 10000)) ∧
      (u.frame.tic ≤ nth 0 u.time.trigLast i → Gives (.trigPulse dt n) s u)) ∧
    (u.frame.running = true → u.cfg.img.frame.tickTrig ≠ n → 0 < per → tr.phaseNs ≤ nowNs u →
      (nth 0 u.time.trigLast i < x → ∃ t, exec (.trigPulse dt n) s = .next t ∧ noPins t = noPins (raised x tr.widthNs)) ∧
      (x ≤ nth 0 u.time.trigLast i → Gives (.trigPulse dt n) s u)) ∧
    (u.frame.running = true → u.cfg.img.frame.tickTrig ≠ n → per = 0 ∨ nowNs u < tr.phaseNs → Gives (.trigPulse dt n) s u) ∧
    (u.frame.running = false → Gives (.trigPulse dt n) s u) ∧
    (nth false u.time.trigHigh i = true →
      (nth 0 u.time.trigEndEl i ≤ elNs u → ∃ t, exec (.trigPulseEnd dt n) s = .next t ∧
        noPins t = noPins { u with time := { u.time with trigHigh := upd (fun _ => false) u.time.trigHigh i } }) ∧
      (elNs u < nth 0 u.time.trigEndEl i → Gives (.trigPulseEnd dt n) s u)) ∧
    (nth false u.time.trigHigh i = false → Gives (.trigPulseEnd dt n) s u)

/-- TIMEBASE_STEP (01 R20; 14 R375). -/
def Obligations.TimebaseStepStretchesTheFrame : Prop :=
  ∀ (dt : Nat) (theta : Int) (s : State), let u := advance s dt
    let p := periodNs u.frame.mode
    let tb' := ((u.clk.tb : Int) + theta * 2 ^ 32).toNat
    let least := tb' / 2 ^ 32 + (u.frame.ticEl + p - elNs u)
    (u.time.stepQueued = some theta → u.frame.phase = 7 → u.frame.running = true → u.time.deferTo = none →
      ∃ t, exec (.timebaseStep dt) s = .next t ∧ t.clk.tb = tb' ∧ t.clk.slewLeft = 0 ∧ t.frame.status.stretch = true ∧
        t.time.stepQueued = none ∧ t.frame.index = u.frame.index ∧ t.frame.mode = u.frame.mode ∧
        t.frame.nextTick % p = 0 ∧ least ≤ t.frame.nextTick ∧ t.frame.nextTick < least + p) ∧
    (u.time.stepQueued = none ∨ u.frame.phase ≠ 7 ∨ u.frame.running = false ∨ u.time.deferTo ≠ none → Gives (.timebaseStep dt) s u)

/-- TIME.READ, TIME.SET, TIME.ADJUST (14 R376, R387, R390, R392 to R394). The next crystal edge: log entry 14. -/
def Obligations.TimeMailboxCommands : Prop :=
  ∀ (dt m i : Nat) (s : State) (r : Request) (q : List Request), let u := advance s dt
    let sel := byteAt r.payload 0
    let a := fld r.payload 4 4
    let b := fld r.payload 8 4
    let amt := fldI r.payload 4 8
    let c := calOfWords a b
    let valid := c.weekday = 0 ∧ c.year ≤ 99 ∧ 1 ≤ c.month ∧ c.month ≤ 12 ∧ 1 ≤ c.day ∧ c.day ≤ monthLen c.month c.year ∧ c.hour ≤ 23 ∧
      c.minute ≤ 59 ∧ c.second ≤ 59
    (Turn u m wTimeRead r q →
      (sel = 1 → 2 ≤ r.version → Answered (.timeRead dt m) s r
        (u32 0 ++ u32 0 ++ u32 (rtcStatus u) ++ u32 u.rtc.shDate ++ u32 u.rtc.shTime ++ u32 u.rtc.shSubsec ++ u32 u.rtc.stDate ++ u32 u.rtc.stTime ++
          zeros 32 ++ u.rtc.backup.flatMap u32) u) ∧
      (sel = 0 → Answered (.timeRead dt m) s r
        (u48 (nowNs u / 1000000000) ++ u16 0 ++ u32 (nowNs u % 1000000000) ++ u8 (tbCode u.time.state) ++ u8 (u.time.source.getD 0xFF) ++
          u16 (tflags u) ++ u32 (estErrNs u) ++ i32 (satS 32 u.time.theta) ++ i32 (ratePpb u) ++ i16 u.time.utcOffset ++ u8 (almArmed u) ++
          u8 (almFired u) ++ u32 (dateWord (calOf u.rtc)) ++ u32 (timeWord (calOf u.rtc)) ++ u16 (subsec u) ++ u16 0 ++ i32 (ppsInOfs u)) u) ∧
      (2 ≤ sel → Refused (.timeRead dt m) s u r { code := 0x0006, ofs := 20 })) ∧
    (Turn u m wTimeSet r q →
      (sel = 0 → valid → following u = false → ∃ t, exec (.timeSet dt m) s = .next t ∧
        Out.msg r.port r.src (respond r (u48 (edgeNs u / 1000000000) ++ u16 0 ++ u32 (edgeNs u % 1000000000)) none) ∈ t.out ∧
        calOf t.rtc = { c with weekday := (calDays c + 3) % 7 } ∧ t.rtc.subEl = nextEdge u ∧ t.rtc.calValid = true ∧
        t.rtc.osf = u.rtc.osf ∧ t.rtc.backup = u.rtc.backup ∧ t.rtc.stDate = u.rtc.stDate ∧ t.rtc.stTime = u.rtc.stTime) ∧
      (sel = 0 → valid → following u = true → Refused (.timeSet dt m) s u r { code := 0x0008, detail := stateCode u.st }) ∧
      (sel = 1 → i < 16 → a = 0x40 + 4 * i → Answered (.timeSet dt m) s r (zeros 12)
        { u with rtc := { u.rtc with backup := upd (fun _ => b % 2 ^ 32) u.rtc.backup i } }) ∧
      (sel = 1 → a = 0x0C ∨ a = 0x10 ∨ a = 0x14 ∨ a = 0x20 → Answered (.timeSet dt m) s r (zeros 12) u)) ∧
    (Turn u m wTimeAdjust r q →
      (sel = 0 → amt = 0 → u.time.stepPending = none → Answered (.timeAdjust dt m) s r (u8 1 ++ zeros 3)
        { u with time := { u.time with permitUntil := some (elNs u + 60000000000) } }) ∧
      (sel = 2 → amt.natAbs ≤ 2 ^ 40 → u.time.state = .noTime ∨ u.time.state = .free → u.st ≠ .active → u.st ≠ .tripped →
        Answered (.timeAdjust dt m) s r (u8 0 ++ zeros 3) { u with time := { u.time with stepQueued := some amt, stepFree := true } }) ∧
      (sel = 2 → amt.natAbs ≤ 2 ^ 40 → ¬((u.time.state = .noTime ∨ u.time.state = .free) ∧ u.st ≠ .active ∧ u.st ≠ .tripped) →
        Refused (.timeAdjust dt m) s u r { code := 0x0008, detail := stateCode u.st }))

/-- ALARM.SET (14 R395, R396). -/
def Obligations.AlarmSetArmsOneSlot : Prop :=
  ∀ (dt m : Nat) (s : State) (r : Request) (q : List Request), let u := advance s dt
    let i := byteAt r.payload 0
    let d := fld r.payload 4 4
    let t := fld r.payload 8 4
    let c := calOfWords d t
    let valid := c.weekday = 0 ∧ c.year ≤ 99 ∧ 1 ≤ c.month ∧ c.month ≤ 12 ∧ 1 ≤ c.day ∧ c.day ≤ monthLen c.month c.year ∧ c.hour ≤ 23 ∧
      c.minute ≤ 59 ∧ c.second ≤ 59
    let with_ := fun (x : Alarm) => { u with rtc := { u.rtc with alarms := upd (fun _ => x) u.rtc.alarms i } }
    let armed := with_ { armed := true, date := d, time := t, fired := false, skipped := false }
    let spent := with_ { nth {} u.rtc.alarms i with armed := false }
    Turn u m wAlarmSet r q → i ≤ 3 → valid →
    (byteAt r.payload 1 = 1 → calKey (calOf u.rtc) < calKey c →
      (u.rtc.calValid = true → Answered (.alarmSet dt m) s r (u8 (almArmed armed) ++ zeros 3) armed) ∧
      (u.rtc.calValid = false → Refused (.alarmSet dt m) s u r { code := 0x0008, detail := stateCode u.st })) ∧
    (byteAt r.payload 1 = 1 → calKey c ≤ calKey (calOf u.rtc) → Refused (.alarmSet dt m) s u r { code := 0x0006, ofs := 24 }) ∧
    (byteAt r.payload 1 = 0 → Answered (.alarmSet dt m) s r (u8 (almArmed spent) ++ zeros 3) spent)

/-- SNAP, COMMIT, ST_DATE, ST_TIME, STATUS, RAW_WINDOW_WRITE, RTC_FOLLOW_CHECK (14 R387, R389, R390, R391, R393, Tables 14-6 to 14-8). The edge: log entry 14. -/
def Obligations.RawWindowCommandsActAsTheirRegistersSay : Prop :=
  ∀ (dt v i : Nat) (s : State), let u := advance s dt
    let d := dateWord (calOf u.rtc)
    let t := timeWord (calOf u.rtc)
    let sec := (utcNs u + 500000000) / 1000000000
    let off := ((calNs u : Int) - utcNs u).natAbs
    (u.rtc.stageDirty = true → Gives (.snap dt) s { u with rtc := { u.rtc with shDate := d, shTime := t, shSubsec := subsec u } }) ∧
    (u.rtc.stageDirty = false → Gives (.snap dt) s { u with rtc := { u.rtc with shDate := d, shTime := t, shSubsec := subsec u, stDate := d, stTime := t } }) ∧
    (following u = false →
      Gives (.stDate dt v) s { u with rtc := { u.rtc with stDate := Nat.land v 0x077F0F1F, stageDirty := true } } ∧
      Gives (.stTime dt v) s { u with rtc := { u.rtc with stTime := Nat.land v 0x001F3F3F, stageDirty := true } } ∧
      (u.rtc.stageDirty = false → Gives (.commit dt) s u) ∧
      (u.rtc.stageDirty = true → ∃ x, exec (.commit dt) s = .next x ∧ calOf x.rtc = calOfWords u.rtc.stDate u.rtc.stTime ∧
        x.rtc.subEl = nextEdge u ∧ x.rtc.calValid = true ∧ x.rtc.stageDirty = false ∧ x.rtc.osf = u.rtc.osf ∧ x.rtc.backup = u.rtc.backup)) ∧
    (following u = true → Gives (.stDate dt v) s u ∧ Gives (.stTime dt v) s u ∧ Gives (.commit dt) s u) ∧
    (v % 2 = 1 → ∃ x, exec (.status dt v) s = .next x ∧ x.rtc = { u.rtc with osf := false } ∧ faultActive x 0x0E13 = false) ∧
    (v % 2 = 0 → Gives (.status dt v) s u) ∧
    (i < 16 → Gives (.rawWindowWrite dt (0x40 + 4 * i) v) s { u with rtc := { u.rtc with backup := upd (fun _ => v % 2 ^ 32) u.rtc.backup i } }) ∧
    (0x0C ≤ i → i < 0x18 → Gives (.rawWindowWrite dt i v) s u) ∧ (0x20 ≤ i → i < 0x40 → Gives (.rawWindowWrite dt i v) s u) ∧
    (u.cfg.img.time.rtcFollow = 1 → u.time.state = .locked → 2000000 < off → ∃ x, exec (.rtcFollowCheck dt) s = .next x ∧
      calOf x.rtc = calOfSeconds sec ∧ x.rtc.calValid = true ∧ x.rtc.osf = u.rtc.osf ∧ x.rtc.backup = u.rtc.backup ∧ x.clk = u.clk) ∧
    (u.cfg.img.time.rtcFollow ≠ 1 ∨ u.time.state ≠ .locked ∨ off ≤ 2000000 → Gives (.rtcFollowCheck dt) s u)

/-- RTC_SECOND_CARRY (14 R385), OSCILLATOR_STOP (R387), PD_BK_RESET (R386). -/
def Obligations.CalendarCountsAndCarries : Prop :=
  ∀ (dt : Nat) (s : State), let u := advance s dt
    let c := u.rtc
    (c.subEl + 1000000000 ≤ elNs u → ∃ t, exec (.rtcSecondCarry dt) s = .next t ∧ t.rtc.subEl = elNs u ∧ t.rtc.backup = c.backup ∧ t.rtc.osf = c.osf ∧
      t.rtc.calValid = c.calValid ∧
      (c.second < 59 → calOf t.rtc = { calOf c with second := c.second + 1 }) ∧
      (59 ≤ c.second → t.rtc.second = 0 ∧
        (c.minute < 59 → calOf t.rtc = { calOf c with second := 0, minute := c.minute + 1 }) ∧
        (59 ≤ c.minute → t.rtc.minute = 0 ∧
          (c.hour < 23 → calOf t.rtc = { calOf c with second := 0, minute := 0, hour := c.hour + 1 }) ∧
          (23 ≤ c.hour → t.rtc.hour = 0 ∧ t.rtc.weekday = (if 6 ≤ c.weekday then 0 else c.weekday + 1) ∧
            (c.day < monthLen c.month c.year → t.rtc.day = c.day + 1 ∧ t.rtc.month = c.month ∧ t.rtc.year = c.year) ∧
            (monthLen c.month c.year ≤ c.day → t.rtc.day = 1 ∧
              (c.month < 12 → t.rtc.month = c.month + 1 ∧ t.rtc.year = c.year) ∧
              (12 ≤ c.month → t.rtc.month = 1 ∧ t.rtc.year = (if 99 ≤ c.year then 0 else c.year + 1))))))) ∧
    (s.st ≠ .off → ∃ t, exec (.oscillatorStop dt) s = .next t ∧ t.rtc = { c with osf := true, calValid := false } ∧ faultActive t 0x0E13 = true) ∧
    (u.st = .off → ∃ t, exec (.pdBkReset dt) s = .next t ∧ calOf t.rtc = ⟨0, 1, 1, 5, 0, 0, 0⟩ ∧ t.rtc.subEl = elNs u ∧ t.rtc.osf = true ∧
      t.rtc.calValid = false ∧ t.rtc.backup = List.replicate 16 0)

/-- PTP_MESSAGE, PTP_MESSAGE_SEND, SOURCE_LOSS (14 R373, R374, R378, R380). Best master: log entry 15; the loop: log entry 4. -/
def Obligations.PtpMessagesMeasureAndAnswer : Prop :=
  ∀ (dt p ident : Nat) (origin corr li delay : Int) (s : State) (b : PtpMaster), let u := advance s dt
    let q := nth {} u.time.ports p
    let role := rolePort u p = true
    let stamp : Int := (nowNs u : Int) + (if nth false u.time.link100 p then -648 else -236)
    let asym := if p = 0 then u.cfg.img.time.asymH1Ns else u.cfg.img.time.asymH2Ns
    s.st ≠ .off →
    (s.st ≠ .selftest → role → p < u.time.ports.length → q.best = some b → b.ident = ident → u.time.source = some p → q.delayNs = some delay →
      ∃ t, exec (.ptpMessage dt p (.sync ident false origin corr li)) s = .next t ∧ t.time.theta = origin + corr + asym + delay - stamp) ∧
    (role → p < u.time.ports.length → q.best = none → ∃ t, exec (.ptpMessage dt p (.announce b.ident b.prio1 b.cls b.accuracy b.variance b.prio2 b.steps
        b.utcOffset b.utcValid)) s = .next t ∧ (nth {} t.time.ports p).best = some { b with port := p } ∧ (nth {} t.time.ports p).announceEl = elNs u) ∧
    (role → portMaster u p = true → Gives (.ptpMessage dt p (.delayReq ident)) s { u with out := [.ptpResp p ident stamp.toNat 0] }) ∧
    (∀ x, rolePort u p = false → Gives (.ptpMessage dt p x) s u) ∧ Gives (.ptpMessage dt p .other) s u ∧
    (portMaster u p = true → Gives (.ptpMessageSend dt p .sync) s { u with out := [.ptp p .sync (clockClassOut u)] } ∧
      Gives (.ptpMessageSend dt p .announce) s { u with out := [.ptp p .announce (clockClassOut u)] }) ∧
    (portMaster u p = false → Gives (.ptpMessageSend dt p .sync) s u ∧ Gives (.ptpMessageSend dt p .announce) s u) ∧
    (p < 2 → u.time.ports.length = 2 → u.time.source = some p → u.time.state = .locked → ptpLost u p = true → u.time.gnssUsable = false →
      bestPort { u with time := { u.time with ports := upd (fun _ => {}) u.time.ports p } } = none → onDuty u.st = false →
      ∃ t, exec (.sourceLoss dt (some p) false) s = .next t ∧ t.time.state = .holdover ∧ t.time.source = none ∧ t.clk.slewLeft = 0)

/-- LEDGER_RECORD_WRITE, OPERATING_SECONDS_SAVE, LEDGER.WINDOW, LEDGER.READ (20 R514 to R516, R521, R522). -/
def Obligations.LedgerWritesReadsAndCounts : Prop :=
  ∀ (dt m : Nat) (s : State) (e n : Rec) (rest_ old : List Rec) (r : Request) (q : List Request), let u := advance s dt
    let anchor := byteAt r.payload 0
    let from_ := fld r.payload 4 4
    let span := fld r.payload 8 4
    let count := byteAt r.payload 0
    let first := if anchor = 0 then from_ else if anchor = 1 then oldestSeq u else toWord 32 ((newestSeq u : Int) - span + 1)
    let last := toWord 32 ((first : Int) + span - 1)
    (s.st ≠ .off → u.ledger.queue = e :: rest_ → u.ledger.lostSince = 0 →
      (u.ledger.recs = n :: old → mergeable n e = true → ∃ t, exec (.ledgerRecordWrite dt false) s = .next t ∧ t.ledger.queue = rest_ ∧
        t.ledger.next = u.ledger.next ∧ t.ledger.recs = { n with repeats := n.repeats + 1, lastS := lastSeconds n e } :: old) ∧
      (u.ledger.recs = [] ∨ (u.ledger.recs = n :: old ∧ mergeable n e = false) → ∃ t, exec (.ledgerRecordWrite dt false) s = .next t ∧
        t.ledger.queue = rest_ ∧ t.ledger.next = (u.ledger.next + e.size) % 2 ^ 32 ∧ t.ledger.recs.head? = some { e with seq := u.ledger.next })) ∧
    (u.ledger.queue = [] → Gives (.ledgerRecordWrite dt false) s u) ∧
    (u.ledger.counting = true → u.ledger.opS % 10 = 0 → ∃ t, exec (.operatingSecondsSave dt) s = .next t ∧
      noPins t = noPins { u with ledger := { u.ledger with savedOp := u.ledger.opS } }) ∧
    (u.ledger.counting = false ∨ u.ledger.opS % 10 ≠ 0 → Gives (.operatingSecondsSave dt) s u) ∧
    (Turn u m wLedgerWindow r q → r.mbox = m → anchor ≤ 2 → 1 ≤ span → span ≤ 1048576 →
      (anchor ≠ 0 → from_ = 0) → (anchor = 0 → seqDiff from_ u.ledger.next ≤ 0) →
      ∃ t, exec (.ledgerWindow dt m) s = .next t ∧ quiet t = quiet u ∧
        Out.msg r.port r.src (respond r (u32 first ++ u32 last ++ u32 (oldestSeq u) ++ u32 (newestSeq u) ++ u32 u.ledger.boot ++
          u32 u.ledger.lost) none) ∈ t.out ∧
        (boxOf t m).window = some { first := first, last := last, cursor := first }) ∧
    (Turn u m wLedgerRead r q → r.mbox = m → (boxOf u m).window = none → Refused (.ledgerRead dt m []) s u r { code := 0x0006 }) ∧
    (∀ w, Turn u m wLedgerRead r q → r.mbox = m → (boxOf u m).window = some w → 1 ≤ count → count ≤ 40 →
      let c := if 0 < seqDiff (oldestSeq u) w.cursor then oldestSeq u else w.cursor
      let avail := (seqDiff (newestSeq u) c + 1).toNat
      let left := (seqDiff w.last c + 1).toNat
      let k := Nat.min count (Nat.min avail left)
      let c' := (c + k) % 2 ^ 32
      let flags := maskOf [decide (avail < count) && decide (avail < left), decide (0 < seqDiff (oldestSeq u) w.cursor), decide (0 < seqDiff c' w.last)]
      ∃ t, exec (.ledgerRead dt m []) s = .next t ∧ quiet t = quiet u ∧ (boxOf t m).window = some { w with cursor := c' } ∧
        Out.msg r.port r.src (respond r (u8 k ++ u8 flags ++ u16 0 ++ u32 (oldestSeq u) ++ u32 (newestSeq u) ++ u32 c' ++
          (List.range k).flatMap (fun i => recordAt u [] ((c + i) % 2 ^ 32))) none) ∈ t.out)

/-- SENTENCE_RECEIVE, SERIAL_UNLOCK (04 R107 to R109, R119, R543, Table 4-3; 03 R102). Intake only on duty: log entry 16. -/
def Obligations.SentencesCommitOrAreCounted : Prop :=
  ∀ (dt p baud q : Nat) (w : Int) (chars m : Bytes) (ending : MsgEnd) (e : Image.Entry) (x : Sentence) (s : State), let u := advance s dt
    let pt := nth {} u.intake.ports p
    let msg := Instr.sentenceReceive dt p baud chars ending
    let whole := messagesOf chars none = ([(m, true)], none)
    let rateOk := pt.baud = 0 ∨ pt.baud = baud
    let put := fun (f : Counters → Counters) => { u with intake := { u.intake with
      ports := upd (fun y => { y with cnt := f { y.cnt with rx := Nat.min 0xFFFFFFFF (y.cnt.rx + 1) } }) u.intake.ports p } }
    (onDuty u.st = false ∨ (∀ y ∈ chars, y ≠ 0x24 ∧ y ≠ 0x21) → Gives msg s u) ∧
    (onDuty u.st = true →
      (messagesOf chars none = ([], some m) ∨ messagesOf chars none = ([(m, false)], none) ∨ (whole ∧ (¬rateOk ∨ parseSentence m = none)) →
        Gives msg s (put (fun y => { y with malformed := Nat.min 0xFFFFFFFF (y.malformed + 1) }))) ∧
      (whole → rateOk → parseSentence m = some x → x.hasCk = true → x.ckOk = false →
        Gives msg s (put (fun y => { y with cksumFail := Nat.min 0xFFFFFFFF (y.cksumFail + 1) }))) ∧
      (whole → rateOk → parseSentence m = some x → x.hasCk = true → x.ckOk = true → p < u.intake.ports.length →
        (serialEntries u p x = [e] → fate u.cfg.img.map (sentenceRaw x) e = .commit w q → ∃ t, exec msg s = .next t ∧
          Table.get {} t.store e.dest = (let o := Table.get {} u.store e.dest
            if o.live = true ∧ nowNs u < o.stamp then o else { value := w, stamp := nowNs u, quality := q, seq := (o.seq + 1) % 256, live := true }) ∧
          (∀ d, d ≠ e.dest → Table.get {} t.store d = Table.get {} u.store d) ∧
          (nth {} t.intake.ports p).baud = baud ∧ (nth {} t.intake.ports p).goodEl = elNs u) ∧
        (serialEntries u p x = [] → ∃ t, exec msg s = .next t ∧ t.store = u.store ∧ (nth {} t.intake.ports p).baud = baud ∧
          (nth {} t.intake.ports p).cnt.unmatched = Nat.min 0xFFFFFFFF (pt.cnt.unmatched + 1)))) ∧
    (s.st ≠ .off → pt.baud ≠ 0 → pt.goodEl + 2000000000 ≤ elNs u → GivesRest (.serialUnlock dt p) s { u with intake := { u.intake with
      ports := upd (fun y => { y with baud := 0, unlockEl := elNs u }) u.intake.ports p } }) ∧
    (s.st = .off ∨ pt.baud = 0 ∨ elNs u < pt.goodEl + 2000000000 → Gives (.serialUnlock dt p) s u)

/-- DATAGRAM_450_RECEIVE, UDP_BINARY_RECEIVE (04 R110, R114, R125, R126; stamps 14 Table 14-4). `serviceNs` is at most 50 µs and otherwise
free, log entry 4. -/
def Obligations.DatagramsWaitInTheirQueue : Prop :=
  serviceNs ≤ 50000 ∧
  ∀ (dt p : Nat) (dst : IpDst) (src : Src) (data : Bytes) (s : State), let u := advance s dt
    let w := (nth {} u.intake.ports p).waiting
    let stamp := ((nowNs u : Int) + (if nth false u.time.link100 (p - 9) then -648 else -236)).toNat
    let lines := if data.take 6 = head450 then (lines450 (data.drop 6)).length else 1
    let served := fun (last : Nat) => Nat.min (Nat.max (elNs u) last + serviceNs) (elNs u + 100000)
    let nmea := fun (last : Nat) => ({ kind := .nmea, stamp := stamp, arrEl := elNs u, doneEl := served last, data := data } : Pend)
    let udp := fun (last : Nat) => ({ kind := .udp, key := dst.port, stamp := stamp, arrEl := elNs u, doneEl := served last, data := data } : Pend)
    let put := fun (l : List Pend) (n drops : Nat) => { u with intake := { u.intake with ports := upd (fun y => { y with
      waiting := l
      cnt := { y.cnt with rx := Nat.min 0xFFFFFFFF (y.cnt.rx + n)
                          floodDrops := if drops = 0 then y.cnt.floodDrops else Nat.min 0xFFFFFFFF (y.cnt.floodDrops + 1) } }) u.intake.ports p } }
    let mine := notIntake dst.port = false ∧ dst.fragment = false
    (p = 9 ∨ p = 10) → (∀ i ∈ queuePorts, servedOf u i = []) →
    (onDuty u.st = true → w = [] →
      (accepts450 u p dst = true → Gives (.datagram450Receive dt p ⟨dst, data⟩) s (put [nmea 0] lines 0)) ∧
      (mine → Gives (.udpBinaryReceive dt p dst src data) s (put [udp 0] 1 0))) ∧
    (∀ l, onDuty u.st = true → w.length = 256 → w.getLast? = some l →
      (accepts450 u p dst = true → Gives (.datagram450Receive dt p ⟨dst, data⟩) s (put (w.drop 1 ++ [nmea l.doneEl]) lines 1)) ∧
      (mine → Gives (.udpBinaryReceive dt p dst src data) s (put (w.drop 1 ++ [udp l.doneEl]) 1 1))) ∧
    (onDuty u.st = false ∨ accepts450 u p dst = false → Gives (.datagram450Receive dt p ⟨dst, data⟩) s u) ∧
    (dst.fragment = true → accepts450 u p dst = false) ∧
    (onDuty u.st = false ∨ ¬mine → Gives (.udpBinaryReceive dt p dst src data) s u)

/-- CAN_FRAME_RECEIVE (04 R115, R119, R125; 16 R419, R423, R424, R435, R438). -/
def Obligations.CanFramesReachTheirEntry : Prop :=
  ∀ (dt c id q : Nat) (w : Int) (remote : Bool) (data : Bytes) (e : Image.Entry) (d : Pend) (s : State), let u := advance s dt
    let k := c - 1
    let rxOk := Nat.min 0xFFFFFFFF ((canOf u k).cnt.rxOk + 1)
    let frame := Instr.canFrameReceive dt c id false data
    let item : Pend := { kind := .can, key := id, stamp := nowNs u, arrEl := elNs u, doneEl := elNs u + serviceNs, data := data }
    (canLive u k = false → Gives (.canFrameReceive dt c id remote data) s u) ∧
    (canLive u k = true → k < u.can.length → 11 + k < u.intake.ports.length → (canOf u k).rec_ ≤ 127 → (canOf u k).st = .active → (canOf u k).tec ≤ 127 →
      (onDuty u.st = true → (∀ i ∈ queuePorts, servedOf u i = []) → (nth {} u.intake.ports (11 + k)).waiting = [] → rxConn u k id = none →
        ∃ t, exec frame s = .next t ∧ (canOf t k).cnt.rxOk = rxOk ∧ (canOf t k).rec_ = (canOf u k).rec_ - 1 ∧ t.store = u.store ∧
          (nth {} t.intake.ports (11 + k)).waiting = (if filterPass (ctrlCfg u k) id then [item] else [])) ∧
      (onDuty u.st = false ∨ remote = true → ∃ t, exec (.canFrameReceive dt c id remote data) s = .next t ∧ (canOf t k).cnt.rxOk = rxOk ∧
        (canOf t k).rec_ = (canOf u k).rec_ - 1 ∧ t.store = u.store ∧ t.intake = u.intake)) ∧
    (onDuty s.st = true → k < 4 → servedOf s (11 + k) = [(11 + k, d)] → (∀ i ∈ queuePorts, i ≠ 11 + k → servedOf s i = []) → d.kind = .can →
      canEntries s k d.key = [e] → fate s.cfg.img.map (payloadRaw d.data) e = .commit w q →
      Table.get {} (serveIntake s).store e.dest = (let o := Table.get {} s.store e.dest
        if o.live = true ∧ d.stamp < o.stamp then o else { value := w, stamp := d.stamp, quality := q, seq := (o.seq + 1) % 256, live := true }) ∧
      ∀ j, j ≠ e.dest → Table.get {} (serveIntake s).store j = Table.get {} s.store j)

/-- CAPTURE_EDGE (14 R382; 18 R474), INTAKE_COUNTER_SECOND (04 R126, R127). `captureNs`: log entry 4. -/
def Obligations.CapturesAndCountersOfIntake : Prop :=
  captureNs ≤ 100000 ∧
  ∀ (dt n : Nat) (rising : Bool) (s : State), let u := advance s dt
    let l := nth [] u.time.captures n
    let stamp := if n = 0 then nowNs u else nowNs u - 1600
    let waiting := ∀ x ∈ l, elNs u < x.2
    s.st ≠ .off →
    (waiting → capTakes u n rising = true → l.length < 8 → n < u.time.captures.length → ∃ t, exec (.captureEdge dt n rising) s = .next t ∧
      nth [] t.time.captures n = l ++ [(stamp, elNs u + captureNs)] ∧ t.time.capDrops = u.time.capDrops ∧
      (n = 0 → t.time.ppsInOfs = some (secondOfs (nowNs u), elNs u)) ∧ t.store = u.store) ∧
    (waiting → capTakes u n rising = true → l.length = 8 → ∃ t, exec (.captureEdge dt n rising) s = .next t ∧ nth [] t.time.captures n = l ∧
      t.time.capDrops = Nat.min 0xFFFFFFFF (u.time.capDrops + 1) ∧ faultActive t 0x0E14 = true) ∧
    (waiting → capTakes u n rising = false → Gives (.captureEdge dt n rising) s u) ∧
    ((∀ p ∈ u.intake.ports, p.waiting = []) → GivesRest (.intakeCounterSecond dt) s { u with intake := { u.intake with
      ports := u.intake.ports.map (fun p => { p with
        last := p.cnt
        rateBad := decide (10 ≤ p.cnt.rx - p.last.rx) && decide (p.cnt.rx - p.last.rx < 10 * ((p.cnt.malformed - p.last.malformed) + (p.cnt.cksumFail - p.last.cksumFail))) }) } })

/-- GROUP_START, ANALOG_SAMPLE, MODULATOR_OVERLOAD, MODULATOR_RESTART (05 R130, R137 to R140). Gains, offsets and taps of the chain, and the
time to the commit, are free: log entry 4. -/
def Obligations.AnalogGroupsStartAndDeliver : Prop :=
  (2000 ≤ analogCommitNs ∧ analogCommitNs ≤ 20000) ∧
  ∀ (dt g c t0 : Nat) (mods : List Bool) (input : Int) (s : State), let u := advance s dt
    let b := anaGroup u g
    let k := (respLen b + 64 * 2 ^ b.stages - 1) / (64 * 2 ^ b.stages)
    let h := groupOf c
    let bc := anaGroup u h
    let kc := (respLen bc + 64 * 2 ^ bc.stages - 1) / (64 * 2 ^ bc.stages)
    let cb := anaChan u c
    let q := chanSt u c
    let x0 := nativeValue c cb (if q.n = 0 then 0 else (chainRun bc (mods.take (64 * 2 ^ bc.stages)) q).1) u.nFree
    let masked := q.ovl || decide (x0 < (bandOf cb.range).1) || decide ((bandOf cb.range).2 < x0)
    let ql := if masked then 3 else if 0 < q.left then 1 else 0
    let due := u.analog.powered = true ∧ (groupSt u h).running = true ∧ cb.enable = 1 ∧ groupHeld u h = false ∧
      96 * (groupSt u h).startEl + q.n * (64 * 2 ^ bc.stages) * 15625 ≤ 96 * elNs u
    let smp : AnaSample := { v := delivered cb.range q.ovl q.ovlHigh x0, stamp := nowNs u - groupDelayNs bc, quality := ql, doneEl := elNs u + analogCommitNs }
    let beyond_ := cb.inputSel = 0 ∧ (input < (spanOf cb.range).1 ∨ (spanOf cb.range).2 < input)
    let cycles := 96 * q.resetEl + 1000000 ≤ 96 * elNs u
    (1 ≤ g → g ≤ 4 → u.analog.groups.length = 4 → u.analog.chans.length = 16 → (groupSt u g).startAt = some t0 → u.analog.powered = true →
      (t0 ≤ nowNs u → ∃ t, exec (.groupStart dt g) s = .next t ∧ groupSt t g = { running := true, startEl := elNs u } ∧
        ∀ i ∈ [4 * g - 3, 4 * g - 2, 4 * g - 1, 4 * g], chanSt t i = { left := k }) ∧
      (nowNs u < t0 → Gives (.groupStart dt g) s u)) ∧
    (1 ≤ c → c ≤ 16 → u.analog.groups.length = 4 → u.analog.chans.length = 16 → due → q.waiting = [] → ∃ t, exec (.analogSample dt c mods) s = .next t ∧
      (chanSt t c).n = q.n + 1 ∧ (chanSt t c).ovl = false ∧ (chanSt t c).left = (if masked then kc else q.left - 1) ∧
      (groupSt t h).firstValid = ((groupSt u h).firstValid || (!masked && q.left == 0)) ∧ t.store = u.store ∧
      (cb.dcbEn = 0 → (chanSt t c).waiting = [smp])) ∧
    (¬due → Gives (.analogSample dt c mods) s u) ∧
    (u.analog.powered = true → cb.enable = 1 → beyond_ → q.inReset = false → Gives (.modulatorOverload dt ⟨c, input⟩) s { u with analog := { u.analog with
      chans := upd (fun y => { y with ovl := true, ovlHigh := decide (0 < input), inReset := true, resetEl := elNs u
                                      ovlEl := some (y.ovlEl.getD (elNs u)) }) u.analog.chans (c - 1) } }) ∧
    (u.analog.powered = false ∨ cb.enable ≠ 1 ∨ ¬beyond_ ∨ q.inReset = true → Gives (.modulatorOverload dt ⟨c, input⟩) s u) ∧
    (q.inReset = true → cycles → GivesRest (.modulatorRestart dt c) s { u with analog := { u.analog with
      chans := upd (fun y => { y with inReset := false }) u.analog.chans (c - 1) } }) ∧
    (q.inReset = false ∨ ¬cycles → Gives (.modulatorRestart dt c) s u)

/-- GNSS_MEASUREMENT_EPOCH, NAVIGATION_WORD, NAV_SOLUTION_COMPLETE (15 R403, R405 to R407). Parity: log entry 18. -/
def Obligations.ReceiverCommitsMeasurementsAndGrades : Prop :=
  ∀ (dt : Nat) (m : ChanMeas) (w : NavWord) (x : NavSol) (e : Image.Entry) (s : State), let u := advance s dt
    let ep := epochInstant u
    let o := Table.get {} u.store e.dest
    let put := fun (v : Int) (stamp : Nat) => if o.live = true ∧ stamp < o.stamp then o else
      ({ value := v, stamp := stamp, quality := 0, seq := (o.seq + 1) % 256, live := true } : Slot)
    let star := nth (0, 0) u.gnss.lastWord w.chan
    let works := u.gnss.powered = true ∧ gnssHeld u = false
    let known := u.gnss.ret.pos.isSome
    let limit := u.cfg.img.gnss.pdopMax
    (u.gnss.epoch < ep → works → u.gnss.regime = .continuous → nativeEntries u 8 m.chan = [e] →
      byteAt e.mtch 0 = 0 → e.rangeEn = false → e.srcqEn = false → m.codeLock = true → m.masked = false → 1 ≤ m.prn → m.prn ≤ 32 →
      ∃ t, exec (.gnssMeasurementEpoch dt [m]) s = .next t ∧ t.gnss.epoch = ep ∧
        Table.get {} t.store e.dest = put (scale e (Frac.ofInt m.pseudorangeMm)) ep ∧ ∀ d, d ≠ e.dest → Table.get {} t.store d = Table.get {} u.store d) ∧
    (ep ≤ u.gnss.epoch ∨ ¬works → Gives (.gnssMeasurementEpoch dt [m]) s u) ∧
    (works → u.gnss.regime ≠ .burst → nativeEntries u 8 w.chan = [e] → byteAt e.mtch 0 = 4 → e.rangeEn = false → e.srcqEn = false →
      ∃ t, exec (.navigationWord dt w) s = .next t ∧ Table.get {} t.store e.dest = put (scale e (Frac.ofInt (wordValue w star).1)) (nowNs u) ∧
        (w.first = true → t.gnss.ret = u.gnss.ret) ∧ ∀ d, d ≠ e.dest → Table.get {} t.store d = Table.get {} u.store d) ∧
    (¬works ∨ u.gnss.regime = .burst → Gives (.navigationWord dt w) s u) ∧
    (works →
      (4 ≤ x.sats → x.pdop ≤ limit → ∃ t, exec (.navSolutionComplete dt x) s = .next t ∧ t.gnss.grade = 2 ∧ t.gnss.sol = some x ∧
        t.time.gnssUsable = true ∧ t.gnss.fullEl = elNs u) ∧
      ((4 ≤ x.sats ∧ limit < x.pdop) ∨ (x.sats = 3 ∧ known = true) → ∃ t, exec (.navSolutionComplete dt x) s = .next t ∧ t.gnss.grade = 1 ∧
        t.gnss.sol = some x ∧ t.time = u.time ∧ t.clk = u.clk) ∧
      (x.sats < 3 ∨ (x.sats = 3 ∧ known = false) → ∃ t, exec (.navSolutionComplete dt x) s = .next t ∧ t.gnss.grade = 0 ∧ t.gnss.sol = u.gnss.sol ∧
        t.time = u.time ∧ t.clk = u.clk)) ∧
    (¬works → Gives (.navSolutionComplete dt x) s u)

/-- GNSS_BURST, GNSS_SLEEP, GNSS_WAKE, ANTENNA_OPEN, ANTENNA_SHORT, BIAS_RETRY, NO_FULL_SOLUTION_FAULT (15 R401, R410, R411, R418). -/
def Obligations.ReceiverSleepsWakesAndGuardsItsAntenna : Prop :=
  ∀ (dt : Nat) (b : Bool) (s : State), let u := advance s dt
    let g := u.gnss
    let bursts := g.regime = .burst ∧ g.powered = true ∧ gnssHeld u = false ∧ g.burst = false
    let sleeps := g.regime = .longSleep ∧ g.powered = true ∧ atSecond u = true ∧ (g.wakeEl + u.cfg.img.gnss.wakeMaxS * 1000000000 ≤ elNs u ∨
      (b = true ∧ ∃ f, g.fullSince = some f ∧ f + u.cfg.img.gnss.awakeS * 1000000000 ≤ elNs u))
    let wakes := g.asleep = true ∧ atSecond u = true ∧ g.sleepEl + u.cfg.img.gnss.sleepMin * 60000000000 ≤ elNs u
    let retries := (g.powered = true ∨ g.asleep = true) ∧ ∃ t0, g.shortEl = some t0 ∧ t0 + 10000000000 ≤ elNs u
    let overdue := g.powered = true ∧ g.grade ≠ 2 ∧ g.wakeEl + 60000000000 ≤ elNs u ∧ g.fullEl + 60000000000 ≤ elNs u
    (bursts → Gives (.gnssBurst dt) s { u with gnss := { g with burst := true, slip := g.slip.map (fun n => (n + 1) % 256) } }) ∧
    (¬bursts → Gives (.gnssBurst dt) s u) ∧
    (sleeps → ∃ t, exec (.gnssSleep dt b) s = .next t ∧ t.gnss.asleep = true ∧ t.gnss.powered = false ∧ t.gnss.sleepEl = elNs u ∧
      t.gnss.saved = g.ret ∧ t.gnss.ret = g.ret) ∧
    (¬sleeps → Gives (.gnssSleep dt b) s u) ∧
    (wakes → ∃ t, exec (.gnssWake dt) s = .next t ∧ t.gnss.powered = true ∧ t.gnss.asleep = false ∧ t.gnss.wakeEl = elNs u ∧ t.gnss.ret = g.ret) ∧
    (¬wakes → Gives (.gnssWake dt) s u) ∧
    (s.st ≠ .off → g.bias = true → (∃ t, exec (.antennaOpen dt) s = .next t ∧ faultActive t 0x0F10 = true ∧ rest t = rest u) ∧
      ∃ t, exec (.antennaShort dt) s = .next t ∧ t.gnss.bias = false ∧ t.gnss.shortEl = some (elNs u) ∧
        faultActive t 0x0F11 = true ∧ faultActive t 0x0F10 = false) ∧
    (g.bias = false → Gives (.antennaOpen dt) s u ∧ Gives (.antennaShort dt) s u) ∧
    (s.st ≠ .off → retries → ∃ t, exec (.biasRetry dt) s = .next t ∧ t.gnss.bias = true ∧ t.gnss.shortEl = none ∧ faultActive t 0x0F11 = false) ∧
    (¬retries → Gives (.biasRetry dt) s u) ∧
    (s.st ≠ .off → overdue → ∃ t, exec (.noFullSolutionFault dt) s = .next t ∧ faultActive t 0x0F13 = true ∧ rest t = rest u) ∧
    (¬overdue → Gives (.noFullSolutionFault dt) s u)

/-- PPS_OUT_PULSE, PPS_OUT_PULSE_END (15 R413, R415). -/
def Obligations.PpsOutPulsesOncePerSecond : Prop :=
  ∀ (dt : Nat) (s : State), let u := advance s dt
    let g := u.gnss
    let since := fun (ns : Nat) => ∀ t0, g.ppsEl = some t0 → t0 + ns ≤ elNs u
    let comes := u.frame.running = true ∧ hasTime u = true ∧ (atSecond u = true ∨ nth false u.time.lateFire 14 = true) ∧ since 1000
    let ends := g.ppsHigh = true ∧ ∃ t0, g.ppsEl = some t0 ∧ t0 + u.cfg.img.gnss.ppsWidthMs * 1000000 ≤ elNs u
    (comes → since 500000000 → ∃ t, exec (.ppsOutPulse dt) s = .next t ∧ t.gnss.ppsHigh = true ∧ (u.time.deferAddend = none → noPins t = noPins { u with
      gnss := { g with ppsHigh := true, ppsEl := some (elNs u) }
      time := { u.time with lateFire := upd (fun _ => false) u.time.lateFire 14, deferTo := none } })) ∧
    (comes → ¬since 500000000 → GivesRest (.ppsOutPulse dt) s { u with gnss := { g with msgSkip := true } }) ∧
    (¬comes → Gives (.ppsOutPulse dt) s u) ∧
    (u.time.state = .noTime → ¬comes) ∧
    (ends → Gives (.ppsOutPulseEnd dt) s { u with gnss := { g with ppsHigh := false } }) ∧
    (¬ends → Gives (.ppsOutPulseEnd dt) s u)

/-- SKEW_RELEARN, AWAIT_TIMEOUT (06 R172, R180), BLEND_END (07 R208), MOVE_AT_REST, PUSH_RAMP_END (08 R216, R223, R231; when in P2: log
entry 25). -/
def Obligations.StagesEndWhatHasRunOut : Prop :=
  ∀ (dt i tgt n : Nat) (m : Move) (tg : Target) (s : State), let u := advance s dt
    let f := nth {} u.fusion.refs i
    let te := u.frame.nextTick
    let p := u.sp.push
    let relearn := u.fusion.running = true ∧ i < u.fusion.refs.length ∧ f.skew = true ∧ f.skewEl + 60000000000 ≤ elNs u
    let waited := f.awaiting = true ∧ f.awaitUntil ≤ nowNs u
    let blended := u.obs.tov ≤ u.frame.tic ∧ ∃ g j, u.obs.blend = some (g, j) ∧ u.cfg.img.gains.blendFrames ≤ j
    let p2 := u.frame.phase = 2 ∧ (u.st = .active ∨ u.st = .tripped) ∧ u.fusion.running = true ∧ u.obs.steps < 4
    let resting := p2 ∧ ∃ x, u.sp.move = some x ∧ restAt x te = true
    let ramped := p2 ∧ p.ramping = true ∧ p.t1 ≤ te
    let onTarget := fun (t : State) => (m.trans.kind = 1 → t.sp.n = m.tgtN * 65536 ∧ t.sp.e = m.tgtE * 65536) ∧ (m.head.kind = 1 → t.sp.psi = m.tgtHdg)
    let next := planMove u (moveAt m te u.nFree).1 (moveAt m te u.nFree).2.1 (moveAt m te u.nFree).2.2.1 tg te
    (relearn → GivesRest (.skewRelearn dt i) s { u with fusion := { u.fusion with
        refs := upd (fun x => { x with sRef := none, learn := 0, learnMin := 0, skew := false, skewGood := 0 }) u.fusion.refs i } }) ∧
    (¬relearn → Gives (.skewRelearn dt i) s u) ∧
    (waited → Gives (.awaitTimeout dt i) s { u with fusion := { u.fusion with refs := upd (fun x => { x with awaiting := false }) u.fusion.refs i } }) ∧
    (¬waited → Gives (.awaitTimeout dt i) s u) ∧
    (blended → u.obs.blend = some (tgt, n) → Gives (.blendEnd dt) s { u with obs := { u.obs with region := tgt, blend := none } }) ∧
    (¬blended → Gives (.blendEnd dt) s u) ∧
    (resting → u.obs.steps = 3 → u.sp.move = some m →
      (u.sp.pending = none → ∃ t, exec (.moveAtRest dt) s = .next t ∧ t.sp.move = none ∧ t.sp.pending = none ∧ onTarget t ∧ t.sp.push = p ∧ t.obs = u.obs) ∧
      (u.sp.pending = some tg → ∃ t, exec (.moveAtRest dt) s = .next t ∧ t.sp.pending = none ∧ onTarget t ∧
        t.sp.move = (if next.absent then none else some next))) ∧
    (¬resting → Gives (.moveAtRest dt) s u) ∧
    (ramped → u.obs.steps = 3 → ∃ t, exec (.pushRampEnd dt) s = .next t ∧ t.sp.move = u.sp.move ∧ t.obs = u.obs ∧
      (p.release = true → t.sp.push.inForce = false ∧ t.sp.push.free = [false, false, false]) ∧
      (p.release = false → t.sp.push.inForce = p.inForce ∧ t.sp.push.ramping = false ∧ t.sp.push.to_ = p.to_ ∧
        t.sp.push.free = List.zipWith (fun x y => x && !y) p.free p.clearing)) ∧
    (¬ramped → Gives (.pushRampEnd dt) s u)

/-- SOLVE_COMPLETE (10 R270, R281, R282). Directions, scalings and the cold λ are free: log entries 4 and 28. -/
def Obligations.SolveCompleteTakesTheResult : Prop :=
  ∀ (dt us : Nat) (a : Arr) (v : Solve) (s : State), let u := advance s dt
    let cfg := u.cfg.img.solver
    (u.frame.phase = 4 → onArr u a = some v → v.prob.group = none → u.solver.primary = none → u.solver.queue = [] →
      ∃ t, exec (.solveComplete dt a us) s = .next t ∧ onArr t a = none ∧ t.solver.primResult ≤ 2 ∧
        (t.solver.primResult = 0 → t.solver.primSol.isSome = true ∧ t.solver.primResid ≤ cfg.tolPrimary) ∧
        (t.solver.primResult = 1 → t.solver.primSol.isSome = true ∧ t.solver.primResid ≤ cfg.tolAccept) ∧
        (t.solver.primResult = 2 → t.solver.primSol = none ∧ t.solver.primResid = 0xFFFFFFFF) ∧
        v.iters ≤ t.solver.primIters ∧ t.solver.primIters ≤ Nat.max v.iters cfg.iterCap ∧
        (v.cur.resid ≤ cfg.tolPrimary → t.solver.primResult = 0 ∧ t.solver.primIters = v.iters ∧ t.solver.primResid = v.cur.resid) ∧
        t.solver.shadows = u.solver.shadows ∧ t.alloc = u.alloc ∧ t.frame.phase = 4) ∧
    (u.frame.phase ≠ 4 ∨ onArr u a = none → Gives (.solveComplete dt a us) s u)

/-- BEAT_RECEIVE, CHECKPOINT_FRAGMENT, RAFOGER_FORWARD, RAFOGER_DROP_SECOND, PATH_DOWN (12 R321 to R325, R333, R342; log entries 7, 30). -/
def Obligations.RafogerMessagesAreTakenRelayedOrCounted : Prop :=
  ∀ (dt p ety x a b k : Nat) (ok dn : Bool) (m : Bytes) (s : State), let u := advance s dt
    let beat := Instr.beatReceive dt p ⟨ety, m⟩
    let part := Instr.checkpointFragment dt p ⟨ety, m⟩
    let valid := ety = 0x88B5 ∧ rafValid u m = true
    let bt := beatOf u m
    let f := countedFrame u (fld m 8 8)
    let n := fld m 26 2
    let mine := (byteAt m 4).testBit (u.lock.slot - 1)
    let same := fun (y : Assembly) => y.frame = f ∧ y.count = n ∧ y.src = byteAt m 2
    let joins := fun (q : Assembly) => (∃ y, u.lock.asm = some y ∧ same y ∧ q = y) ∨
      ((∀ y, u.lock.asm = some y → ¬same y ∧ y.frame ≤ f) ∧ q = { src := byteAt m 2, frame := f, count := n })
    let parts := fun (q : Assembly) => Table.set q.parts (fld m 24 2) (slice m 32 (fld m 6 2 - 8))
    let dropped := { u with lock := { u.lock with drops := upd (fun c => Nat.min 0xFFFFFFFF (c + 1)) u.lock.drops (p % 2) } }
    let others := Nat.land (byteAt m 4) (if u.lock.slot = 0 then 7 else 7 - 2 ^ (u.lock.slot - 1))
    let body := m.take 3 ++ u8 1 ++ (m.take (m.length - 4)).drop 4
    let good := decide (crc32 (m.take (m.length - 4)) = fld m (m.length - 4) 4)
    let relays := u.st ≠ .off ∧ 28 ≤ m.length ∧ byteAt m 3 = 0 ∧ others ≠ 0
    let pt := if p % 2 = 0 then (peerOf u x).pathL1 else (peerOf u x).pathL2
    (rafTakes u = false → Gives beat s u ∧ Gives part s u ∧ Gives (.rafogerDropSecond dt) s u) ∧
    (rafTakes u = true → ¬valid → Gives beat s dropped ∧ Gives part s dropped) ∧
    (rafTakes u = true → valid → (byteAt m 1 ≠ 1 ∨ mine = false → Gives beat s u) ∧ (byteAt m 1 ≠ 2 ∨ mine = false → Gives part s u)) ∧
    (rafTakes u = true → valid → byteAt m 1 = 1 → mine = true → byteAt m 2 < u.lock.peers.length → ∃ t, exec beat s = .next t ∧
      (peerOf t (byteAt m 2)).last = some bt ∧ (peerOf t (byteAt m 2)).heard = true ∧
      (if p % 2 = 0 then (peerOf t (byteAt m 2)).pathL1 else (peerOf t (byteAt m 2)).pathL2) = some (frameIndex u) ∧
      (inStepBeat u bt = true → bt.held = true ∨ bt.claim = true ∨ bt.release = true → t.lock.renewal = some bt ∧ t.lock.laterClaim = false) ∧
      (inStepBeat u bt = false → t.lock.frameSlip = true ∧ t.lock.renewal = u.lock.renewal ∧ faultActive t 0x0C17 = true)) ∧
    (u.st = .standby → valid → byteAt m 1 = 2 → mine = true → fragOk m = true → ∀ q, joins q →
      ((parts q).length ≠ n → Gives part s { u with lock := { u.lock with asm := some { q with parts := parts q } } }) ∧
      ((parts q).length = n → u.lock.claim = none → ∃ t, exec part s = .next t ∧ t.lock.asm = none ∧
        (match parseCp u ((parts q).flatMap Prod.snd) with
        | some c =>
            (c.frame = fld m 8 8 → (∀ o, u.lock.committed = some o → o.frame ≤ f) →
              t.lock.committed = some { c with frame := f } ∧ t.lock.cpArr = some (frameIndex u) ∧ t.lock.foreign = isForeign u c) ∧
            (c.frame ≠ fld m 8 8 ∨ (∃ o, u.lock.committed = some o ∧ f < o.frame) → t.lock.committed = u.lock.committed)
        | none => t.lock.committed = u.lock.committed))) ∧
    (valid → byteAt m 1 = 2 → rafTakes u = true → u.st ≠ .standby ∨ fragOk m = false ∨ (∃ y, u.lock.asm = some y ∧ f < y.frame) → Gives part s u) ∧
    (relays → Gives (.rafogerForward dt p m ok) s { u with out := [rafOut (1 - p % 2) (body ++ u32 (crc32 body)) (!(ok && good))] }) ∧
    (¬relays → Gives (.rafogerForward dt p m ok) s u) ∧
    (rafTakes u = true → u.lock.drops = [a, b] → GivesRest (.rafogerDropSecond dt) s { u with lock := { u.lock with drops := [0, 0] } }) ∧
    ((pt = some k → dn = true ∨ recent u k = false → GivesRest (.pathDown dt x p dn) s { u with
        lock := { u.lock with peers := upd (fun q => if p % 2 = 0 then { q with pathL1 := none } else { q with pathL2 := none }) u.lock.peers x } }) ∧
      (pt = none ∨ (pt = some k ∧ dn = false ∧ recent u k = true) → Gives (.pathDown dt x p dn) s u))

/-- DISCOVERY_END, ELECTION_CLAIM, LEASE_CLAIM, TARGET_CLAIM (12 R328 to R330, R333, R334, R344, R348; log entry 30). -/
def Obligations.DiscoveryElectionAndClaims : Prop :=
  ∀ (dt f t0 : Nat) (c : Checkpoint) (s : State), let u := advance s dt
    let k := frameIndex u
    let bad := claimFails u (Nat.land f (claimDomains u))
    let cl := fun (kind : Nat) => ({ u with
      lock := { u.lock with claim := some (k, kind), claimOk := !bad, expiry := k + 1 + u.cfg.img.lock.leaseLen, groupVer := claimVer u, cpLoaded := none
                            release := false } } : State)
    let claims := fun (t : State) (kind : Nat) => t.lock.claim = some (k, kind) ∧ t.lock.claimOk = (!bad) ∧ t.lock.groupVer = claimVer u ∧
      t.lock.committed = u.lock.committed ∧ t.st = u.st ∧ (bad = true → t.lock.aborted = true ∧ faultActive t 0x0C15 = true) ∧
      (u.lock.held = false → Sends t (cl kind) 1 k (beatBody (cl kind) false false true false (k + 1 + u.cfg.img.lock.leaseLen) (succOrder (cl kind) false)))
    let all := (otherSlots u).all (fun x => (peerOf u x).heard)
    (u.st = .standby → u.bring.step = 3 → u.lock.discStart = some t0 → all = true ∨ t0 + 2000000000 ≤ elNs u →
      (hearsHolder u = true → ∃ t, exec (.discoveryEnd dt) s = .next t ∧ t.st = .standby ∧ t.bring.step = 5 ∧ t.lock.discStart = none ∧
        t.analog.powered = false ∧ t.safety.running = false) ∧
      (hearsHolder u = false → GivesRest (.discoveryEnd dt) s { u with
        lock := { u.lock with discStart := none, discEnd := some (elNs u) }, bring := { u.bring with step := 4, stepEl := elNs u } })) ∧
    (u.st ≠ .standby ∨ u.bring.step ≠ 3 ∨ u.lock.discStart = none ∨ (u.lock.discStart = some t0 ∧ all = false ∧ elNs u < t0 + 2000000000) →
      Gives (.discoveryEnd dt) s u) ∧
    (electionDue u = true → ∃ t, exec (.electionClaim dt f) s = .next t ∧ claims t 0 ∧ t.lock.cpLoaded = none) ∧
    (electionDue u = false → Gives (.electionClaim dt f) s u) ∧
    (claimDue u = true → u.lock.committed = some c → ∃ t, exec (.leaseClaim dt f) s = .next t ∧ claims t 1 ∧
      t.lock.cpLoaded = (if bad then none else some c.frame)) ∧
    (claimDue u = false → Gives (.leaseClaim dt f) s u) ∧
    (targetDue u = true → u.lock.committed = some c →
      (bad = false → ∃ t, exec (.targetClaim dt f) s = .next t ∧ claims t 2 ∧ t.lock.cpLoaded = (if c.frame + 1 = k then some c.frame else none)) ∧
      (bad = true → ∃ t, exec (.targetClaim dt f) s = .next t ∧ t.lock.claim = none ∧ t.lock.aborted = true ∧ t.lock.prepared = none ∧
        t.safety.running = false ∧ t.analog.powered = false ∧ faultActive t 0x0C15 = true)) ∧
    (targetDue u = false → Gives (.targetClaim dt f) s u)

/-- LEASE_PASS, LEASE_END, LEASE_YIELD (12 R332, R334, R337, R346; 01 R33; log entry 30). -/
def Obligations.LeasePassesEndsAndIsYielded : Prop :=
  ∀ (dt c kind : Nat) (cp : Checkpoint) (s : State), let u := advance s dt
    let k := frameIndex u
    let s1 := { u with lock := { u.lock with claim := none, claimOk := false, release := true, expiry := k } }
    let duty := fun (t : State) => t.lock.claim = none ∧ t.lock.firstDuty = some k ∧ t.lock.change = none ∧ t.field.mok = u.bring.powerFailEl.isNone ∧
      ((∀ code, cfgReact u code ≤ 2) → t.lock.held = true ∧ t.lock.expiry = k + u.cfg.img.lock.leaseLen ∧ t.frame.emitSuppressed = false)
    let standby := fun (t : State) => t.st = .standby ∧ t.lock.held = false ∧ t.lock.claim = none ∧ t.lock.change = none ∧ t.lock.yielding = false ∧
      t.lock.cpGood = false ∧ t.lock.firstDuty = none ∧ t.mb.dpReq = false ∧ t.bring.complete = false ∧ t.safety.running = false ∧
      t.lock.drillOp = some (u.lock.drillOp.getD u.ledger.opS)
    (passDue u = true → u.lock.claim = some (c, kind) → u.lock.claimOk = false → ∃ t, exec (.leasePass dt) s = .next t ∧ t.st = u.st ∧
      t.lock.claim = none ∧ t.safety.running = false ∧ Sends t s1 1 k (beatBody s1 false true false false k (succOrder s1 true))) ∧
    (passDue u = true → u.lock.claim = some (c, 0) → u.lock.claimOk = true → ∃ t, exec (.leasePass dt) s = .next t ∧ duty t ∧ t.st = .ready ∧
      t.frame.mode = u.frame.mode ∧ t.frame.pendingMode = (if u.cfg.img.frame.startMode = u.frame.mode then none
        else some (u.cfg.img.frame.startMode, (u.frame.tic / 40000000 + 1) * 40000000))) ∧
    (passDue u = true → u.lock.claim = some (c, 1) → u.lock.claimOk = true → u.lock.committed = some cp →
      ∃ t, exec (.leasePass dt) s = .next t ∧ duty t ∧ t.st = (if isForeign u cp then .ready else stateOfCode cp.state) ∧ t.frame.mode = u.frame.mode ∧
        t.frame.pendingMode = u.frame.pendingMode) ∧
    (passDue u = false → Gives (.leasePass dt) s u) ∧
    (leaseEndDue u = true → ∃ t, exec (.leaseEnd dt) s = .next t ∧ standby t) ∧
    (leaseEndDue u = false → Gives (.leaseEnd dt) s u) ∧
    (yieldDue u = true → ∃ t, exec (.leaseYield dt) s = .next t ∧ standby t) ∧
    (yieldDue u = false → yieldLost u = true → u.st ≠ .off → ∃ t, exec (.leaseYield dt) s = .next t ∧ faultActive t 0x0C13 = true ∧
      rest t = rest { u with lock := { u.lock with yielding := true, yieldTick := k + 1 } }) ∧
    (yieldDue u = false → yieldLost u = false → Gives (.leaseYield dt) s u)

/-- LOCK_CHANGE_PREPARE, LOCK_CHANGE_RELEASE, CHECKPOINT_FALLBACK, PERIOD_ADOPT (12 R331, R336, R348 to R350; log entry 30). -/
def Obligations.LockChangeHandsOverOnFixedTicks : Prop :=
  ∀ (dt c : Nat) (cp : Checkpoint) (s : State), let u := advance s dt
    let k := frameIndex u
    let may := u.lock.firstDuty = some k ∨ (u.frame.p5Done = true ∧ u.frame.cpHanded = true)
    let v := { u with lock := { u.lock with expiry := if may then k + u.cfg.img.lock.leaseLen else u.lock.expiry } }
    let m := holderMode u
    (changeTick 1 u = true → leaseEndDue u = false → ∃ t, exec (.lockChangePrepare dt) s = .next t ∧ t.lock.expiry = v.lock.expiry ∧
      rest t = rest u ∧ Sends t v 1 k (beatBody v (u.lock.groupVer == 2) false false true v.lock.expiry (succOrder v false))) ∧
    (changeTick 1 u = false ∨ leaseEndDue u = true → Gives (.lockChangePrepare dt) s u) ∧
    (changeTick 2 u = true → ∃ t, exec (.lockChangeRelease dt) s = .next t ∧ t.st = .standby ∧ t.lock.held = false ∧ t.lock.change = none ∧
      t.lock.cpGood = false ∧ (onDuty u.st = true → (∀ code, cfgReact u code ≤ 2) →
        Sends t u 1 k (beatBody u false true false false k (succOrder u true)))) ∧
    (changeTick 2 u = false → Gives (.lockChangeRelease dt) s u) ∧
    (u.lock.claim = some (c, 2) → u.lock.committed = some cp →
      (u.lock.cpLoaded = none → u.lock.claimOk = true → k = c → u.frame.ticEl + 4000000 ≤ elNs u → ∃ t, exec (.checkpointFallback dt) s = .next t ∧
        t.lock.cpLoaded = some cp.frame ∧ t.lock.claim = some (c, 2) ∧ t.st = u.st) ∧
      (u.lock.cpLoaded ≠ none ∨ u.lock.claimOk = false ∨ k ≠ c ∨ elNs u < u.frame.ticEl + 4000000 → Gives (.checkpointFallback dt) s u)) ∧
    (u.lock.claim = none ∨ u.lock.committed = none → Gives (.checkpointFallback dt) s u) ∧
    (u.st = .standby → u.lock.periodDiff = true → atTick u = true → u.frame.tic % 40000000 = 0 → ∃ t, exec (.periodAdopt dt) s = .next t ∧
      t.lock.periodDiff = false ∧ t.lock.cpGood = false ∧ t.frame.mode = m ∧ t.frame.index = u.frame.tic / periodNs m ∧
      t.frame.nextTick = u.frame.tic + periodNs m ∧ t.frame.tic = u.frame.tic ∧ t.store = u.store ∧ t.field.di = u.field.di) ∧
    (u.st ≠ .standby ∨ u.lock.periodDiff = false ∨ atTick u = false ∨ u.frame.tic % 40000000 ≠ 0 → Gives (.periodAdopt dt) s u)

/-- POWER_GOOD, MODULE_RESET, POWER_FAIL, POWER_OFF (13 R354 to R358; 19 R494; 20 R514, R517, R519). What a reset keeps: log entry 31. -/
def Obligations.SuppliesStartAndStopTheModule : Prop :=
  ∀ (dt a b t0 : Nat) (f1 f2 vbak : Bool) (sl : List Nat) (cut : Bytes) (s : State), let u := advance s dt
    let k := frameIndex u
    let started := fun (t : State) => t.st = .selftest ∧ t.bring.step = 1 ∧ t.bring.goodEl = elNs u ∧ t.clk.el = elNs u ∧ t.time.state = .noTime ∧
      t.frame.running = false ∧ t.lock.held = false ∧ t.lock.drillOp = u.lock.drillOp ∧ t.cfg.bank0 = u.cfg.bank0 ∧ t.cfg.bank1 = u.cfg.bank1 ∧
      t.cfg.owner = none ∧ t.mb.unlock = 0 ∧ t.ledger.boot = (u.ledger.boot + 1) % 2 ^ 32 ∧ t.ledger.queue.length = 1 ∧ t.gnss.saved = u.gnss.saved
    (u.st = .off → 17000 ≤ Nat.max a b → ∃ t, exec (.powerGood dt a b f1 f2) s = .next t ∧ started t ∧ t.bring.lvA = a ∧ t.bring.lvB = b ∧
      t.time.link100 = [f1, f2] ∧ t.gnss.ret = u.gnss.saved ∧ t.ledger.recs = u.ledger.recs ∧ t.rtc = { u.rtc with alarms := [{}, {}, {}, {}] }) ∧
    (u.st ≠ .off ∨ Nat.max a b < 17000 → Gives (.powerGood dt a b f1 f2) s u) ∧
    (u.st ≠ .off → u.st ≠ .selftest ∨ u.bring.step ≠ 0 → ∃ t, exec (.moduleReset dt) s = .next t ∧ started t ∧ t.gnss.ret = u.gnss.ret ∧
      t.rtc = u.rtc ∧ t.bring.powerFailEl = u.bring.powerFailEl ∧ t.ledger.opS = u.ledger.opS ∧ t.ledger.recs = (drainQueue u).ledger.recs) ∧
    (u.st = .off ∨ (u.st = .selftest ∧ u.bring.step = 0) → Gives (.moduleReset dt) s u) ∧
    (u.st ≠ .off → u.bring.powerFailEl = none → Nat.max a b < 16000 → ∃ t, exec (.powerFail dt a b sl) s = .next t ∧ t.st = u.st ∧
      t.bring.powerFailEl = some (elNs u) ∧ t.field.mok = false ∧ t.lock.held = false ∧ t.frame.emitSuppressed = true ∧ t.ledger.queue = [] ∧
      t.ledger.savedOp = u.ledger.opS ∧ (u.lock.held = true → onDuty u.st = true → (∀ code, cfgReact u code ≤ 2) →
        Sends t u 1 k (beatBody u false true false false (k + 1) (succOrder u true)))) ∧
    (u.st = .off ∨ u.bring.powerFailEl ≠ none ∨ 16000 ≤ Nat.max a b → Gives (.powerFail dt a b sl) s u) ∧
    (u.bring.powerFailEl = some t0 → t0 + 2000000 ≤ elNs u → ∃ t, exec (.powerOff dt ⟨vbak, cut⟩) s = .next t ∧ t.st = .off ∧ t.clk = { el := elNs u } ∧
      t.frame = {} ∧ t.faults = {} ∧ t.field = {} ∧ t.safety.running = false ∧ t.store = [] ∧ t.lock = { drillOp := u.lock.drillOp } ∧
      t.cfg.bank0 = u.cfg.bank0 ∧ t.cfg.bank1 = u.cfg.bank1 ∧ t.gnss = { saved := u.gnss.saved } ∧ t.mb.fwBank = u.mb.fwBank ∧ t.mb.unlock = 0 ∧
      t.ledger = { u.ledger with queue := [], counting := false } ∧
      t.rtc = { u.rtc with alarms := [{}, {}, {}, {}], bkExt := vbak }) ∧
    (u.bring.powerFailEl = none ∨ (u.bring.powerFailEl = some t0 ∧ elNs u < t0 + 2000000) → Gives (.powerOff dt ⟨vbak, cut⟩) s u)

/-- SELFTEST_COMPLETE, TIME_LOCK_TIMEOUT, OSC_SETUP_TIMEOUT, BRINGUP_TIMEOUT (13 R358, R362, R363, R366, R367). -/
def Obligations.BringUpStepsEndAsTheirTableSays : Prop :=
  ∀ (dt f : Nat) (s : State), let u := advance s dt
    let bad := Nat.land f (if u.unit.variantN then 0xDFF else 0xFFF)
    (u.st = .selftest → u.bring.step = 1 → staysInSelftest bad = true → ∃ t, exec (.selftestComplete dt f) s = .next t ∧ t.st = .selftest ∧
      t.bring.step = 0 ∧ t.field.repl = true) ∧
    (u.st = .selftest → u.bring.step = 1 → staysInSelftest bad = false → ∃ t, exec (.selftestComplete dt f) s = .next t ∧ t.st = .selftest ∧
      t.bring.step = 2 ∧ t.bring.stepEl = elNs u ∧ t.chandler.lostA = (u.chandler.lostA || bad.testBit 6) ∧
      t.chandler.lostB = (u.chandler.lostB || bad.testBit 7) ∧ t.gnss.failed = (u.gnss.failed || (bad.testBit 9 && !u.unit.variantN)) ∧
      t.analog.failed = (u.analog.failed || bad.testBit 10) ∧ (bad.testBit 10 = true → faultActive t 0x0D13 = true) ∧
      (bad.testBit 6 = true ∨ bad.testBit 7 = true → t.faults.degraded = true)) ∧
    (u.st ≠ .selftest ∨ u.bring.step ≠ 1 → Gives (.selftestComplete dt f) s u) ∧
    (onDuty u.st = true → u.bring.step = 5 → u.time.state ≠ .locked → u.bring.stepEl + 8000000000 ≤ elNs u →
      ∃ t, exec (.timeLockTimeout dt) s = .next t ∧ t.bring.timeDone = true ∧ 6 ≤ t.bring.step ∧ t.time = u.time ∧ t.st = u.st ∧
        faultActive t 0x0D11 = true) ∧
    (onDuty u.st = false ∨ u.bring.step ≠ 5 ∨ u.time.state = .locked ∨ elNs u < u.bring.stepEl + 8000000000 → Gives (.timeLockTimeout dt) s u) ∧
    (onDuty u.st = true → u.bring.step = 6 → allConnsOpen u = false → u.bring.stepEl + 3000000000 ≤ elNs u →
      ∃ t, exec (.oscSetupTimeout dt) s = .next t ∧ t.bring.oscDone = true ∧ 7 ≤ t.bring.step ∧ t.osc = u.osc ∧ t.st = u.st ∧
        faultActive t 0x0D12 = true) ∧
    (onDuty u.st = false ∨ u.bring.step ≠ 6 ∨ allConnsOpen u = true ∨ elNs u < u.bring.stepEl + 3000000000 → Gives (.oscSetupTimeout dt) s u) ∧
    (onDuty u.st = true → u.bring.complete = false → u.bring.boundFrom + bringBound u ≤ elNs u → ∃ t, exec (.bringupTimeout dt) s = .next t ∧
      faultActive t 0x0D10 = true ∧ rest t = rest u) ∧
    (onDuty u.st = false ∨ u.bring.complete = true ∨ elNs u < u.bring.boundFrom + bringBound u → Gives (.bringupTimeout dt) s u)

/-- CONFIG.STAGE, STAGING_GRANT_EXPIRY, CONFIG.COMMIT, CONFIG.ABORT, CONFIG.READ (03 R92 to R97, R104). What stands after a failed write and
what a former active bank becomes: log entry 31. -/
def Obligations.ConfigurationIsStagedCommittedAndRead : Prop :=
  ∀ (dt m g : Nat) (ok : Bool) (r : Request) (q : List Request) (s : State), let u := advance s dt
    let ofs := fld r.payload 0 4
    let total := fld r.payload 4 4
    let data := r.payload.drop 8
    let n := inactiveNo u
    let bk := inactiveBank u
    let done := decide (ofs + data.length = total)
    let reply := u32 (ofs + data.length) ++ u8 (if done then 2 else 1) ++ zeros 3
    let shape := total % 4 = 0 ∧ 512 ≤ total ∧ total ≤ 8388608 ∧ ofs + data.length ≤ total
    let staged := fun (bs : Bytes) (o : Option Nat) => noteGrant (setBank n { bk with state := if done then 2 else 1, bytes := bs }
      { u with cfg := { u.cfg with owner := o, nextOffset := ofs + data.length, verifying := if done then some n else none } })
    let opened := noteGrant (setBank n { state := if done then 2 else 1, totalLen := total, bytes := data }
      { u with cfg := { u.cfg with owner := some r.mbox, nextOffset := data.length, verifying := if done then some n else none } })
    let may := u.st = .held ∨ u.st = .standby ∨ (u.st = .ready ∧ r.mbox ≠ 0)
    let f := effectTick u r.mbox
    let old := activeBank u
    let nextSeq := match commitRecord u with | some c => c.seq + 1 | none => 1
    let sel := byteAt r.payload 0
    let count := fld r.payload 2 2
    let index := fld r.payload 4 4
    (Turn u m wConfigStage r q →
      (ofs = 0 → shape → stagingOpen u = false ∨ u.cfg.owner = none ∨ u.cfg.owner = some r.mbox → AnsweredRest (.configStage dt m) s r reply opened) ∧
      (ofs ≠ 0 → bk.state = 1 → ofs = u.cfg.nextOffset → shape → total = bk.totalLen → u.cfg.owner = some r.mbox →
        Answered (.configStage dt m) s r reply (staged (bk.bytes ++ data) u.cfg.owner)) ∧
      (ofs ≠ 0 → bk.state ≠ 1 ∨ ofs ≠ u.cfg.nextOffset → Refused (.configStage dt m) s u r (errRange 0)) ∧
      (ofs = 0 → shape → stagingOpen u = true → u.cfg.owner = some g → g ≠ r.mbox → Refused (.configStage dt m) s u r errBusy)) ∧
    (u.cfg.grantUntil = some g → g ≤ elNs u → stagingOpen u = false → Gives (.stagingGrantExpiry dt) s { u with cfg := { u.cfg with grantUntil := none } }) ∧
    (u.cfg.grantUntil = none ∨ stagingOpen u = true ∨ (u.cfg.grantUntil = some g ∧ elNs u < g) → Gives (.stagingGrantExpiry dt) s u) ∧
    (Turn u m wConfigCommit r q →
      (¬may → Refused (.configCommit dt m ok) s u r (errState u)) ∧
      (may → bk.state = 2 ∨ (bk.state = 1 ∧ u.cfg.owner ≠ some r.mbox) → Refused (.configCommit dt m ok) s u r errBusy) ∧
      (may → bk.state = 0 ∨ (bk.state = 1 ∧ u.cfg.owner = some r.mbox) →
        Answered (.configCommit dt m ok) s r (u16 0x0004 ++ u8 u.cfg.active ++ zeros 5 ++ u64 0) (noteGrant u)) ∧
      (may → bk.state = 4 → Answered (.configCommit dt m ok) s r (u16 bk.verdict ++ u8 u.cfg.active ++ zeros 5 ++ u64 0) (noteGrant u)) ∧
      (may → bk.state = 3 → r.payload.take 8 ≠ (imageDigest bk.bytes).take 8 → Refused (.configCommit dt m ok) s u r (errRange 0)) ∧
      (may → bk.state = 3 → r.payload.take 8 = (imageDigest bk.bytes).take 8 → ok = false → Refused (.configCommit dt m ok) s u r { code := 0x0011 }) ∧
      (may → bk.state = 3 → r.payload.take 8 = (imageDigest bk.bytes).take 8 → ok = true → ∃ t, exec (.configCommit dt m ok) s = .next t ∧
        Out.msg r.port r.src (respond r (u16 0 ++ u8 n ++ zeros 5 ++ u64 (frameAt u f)) none) ∈ t.out ∧ t.cfg.active = n ∧ t.cfg.effect = some f ∧
        t.cfg.owner = none ∧ t.cfg.img = u.cfg.img ∧ t.st = u.st ∧ bankOf t n = { bk with state := 5 } ∧
        bankOf t u.cfg.active = { old with state := if old.bytes.isEmpty then 0 else if old.verdict = 0 then 3 else 4 } ∧
        ((∀ c, commitRecord u = some c → c.seq + 1 < 2 ^ 32) → commitRecord t = some
          (sealedCopy nextSeq n (imageDigest bk.bytes))))) ∧
    (Turn u m wConfigAbort r q →
      (u.cfg.owner = some g → g ≠ r.mbox → Refused (.configAbort dt m) s u r errBusy) ∧
      (u.cfg.owner = some r.mbox → bk.state = 1 ∨ bk.state = 2 ∨ bk.state = 4 → AnsweredRest (.configAbort dt m) s r []
        (noteGrant (setBank n {} { u with cfg := { u.cfg with owner := none, verifying := none, nextOffset := 0 } }))) ∧
      (u.cfg.owner = none ∨ (u.cfg.owner = some r.mbox ∧ bk.state = 3) → Answered (.configAbort dt m) s r [] (noteGrant u))) ∧
    (Turn u m wConfigRead r q →
      (3 < sel → Refused (.configRead dt m) s u r (errRange 0)) ∧
      ((sel = 0 ∧ count = 0) ∨ (sel = 2 ∧ 1 ≤ count ∧ count ≤ 32) ∨ (sel = 3 ∧ 1 ≤ count ∧ count ≤ 16) ∨
        (sel = 1 ∧ count % 4 = 0 ∧ 4 ≤ count ∧ count ≤ 1016 ∧ index % 4 = 0) → Answered (.configRead dt m) s r
          (u8 sel ++ zeros 1 ++ u16 (readItems u sel count index).1 ++ u32 index ++ (readItems u sel count index).2) (noteGrant u)) ∧
      (sel = 2 → count = 0 ∨ 32 < count → Refused (.configRead dt m) s u r (errRange 2)))

/-- IMAGE_VERIFICATION_COMPLETE, IMAGE_EFFECT (03 R87, R89, R94, R96; 12 R326; 13 R359, R365; 17 R453). Whether a signature is valid is the free
value `Config.sigValid`, log entry 4. -/
def Obligations.AnImageIsVerifiedAndTakesEffect : Prop :=
  ∀ (dt b f : Nat) (e : Bool) (s : State), let u := advance s dt
    let v := activeVerdict u e
    let img := readImage (activeBank u).bytes
    let w := verifyBytes u e (bankOf u b).bytes
    let judged := setBank b { bankOf u b with state := if w.1 = 0 then 3 else 4, verdict := w.1, detail := w.2 } { u with cfg := { u.cfg with verifying := none } }
    (u.st = .selftest → u.bring.step = 2 → ∃ t, exec (.imageVerificationComplete dt e) s = .next t ∧
      (v.1 = 0 → t.st = .standby ∧ t.bring.step = 3 ∧ t.cfg.img = img ∧ t.lock.slot = slotOf u.unit.serial img ∧ t.lock.discStart = some (elNs u) ∧
        t.frame.running = true ∧ t.frame.mode = img.frame.startMode ∧ t.lock.cpGood = u.lock.cpGood ∧ (∀ x ∈ t.safety.funcs, x.st = 2)) ∧
      (v.1 ≠ 0 → t.st = .held ∧ t.bring.step = 0 ∧ t.cfg.heldReason = v.1 ∧ t.cfg.heldDetail = v.2 ∧ t.cfg.img = u.cfg.img ∧ t.frame.running = true)) ∧
    (u.st = .off ∨ (u.st = .selftest ∧ u.bring.step ≠ 2) ∨ (u.st ≠ .selftest ∧ u.cfg.verifying = none) →
      Gives (.imageVerificationComplete dt e) s u) ∧
    (u.st ≠ .off → u.st ≠ .selftest → u.cfg.verifying = some b → GivesRest (.imageVerificationComplete dt e) s
      (if w.1 = 0 then noteVerified (readImage (bankOf u b).bytes) judged else judged)) ∧
    (u.cfg.effect = some f → atTick u = true → f ≤ u.frame.tic → ∃ t, exec (.imageEffect dt) s = .next t ∧ t.cfg.img = img ∧ t.cfg.effect = none ∧
      t.lock.slot = slotOf u.unit.serial img ∧ t.st = .standby ∧
      (u.st = .standby → t.bring.step = u.bring.step ∧ t.lock.claim = u.lock.claim) ∧
      (u.st ≠ .standby → t.bring.step = 3 ∧ t.lock.held = false ∧ t.lock.discStart = some (elNs u) ∧ t.lock.cpGood = false ∧ t.bring.complete = false)) ∧
    (u.cfg.effect = none ∨ atTick u = false ∨ (u.cfg.effect = some f ∧ u.frame.tic < f) → Gives (.imageEffect dt) s u)

/-- SLOT_START, SLOT_END, SAFETY_SLOT_START, CAN_TX_COMPLETE (16 R426 to R434, R439; log entry 21). -/
def Obligations.SlotsOpenEndAndComplete : Prop :=
  ∀ (dt e n c : Nat) (sof ack : Bool) (b d : Bytes) (s : State), let u := advance s dt
    let k := slotCfg u e
    let m := slotMsg u e
    let fi := frameIndex u
    let w := c - 1
    let ct := ctrlCfg u w
    let sf := (canOf u w).safe
    let inWin := slotStartNs u k.ref k.ofsUs + k.windowUs * 1000 ≤ nowNs u
    let count := fun (x : Nat) (f : CanCounters → CanCounters) (v : State) => { v with can := upd (fun q => { q with cnt := f q.cnt }) v.can x }
    let put := fun (f : SlotMsg → SlotMsg) => { u with slots := upd f u.slots e }
    let base := if m.st = 1 ∧ removed u e = true then { (canOf u w).cnt with cancelRefused := inc (canOf u w).cnt.cancelRefused } else (canOf u w).cnt
    let arb := fun (y : CanCounters) => { y with arbLost := Nat.min 0xFFFFFFFF (y.arbLost + n) }
    let due := u.frame.running = true ∧ onDuty u.st = true ∧ ct.mode = 1 ∧ ct.safeLen ≠ 0 ∧ sf.opened ≠ some fi ∧ (ct.safeRef = 0 ∨ 5 ≤ u.frame.phase) ∧
      slotStartNs u ct.safeRef ct.safeOfsUs ≤ nowNs u
    let tel := telegram (safeVersion u w) 6 (nth 1 u.safety.seq w) (nth 0 u.cfg.img.osc.safeConnId w) u.cfg.img.osc.safeTExpMs d
    (slotDue u e = true →
      (openContent u e = none → Gives (.slotStart dt e sof) s (count k.ctrl (fun y => { y with slotEmpty := inc y.slotEmpty })
        (put (fun x => { x with opened := some fi, st := 0, openMsg := none })))) ∧
      (openContent u e = some b → k.kind = 1 → Gives (.slotStart dt e sof) s { put (fun x => { x with
          opened := some fi, st := if sof && canSends u k.ctrl then 2 else 1, openMsg := some b, content := none }) with
        out := if sof && canSends u k.ctrl then [.can (k.ctrl + 1) k.txId (padTo k.len b)] else [] }) ∧
      (openContent u e = some b → k.kind = 2 → ∃ t, exec (.slotStart dt e sof) s = .next t ∧
        slotMsg t e = { m with opened := some fi, st := if sof && canSends u k.ctrl then 2 else 1, openMsg := some b, content := none } ∧
        (sof && canSends u k.ctrl = true → Out.can (k.ctrl + 1) k.txId (padTo k.len b) ∈ t.out) ∧ t.can = u.can ∧
        ∀ x, x ≠ k.conn → connOf t x = connOf u x)) ∧
    (slotDue u e = false → Gives (.slotStart dt e sof) s u) ∧
    (m.st = 1 → inWin →
      (sof && canSends u k.ctrl = true → Gives (.slotEnd dt e sof n) s { count k.ctrl arb (put (fun x => { x with st := 2 })) with
        out := [.can (k.ctrl + 1) k.txId (padTo k.len (m.openMsg.getD []))] }) ∧
      (sof = false → removed u e = true → Gives (.slotEnd dt e sof n) s (count k.ctrl (fun y => { arb y with slotEmpty := inc y.slotEmpty })
        (put (fun x => { x with st := 0, openMsg := none })))) ∧
      (sof && canSends u k.ctrl = false → sof = true ∨ removed u e = false → Gives (.slotEnd dt e sof n) s (count k.ctrl (fun y => { arb y with slotMissed := inc y.slotMissed })
        (put (fun x => { x with st := 0, openMsg := none, run := capRun (x.run + 1) }))))) ∧
    (m.st ≠ 1 ∨ ¬inWin → Gives (.slotEnd dt e sof n) s u) ∧
    (due → sf.content = none → w < u.can.length → ∃ t, exec (.safetySlotStart dt c) s = .next t ∧
      (canOf t w).cnt.slotEmpty = inc (canOf u w).cnt.slotEmpty ∧ (canOf t w).safe.st = 0 ∧ (canOf t w).safe.opened = some fi ∧ t.safety = u.safety ∧ t.out = []) ∧
    (due → sf.content = some d → w < u.can.length → w < u.safety.seq.length → ∃ t, exec (.safetySlotStart dt c) s = .next t ∧
      (canOf t w).safe.openMsg = some tel ∧ (canOf t w).safe.st = (if canSends u w then 2 else 1) ∧ (canOf t w).safe.opened = some fi ∧
      nth 1 t.safety.seq w = (nth 1 u.safety.seq w + 1) % 65536 ∧
      t.out = (if canSends u w then [.can (w + 1) ct.safeId (padTo ct.safeLen tel)] else []) ∧
      (sf.st ≠ 0 → (canOf t w).cnt.slotMissed = inc (canOf u w).cnt.slotMissed ∧ (canOf t w).safe.run = capRun (sf.run + 1))) ∧
    (¬due → Gives (.safetySlotStart dt c) s u) ∧
    (m.st ≠ 0 → k.ctrl = w → w < u.can.length → ∃ t, exec (.canTxComplete dt c (some e) ack n) s = .next t ∧ slotMsg t e = endMsg ack m ∧
      (canOf t w).cnt = (if ack then { arb base with txOk := inc base.txOk } else { arb base with txErr := inc base.txErr }) ∧
      (ack = true → (canOf t w).tec = (canOf u w).tec - 1) ∧ (ack = false → (canOf u w).st ≠ .passive → (canOf t w).tec = (canOf u w).tec + 8) ∧
      (canOf t w).rec_ = (canOf u w).rec_ ∧ (m.st = 1 → Out.can (w + 1) k.txId (padTo k.len (m.openMsg.getD [])) ∈ t.out)) ∧
    (m.st = 0 ∨ k.ctrl ≠ w → Gives (.canTxComplete dt c (some e) ack n) s u) ∧
    (sf.st ≠ 0 → ∃ t, exec (.canTxComplete dt c none ack n) s = .next t ∧ (canOf t w).safe = endMsg ack sf) ∧
    (sf.st = 0 → Gives (.canTxComplete dt c none ack n) s u)

/-- CAN_RECEIVE_ERROR, CAN_PROTOCOL_EXCEPTION, BUSOFF_HOLD_EXPIRY, BUSOFF_RECOVERED, CAN_COUNTER_SECOND (16 R420, R436, R438). How the error
counters move is ISO 11898-1's, log entry 21. -/
def Obligations.CanControllersCountErrorsAndRecover : Prop :=
  ∀ (dt c : Nat) (s : State), let u := advance s dt
    let w := c - 1
    let q := canOf u w
    (canLive u w = true → w < u.can.length → ∃ t, exec (.canReceiveError dt c) s = .next t ∧ (canOf t w).rec_ = Nat.min 255 (q.rec_ + 1) ∧
      (canOf t w).tec = q.tec ∧ (canOf t w).st = stateFor q.tec (Nat.min 255 (q.rec_ + 1)) ∧
      (canOf t w).cnt = { q.cnt with rxErr := inc q.cnt.rxErr } ∧ (canOf t w).withdrawn = false ∧ ∀ x, x ≠ w → canOf t x = canOf u x) ∧
    (canLive u w = false → Gives (.canReceiveError dt c) s u ∧ Gives (.canProtocolException dt c) s u) ∧
    (canLive u w = true → (ctrlCfg u w).fdEn = 0 → Gives (.canProtocolException dt c) s { u with
      can := upd (fun x => { x with withdrawn := true, cnt := { x.cnt with protExc := inc x.cnt.protExc } }) u.can w }) ∧
    ((ctrlCfg u w).fdEn ≠ 0 → Gives (.canProtocolException dt c) s u) ∧
    (q.st = .busOff → q.busOffEl + (ctrlCfg u w).busoffHoldMs * 1000000 ≤ elNs u → Gives (.busoffHoldExpiry dt c) s { u with
      can := upd (fun x => { x with recovering := true }) u.can w }) ∧
    (q.st ≠ .busOff ∨ elNs u < q.busOffEl + (ctrlCfg u w).busoffHoldMs * 1000000 → Gives (.busoffHoldExpiry dt c) s u) ∧
    (q.st = .busOff → q.recovering = true → ∃ t, exec (.busoffRecovered dt c) s = .next t ∧ (canOf t w).st = .active ∧ (canOf t w).tec = 0 ∧
      (canOf t w).rec_ = 0 ∧ t.slots = u.slots ∧ ∀ x, x ≠ w → canOf t x = canOf u x) ∧
    (q.st ≠ .busOff ∨ q.recovering = false → Gives (.busoffRecovered dt c) s u) ∧
    (u.st ≠ .off → GivesRest (.canCounterSecond dt) s { u with can := u.can.map (fun x => { x with last := x.cnt }) }) ∧
    (u.st = .off → Gives (.canCounterSecond dt) s u)

/-- OSC_TELEGRAM_RECEIVE, SETUP_ACK, OSC_WATCHDOG_EXPIRY (17 R460 to R462; log entry 20). -/
def Obligations.OscConnectionsOpenTakeAndExpire : Prop :=
  ∀ (dt n k v : Nat) (bs : Bytes) (tg : Telegram) (s : State), let u := advance s dt
    let q := connOf u n
    let cf := connCfg u n
    let late := q.rxEl + q.rxExpMs * 1000000 < elNs u
    (onDuty u.st = false ∨ u.osc.length ≤ n → Gives (.oscTelegramReceive dt n bs) s u) ∧
    (onDuty u.st = true → n < u.osc.length → byteAt bs 0 % 16 ≠ 2 →
      (q.st ≠ 2 → 4 ≤ cf.ctrl → Gives (.oscTelegramReceive dt n bs) s u) ∧
      (q.st = 2 → failedCheck cf q bs = some k → ∃ t, exec (.oscTelegramReceive dt n bs) s = .next t ∧ t.osc = u.osc ∧ t.store = u.store ∧
        (4 ≤ cf.ctrl → rest t = rest u)) ∧
      (q.st = 2 → failedCheck cf q bs = none → readTelegram bs = some tg → ¬late → ∃ t, exec (.oscTelegramReceive dt n bs) s = .next t ∧
        connOf t n = { q with rxLast := tg.seq, rxEl := elNs u, rxExpMs := tg.tExp } ∧ (∀ x, x ≠ n → connOf t x = connOf u x) ∧
        (4 ≤ cf.ctrl → t.store = u.store)) ∧
      (q.st = 2 → failedCheck cf q bs = none → late → ∃ t, exec (.oscTelegramReceive dt n bs) s = .next t ∧ connOf t n = {} ∧
        faultActive t 0x1115 = true ∧ ∀ x, x ≠ n → connOf t x = connOf u x)) ∧
    (onDuty u.st = true → q.st = 1 →
      (ackOk cf bs = none → Gives (.setupAck dt n bs) s u) ∧
      (ackOk cf bs = some (tg, v) → v = 0 ∨ cf.verMax < v → Gives (.setupAck dt n bs) s { u with osc := upd (fun x => { x with st := 0 }) u.osc n }) ∧
      (ackOk cf bs = some (tg, v) → v ≠ 0 → v ≤ cf.verMax → ∃ t, exec (.setupAck dt n bs) s = .next t ∧
        connOf t n = { q with st := 2, ver := v, txSeq := 1, rxLast := 0, rxEl := elNs u, rxExpMs := tg.tExp } ∧
        ∀ x, x ≠ n → connOf t x = connOf u x)) ∧
    (onDuty u.st = false ∨ q.st ≠ 1 → Gives (.setupAck dt n bs) s u) ∧
    (q.st = 2 → q.watchPending = false → late → ∃ t, exec (.oscWatchdogExpiry dt n) s = .next t ∧ connOf t n = {} ∧
      (onDuty u.st = true → faultActive t 0x1115 = true) ∧ ∀ x, x ≠ n → connOf t x = connOf u x) ∧
    (q.st ≠ 2 ∨ q.watchPending = true ∨ ¬late → Gives (.oscWatchdogExpiry dt n) s u)

/-- SAFETY_CYCLE (17 R440, R446 to R453; 18 R482; log entry 22). -/
def Obligations.SafetyCycleTripsArmsAndWrites : Prop :=
  ∀ (dt a b d : Nat) (sl : List Nat) (f : Image.Func) (q : FuncSt) (s : State), let u := advance s dt
    let x := nth {} u.safety.resets d
    let w := edmStep (pairsStep { u with safety := { u.safety with
      supply := [nth false u.safety.supply 0 || decide (a < 16000), nth false u.safety.supply 1 || decide (b < 16000)] } })
    (u.safety.running = true → u.safety.stopped = false → ∃ t, exec (.safetyCycle dt a b sl) s = .next t ∧
      (∀ ch, ch < u.safety.so.length → nth {} t.safety.so ch = { on := soLevel t ch, refreshEl := elNs u }) ∧
      (∀ c, c < 4 → c < u.can.length → (ctrlCfg u c).safeLen ≠ 0 → (canOf t c).safe.content = some (safeStateData t)) ∧
      t.safety.supply = [nth false u.safety.supply 0 || decide (a < 16000), nth false u.safety.supply 1 || decide (b < 16000)] ∧ t.safety.rdSx = u.safety.sx ∧ t.safety.rdEl = elNs u ∧ t.safety.latch = u.safety.latch ∧ t.st = u.st ∧
      ((∀ y, rdInput u y ≠ some false) → ∀ g, (funcOf u g).st = 1 →
        (tripCause w g = none → (funcOf t g).st = 1) ∧
        (tripCause w g ≠ none → (funcOf t g).st = 2 ∧ (funcOf t g).lastTripOp = u.ledger.opS)) ∧
      (u.cfg.img.safety.funcs = [f] → u.safety.funcs = [q] → 2 ≤ q.st → f.autoArm = 0 → f.resetDi = d → d < 33 → rdInput u d = some false →
        x.level = some true → x.lowOk = true → x.stuck = false → x.highEl + 50000000 ≤ u.safety.rdEl → u.safety.rdEl ≤ x.highEl + 3000000000 →
        (funcOf t 0).st = (if resetRefused w 0 = none then 1 else 3))) ∧
    (u.safety.running = false ∨ u.safety.stopped = true → Gives (.safetyCycle dt a b sl) s u)

/-- SO_REFRESH_TIMEOUT, LOCKSTEP_MISMATCH, DISCREPANCY, STUCK_RESET, EDM_CHECK, SO_TEST_PULSE (17 R441, R444, R449, R452, R456). -/
def Obligations.SafetyMonitorsActAtOnce : Prop :=
  ∀ (dt n : Nat) (s : State), let u := advance s dt
    let x := nth {} u.safety.resets n
    let f := funcOf u n
    let di := (nth ({} : InSt) u.field.di ((funcCfg u n).edmDi - 1)).level
    let stale := (nth {} u.safety.so n).refreshEl + 2000000 ≤ elNs u
    let disagree := u.safety.running = true ∧ ∃ t0 d, (nth {} u.safety.pairs n).disEl = some t0 ∧ discMs u (n + 1) = some d ∧ t0 + d * 1000000 < elNs u
    let stuck := u.safety.running = true ∧ x.level = some true ∧ x.stuck = false ∧ x.highEl + 3000000000 < elNs u ∧ (resetInputs u).contains n = true
    let notFallen := f.st = 1 ∧ di ≠ some false ∧ ∃ t0, f.edmUntil = some t0 ∧ t0 ≤ elNs u
    (stale → Gives (.soRefreshTimeout dt n) s { u with safety := { u.safety with so := upd (fun c => { c with on := false }) u.safety.so n } }) ∧
    (¬stale → Gives (.soRefreshTimeout dt n) s u) ∧
    (u.st ≠ .off → u.safety.running = true → ∃ t, exec (.lockstepMismatch dt) s = .next t ∧ faultActive t 0x1114 = true ∧
      t.safety = { u.safety with stopped := true, so := u.safety.so.map (fun c => { c with on := false }) } ∧
      ∀ c, c < 4 → (canOf t c).safe.content = none) ∧
    (u.safety.running = false → Gives (.lockstepMismatch dt) s u) ∧
    (u.st ≠ .off → disagree → ∃ t, exec (.discrepancy dt n) s = .next t ∧ faultActive t 0x1110 = true ∧
      rest t = rest { u with safety := { u.safety with pairs := upd (fun q => { q with discrepant := true }) u.safety.pairs n } }) ∧
    (¬disagree → Gives (.discrepancy dt n) s u) ∧
    (u.st ≠ .off → stuck → ∃ t, exec (.stuckReset dt n) s = .next t ∧ faultActive t 0x1113 = true ∧
      rest t = rest { u with safety := { u.safety with resets := upd (fun y => { y with stuck := true }) u.safety.resets n } }) ∧
    (¬stuck → Gives (.stuckReset dt n) s u) ∧
    (u.st ≠ .off → notFallen → ∃ t, exec (.edmCheck dt n) s = .next t ∧ (funcOf t n).st = 2 ∧
      (funcOf t n).edmUntil = none ∧ (funcOf t n).lastTripOp = u.ledger.opS ∧ t.safety.tripCount = (u.safety.tripCount + 1) % 65536 ∧
      (∀ ch, (funcCfg u n).soMask.testBit (ch / 2) = true → (nth {} t.safety.so ch).on = false) ∧ faultActive t 0x1117 = true) ∧
    (¬notFallen → Gives (.edmCheck dt n) s u) ∧
    (u.st ≠ .off → u.safety.running = true → ∃ t, exec (.soTestPulse dt n false) s = .next t ∧ faultActive t 0x1112 = true ∧
      rest t = rest (soOff (2 ^ (n / 2)) { u with safety := { u.safety with latch := upd (fun _ => true) u.safety.latch (n / 2) } })) ∧
    (u.safety.running = false → Gives (.soTestPulse dt n false) s u) ∧
    Gives (.soTestPulse dt n true) s u

/-- INPUT_WINDOW_END, FIELD_SUPPLY_RECOVERED, OUTPUT_OVERLOAD, OUTPUT_OVERHEAT, GROUP_OVERCURRENT (18 R469 to R481; log entry 19). -/
def Obligations.FieldInputsSuppliesAndOutputs : Prop :=
  ∀ (dt g ch : Nat) (still : Bool) (w : WindowIn) (s : State), let u := advance s dt
    let sup := fun (f : SupplySt → SupplySt) => { u with field := { u.field with supply := upd f u.field.supply g } }
    let meas := fun (i : Nat) => measureSupply (elNs u) (if i = 0 then w.fs1Mv else w.fs2Mv) (supplyOf u i)
    let c := ch - 1
    let latched := fun (k : Nat) => { u with field := { u.field with dout := upd (fun d => { d with pin := false, latch := k }) u.field.dout c } }
    (u.st ≠ .off → ∃ t, exec (.inputWindowEnd dt w) s = .next t ∧ t.st = u.st ∧
      (∀ n, 1 ≤ n → n ≤ u.field.di.length → nth {} t.field.di (n - 1) =
        (if diSampling u n then window (diBlock u n) (nth 0 w.di (n - 1)) (nth {} u.field.di (n - 1)) else ({} : InSt))) ∧
      (ioPowered u.st = true → ∀ i, i < 2 → i < u.field.supply.length → (supplyOf t i).mv = (meas i).mv ∧ (supplyOf t i).below = (meas i).below ∧
        (nth false (meas i).cond 2 = true → (supplyOf u i).latched = false → (supplyOf t i).latched = true ∧ faultActive t 0x1216 = true ∧
          t.faults.degraded = true ∧ ∀ k, k < 12 → let d := doOf u (k + 12 * i)
            doOf t (k + 12 * i) = (if d.pin then { d with offEl := some (elNs u + 50000 * (nth {} u.cfg.img.fieldIo.outputs (k + 12 * i)).sagRank) } else d))) ∧
      (ioPowered u.st = false → t.field.supply = u.field.supply ∧ t.field.dout = u.field.dout)) ∧
    (u.st = .off → Gives (.inputWindowEnd dt w) s u) ∧
    (4 ≤ (supplyOf u g).goodRun → GivesRest (.fieldSupplyRecovered dt g .below192) s (sup (fun q => { q with cond := upd (fun _ => false) q.cond 0 }))) ∧
    ((supplyOf u g).goodRun < 4 → Gives (.fieldSupplyRecovered dt g .below192) s u) ∧
    (supplyOk100 u g = true → GivesRest (.fieldSupplyRecovered dt g .below160) s { sup (fun q => { q with cond := upd (fun _ => false) q.cond 1 }) with
      safety := { u.safety with supply := upd (fun _ => false) u.safety.supply g } }) ∧
    (supplyOk100 u g = false → Gives (.fieldSupplyRecovered dt g .below160) s u ∧ Gives (.fieldSupplyRecovered dt g .below120) s u) ∧
    (supplyOk100 u g = true → (supplyOf u g).latched = true → (supplyOf u g).armed = true → GivesRest (.fieldSupplyRecovered dt g .below120) s
      (sup (fun q => { q with latched := false, armLow := false, armed := false, cond := upd (fun _ => false) q.cond 2 }))) ∧
    ((supplyOf u g).latched = false ∨ (supplyOf u g).armed = false → Gives (.fieldSupplyRecovered dt g .below120) s u) ∧
    (doLevel u c = true → u.st ≠ .off →
      (∃ t, exec (.outputOverload dt ch) s = .next t ∧ faultActive t 0x1211 = true ∧ rest t = rest (latched 1)) ∧
      ∃ t, exec (.outputOverheat dt ch) s = .next t ∧ faultActive t 0x1212 = true ∧ rest t = rest (latched 2)) ∧
    (doLevel u c = false → Gives (.outputOverload dt ch) s u ∧ Gives (.outputOverheat dt ch) s u) ∧
    (ioPowered u.st = true → g < u.field.supply.length → ∃ t, exec (.groupOvercurrent dt g still) s = .next t ∧
      rest t = rest (sup (fun q => { q with over_ := still })) ∧
      faultActive t 0x1213 = (sup (fun q => { q with over_ := still })).field.supply.any (fun q => q.over_)) ∧
    (ioPowered u.st = false → Gives (.groupOvercurrent dt g still) s u)

/-- INPUT_WINDOW_END (18 R470), ECC_RATE_WINDOW (19 R502). -/
def Obligations.SamplesAndWordsAreJudgedAtTheirLimits : Prop :=
  ∀ (dt n : Nat) (w : WindowIn) (s : State), let u := advance s dt
    let ua := nth 0 w.di (n - 1)
    let old := nth {} u.field.di (n - 1)
    (u.st ≠ .off → 1 ≤ n → n ≤ u.field.di.length → diSampling u n = true → ∃ t, exec (.inputWindowEnd dt w) s = .next t ∧
      let i := nth {} t.field.di (n - 1)
      (2000 ≤ ua → i.prev = true ∧ i.prevBr = false) ∧
      (350 ≤ ua → ua ≤ 1500 → i.prev = false ∧ i.prevBr = false) ∧
      (1500 < ua → ua < 2000 → i.prev = old.prev ∧ i.prevBr = old.prevBr) ∧
      (ua < 350 → i.prev = false ∧ i.prevBr = (diBlock u n).wbEn)) ∧
    (u.st ≠ .off → ∃ t, exec (.eccRateWindow dt) s = .next t ∧
      (faultActive t 0x1310 = true ↔
        u.cfg.img.faultMap.eccRate < ((u.faults.ecc.filter (fun p => decide (u.ledger.opS < p.1 + 3600))).map (·.2)).sum))

/-- FAULT.READ, FAULT.ACK, FIRMWARE_ACK, SLUICE_EXPIRY, CLASS_RECOVERY (19 R491 to R495, R499, R506, R507; log entry 32). -/
def Obligations.FaultsAreReadAcknowledgedAndReacted : Prop :=
  ∀ (dt m code c : Nat) (v : View) (r : Request) (q : List Request) (s : State), let u := advance s dt
    let first := fld r.payload 0 2
    let count := fld r.payload 2 2
    let ack := fld r.payload 0 2
    let n := Nat.min count (512 - first)
    let src := u.faults.src.map (fun p => if ack = 0xFFFF ∨ indexCode p.1 = ack then (p.1, { p.2 with latched := false }) else p)
    let f := srcOf u code
    let crit := criticalDue u || decide (u.faults.criticalAt = some (frameIndex u))
    let due := atTick u = true ∧ sluiceDue u f = true
    let k := Table.get {} u.faults.cls c
    let quietFor := atTick u = true ∧ k.inFault = true ∧ classBusy u c = false ∧ k.lastEl + u.cfg.img.faultMap.quietMs * 1000000 ≤ elNs u
    let up := Nat.min 0xFFFF (k.recovery + 1)
    (Turn u m wFaultRead r q →
      (511 < first → Refused (.faultRead dt m) s u r (errRange 0)) ∧
      (first ≤ 511 → 128 < count → Refused (.faultRead dt m) s u r (errRange 2)) ∧
      (first ≤ 511 → count ≤ 116 → u.view = some v → Answered (.faultRead dt m) s r
        (u16 first ++ u16 n ++ u32 (classFaultBits v.faults) ++ u32 (classPendBits u v.faults) ++ u8 v.faults.degrCause ++
          u8 (outsByte v.faults v.fltN v.faults.degraded) ++ u8 (sevMax v.faults) ++ u8 0 ++ u32 (eccHour u.ledger.opS v.faults.ecc) ++
          u32 v.faults.eccTotal ++ zeros 8 ++ (List.range 32).flatMap (fun x => u16 (Table.get {} v.faults.cls x).recovery) ++
          (List.range n).flatMap (fun i => sourceRecord u v.faults v.el (first + i))) u)) ∧
    (Turn u m wFaultAck r q →
      (ack ≠ 0xFFFF → defaultSev ack = none → Refused (.faultAck dt m) s u r (errRange 0)) ∧
      (ack = 0xFFFF ∨ defaultSev ack ≠ none → queueSize u.ledger.queue < queueCap → ∃ t, exec (.faultAck dt m) s = .next t ∧
        t.faults = { u.faults with src := src } ∧
        Out.msg r.port r.src (respond r (u16 (src.filter (fun p => p.2.latched)).length ++ flag (fltPin t) ++ u8 0) none) ∈ t.out ∧
        quiet (rest t) = quiet (rest u))) ∧
    (f.pending = true → f.withheld = false → u.faults.hostStop = false → Gives (.firmwareAck dt code) s { u with
      faults := { u.faults with src := Table.set u.faults.src (faultIndex code) { f with pending := false, sluiceTick := none } } }) ∧
    (f.pending = false ∨ f.withheld = true ∨ u.faults.hostStop = true → Gives (.firmwareAck dt code) s u) ∧
    (due → faultIndex code ≠ faultIndex 0x1410 → ∃ t, exec (.sluiceExpiry dt code) s = .next t ∧ (srcOf t code).pending = false ∧
      (srcOf t code).sluiceTick = none ∧
      (sluiceReaction code f = 2 → t.faults.mustReset = true ∧ t.lock.held = false ∧ t.faults.criticalAt = some (frameIndex u)) ∧
      (sluiceReaction code f = 1 → crit = false → ∀ b ∈ f.blocks, blockNo b < u.faults.blkReset.length →
        nth false t.faults.blkReset (blockNo b) = true) ∧
      (sluiceReaction code f = 1 → crit = true → (∀ x, cfgReact u x ≤ 2) → t.faults.blkReset = u.faults.blkReset)) ∧
    (¬due → Gives (.sluiceExpiry dt code) s u) ∧
    (quietFor → queueSize u.ledger.queue < queueCap → Gives (.classRecovery dt c) s { u with
      faults := { u.faults with cls := Table.set u.faults.cls c { k with inFault := false, recovery := up } }
      ledger := { u.ledger with queue := if u.st = .off then u.ledger.queue else
        u.ledger.queue ++ [stampRec u { code := 0x1303, data := u8 c ++ u16 up }] } }) ∧
    (¬quietFor → Gives (.classRecovery dt c) s u)

/-- BLOCK_RESET_COMPLETE, FLT_N_HOLD_EXPIRY, SRAM_SCRUB, ECC_RATE_WINDOW (19 R495, R500 to R505). Four or more bit errors: the free value
`Config.eccWide`, log entries 4 and 32. -/
def Obligations.BlocksRestartAndMemoryErrorsCount : Prop :=
  ∀ (dt c bits : Nat) (b : Block) (pass : Bool) (o : SramOwner) (s : State), let u := advance s dt
    let again := fun (last : Option Nat) => match last with | some t => decide (elNs u ≤ t + 600000000000) | none => false
    let plain := b ≠ .saA ∧ b ≠ .saB
    let high := u.cfg.img.faultMap.eccRate < eccHour u.ledger.opS u.faults.ecc
    let ends := decide (u.field.fltEl + 10000000 ≤ elNs u) && !fltHeld u
    (resetDue b u = false → Gives (.blockResetComplete dt b pass) s u) ∧
    (resetDue .saA u = true → ∃ t, exec (.blockResetComplete dt .saA pass) s = .next t ∧ t.faults.lastResetA = some (elNs u) ∧ t.st = u.st ∧
      (pass = true → again u.faults.lastResetA = false → nth false t.faults.blkReset 1 = false ∧ t.chandler.lostA = false) ∧
      (pass = false ∨ again u.faults.lastResetA = true → t.chandler.lostA = true ∧ t.faults.degraded = true ∧
        (u.st ≠ .off → faultActive t 0x1316 = true))) ∧
    (resetDue .saB u = true → ∃ t, exec (.blockResetComplete dt .saB pass) s = .next t ∧ t.faults.lastResetB = some (elNs u) ∧ t.st = u.st ∧
      (pass = true → again u.faults.lastResetB = false → nth false t.faults.blkReset 2 = false ∧ t.chandler.lostB = false) ∧
      (pass = false ∨ again u.faults.lastResetB = true → t.chandler.lostB = true ∧ t.faults.degraded = true ∧
        (u.st ≠ .off → faultActive t 0x1316 = true))) ∧
    (resetDue b u = true → plain → ∃ t, exec (.blockResetComplete dt b pass) s = .next t ∧ t.st = u.st ∧ t.chandler.lostA = u.chandler.lostA ∧
      (pass = true → (∀ x, cfgReact u x ≤ 2) → nth false t.faults.blkReset (blockNo b) = false) ∧
      (pass = false → u.st ≠ .off → faultActive t (nth 0 u.faults.blkBy (blockNo b)) = true) ∧
      (b = .can c → c < 4 → c < u.can.length → (canOf t c).st = .active ∧ (canOf t c).tec = 0 ∧ (canOf t c).safe.content = none)) ∧
    (∃ t, exec (.fltNHoldExpiry dt) s = .next t ∧ t.field.fltN = (u.field.fltN && !ends) ∧ noPins t = noPins u) ∧
    (u.st = .off ∨ bits = 0 → Gives (.sramScrub dt o bits) s u) ∧
    (u.st ≠ .off → bits = 1 ∨ bits = 2 → ∃ t, exec (.sramScrub dt o bits) s = .next t ∧ rest t = rest u ∧
      t.faults.ecc = eccAdd u.ledger.opS u.faults.ecc ∧ t.faults.eccTotal = Nat.min 0xFFFFFFFF (u.faults.eccTotal + 1)) ∧
    (u.st ≠ .off → Raises (.sramScrub dt .host 3) s 0x1312 u ∧ Raises (.sramScrub dt .fce 3) s 0x1312 u ∧
      Raises (.sramScrub dt .gnss 3) s 0x1314 { u with gnss := { u.gnss with epoch := Nat.max u.gnss.epoch (epochInstant u) } } ∧
      Raises (.sramScrub dt .saA 3) s 0x1311 { u with solver := { u.solver with onA := none } } ∧
      Raises (.sramScrub dt .saB 3) s 0x1311 { u with solver := { u.solver with onB := none } } ∧
      (onDuty u.st = false → Raises (.sramScrub dt .checkpoint 3) s 0x1313 { u with
        lock := { u.lock with committed := none, cpArr := none, cpGood := false } }) ∧
      (onDuty u.st = true → Raises (.sramScrub dt .checkpoint 3) s 0x1313 { u with lock := { u.lock with cpBad := true } }) ∧
      (u.safety.running = true → ∃ t, exec (.sramScrub dt .safety 3) s = .next t ∧ t.safety.stopped = true ∧ faultActive t 0x1114 = true) ∧
      (4 ≤ bits → ∃ t, exec (.sramScrub dt o bits) s = .next t ∧ t.nFree = u.nFree + 1)) ∧
    (u.st ≠ .off → ∃ t, exec (.eccRateWindow dt) s = .next t ∧ rest t = rest u ∧ (high → faultActive t 0x1310 = true ∧ t.faults.degraded = true) ∧
      (¬high → faultActive t 0x1310 = false ∧ t.faults.degraded = u.faults.degraded)) ∧
    (u.st = .off → Gives (.eccRateWindow dt) s u)
end

