-- ==== Sys2Proof/Laws/Arith.lean ====
section
/-! SUPPORT. Rounding, saturation, words and tables (00_scope R7, R10, R11). -/

namespace Sys2Proof.Machine

theorem clamp_le {lo hi v : Int} (h : lo ≤ hi) : lo ≤ clamp lo hi v ∧ clamp lo hi v ≤ hi := by
  unfold clamp; split
  · omega
  · split <;> omega

theorem clamp_id {lo hi v : Int} (h1 : lo ≤ v) (h2 : v ≤ hi) : clamp lo hi v = v := by
  unfold clamp; split
  · omega
  · split <;> omega

theorem satU_lt (n v : Nat) : satU n v < 2 ^ n := by
  have h : 0 < 2 ^ n := Nat.pos_of_ne_zero (by simp)
  unfold satU; split <;> omega

theorem satU_id {n v : Nat} (h : v < 2 ^ n) : satU n v = v := by unfold satU; split <;> omega

theorem toWord_lt (n : Nat) (v : Int) : toWord n v < 2 ^ n := by
  have h : (0 : Int) < ((2 ^ n : Nat) : Int) := by exact_mod_cast Nat.pos_of_ne_zero (by simp)
  have h1 := Int.emod_nonneg v (Int.ne_of_gt h)
  have h2 := Int.emod_lt_of_pos v h
  unfold toWord
  omega

/-- Rounding to nearest moves a quotient by at most one half (R11). -/
theorem divEven_near (n : Int) {d : Nat} (hd : 0 < d) : 2 * (divEven n d * d - n).natAbs ≤ d := by
  have hd0 : d ≠ 0 := Nat.ne_of_gt hd
  have hm := Int.mul_fdiv_add_fmod n d
  have h0 : 0 ≤ n.fmod d := Int.fmod_nonneg_of_pos n (by omega)
  have h1 : n.fmod d < d := Int.fmod_lt_of_pos n (by omega)
  have hq : n.fdiv (d : Int) * (d : Int) = (d : Int) * n.fdiv (d : Int) := Int.mul_comm _ _
  have hr : n - n.fdiv (d : Int) * (d : Int) = n.fmod d := by omega
  have hs : (n.fdiv (d : Int) + 1) * (d : Int) = (d : Int) * n.fdiv (d : Int) + d := by rw [Int.add_mul, hq]; omega
  unfold divEven
  simp only [hd0, if_false, hr]
  split
  · omega
  · split
    · rw [hs]; omega
    · split
      · omega
      · rw [hs]; omega

end Sys2Proof.Machine

namespace Sys2Proof.Table

/-- A table after a key is set: that key gives the value, every other gives what it gave. -/
theorem find_set {β : Type} (i : Nat) (v : β) (j : Nat) : ∀ t : Table β, find (set t i v) j = if i = j then some v else find t j
  | [] => by simp [set, find]
  | (k, w) :: r => by
    simp only [set]
    split
    · rename_i he
      subst he
      by_cases hj : i = j <;> simp [find, hj]
    · split
      · by_cases hj : i = j <;> simp [find, hj]
      · rename_i hne _
        by_cases hk : k = j
        · have : i ≠ j := fun e => hne (e.trans hk.symm)
          simp [find, hk, this]
        · simp only [find, hk, if_false]
          exact find_set i v j r

theorem get_eq_find {β : Type} (d : β) : ∀ (t : Table β) (i : Nat), get d t i = (find t i).getD d
  | [], _ => rfl
  | (k, w) :: r, i => by
    by_cases h : k = i
    · simp [get, find, h]
    · simp only [get, find, h, if_false]; exact get_eq_find d r i

theorem get_set {β : Type} (d : β) (i : Nat) (v : β) (j : Nat) (t : Table β) : get d (set t i v) j = if i = j then v else get d t j := by
  simp only [get_eq_find, find_set]
  split <;> rfl

/-- Setting a key keeps the keys strictly rising. -/
theorem sorted_set {β : Type} (i : Nat) (v : β) : ∀ t : Table β, sorted t = true → sorted (set t i v) = true
  | [], _ => rfl
  | [(k, w)], _ => by
    simp only [set]
    split
    · rfl
    · split
      · rename_i h; simp [sorted, h]
      · simp [sorted]; omega
  | (k, w) :: (l, x) :: r, h => by
    have h1 : k < l := by simp [sorted] at h; exact h.1
    have h2 : sorted ((l, x) :: r) = true := by simp [sorted] at h; exact h.2
    have ih := sorted_set i v ((l, x) :: r) h2
    simp only [set] at ih ⊢
    split
    · rename_i he; subst he; simp [sorted, h1, h2]
    · split
      · rename_i _ hlt; simp [sorted, hlt, h1, h2]
      · rename_i hne hge
        split
        · rename_i he
          subst he
          simp only [if_true] at ih
          simp [sorted, h1, ih]
        · rename_i hne2
          simp only [hne2, if_false] at ih
          split
          · rename_i hlt
            simp only [hlt, if_true] at ih
            have hki : k < i := by omega
            simp [sorted, hki, hlt, h2]
          · rename_i hge2
            simp only [hge2, if_false] at ih
            simp [sorted, h1, ih]

end Sys2Proof.Table
end

