-- ==== Sys2Proof/Laws/Checkpoint.lean ====
section
/-! SUPPORT. A part of a checkpoint reads back as it was laid, whatever the order of its bytes (12_lock_group Table 12-6). -/

namespace Sys2Proof.Laws

open Sys2Proof.Machine

theorem cpScatter_length (f : Nat → Nat) (n : Nat) (bs : Bytes) : (cpScatter f n bs).length = n := by
  induction n generalizing bs with
  | zero => rfl
  | succ n ih => simp [cpScatter, ih]

/-- Gathering undoes scattering. -/
theorem cpGather_cpScatter (f : Nat → Nat) (n : Nat) (bs : Bytes) (h : bs.length = n) : cpGather f (cpScatter f n bs) = bs := by
  induction n generalizing bs with
  | zero => simpa [cpScatter, cpGather] using (List.length_eq_zero_iff.mp h).symm
  | succ n ih =>
    have hk : f (n + 1) % (n + 1) < bs.length := by rw [h]; exact Nat.mod_lt _ (Nat.succ_pos n)
    simp only [cpScatter, cpGather, cpScatter_length]
    rw [ih _ (by rw [List.length_eraseIdx_of_lt hk]; omega), List.getD_eq_getElem _ _ hk]
    exact List.insertIdx_eraseIdx_getElem hk

theorem padTo_length (n : Nat) (bs : Bytes) : (padTo n bs).length = n := by simp [padTo, zeros]

/-- A part as laid is as long as Table 12-6 says. -/
theorem cpLay_length (k len : Nat) (bs : Bytes) : (cpLay k len bs).length = len := cpScatter_length _ _ _

/-- A part reads back as it was laid. -/
theorem cpUnlay_cpLay (k len : Nat) (bs : Bytes) : cpUnlay k (cpLay k len bs) = padTo len bs :=
  cpGather_cpScatter _ _ _ (padTo_length len bs)

end Sys2Proof.Laws
end

