-- ==== Sys2Proof/Laws/State.lean ====
section
/-! SUPPORT. The fields of a state after each of the updates that the meanings are built from: one lemma per field per update, true by
definition. -/

namespace Sys2Proof.Machine

variable (s : State)

/-! `advance` -/

@[simp] theorem advance_pending (d : Nat) : (advance s d).pending = s.pending := rfl
@[simp] theorem advance_out (d : Nat) : (advance s d).out = [] := rfl
@[simp] theorem advance_nFree (d : Nat) : (advance s d).nFree = s.nFree := rfl
@[simp] theorem advance_unit (d : Nat) : (advance s d).unit = s.unit := rfl
@[simp] theorem advance_clk (d : Nat) : (advance s d).clk = s.clk.tick s.st d := rfl
@[simp] theorem advance_st (d : Nat) : (advance s d).st = s.st := rfl
@[simp] theorem advance_frame (d : Nat) : (advance s d).frame = s.frame := rfl
@[simp] theorem advance_time (d : Nat) : (advance s d).time = s.time := rfl
@[simp] theorem advance_rtc (d : Nat) : (advance s d).rtc = s.rtc := rfl
@[simp] theorem advance_mb (d : Nat) : (advance s d).mb = s.mb := rfl
@[simp] theorem advance_view (d : Nat) : (advance s d).view = s.view := rfl
@[simp] theorem advance_viewNext (d : Nat) : (advance s d).viewNext = s.viewNext := rfl
@[simp] theorem advance_cfg (d : Nat) : (advance s d).cfg = s.cfg := rfl
@[simp] theorem advance_store (d : Nat) : (advance s d).store = s.store := rfl
@[simp] theorem advance_close (d : Nat) : (advance s d).close = s.close := rfl
@[simp] theorem advance_snap (d : Nat) : (advance s d).snap = s.snap := rfl
@[simp] theorem advance_intake (d : Nat) : (advance s d).intake = s.intake := rfl
@[simp] theorem advance_analog (d : Nat) : (advance s d).analog = s.analog := rfl
@[simp] theorem advance_fusion (d : Nat) : (advance s d).fusion = s.fusion := rfl
@[simp] theorem advance_obs (d : Nat) : (advance s d).obs = s.obs := rfl
@[simp] theorem advance_sp (d : Nat) : (advance s d).sp = s.sp := rfl
@[simp] theorem advance_alloc (d : Nat) : (advance s d).alloc = s.alloc := rfl
@[simp] theorem advance_solver (d : Nat) : (advance s d).solver = s.solver := rfl
@[simp] theorem advance_chandler (d : Nat) : (advance s d).chandler = s.chandler := rfl
@[simp] theorem advance_lock (d : Nat) : (advance s d).lock = s.lock := rfl
@[simp] theorem advance_bring (d : Nat) : (advance s d).bring = s.bring := rfl
@[simp] theorem advance_gnss (d : Nat) : (advance s d).gnss = s.gnss := rfl
@[simp] theorem advance_can (d : Nat) : (advance s d).can = s.can := rfl
@[simp] theorem advance_slots (d : Nat) : (advance s d).slots = s.slots := rfl
@[simp] theorem advance_osc (d : Nat) : (advance s d).osc = s.osc := rfl
@[simp] theorem advance_safety (d : Nat) : (advance s d).safety = s.safety := rfl
@[simp] theorem advance_field (d : Nat) : (advance s d).field = s.field := rfl
@[simp] theorem advance_faults (d : Nat) : (advance s d).faults = s.faults := rfl
@[simp] theorem advance_ledger (d : Nat) : (advance s d).ledger = s.ledger.tick d := rfl

/-! `emit` -/

@[simp] theorem emit_pending (o : Out) : (emit o s).pending = s.pending := rfl
@[simp] theorem emit_out (o : Out) : (emit o s).out = s.out ++ [o] := rfl
@[simp] theorem emit_nFree (o : Out) : (emit o s).nFree = s.nFree := rfl
@[simp] theorem emit_unit (o : Out) : (emit o s).unit = s.unit := rfl
@[simp] theorem emit_clk (o : Out) : (emit o s).clk = s.clk := rfl
@[simp] theorem emit_st (o : Out) : (emit o s).st = s.st := rfl
@[simp] theorem emit_frame (o : Out) : (emit o s).frame = s.frame := rfl
@[simp] theorem emit_time (o : Out) : (emit o s).time = s.time := rfl
@[simp] theorem emit_rtc (o : Out) : (emit o s).rtc = s.rtc := rfl
@[simp] theorem emit_mb (o : Out) : (emit o s).mb = s.mb := rfl
@[simp] theorem emit_view (o : Out) : (emit o s).view = s.view := rfl
@[simp] theorem emit_viewNext (o : Out) : (emit o s).viewNext = s.viewNext := rfl
@[simp] theorem emit_cfg (o : Out) : (emit o s).cfg = s.cfg := rfl
@[simp] theorem emit_store (o : Out) : (emit o s).store = s.store := rfl
@[simp] theorem emit_close (o : Out) : (emit o s).close = s.close := rfl
@[simp] theorem emit_snap (o : Out) : (emit o s).snap = s.snap := rfl
@[simp] theorem emit_intake (o : Out) : (emit o s).intake = s.intake := rfl
@[simp] theorem emit_analog (o : Out) : (emit o s).analog = s.analog := rfl
@[simp] theorem emit_fusion (o : Out) : (emit o s).fusion = s.fusion := rfl
@[simp] theorem emit_obs (o : Out) : (emit o s).obs = s.obs := rfl
@[simp] theorem emit_sp (o : Out) : (emit o s).sp = s.sp := rfl
@[simp] theorem emit_alloc (o : Out) : (emit o s).alloc = s.alloc := rfl
@[simp] theorem emit_solver (o : Out) : (emit o s).solver = s.solver := rfl
@[simp] theorem emit_chandler (o : Out) : (emit o s).chandler = s.chandler := rfl
@[simp] theorem emit_lock (o : Out) : (emit o s).lock = s.lock := rfl
@[simp] theorem emit_bring (o : Out) : (emit o s).bring = s.bring := rfl
@[simp] theorem emit_gnss (o : Out) : (emit o s).gnss = s.gnss := rfl
@[simp] theorem emit_can (o : Out) : (emit o s).can = s.can := rfl
@[simp] theorem emit_slots (o : Out) : (emit o s).slots = s.slots := rfl
@[simp] theorem emit_osc (o : Out) : (emit o s).osc = s.osc := rfl
@[simp] theorem emit_safety (o : Out) : (emit o s).safety = s.safety := rfl
@[simp] theorem emit_field (o : Out) : (emit o s).field = s.field := rfl
@[simp] theorem emit_faults (o : Out) : (emit o s).faults = s.faults := rfl
@[simp] theorem emit_ledger (o : Out) : (emit o s).ledger = s.ledger := rfl

/-! `emitAll` -/

@[simp] theorem emitAll_pending (os : List Out) : (emitAll os s).pending = s.pending := rfl
@[simp] theorem emitAll_out (os : List Out) : (emitAll os s).out = s.out ++ os := rfl
@[simp] theorem emitAll_nFree (os : List Out) : (emitAll os s).nFree = s.nFree := rfl
@[simp] theorem emitAll_unit (os : List Out) : (emitAll os s).unit = s.unit := rfl
@[simp] theorem emitAll_clk (os : List Out) : (emitAll os s).clk = s.clk := rfl
@[simp] theorem emitAll_st (os : List Out) : (emitAll os s).st = s.st := rfl
@[simp] theorem emitAll_frame (os : List Out) : (emitAll os s).frame = s.frame := rfl
@[simp] theorem emitAll_time (os : List Out) : (emitAll os s).time = s.time := rfl
@[simp] theorem emitAll_rtc (os : List Out) : (emitAll os s).rtc = s.rtc := rfl
@[simp] theorem emitAll_mb (os : List Out) : (emitAll os s).mb = s.mb := rfl
@[simp] theorem emitAll_view (os : List Out) : (emitAll os s).view = s.view := rfl
@[simp] theorem emitAll_viewNext (os : List Out) : (emitAll os s).viewNext = s.viewNext := rfl
@[simp] theorem emitAll_cfg (os : List Out) : (emitAll os s).cfg = s.cfg := rfl
@[simp] theorem emitAll_store (os : List Out) : (emitAll os s).store = s.store := rfl
@[simp] theorem emitAll_close (os : List Out) : (emitAll os s).close = s.close := rfl
@[simp] theorem emitAll_snap (os : List Out) : (emitAll os s).snap = s.snap := rfl
@[simp] theorem emitAll_intake (os : List Out) : (emitAll os s).intake = s.intake := rfl
@[simp] theorem emitAll_analog (os : List Out) : (emitAll os s).analog = s.analog := rfl
@[simp] theorem emitAll_fusion (os : List Out) : (emitAll os s).fusion = s.fusion := rfl
@[simp] theorem emitAll_obs (os : List Out) : (emitAll os s).obs = s.obs := rfl
@[simp] theorem emitAll_sp (os : List Out) : (emitAll os s).sp = s.sp := rfl
@[simp] theorem emitAll_alloc (os : List Out) : (emitAll os s).alloc = s.alloc := rfl
@[simp] theorem emitAll_solver (os : List Out) : (emitAll os s).solver = s.solver := rfl
@[simp] theorem emitAll_chandler (os : List Out) : (emitAll os s).chandler = s.chandler := rfl
@[simp] theorem emitAll_lock (os : List Out) : (emitAll os s).lock = s.lock := rfl
@[simp] theorem emitAll_bring (os : List Out) : (emitAll os s).bring = s.bring := rfl
@[simp] theorem emitAll_gnss (os : List Out) : (emitAll os s).gnss = s.gnss := rfl
@[simp] theorem emitAll_can (os : List Out) : (emitAll os s).can = s.can := rfl
@[simp] theorem emitAll_slots (os : List Out) : (emitAll os s).slots = s.slots := rfl
@[simp] theorem emitAll_osc (os : List Out) : (emitAll os s).osc = s.osc := rfl
@[simp] theorem emitAll_safety (os : List Out) : (emitAll os s).safety = s.safety := rfl
@[simp] theorem emitAll_field (os : List Out) : (emitAll os s).field = s.field := rfl
@[simp] theorem emitAll_faults (os : List Out) : (emitAll os s).faults = s.faults := rfl
@[simp] theorem emitAll_ledger (os : List Out) : (emitAll os s).ledger = s.ledger := rfl

/-! `nextFree` -/

@[simp] theorem nextFree_pending : (nextFree s).pending = s.pending := rfl
@[simp] theorem nextFree_out : (nextFree s).out = s.out := rfl
@[simp] theorem nextFree_nFree : (nextFree s).nFree = s.nFree + 1 := rfl
@[simp] theorem nextFree_unit : (nextFree s).unit = s.unit := rfl
@[simp] theorem nextFree_clk : (nextFree s).clk = s.clk := rfl
@[simp] theorem nextFree_st : (nextFree s).st = s.st := rfl
@[simp] theorem nextFree_frame : (nextFree s).frame = s.frame := rfl
@[simp] theorem nextFree_time : (nextFree s).time = s.time := rfl
@[simp] theorem nextFree_rtc : (nextFree s).rtc = s.rtc := rfl
@[simp] theorem nextFree_mb : (nextFree s).mb = s.mb := rfl
@[simp] theorem nextFree_view : (nextFree s).view = s.view := rfl
@[simp] theorem nextFree_viewNext : (nextFree s).viewNext = s.viewNext := rfl
@[simp] theorem nextFree_cfg : (nextFree s).cfg = s.cfg := rfl
@[simp] theorem nextFree_store : (nextFree s).store = s.store := rfl
@[simp] theorem nextFree_close : (nextFree s).close = s.close := rfl
@[simp] theorem nextFree_snap : (nextFree s).snap = s.snap := rfl
@[simp] theorem nextFree_intake : (nextFree s).intake = s.intake := rfl
@[simp] theorem nextFree_analog : (nextFree s).analog = s.analog := rfl
@[simp] theorem nextFree_fusion : (nextFree s).fusion = s.fusion := rfl
@[simp] theorem nextFree_obs : (nextFree s).obs = s.obs := rfl
@[simp] theorem nextFree_sp : (nextFree s).sp = s.sp := rfl
@[simp] theorem nextFree_alloc : (nextFree s).alloc = s.alloc := rfl
@[simp] theorem nextFree_solver : (nextFree s).solver = s.solver := rfl
@[simp] theorem nextFree_chandler : (nextFree s).chandler = s.chandler := rfl
@[simp] theorem nextFree_lock : (nextFree s).lock = s.lock := rfl
@[simp] theorem nextFree_bring : (nextFree s).bring = s.bring := rfl
@[simp] theorem nextFree_gnss : (nextFree s).gnss = s.gnss := rfl
@[simp] theorem nextFree_can : (nextFree s).can = s.can := rfl
@[simp] theorem nextFree_slots : (nextFree s).slots = s.slots := rfl
@[simp] theorem nextFree_osc : (nextFree s).osc = s.osc := rfl
@[simp] theorem nextFree_safety : (nextFree s).safety = s.safety := rfl
@[simp] theorem nextFree_field : (nextFree s).field = s.field := rfl
@[simp] theorem nextFree_faults : (nextFree s).faults = s.faults := rfl
@[simp] theorem nextFree_ledger : (nextFree s).ledger = s.ledger := rfl

/-! `setBox` -/

@[simp] theorem setBox_pending (m : Nat) (b : Mbox) : (setBox m b s).pending = s.pending := rfl
@[simp] theorem setBox_out (m : Nat) (b : Mbox) : (setBox m b s).out = s.out := rfl
@[simp] theorem setBox_nFree (m : Nat) (b : Mbox) : (setBox m b s).nFree = s.nFree := rfl
@[simp] theorem setBox_unit (m : Nat) (b : Mbox) : (setBox m b s).unit = s.unit := rfl
@[simp] theorem setBox_clk (m : Nat) (b : Mbox) : (setBox m b s).clk = s.clk := rfl
@[simp] theorem setBox_st (m : Nat) (b : Mbox) : (setBox m b s).st = s.st := rfl
@[simp] theorem setBox_frame (m : Nat) (b : Mbox) : (setBox m b s).frame = s.frame := rfl
@[simp] theorem setBox_time (m : Nat) (b : Mbox) : (setBox m b s).time = s.time := rfl
@[simp] theorem setBox_rtc (m : Nat) (b : Mbox) : (setBox m b s).rtc = s.rtc := rfl
@[simp] theorem setBox_mb (m : Nat) (b : Mbox) : (setBox m b s).mb = { s.mb with boxes := upd (fun _ => b) s.mb.boxes m } := rfl
@[simp] theorem setBox_view (m : Nat) (b : Mbox) : (setBox m b s).view = s.view := rfl
@[simp] theorem setBox_viewNext (m : Nat) (b : Mbox) : (setBox m b s).viewNext = s.viewNext := rfl
@[simp] theorem setBox_cfg (m : Nat) (b : Mbox) : (setBox m b s).cfg = s.cfg := rfl
@[simp] theorem setBox_store (m : Nat) (b : Mbox) : (setBox m b s).store = s.store := rfl
@[simp] theorem setBox_close (m : Nat) (b : Mbox) : (setBox m b s).close = s.close := rfl
@[simp] theorem setBox_snap (m : Nat) (b : Mbox) : (setBox m b s).snap = s.snap := rfl
@[simp] theorem setBox_intake (m : Nat) (b : Mbox) : (setBox m b s).intake = s.intake := rfl
@[simp] theorem setBox_analog (m : Nat) (b : Mbox) : (setBox m b s).analog = s.analog := rfl
@[simp] theorem setBox_fusion (m : Nat) (b : Mbox) : (setBox m b s).fusion = s.fusion := rfl
@[simp] theorem setBox_obs (m : Nat) (b : Mbox) : (setBox m b s).obs = s.obs := rfl
@[simp] theorem setBox_sp (m : Nat) (b : Mbox) : (setBox m b s).sp = s.sp := rfl
@[simp] theorem setBox_alloc (m : Nat) (b : Mbox) : (setBox m b s).alloc = s.alloc := rfl
@[simp] theorem setBox_solver (m : Nat) (b : Mbox) : (setBox m b s).solver = s.solver := rfl
@[simp] theorem setBox_chandler (m : Nat) (b : Mbox) : (setBox m b s).chandler = s.chandler := rfl
@[simp] theorem setBox_lock (m : Nat) (b : Mbox) : (setBox m b s).lock = s.lock := rfl
@[simp] theorem setBox_bring (m : Nat) (b : Mbox) : (setBox m b s).bring = s.bring := rfl
@[simp] theorem setBox_gnss (m : Nat) (b : Mbox) : (setBox m b s).gnss = s.gnss := rfl
@[simp] theorem setBox_can (m : Nat) (b : Mbox) : (setBox m b s).can = s.can := rfl
@[simp] theorem setBox_slots (m : Nat) (b : Mbox) : (setBox m b s).slots = s.slots := rfl
@[simp] theorem setBox_osc (m : Nat) (b : Mbox) : (setBox m b s).osc = s.osc := rfl
@[simp] theorem setBox_safety (m : Nat) (b : Mbox) : (setBox m b s).safety = s.safety := rfl
@[simp] theorem setBox_field (m : Nat) (b : Mbox) : (setBox m b s).field = s.field := rfl
@[simp] theorem setBox_faults (m : Nat) (b : Mbox) : (setBox m b s).faults = s.faults := rfl
@[simp] theorem setBox_ledger (m : Nat) (b : Mbox) : (setBox m b s).ledger = s.ledger := rfl

/-! `setSrc` -/

@[simp] theorem setSrc_pending (c : Nat) (f : FaultSt) : (setSrc c f s).pending = s.pending := rfl
@[simp] theorem setSrc_out (c : Nat) (f : FaultSt) : (setSrc c f s).out = s.out := rfl
@[simp] theorem setSrc_nFree (c : Nat) (f : FaultSt) : (setSrc c f s).nFree = s.nFree := rfl
@[simp] theorem setSrc_unit (c : Nat) (f : FaultSt) : (setSrc c f s).unit = s.unit := rfl
@[simp] theorem setSrc_clk (c : Nat) (f : FaultSt) : (setSrc c f s).clk = s.clk := rfl
@[simp] theorem setSrc_st (c : Nat) (f : FaultSt) : (setSrc c f s).st = s.st := rfl
@[simp] theorem setSrc_frame (c : Nat) (f : FaultSt) : (setSrc c f s).frame = s.frame := rfl
@[simp] theorem setSrc_time (c : Nat) (f : FaultSt) : (setSrc c f s).time = s.time := rfl
@[simp] theorem setSrc_rtc (c : Nat) (f : FaultSt) : (setSrc c f s).rtc = s.rtc := rfl
@[simp] theorem setSrc_mb (c : Nat) (f : FaultSt) : (setSrc c f s).mb = s.mb := rfl
@[simp] theorem setSrc_view (c : Nat) (f : FaultSt) : (setSrc c f s).view = s.view := rfl
@[simp] theorem setSrc_viewNext (c : Nat) (f : FaultSt) : (setSrc c f s).viewNext = s.viewNext := rfl
@[simp] theorem setSrc_cfg (c : Nat) (f : FaultSt) : (setSrc c f s).cfg = s.cfg := rfl
@[simp] theorem setSrc_store (c : Nat) (f : FaultSt) : (setSrc c f s).store = s.store := rfl
@[simp] theorem setSrc_close (c : Nat) (f : FaultSt) : (setSrc c f s).close = s.close := rfl
@[simp] theorem setSrc_snap (c : Nat) (f : FaultSt) : (setSrc c f s).snap = s.snap := rfl
@[simp] theorem setSrc_intake (c : Nat) (f : FaultSt) : (setSrc c f s).intake = s.intake := rfl
@[simp] theorem setSrc_analog (c : Nat) (f : FaultSt) : (setSrc c f s).analog = s.analog := rfl
@[simp] theorem setSrc_fusion (c : Nat) (f : FaultSt) : (setSrc c f s).fusion = s.fusion := rfl
@[simp] theorem setSrc_obs (c : Nat) (f : FaultSt) : (setSrc c f s).obs = s.obs := rfl
@[simp] theorem setSrc_sp (c : Nat) (f : FaultSt) : (setSrc c f s).sp = s.sp := rfl
@[simp] theorem setSrc_alloc (c : Nat) (f : FaultSt) : (setSrc c f s).alloc = s.alloc := rfl
@[simp] theorem setSrc_solver (c : Nat) (f : FaultSt) : (setSrc c f s).solver = s.solver := rfl
@[simp] theorem setSrc_chandler (c : Nat) (f : FaultSt) : (setSrc c f s).chandler = s.chandler := rfl
@[simp] theorem setSrc_lock (c : Nat) (f : FaultSt) : (setSrc c f s).lock = s.lock := rfl
@[simp] theorem setSrc_bring (c : Nat) (f : FaultSt) : (setSrc c f s).bring = s.bring := rfl
@[simp] theorem setSrc_gnss (c : Nat) (f : FaultSt) : (setSrc c f s).gnss = s.gnss := rfl
@[simp] theorem setSrc_can (c : Nat) (f : FaultSt) : (setSrc c f s).can = s.can := rfl
@[simp] theorem setSrc_slots (c : Nat) (f : FaultSt) : (setSrc c f s).slots = s.slots := rfl
@[simp] theorem setSrc_osc (c : Nat) (f : FaultSt) : (setSrc c f s).osc = s.osc := rfl
@[simp] theorem setSrc_safety (c : Nat) (f : FaultSt) : (setSrc c f s).safety = s.safety := rfl
@[simp] theorem setSrc_field (c : Nat) (f : FaultSt) : (setSrc c f s).field = s.field := rfl
@[simp] theorem setSrc_faults (c : Nat) (f : FaultSt) : (setSrc c f s).faults = { s.faults with src := Table.set s.faults.src (faultIndex c) f } := rfl
@[simp] theorem setSrc_ledger (c : Nat) (f : FaultSt) : (setSrc c f s).ledger = s.ledger := rfl

/-! `setLock` -/

@[simp] theorem setLock_pending (f : LockSt → LockSt) : (setLock f s).pending = s.pending := rfl
@[simp] theorem setLock_out (f : LockSt → LockSt) : (setLock f s).out = s.out := rfl
@[simp] theorem setLock_nFree (f : LockSt → LockSt) : (setLock f s).nFree = s.nFree := rfl
@[simp] theorem setLock_unit (f : LockSt → LockSt) : (setLock f s).unit = s.unit := rfl
@[simp] theorem setLock_clk (f : LockSt → LockSt) : (setLock f s).clk = s.clk := rfl
@[simp] theorem setLock_st (f : LockSt → LockSt) : (setLock f s).st = s.st := rfl
@[simp] theorem setLock_frame (f : LockSt → LockSt) : (setLock f s).frame = s.frame := rfl
@[simp] theorem setLock_time (f : LockSt → LockSt) : (setLock f s).time = s.time := rfl
@[simp] theorem setLock_rtc (f : LockSt → LockSt) : (setLock f s).rtc = s.rtc := rfl
@[simp] theorem setLock_mb (f : LockSt → LockSt) : (setLock f s).mb = s.mb := rfl
@[simp] theorem setLock_view (f : LockSt → LockSt) : (setLock f s).view = s.view := rfl
@[simp] theorem setLock_viewNext (f : LockSt → LockSt) : (setLock f s).viewNext = s.viewNext := rfl
@[simp] theorem setLock_cfg (f : LockSt → LockSt) : (setLock f s).cfg = s.cfg := rfl
@[simp] theorem setLock_store (f : LockSt → LockSt) : (setLock f s).store = s.store := rfl
@[simp] theorem setLock_close (f : LockSt → LockSt) : (setLock f s).close = s.close := rfl
@[simp] theorem setLock_snap (f : LockSt → LockSt) : (setLock f s).snap = s.snap := rfl
@[simp] theorem setLock_intake (f : LockSt → LockSt) : (setLock f s).intake = s.intake := rfl
@[simp] theorem setLock_analog (f : LockSt → LockSt) : (setLock f s).analog = s.analog := rfl
@[simp] theorem setLock_fusion (f : LockSt → LockSt) : (setLock f s).fusion = s.fusion := rfl
@[simp] theorem setLock_obs (f : LockSt → LockSt) : (setLock f s).obs = s.obs := rfl
@[simp] theorem setLock_sp (f : LockSt → LockSt) : (setLock f s).sp = s.sp := rfl
@[simp] theorem setLock_alloc (f : LockSt → LockSt) : (setLock f s).alloc = s.alloc := rfl
@[simp] theorem setLock_solver (f : LockSt → LockSt) : (setLock f s).solver = s.solver := rfl
@[simp] theorem setLock_chandler (f : LockSt → LockSt) : (setLock f s).chandler = s.chandler := rfl
@[simp] theorem setLock_lock (f : LockSt → LockSt) : (setLock f s).lock = f s.lock := rfl
@[simp] theorem setLock_bring (f : LockSt → LockSt) : (setLock f s).bring = s.bring := rfl
@[simp] theorem setLock_gnss (f : LockSt → LockSt) : (setLock f s).gnss = s.gnss := rfl
@[simp] theorem setLock_can (f : LockSt → LockSt) : (setLock f s).can = s.can := rfl
@[simp] theorem setLock_slots (f : LockSt → LockSt) : (setLock f s).slots = s.slots := rfl
@[simp] theorem setLock_osc (f : LockSt → LockSt) : (setLock f s).osc = s.osc := rfl
@[simp] theorem setLock_safety (f : LockSt → LockSt) : (setLock f s).safety = s.safety := rfl
@[simp] theorem setLock_field (f : LockSt → LockSt) : (setLock f s).field = s.field := rfl
@[simp] theorem setLock_faults (f : LockSt → LockSt) : (setLock f s).faults = s.faults := rfl
@[simp] theorem setLock_ledger (f : LockSt → LockSt) : (setLock f s).ledger = s.ledger := rfl

/-! `setCfg` -/

@[simp] theorem setCfg_pending (f : CfgSt → CfgSt) : (setCfg f s).pending = s.pending := rfl
@[simp] theorem setCfg_out (f : CfgSt → CfgSt) : (setCfg f s).out = s.out := rfl
@[simp] theorem setCfg_nFree (f : CfgSt → CfgSt) : (setCfg f s).nFree = s.nFree := rfl
@[simp] theorem setCfg_unit (f : CfgSt → CfgSt) : (setCfg f s).unit = s.unit := rfl
@[simp] theorem setCfg_clk (f : CfgSt → CfgSt) : (setCfg f s).clk = s.clk := rfl
@[simp] theorem setCfg_st (f : CfgSt → CfgSt) : (setCfg f s).st = s.st := rfl
@[simp] theorem setCfg_frame (f : CfgSt → CfgSt) : (setCfg f s).frame = s.frame := rfl
@[simp] theorem setCfg_time (f : CfgSt → CfgSt) : (setCfg f s).time = s.time := rfl
@[simp] theorem setCfg_rtc (f : CfgSt → CfgSt) : (setCfg f s).rtc = s.rtc := rfl
@[simp] theorem setCfg_mb (f : CfgSt → CfgSt) : (setCfg f s).mb = s.mb := rfl
@[simp] theorem setCfg_view (f : CfgSt → CfgSt) : (setCfg f s).view = s.view := rfl
@[simp] theorem setCfg_viewNext (f : CfgSt → CfgSt) : (setCfg f s).viewNext = s.viewNext := rfl
@[simp] theorem setCfg_cfg (f : CfgSt → CfgSt) : (setCfg f s).cfg = f s.cfg := rfl
@[simp] theorem setCfg_store (f : CfgSt → CfgSt) : (setCfg f s).store = s.store := rfl
@[simp] theorem setCfg_close (f : CfgSt → CfgSt) : (setCfg f s).close = s.close := rfl
@[simp] theorem setCfg_snap (f : CfgSt → CfgSt) : (setCfg f s).snap = s.snap := rfl
@[simp] theorem setCfg_intake (f : CfgSt → CfgSt) : (setCfg f s).intake = s.intake := rfl
@[simp] theorem setCfg_analog (f : CfgSt → CfgSt) : (setCfg f s).analog = s.analog := rfl
@[simp] theorem setCfg_fusion (f : CfgSt → CfgSt) : (setCfg f s).fusion = s.fusion := rfl
@[simp] theorem setCfg_obs (f : CfgSt → CfgSt) : (setCfg f s).obs = s.obs := rfl
@[simp] theorem setCfg_sp (f : CfgSt → CfgSt) : (setCfg f s).sp = s.sp := rfl
@[simp] theorem setCfg_alloc (f : CfgSt → CfgSt) : (setCfg f s).alloc = s.alloc := rfl
@[simp] theorem setCfg_solver (f : CfgSt → CfgSt) : (setCfg f s).solver = s.solver := rfl
@[simp] theorem setCfg_chandler (f : CfgSt → CfgSt) : (setCfg f s).chandler = s.chandler := rfl
@[simp] theorem setCfg_lock (f : CfgSt → CfgSt) : (setCfg f s).lock = s.lock := rfl
@[simp] theorem setCfg_bring (f : CfgSt → CfgSt) : (setCfg f s).bring = s.bring := rfl
@[simp] theorem setCfg_gnss (f : CfgSt → CfgSt) : (setCfg f s).gnss = s.gnss := rfl
@[simp] theorem setCfg_can (f : CfgSt → CfgSt) : (setCfg f s).can = s.can := rfl
@[simp] theorem setCfg_slots (f : CfgSt → CfgSt) : (setCfg f s).slots = s.slots := rfl
@[simp] theorem setCfg_osc (f : CfgSt → CfgSt) : (setCfg f s).osc = s.osc := rfl
@[simp] theorem setCfg_safety (f : CfgSt → CfgSt) : (setCfg f s).safety = s.safety := rfl
@[simp] theorem setCfg_field (f : CfgSt → CfgSt) : (setCfg f s).field = s.field := rfl
@[simp] theorem setCfg_faults (f : CfgSt → CfgSt) : (setCfg f s).faults = s.faults := rfl
@[simp] theorem setCfg_ledger (f : CfgSt → CfgSt) : (setCfg f s).ledger = s.ledger := rfl

/-! `setObs` -/

@[simp] theorem setObs_pending (f : ObsSt → ObsSt) : (setObs f s).pending = s.pending := rfl
@[simp] theorem setObs_out (f : ObsSt → ObsSt) : (setObs f s).out = s.out := rfl
@[simp] theorem setObs_nFree (f : ObsSt → ObsSt) : (setObs f s).nFree = s.nFree := rfl
@[simp] theorem setObs_unit (f : ObsSt → ObsSt) : (setObs f s).unit = s.unit := rfl
@[simp] theorem setObs_clk (f : ObsSt → ObsSt) : (setObs f s).clk = s.clk := rfl
@[simp] theorem setObs_st (f : ObsSt → ObsSt) : (setObs f s).st = s.st := rfl
@[simp] theorem setObs_frame (f : ObsSt → ObsSt) : (setObs f s).frame = s.frame := rfl
@[simp] theorem setObs_time (f : ObsSt → ObsSt) : (setObs f s).time = s.time := rfl
@[simp] theorem setObs_rtc (f : ObsSt → ObsSt) : (setObs f s).rtc = s.rtc := rfl
@[simp] theorem setObs_mb (f : ObsSt → ObsSt) : (setObs f s).mb = s.mb := rfl
@[simp] theorem setObs_view (f : ObsSt → ObsSt) : (setObs f s).view = s.view := rfl
@[simp] theorem setObs_viewNext (f : ObsSt → ObsSt) : (setObs f s).viewNext = s.viewNext := rfl
@[simp] theorem setObs_cfg (f : ObsSt → ObsSt) : (setObs f s).cfg = s.cfg := rfl
@[simp] theorem setObs_store (f : ObsSt → ObsSt) : (setObs f s).store = s.store := rfl
@[simp] theorem setObs_close (f : ObsSt → ObsSt) : (setObs f s).close = s.close := rfl
@[simp] theorem setObs_snap (f : ObsSt → ObsSt) : (setObs f s).snap = s.snap := rfl
@[simp] theorem setObs_intake (f : ObsSt → ObsSt) : (setObs f s).intake = s.intake := rfl
@[simp] theorem setObs_analog (f : ObsSt → ObsSt) : (setObs f s).analog = s.analog := rfl
@[simp] theorem setObs_fusion (f : ObsSt → ObsSt) : (setObs f s).fusion = s.fusion := rfl
@[simp] theorem setObs_obs (f : ObsSt → ObsSt) : (setObs f s).obs = f s.obs := rfl
@[simp] theorem setObs_sp (f : ObsSt → ObsSt) : (setObs f s).sp = s.sp := rfl
@[simp] theorem setObs_alloc (f : ObsSt → ObsSt) : (setObs f s).alloc = s.alloc := rfl
@[simp] theorem setObs_solver (f : ObsSt → ObsSt) : (setObs f s).solver = s.solver := rfl
@[simp] theorem setObs_chandler (f : ObsSt → ObsSt) : (setObs f s).chandler = s.chandler := rfl
@[simp] theorem setObs_lock (f : ObsSt → ObsSt) : (setObs f s).lock = s.lock := rfl
@[simp] theorem setObs_bring (f : ObsSt → ObsSt) : (setObs f s).bring = s.bring := rfl
@[simp] theorem setObs_gnss (f : ObsSt → ObsSt) : (setObs f s).gnss = s.gnss := rfl
@[simp] theorem setObs_can (f : ObsSt → ObsSt) : (setObs f s).can = s.can := rfl
@[simp] theorem setObs_slots (f : ObsSt → ObsSt) : (setObs f s).slots = s.slots := rfl
@[simp] theorem setObs_osc (f : ObsSt → ObsSt) : (setObs f s).osc = s.osc := rfl
@[simp] theorem setObs_safety (f : ObsSt → ObsSt) : (setObs f s).safety = s.safety := rfl
@[simp] theorem setObs_field (f : ObsSt → ObsSt) : (setObs f s).field = s.field := rfl
@[simp] theorem setObs_faults (f : ObsSt → ObsSt) : (setObs f s).faults = s.faults := rfl
@[simp] theorem setObs_ledger (f : ObsSt → ObsSt) : (setObs f s).ledger = s.ledger := rfl

/-! `setSp` -/

@[simp] theorem setSp_pending (f : SpSt → SpSt) : (setSp f s).pending = s.pending := rfl
@[simp] theorem setSp_out (f : SpSt → SpSt) : (setSp f s).out = s.out := rfl
@[simp] theorem setSp_nFree (f : SpSt → SpSt) : (setSp f s).nFree = s.nFree := rfl
@[simp] theorem setSp_unit (f : SpSt → SpSt) : (setSp f s).unit = s.unit := rfl
@[simp] theorem setSp_clk (f : SpSt → SpSt) : (setSp f s).clk = s.clk := rfl
@[simp] theorem setSp_st (f : SpSt → SpSt) : (setSp f s).st = s.st := rfl
@[simp] theorem setSp_frame (f : SpSt → SpSt) : (setSp f s).frame = s.frame := rfl
@[simp] theorem setSp_time (f : SpSt → SpSt) : (setSp f s).time = s.time := rfl
@[simp] theorem setSp_rtc (f : SpSt → SpSt) : (setSp f s).rtc = s.rtc := rfl
@[simp] theorem setSp_mb (f : SpSt → SpSt) : (setSp f s).mb = s.mb := rfl
@[simp] theorem setSp_view (f : SpSt → SpSt) : (setSp f s).view = s.view := rfl
@[simp] theorem setSp_viewNext (f : SpSt → SpSt) : (setSp f s).viewNext = s.viewNext := rfl
@[simp] theorem setSp_cfg (f : SpSt → SpSt) : (setSp f s).cfg = s.cfg := rfl
@[simp] theorem setSp_store (f : SpSt → SpSt) : (setSp f s).store = s.store := rfl
@[simp] theorem setSp_close (f : SpSt → SpSt) : (setSp f s).close = s.close := rfl
@[simp] theorem setSp_snap (f : SpSt → SpSt) : (setSp f s).snap = s.snap := rfl
@[simp] theorem setSp_intake (f : SpSt → SpSt) : (setSp f s).intake = s.intake := rfl
@[simp] theorem setSp_analog (f : SpSt → SpSt) : (setSp f s).analog = s.analog := rfl
@[simp] theorem setSp_fusion (f : SpSt → SpSt) : (setSp f s).fusion = s.fusion := rfl
@[simp] theorem setSp_obs (f : SpSt → SpSt) : (setSp f s).obs = s.obs := rfl
@[simp] theorem setSp_sp (f : SpSt → SpSt) : (setSp f s).sp = f s.sp := rfl
@[simp] theorem setSp_alloc (f : SpSt → SpSt) : (setSp f s).alloc = s.alloc := rfl
@[simp] theorem setSp_solver (f : SpSt → SpSt) : (setSp f s).solver = s.solver := rfl
@[simp] theorem setSp_chandler (f : SpSt → SpSt) : (setSp f s).chandler = s.chandler := rfl
@[simp] theorem setSp_lock (f : SpSt → SpSt) : (setSp f s).lock = s.lock := rfl
@[simp] theorem setSp_bring (f : SpSt → SpSt) : (setSp f s).bring = s.bring := rfl
@[simp] theorem setSp_gnss (f : SpSt → SpSt) : (setSp f s).gnss = s.gnss := rfl
@[simp] theorem setSp_can (f : SpSt → SpSt) : (setSp f s).can = s.can := rfl
@[simp] theorem setSp_slots (f : SpSt → SpSt) : (setSp f s).slots = s.slots := rfl
@[simp] theorem setSp_osc (f : SpSt → SpSt) : (setSp f s).osc = s.osc := rfl
@[simp] theorem setSp_safety (f : SpSt → SpSt) : (setSp f s).safety = s.safety := rfl
@[simp] theorem setSp_field (f : SpSt → SpSt) : (setSp f s).field = s.field := rfl
@[simp] theorem setSp_faults (f : SpSt → SpSt) : (setSp f s).faults = s.faults := rfl
@[simp] theorem setSp_ledger (f : SpSt → SpSt) : (setSp f s).ledger = s.ledger := rfl

/-! `setAlloc` -/

@[simp] theorem setAlloc_pending (f : AllocSt → AllocSt) : (setAlloc f s).pending = s.pending := rfl
@[simp] theorem setAlloc_out (f : AllocSt → AllocSt) : (setAlloc f s).out = s.out := rfl
@[simp] theorem setAlloc_nFree (f : AllocSt → AllocSt) : (setAlloc f s).nFree = s.nFree := rfl
@[simp] theorem setAlloc_unit (f : AllocSt → AllocSt) : (setAlloc f s).unit = s.unit := rfl
@[simp] theorem setAlloc_clk (f : AllocSt → AllocSt) : (setAlloc f s).clk = s.clk := rfl
@[simp] theorem setAlloc_st (f : AllocSt → AllocSt) : (setAlloc f s).st = s.st := rfl
@[simp] theorem setAlloc_frame (f : AllocSt → AllocSt) : (setAlloc f s).frame = s.frame := rfl
@[simp] theorem setAlloc_time (f : AllocSt → AllocSt) : (setAlloc f s).time = s.time := rfl
@[simp] theorem setAlloc_rtc (f : AllocSt → AllocSt) : (setAlloc f s).rtc = s.rtc := rfl
@[simp] theorem setAlloc_mb (f : AllocSt → AllocSt) : (setAlloc f s).mb = s.mb := rfl
@[simp] theorem setAlloc_view (f : AllocSt → AllocSt) : (setAlloc f s).view = s.view := rfl
@[simp] theorem setAlloc_viewNext (f : AllocSt → AllocSt) : (setAlloc f s).viewNext = s.viewNext := rfl
@[simp] theorem setAlloc_cfg (f : AllocSt → AllocSt) : (setAlloc f s).cfg = s.cfg := rfl
@[simp] theorem setAlloc_store (f : AllocSt → AllocSt) : (setAlloc f s).store = s.store := rfl
@[simp] theorem setAlloc_close (f : AllocSt → AllocSt) : (setAlloc f s).close = s.close := rfl
@[simp] theorem setAlloc_snap (f : AllocSt → AllocSt) : (setAlloc f s).snap = s.snap := rfl
@[simp] theorem setAlloc_intake (f : AllocSt → AllocSt) : (setAlloc f s).intake = s.intake := rfl
@[simp] theorem setAlloc_analog (f : AllocSt → AllocSt) : (setAlloc f s).analog = s.analog := rfl
@[simp] theorem setAlloc_fusion (f : AllocSt → AllocSt) : (setAlloc f s).fusion = s.fusion := rfl
@[simp] theorem setAlloc_obs (f : AllocSt → AllocSt) : (setAlloc f s).obs = s.obs := rfl
@[simp] theorem setAlloc_sp (f : AllocSt → AllocSt) : (setAlloc f s).sp = s.sp := rfl
@[simp] theorem setAlloc_alloc (f : AllocSt → AllocSt) : (setAlloc f s).alloc = f s.alloc := rfl
@[simp] theorem setAlloc_solver (f : AllocSt → AllocSt) : (setAlloc f s).solver = s.solver := rfl
@[simp] theorem setAlloc_chandler (f : AllocSt → AllocSt) : (setAlloc f s).chandler = s.chandler := rfl
@[simp] theorem setAlloc_lock (f : AllocSt → AllocSt) : (setAlloc f s).lock = s.lock := rfl
@[simp] theorem setAlloc_bring (f : AllocSt → AllocSt) : (setAlloc f s).bring = s.bring := rfl
@[simp] theorem setAlloc_gnss (f : AllocSt → AllocSt) : (setAlloc f s).gnss = s.gnss := rfl
@[simp] theorem setAlloc_can (f : AllocSt → AllocSt) : (setAlloc f s).can = s.can := rfl
@[simp] theorem setAlloc_slots (f : AllocSt → AllocSt) : (setAlloc f s).slots = s.slots := rfl
@[simp] theorem setAlloc_osc (f : AllocSt → AllocSt) : (setAlloc f s).osc = s.osc := rfl
@[simp] theorem setAlloc_safety (f : AllocSt → AllocSt) : (setAlloc f s).safety = s.safety := rfl
@[simp] theorem setAlloc_field (f : AllocSt → AllocSt) : (setAlloc f s).field = s.field := rfl
@[simp] theorem setAlloc_faults (f : AllocSt → AllocSt) : (setAlloc f s).faults = s.faults := rfl
@[simp] theorem setAlloc_ledger (f : AllocSt → AllocSt) : (setAlloc f s).ledger = s.ledger := rfl

/-! `setSol` -/

@[simp] theorem setSol_pending (f : SolverSt → SolverSt) : (setSol f s).pending = s.pending := rfl
@[simp] theorem setSol_out (f : SolverSt → SolverSt) : (setSol f s).out = s.out := rfl
@[simp] theorem setSol_nFree (f : SolverSt → SolverSt) : (setSol f s).nFree = s.nFree := rfl
@[simp] theorem setSol_unit (f : SolverSt → SolverSt) : (setSol f s).unit = s.unit := rfl
@[simp] theorem setSol_clk (f : SolverSt → SolverSt) : (setSol f s).clk = s.clk := rfl
@[simp] theorem setSol_st (f : SolverSt → SolverSt) : (setSol f s).st = s.st := rfl
@[simp] theorem setSol_frame (f : SolverSt → SolverSt) : (setSol f s).frame = s.frame := rfl
@[simp] theorem setSol_time (f : SolverSt → SolverSt) : (setSol f s).time = s.time := rfl
@[simp] theorem setSol_rtc (f : SolverSt → SolverSt) : (setSol f s).rtc = s.rtc := rfl
@[simp] theorem setSol_mb (f : SolverSt → SolverSt) : (setSol f s).mb = s.mb := rfl
@[simp] theorem setSol_view (f : SolverSt → SolverSt) : (setSol f s).view = s.view := rfl
@[simp] theorem setSol_viewNext (f : SolverSt → SolverSt) : (setSol f s).viewNext = s.viewNext := rfl
@[simp] theorem setSol_cfg (f : SolverSt → SolverSt) : (setSol f s).cfg = s.cfg := rfl
@[simp] theorem setSol_store (f : SolverSt → SolverSt) : (setSol f s).store = s.store := rfl
@[simp] theorem setSol_close (f : SolverSt → SolverSt) : (setSol f s).close = s.close := rfl
@[simp] theorem setSol_snap (f : SolverSt → SolverSt) : (setSol f s).snap = s.snap := rfl
@[simp] theorem setSol_intake (f : SolverSt → SolverSt) : (setSol f s).intake = s.intake := rfl
@[simp] theorem setSol_analog (f : SolverSt → SolverSt) : (setSol f s).analog = s.analog := rfl
@[simp] theorem setSol_fusion (f : SolverSt → SolverSt) : (setSol f s).fusion = s.fusion := rfl
@[simp] theorem setSol_obs (f : SolverSt → SolverSt) : (setSol f s).obs = s.obs := rfl
@[simp] theorem setSol_sp (f : SolverSt → SolverSt) : (setSol f s).sp = s.sp := rfl
@[simp] theorem setSol_alloc (f : SolverSt → SolverSt) : (setSol f s).alloc = s.alloc := rfl
@[simp] theorem setSol_solver (f : SolverSt → SolverSt) : (setSol f s).solver = f s.solver := rfl
@[simp] theorem setSol_chandler (f : SolverSt → SolverSt) : (setSol f s).chandler = s.chandler := rfl
@[simp] theorem setSol_lock (f : SolverSt → SolverSt) : (setSol f s).lock = s.lock := rfl
@[simp] theorem setSol_bring (f : SolverSt → SolverSt) : (setSol f s).bring = s.bring := rfl
@[simp] theorem setSol_gnss (f : SolverSt → SolverSt) : (setSol f s).gnss = s.gnss := rfl
@[simp] theorem setSol_can (f : SolverSt → SolverSt) : (setSol f s).can = s.can := rfl
@[simp] theorem setSol_slots (f : SolverSt → SolverSt) : (setSol f s).slots = s.slots := rfl
@[simp] theorem setSol_osc (f : SolverSt → SolverSt) : (setSol f s).osc = s.osc := rfl
@[simp] theorem setSol_safety (f : SolverSt → SolverSt) : (setSol f s).safety = s.safety := rfl
@[simp] theorem setSol_field (f : SolverSt → SolverSt) : (setSol f s).field = s.field := rfl
@[simp] theorem setSol_faults (f : SolverSt → SolverSt) : (setSol f s).faults = s.faults := rfl
@[simp] theorem setSol_ledger (f : SolverSt → SolverSt) : (setSol f s).ledger = s.ledger := rfl

/-! `setCh` -/

@[simp] theorem setCh_pending (f : ChandlerSt → ChandlerSt) : (setCh f s).pending = s.pending := rfl
@[simp] theorem setCh_out (f : ChandlerSt → ChandlerSt) : (setCh f s).out = s.out := rfl
@[simp] theorem setCh_nFree (f : ChandlerSt → ChandlerSt) : (setCh f s).nFree = s.nFree := rfl
@[simp] theorem setCh_unit (f : ChandlerSt → ChandlerSt) : (setCh f s).unit = s.unit := rfl
@[simp] theorem setCh_clk (f : ChandlerSt → ChandlerSt) : (setCh f s).clk = s.clk := rfl
@[simp] theorem setCh_st (f : ChandlerSt → ChandlerSt) : (setCh f s).st = s.st := rfl
@[simp] theorem setCh_frame (f : ChandlerSt → ChandlerSt) : (setCh f s).frame = s.frame := rfl
@[simp] theorem setCh_time (f : ChandlerSt → ChandlerSt) : (setCh f s).time = s.time := rfl
@[simp] theorem setCh_rtc (f : ChandlerSt → ChandlerSt) : (setCh f s).rtc = s.rtc := rfl
@[simp] theorem setCh_mb (f : ChandlerSt → ChandlerSt) : (setCh f s).mb = s.mb := rfl
@[simp] theorem setCh_view (f : ChandlerSt → ChandlerSt) : (setCh f s).view = s.view := rfl
@[simp] theorem setCh_viewNext (f : ChandlerSt → ChandlerSt) : (setCh f s).viewNext = s.viewNext := rfl
@[simp] theorem setCh_cfg (f : ChandlerSt → ChandlerSt) : (setCh f s).cfg = s.cfg := rfl
@[simp] theorem setCh_store (f : ChandlerSt → ChandlerSt) : (setCh f s).store = s.store := rfl
@[simp] theorem setCh_close (f : ChandlerSt → ChandlerSt) : (setCh f s).close = s.close := rfl
@[simp] theorem setCh_snap (f : ChandlerSt → ChandlerSt) : (setCh f s).snap = s.snap := rfl
@[simp] theorem setCh_intake (f : ChandlerSt → ChandlerSt) : (setCh f s).intake = s.intake := rfl
@[simp] theorem setCh_analog (f : ChandlerSt → ChandlerSt) : (setCh f s).analog = s.analog := rfl
@[simp] theorem setCh_fusion (f : ChandlerSt → ChandlerSt) : (setCh f s).fusion = s.fusion := rfl
@[simp] theorem setCh_obs (f : ChandlerSt → ChandlerSt) : (setCh f s).obs = s.obs := rfl
@[simp] theorem setCh_sp (f : ChandlerSt → ChandlerSt) : (setCh f s).sp = s.sp := rfl
@[simp] theorem setCh_alloc (f : ChandlerSt → ChandlerSt) : (setCh f s).alloc = s.alloc := rfl
@[simp] theorem setCh_solver (f : ChandlerSt → ChandlerSt) : (setCh f s).solver = s.solver := rfl
@[simp] theorem setCh_chandler (f : ChandlerSt → ChandlerSt) : (setCh f s).chandler = f s.chandler := rfl
@[simp] theorem setCh_lock (f : ChandlerSt → ChandlerSt) : (setCh f s).lock = s.lock := rfl
@[simp] theorem setCh_bring (f : ChandlerSt → ChandlerSt) : (setCh f s).bring = s.bring := rfl
@[simp] theorem setCh_gnss (f : ChandlerSt → ChandlerSt) : (setCh f s).gnss = s.gnss := rfl
@[simp] theorem setCh_can (f : ChandlerSt → ChandlerSt) : (setCh f s).can = s.can := rfl
@[simp] theorem setCh_slots (f : ChandlerSt → ChandlerSt) : (setCh f s).slots = s.slots := rfl
@[simp] theorem setCh_osc (f : ChandlerSt → ChandlerSt) : (setCh f s).osc = s.osc := rfl
@[simp] theorem setCh_safety (f : ChandlerSt → ChandlerSt) : (setCh f s).safety = s.safety := rfl
@[simp] theorem setCh_field (f : ChandlerSt → ChandlerSt) : (setCh f s).field = s.field := rfl
@[simp] theorem setCh_faults (f : ChandlerSt → ChandlerSt) : (setCh f s).faults = s.faults := rfl
@[simp] theorem setCh_ledger (f : ChandlerSt → ChandlerSt) : (setCh f s).ledger = s.ledger := rfl

/-! `setGnss` -/

@[simp] theorem setGnss_pending (f : GnssSt → GnssSt) : (setGnss f s).pending = s.pending := rfl
@[simp] theorem setGnss_out (f : GnssSt → GnssSt) : (setGnss f s).out = s.out := rfl
@[simp] theorem setGnss_nFree (f : GnssSt → GnssSt) : (setGnss f s).nFree = s.nFree := rfl
@[simp] theorem setGnss_unit (f : GnssSt → GnssSt) : (setGnss f s).unit = s.unit := rfl
@[simp] theorem setGnss_clk (f : GnssSt → GnssSt) : (setGnss f s).clk = s.clk := rfl
@[simp] theorem setGnss_st (f : GnssSt → GnssSt) : (setGnss f s).st = s.st := rfl
@[simp] theorem setGnss_frame (f : GnssSt → GnssSt) : (setGnss f s).frame = s.frame := rfl
@[simp] theorem setGnss_time (f : GnssSt → GnssSt) : (setGnss f s).time = s.time := rfl
@[simp] theorem setGnss_rtc (f : GnssSt → GnssSt) : (setGnss f s).rtc = s.rtc := rfl
@[simp] theorem setGnss_mb (f : GnssSt → GnssSt) : (setGnss f s).mb = s.mb := rfl
@[simp] theorem setGnss_view (f : GnssSt → GnssSt) : (setGnss f s).view = s.view := rfl
@[simp] theorem setGnss_viewNext (f : GnssSt → GnssSt) : (setGnss f s).viewNext = s.viewNext := rfl
@[simp] theorem setGnss_cfg (f : GnssSt → GnssSt) : (setGnss f s).cfg = s.cfg := rfl
@[simp] theorem setGnss_store (f : GnssSt → GnssSt) : (setGnss f s).store = s.store := rfl
@[simp] theorem setGnss_close (f : GnssSt → GnssSt) : (setGnss f s).close = s.close := rfl
@[simp] theorem setGnss_snap (f : GnssSt → GnssSt) : (setGnss f s).snap = s.snap := rfl
@[simp] theorem setGnss_intake (f : GnssSt → GnssSt) : (setGnss f s).intake = s.intake := rfl
@[simp] theorem setGnss_analog (f : GnssSt → GnssSt) : (setGnss f s).analog = s.analog := rfl
@[simp] theorem setGnss_fusion (f : GnssSt → GnssSt) : (setGnss f s).fusion = s.fusion := rfl
@[simp] theorem setGnss_obs (f : GnssSt → GnssSt) : (setGnss f s).obs = s.obs := rfl
@[simp] theorem setGnss_sp (f : GnssSt → GnssSt) : (setGnss f s).sp = s.sp := rfl
@[simp] theorem setGnss_alloc (f : GnssSt → GnssSt) : (setGnss f s).alloc = s.alloc := rfl
@[simp] theorem setGnss_solver (f : GnssSt → GnssSt) : (setGnss f s).solver = s.solver := rfl
@[simp] theorem setGnss_chandler (f : GnssSt → GnssSt) : (setGnss f s).chandler = s.chandler := rfl
@[simp] theorem setGnss_lock (f : GnssSt → GnssSt) : (setGnss f s).lock = s.lock := rfl
@[simp] theorem setGnss_bring (f : GnssSt → GnssSt) : (setGnss f s).bring = s.bring := rfl
@[simp] theorem setGnss_gnss (f : GnssSt → GnssSt) : (setGnss f s).gnss = f s.gnss := rfl
@[simp] theorem setGnss_can (f : GnssSt → GnssSt) : (setGnss f s).can = s.can := rfl
@[simp] theorem setGnss_slots (f : GnssSt → GnssSt) : (setGnss f s).slots = s.slots := rfl
@[simp] theorem setGnss_osc (f : GnssSt → GnssSt) : (setGnss f s).osc = s.osc := rfl
@[simp] theorem setGnss_safety (f : GnssSt → GnssSt) : (setGnss f s).safety = s.safety := rfl
@[simp] theorem setGnss_field (f : GnssSt → GnssSt) : (setGnss f s).field = s.field := rfl
@[simp] theorem setGnss_faults (f : GnssSt → GnssSt) : (setGnss f s).faults = s.faults := rfl
@[simp] theorem setGnss_ledger (f : GnssSt → GnssSt) : (setGnss f s).ledger = s.ledger := rfl

/-! `setCan` -/

@[simp] theorem setCan_pending (c : Nat) (f : CanSt → CanSt) : (setCan c f s).pending = s.pending := rfl
@[simp] theorem setCan_out (c : Nat) (f : CanSt → CanSt) : (setCan c f s).out = s.out := rfl
@[simp] theorem setCan_nFree (c : Nat) (f : CanSt → CanSt) : (setCan c f s).nFree = s.nFree := rfl
@[simp] theorem setCan_unit (c : Nat) (f : CanSt → CanSt) : (setCan c f s).unit = s.unit := rfl
@[simp] theorem setCan_clk (c : Nat) (f : CanSt → CanSt) : (setCan c f s).clk = s.clk := rfl
@[simp] theorem setCan_st (c : Nat) (f : CanSt → CanSt) : (setCan c f s).st = s.st := rfl
@[simp] theorem setCan_frame (c : Nat) (f : CanSt → CanSt) : (setCan c f s).frame = s.frame := rfl
@[simp] theorem setCan_time (c : Nat) (f : CanSt → CanSt) : (setCan c f s).time = s.time := rfl
@[simp] theorem setCan_rtc (c : Nat) (f : CanSt → CanSt) : (setCan c f s).rtc = s.rtc := rfl
@[simp] theorem setCan_mb (c : Nat) (f : CanSt → CanSt) : (setCan c f s).mb = s.mb := rfl
@[simp] theorem setCan_view (c : Nat) (f : CanSt → CanSt) : (setCan c f s).view = s.view := rfl
@[simp] theorem setCan_viewNext (c : Nat) (f : CanSt → CanSt) : (setCan c f s).viewNext = s.viewNext := rfl
@[simp] theorem setCan_cfg (c : Nat) (f : CanSt → CanSt) : (setCan c f s).cfg = s.cfg := rfl
@[simp] theorem setCan_store (c : Nat) (f : CanSt → CanSt) : (setCan c f s).store = s.store := rfl
@[simp] theorem setCan_close (c : Nat) (f : CanSt → CanSt) : (setCan c f s).close = s.close := rfl
@[simp] theorem setCan_snap (c : Nat) (f : CanSt → CanSt) : (setCan c f s).snap = s.snap := rfl
@[simp] theorem setCan_intake (c : Nat) (f : CanSt → CanSt) : (setCan c f s).intake = s.intake := rfl
@[simp] theorem setCan_analog (c : Nat) (f : CanSt → CanSt) : (setCan c f s).analog = s.analog := rfl
@[simp] theorem setCan_fusion (c : Nat) (f : CanSt → CanSt) : (setCan c f s).fusion = s.fusion := rfl
@[simp] theorem setCan_obs (c : Nat) (f : CanSt → CanSt) : (setCan c f s).obs = s.obs := rfl
@[simp] theorem setCan_sp (c : Nat) (f : CanSt → CanSt) : (setCan c f s).sp = s.sp := rfl
@[simp] theorem setCan_alloc (c : Nat) (f : CanSt → CanSt) : (setCan c f s).alloc = s.alloc := rfl
@[simp] theorem setCan_solver (c : Nat) (f : CanSt → CanSt) : (setCan c f s).solver = s.solver := rfl
@[simp] theorem setCan_chandler (c : Nat) (f : CanSt → CanSt) : (setCan c f s).chandler = s.chandler := rfl
@[simp] theorem setCan_lock (c : Nat) (f : CanSt → CanSt) : (setCan c f s).lock = s.lock := rfl
@[simp] theorem setCan_bring (c : Nat) (f : CanSt → CanSt) : (setCan c f s).bring = s.bring := rfl
@[simp] theorem setCan_gnss (c : Nat) (f : CanSt → CanSt) : (setCan c f s).gnss = s.gnss := rfl
@[simp] theorem setCan_can (c : Nat) (f : CanSt → CanSt) : (setCan c f s).can = upd f s.can c := rfl
@[simp] theorem setCan_slots (c : Nat) (f : CanSt → CanSt) : (setCan c f s).slots = s.slots := rfl
@[simp] theorem setCan_osc (c : Nat) (f : CanSt → CanSt) : (setCan c f s).osc = s.osc := rfl
@[simp] theorem setCan_safety (c : Nat) (f : CanSt → CanSt) : (setCan c f s).safety = s.safety := rfl
@[simp] theorem setCan_field (c : Nat) (f : CanSt → CanSt) : (setCan c f s).field = s.field := rfl
@[simp] theorem setCan_faults (c : Nat) (f : CanSt → CanSt) : (setCan c f s).faults = s.faults := rfl
@[simp] theorem setCan_ledger (c : Nat) (f : CanSt → CanSt) : (setCan c f s).ledger = s.ledger := rfl

/-! `setSlot` -/

@[simp] theorem setSlot_pending (e : Nat) (f : SlotMsg → SlotMsg) : (setSlot e f s).pending = s.pending := rfl
@[simp] theorem setSlot_out (e : Nat) (f : SlotMsg → SlotMsg) : (setSlot e f s).out = s.out := rfl
@[simp] theorem setSlot_nFree (e : Nat) (f : SlotMsg → SlotMsg) : (setSlot e f s).nFree = s.nFree := rfl
@[simp] theorem setSlot_unit (e : Nat) (f : SlotMsg → SlotMsg) : (setSlot e f s).unit = s.unit := rfl
@[simp] theorem setSlot_clk (e : Nat) (f : SlotMsg → SlotMsg) : (setSlot e f s).clk = s.clk := rfl
@[simp] theorem setSlot_st (e : Nat) (f : SlotMsg → SlotMsg) : (setSlot e f s).st = s.st := rfl
@[simp] theorem setSlot_frame (e : Nat) (f : SlotMsg → SlotMsg) : (setSlot e f s).frame = s.frame := rfl
@[simp] theorem setSlot_time (e : Nat) (f : SlotMsg → SlotMsg) : (setSlot e f s).time = s.time := rfl
@[simp] theorem setSlot_rtc (e : Nat) (f : SlotMsg → SlotMsg) : (setSlot e f s).rtc = s.rtc := rfl
@[simp] theorem setSlot_mb (e : Nat) (f : SlotMsg → SlotMsg) : (setSlot e f s).mb = s.mb := rfl
@[simp] theorem setSlot_view (e : Nat) (f : SlotMsg → SlotMsg) : (setSlot e f s).view = s.view := rfl
@[simp] theorem setSlot_viewNext (e : Nat) (f : SlotMsg → SlotMsg) : (setSlot e f s).viewNext = s.viewNext := rfl
@[simp] theorem setSlot_cfg (e : Nat) (f : SlotMsg → SlotMsg) : (setSlot e f s).cfg = s.cfg := rfl
@[simp] theorem setSlot_store (e : Nat) (f : SlotMsg → SlotMsg) : (setSlot e f s).store = s.store := rfl
@[simp] theorem setSlot_close (e : Nat) (f : SlotMsg → SlotMsg) : (setSlot e f s).close = s.close := rfl
@[simp] theorem setSlot_snap (e : Nat) (f : SlotMsg → SlotMsg) : (setSlot e f s).snap = s.snap := rfl
@[simp] theorem setSlot_intake (e : Nat) (f : SlotMsg → SlotMsg) : (setSlot e f s).intake = s.intake := rfl
@[simp] theorem setSlot_analog (e : Nat) (f : SlotMsg → SlotMsg) : (setSlot e f s).analog = s.analog := rfl
@[simp] theorem setSlot_fusion (e : Nat) (f : SlotMsg → SlotMsg) : (setSlot e f s).fusion = s.fusion := rfl
@[simp] theorem setSlot_obs (e : Nat) (f : SlotMsg → SlotMsg) : (setSlot e f s).obs = s.obs := rfl
@[simp] theorem setSlot_sp (e : Nat) (f : SlotMsg → SlotMsg) : (setSlot e f s).sp = s.sp := rfl
@[simp] theorem setSlot_alloc (e : Nat) (f : SlotMsg → SlotMsg) : (setSlot e f s).alloc = s.alloc := rfl
@[simp] theorem setSlot_solver (e : Nat) (f : SlotMsg → SlotMsg) : (setSlot e f s).solver = s.solver := rfl
@[simp] theorem setSlot_chandler (e : Nat) (f : SlotMsg → SlotMsg) : (setSlot e f s).chandler = s.chandler := rfl
@[simp] theorem setSlot_lock (e : Nat) (f : SlotMsg → SlotMsg) : (setSlot e f s).lock = s.lock := rfl
@[simp] theorem setSlot_bring (e : Nat) (f : SlotMsg → SlotMsg) : (setSlot e f s).bring = s.bring := rfl
@[simp] theorem setSlot_gnss (e : Nat) (f : SlotMsg → SlotMsg) : (setSlot e f s).gnss = s.gnss := rfl
@[simp] theorem setSlot_can (e : Nat) (f : SlotMsg → SlotMsg) : (setSlot e f s).can = s.can := rfl
@[simp] theorem setSlot_slots (e : Nat) (f : SlotMsg → SlotMsg) : (setSlot e f s).slots = upd f s.slots e := rfl
@[simp] theorem setSlot_osc (e : Nat) (f : SlotMsg → SlotMsg) : (setSlot e f s).osc = s.osc := rfl
@[simp] theorem setSlot_safety (e : Nat) (f : SlotMsg → SlotMsg) : (setSlot e f s).safety = s.safety := rfl
@[simp] theorem setSlot_field (e : Nat) (f : SlotMsg → SlotMsg) : (setSlot e f s).field = s.field := rfl
@[simp] theorem setSlot_faults (e : Nat) (f : SlotMsg → SlotMsg) : (setSlot e f s).faults = s.faults := rfl
@[simp] theorem setSlot_ledger (e : Nat) (f : SlotMsg → SlotMsg) : (setSlot e f s).ledger = s.ledger := rfl

/-! `setIntakePort` -/

@[simp] theorem setIntakePort_pending (p : Nat) (f : PortSt → PortSt) : (setIntakePort p f s).pending = s.pending := rfl
@[simp] theorem setIntakePort_out (p : Nat) (f : PortSt → PortSt) : (setIntakePort p f s).out = s.out := rfl
@[simp] theorem setIntakePort_nFree (p : Nat) (f : PortSt → PortSt) : (setIntakePort p f s).nFree = s.nFree := rfl
@[simp] theorem setIntakePort_unit (p : Nat) (f : PortSt → PortSt) : (setIntakePort p f s).unit = s.unit := rfl
@[simp] theorem setIntakePort_clk (p : Nat) (f : PortSt → PortSt) : (setIntakePort p f s).clk = s.clk := rfl
@[simp] theorem setIntakePort_st (p : Nat) (f : PortSt → PortSt) : (setIntakePort p f s).st = s.st := rfl
@[simp] theorem setIntakePort_frame (p : Nat) (f : PortSt → PortSt) : (setIntakePort p f s).frame = s.frame := rfl
@[simp] theorem setIntakePort_time (p : Nat) (f : PortSt → PortSt) : (setIntakePort p f s).time = s.time := rfl
@[simp] theorem setIntakePort_rtc (p : Nat) (f : PortSt → PortSt) : (setIntakePort p f s).rtc = s.rtc := rfl
@[simp] theorem setIntakePort_mb (p : Nat) (f : PortSt → PortSt) : (setIntakePort p f s).mb = s.mb := rfl
@[simp] theorem setIntakePort_view (p : Nat) (f : PortSt → PortSt) : (setIntakePort p f s).view = s.view := rfl
@[simp] theorem setIntakePort_viewNext (p : Nat) (f : PortSt → PortSt) : (setIntakePort p f s).viewNext = s.viewNext := rfl
@[simp] theorem setIntakePort_cfg (p : Nat) (f : PortSt → PortSt) : (setIntakePort p f s).cfg = s.cfg := rfl
@[simp] theorem setIntakePort_store (p : Nat) (f : PortSt → PortSt) : (setIntakePort p f s).store = s.store := rfl
@[simp] theorem setIntakePort_close (p : Nat) (f : PortSt → PortSt) : (setIntakePort p f s).close = s.close := rfl
@[simp] theorem setIntakePort_snap (p : Nat) (f : PortSt → PortSt) : (setIntakePort p f s).snap = s.snap := rfl
@[simp] theorem setIntakePort_intake (p : Nat) (f : PortSt → PortSt) : (setIntakePort p f s).intake = { s.intake with ports := upd f s.intake.ports p } := rfl
@[simp] theorem setIntakePort_analog (p : Nat) (f : PortSt → PortSt) : (setIntakePort p f s).analog = s.analog := rfl
@[simp] theorem setIntakePort_fusion (p : Nat) (f : PortSt → PortSt) : (setIntakePort p f s).fusion = s.fusion := rfl
@[simp] theorem setIntakePort_obs (p : Nat) (f : PortSt → PortSt) : (setIntakePort p f s).obs = s.obs := rfl
@[simp] theorem setIntakePort_sp (p : Nat) (f : PortSt → PortSt) : (setIntakePort p f s).sp = s.sp := rfl
@[simp] theorem setIntakePort_alloc (p : Nat) (f : PortSt → PortSt) : (setIntakePort p f s).alloc = s.alloc := rfl
@[simp] theorem setIntakePort_solver (p : Nat) (f : PortSt → PortSt) : (setIntakePort p f s).solver = s.solver := rfl
@[simp] theorem setIntakePort_chandler (p : Nat) (f : PortSt → PortSt) : (setIntakePort p f s).chandler = s.chandler := rfl
@[simp] theorem setIntakePort_lock (p : Nat) (f : PortSt → PortSt) : (setIntakePort p f s).lock = s.lock := rfl
@[simp] theorem setIntakePort_bring (p : Nat) (f : PortSt → PortSt) : (setIntakePort p f s).bring = s.bring := rfl
@[simp] theorem setIntakePort_gnss (p : Nat) (f : PortSt → PortSt) : (setIntakePort p f s).gnss = s.gnss := rfl
@[simp] theorem setIntakePort_can (p : Nat) (f : PortSt → PortSt) : (setIntakePort p f s).can = s.can := rfl
@[simp] theorem setIntakePort_slots (p : Nat) (f : PortSt → PortSt) : (setIntakePort p f s).slots = s.slots := rfl
@[simp] theorem setIntakePort_osc (p : Nat) (f : PortSt → PortSt) : (setIntakePort p f s).osc = s.osc := rfl
@[simp] theorem setIntakePort_safety (p : Nat) (f : PortSt → PortSt) : (setIntakePort p f s).safety = s.safety := rfl
@[simp] theorem setIntakePort_field (p : Nat) (f : PortSt → PortSt) : (setIntakePort p f s).field = s.field := rfl
@[simp] theorem setIntakePort_faults (p : Nat) (f : PortSt → PortSt) : (setIntakePort p f s).faults = s.faults := rfl
@[simp] theorem setIntakePort_ledger (p : Nat) (f : PortSt → PortSt) : (setIntakePort p f s).ledger = s.ledger := rfl

/-! `setGroup` -/

@[simp] theorem setGroup_pending (g : Nat) (f : AnaGroupSt → AnaGroupSt) : (setGroup g f s).pending = s.pending := rfl
@[simp] theorem setGroup_out (g : Nat) (f : AnaGroupSt → AnaGroupSt) : (setGroup g f s).out = s.out := rfl
@[simp] theorem setGroup_nFree (g : Nat) (f : AnaGroupSt → AnaGroupSt) : (setGroup g f s).nFree = s.nFree := rfl
@[simp] theorem setGroup_unit (g : Nat) (f : AnaGroupSt → AnaGroupSt) : (setGroup g f s).unit = s.unit := rfl
@[simp] theorem setGroup_clk (g : Nat) (f : AnaGroupSt → AnaGroupSt) : (setGroup g f s).clk = s.clk := rfl
@[simp] theorem setGroup_st (g : Nat) (f : AnaGroupSt → AnaGroupSt) : (setGroup g f s).st = s.st := rfl
@[simp] theorem setGroup_frame (g : Nat) (f : AnaGroupSt → AnaGroupSt) : (setGroup g f s).frame = s.frame := rfl
@[simp] theorem setGroup_time (g : Nat) (f : AnaGroupSt → AnaGroupSt) : (setGroup g f s).time = s.time := rfl
@[simp] theorem setGroup_rtc (g : Nat) (f : AnaGroupSt → AnaGroupSt) : (setGroup g f s).rtc = s.rtc := rfl
@[simp] theorem setGroup_mb (g : Nat) (f : AnaGroupSt → AnaGroupSt) : (setGroup g f s).mb = s.mb := rfl
@[simp] theorem setGroup_view (g : Nat) (f : AnaGroupSt → AnaGroupSt) : (setGroup g f s).view = s.view := rfl
@[simp] theorem setGroup_viewNext (g : Nat) (f : AnaGroupSt → AnaGroupSt) : (setGroup g f s).viewNext = s.viewNext := rfl
@[simp] theorem setGroup_cfg (g : Nat) (f : AnaGroupSt → AnaGroupSt) : (setGroup g f s).cfg = s.cfg := rfl
@[simp] theorem setGroup_store (g : Nat) (f : AnaGroupSt → AnaGroupSt) : (setGroup g f s).store = s.store := rfl
@[simp] theorem setGroup_close (g : Nat) (f : AnaGroupSt → AnaGroupSt) : (setGroup g f s).close = s.close := rfl
@[simp] theorem setGroup_snap (g : Nat) (f : AnaGroupSt → AnaGroupSt) : (setGroup g f s).snap = s.snap := rfl
@[simp] theorem setGroup_intake (g : Nat) (f : AnaGroupSt → AnaGroupSt) : (setGroup g f s).intake = s.intake := rfl
@[simp] theorem setGroup_analog (g : Nat) (f : AnaGroupSt → AnaGroupSt) : (setGroup g f s).analog = { s.analog with groups := upd f s.analog.groups (g - 1) } := rfl
@[simp] theorem setGroup_fusion (g : Nat) (f : AnaGroupSt → AnaGroupSt) : (setGroup g f s).fusion = s.fusion := rfl
@[simp] theorem setGroup_obs (g : Nat) (f : AnaGroupSt → AnaGroupSt) : (setGroup g f s).obs = s.obs := rfl
@[simp] theorem setGroup_sp (g : Nat) (f : AnaGroupSt → AnaGroupSt) : (setGroup g f s).sp = s.sp := rfl
@[simp] theorem setGroup_alloc (g : Nat) (f : AnaGroupSt → AnaGroupSt) : (setGroup g f s).alloc = s.alloc := rfl
@[simp] theorem setGroup_solver (g : Nat) (f : AnaGroupSt → AnaGroupSt) : (setGroup g f s).solver = s.solver := rfl
@[simp] theorem setGroup_chandler (g : Nat) (f : AnaGroupSt → AnaGroupSt) : (setGroup g f s).chandler = s.chandler := rfl
@[simp] theorem setGroup_lock (g : Nat) (f : AnaGroupSt → AnaGroupSt) : (setGroup g f s).lock = s.lock := rfl
@[simp] theorem setGroup_bring (g : Nat) (f : AnaGroupSt → AnaGroupSt) : (setGroup g f s).bring = s.bring := rfl
@[simp] theorem setGroup_gnss (g : Nat) (f : AnaGroupSt → AnaGroupSt) : (setGroup g f s).gnss = s.gnss := rfl
@[simp] theorem setGroup_can (g : Nat) (f : AnaGroupSt → AnaGroupSt) : (setGroup g f s).can = s.can := rfl
@[simp] theorem setGroup_slots (g : Nat) (f : AnaGroupSt → AnaGroupSt) : (setGroup g f s).slots = s.slots := rfl
@[simp] theorem setGroup_osc (g : Nat) (f : AnaGroupSt → AnaGroupSt) : (setGroup g f s).osc = s.osc := rfl
@[simp] theorem setGroup_safety (g : Nat) (f : AnaGroupSt → AnaGroupSt) : (setGroup g f s).safety = s.safety := rfl
@[simp] theorem setGroup_field (g : Nat) (f : AnaGroupSt → AnaGroupSt) : (setGroup g f s).field = s.field := rfl
@[simp] theorem setGroup_faults (g : Nat) (f : AnaGroupSt → AnaGroupSt) : (setGroup g f s).faults = s.faults := rfl
@[simp] theorem setGroup_ledger (g : Nat) (f : AnaGroupSt → AnaGroupSt) : (setGroup g f s).ledger = s.ledger := rfl

/-! `setChan` -/

@[simp] theorem setChan_pending (c : Nat) (f : AnaChanSt → AnaChanSt) : (setChan c f s).pending = s.pending := rfl
@[simp] theorem setChan_out (c : Nat) (f : AnaChanSt → AnaChanSt) : (setChan c f s).out = s.out := rfl
@[simp] theorem setChan_nFree (c : Nat) (f : AnaChanSt → AnaChanSt) : (setChan c f s).nFree = s.nFree := rfl
@[simp] theorem setChan_unit (c : Nat) (f : AnaChanSt → AnaChanSt) : (setChan c f s).unit = s.unit := rfl
@[simp] theorem setChan_clk (c : Nat) (f : AnaChanSt → AnaChanSt) : (setChan c f s).clk = s.clk := rfl
@[simp] theorem setChan_st (c : Nat) (f : AnaChanSt → AnaChanSt) : (setChan c f s).st = s.st := rfl
@[simp] theorem setChan_frame (c : Nat) (f : AnaChanSt → AnaChanSt) : (setChan c f s).frame = s.frame := rfl
@[simp] theorem setChan_time (c : Nat) (f : AnaChanSt → AnaChanSt) : (setChan c f s).time = s.time := rfl
@[simp] theorem setChan_rtc (c : Nat) (f : AnaChanSt → AnaChanSt) : (setChan c f s).rtc = s.rtc := rfl
@[simp] theorem setChan_mb (c : Nat) (f : AnaChanSt → AnaChanSt) : (setChan c f s).mb = s.mb := rfl
@[simp] theorem setChan_view (c : Nat) (f : AnaChanSt → AnaChanSt) : (setChan c f s).view = s.view := rfl
@[simp] theorem setChan_viewNext (c : Nat) (f : AnaChanSt → AnaChanSt) : (setChan c f s).viewNext = s.viewNext := rfl
@[simp] theorem setChan_cfg (c : Nat) (f : AnaChanSt → AnaChanSt) : (setChan c f s).cfg = s.cfg := rfl
@[simp] theorem setChan_store (c : Nat) (f : AnaChanSt → AnaChanSt) : (setChan c f s).store = s.store := rfl
@[simp] theorem setChan_close (c : Nat) (f : AnaChanSt → AnaChanSt) : (setChan c f s).close = s.close := rfl
@[simp] theorem setChan_snap (c : Nat) (f : AnaChanSt → AnaChanSt) : (setChan c f s).snap = s.snap := rfl
@[simp] theorem setChan_intake (c : Nat) (f : AnaChanSt → AnaChanSt) : (setChan c f s).intake = s.intake := rfl
@[simp] theorem setChan_analog (c : Nat) (f : AnaChanSt → AnaChanSt) : (setChan c f s).analog = { s.analog with chans := upd f s.analog.chans (c - 1) } := rfl
@[simp] theorem setChan_fusion (c : Nat) (f : AnaChanSt → AnaChanSt) : (setChan c f s).fusion = s.fusion := rfl
@[simp] theorem setChan_obs (c : Nat) (f : AnaChanSt → AnaChanSt) : (setChan c f s).obs = s.obs := rfl
@[simp] theorem setChan_sp (c : Nat) (f : AnaChanSt → AnaChanSt) : (setChan c f s).sp = s.sp := rfl
@[simp] theorem setChan_alloc (c : Nat) (f : AnaChanSt → AnaChanSt) : (setChan c f s).alloc = s.alloc := rfl
@[simp] theorem setChan_solver (c : Nat) (f : AnaChanSt → AnaChanSt) : (setChan c f s).solver = s.solver := rfl
@[simp] theorem setChan_chandler (c : Nat) (f : AnaChanSt → AnaChanSt) : (setChan c f s).chandler = s.chandler := rfl
@[simp] theorem setChan_lock (c : Nat) (f : AnaChanSt → AnaChanSt) : (setChan c f s).lock = s.lock := rfl
@[simp] theorem setChan_bring (c : Nat) (f : AnaChanSt → AnaChanSt) : (setChan c f s).bring = s.bring := rfl
@[simp] theorem setChan_gnss (c : Nat) (f : AnaChanSt → AnaChanSt) : (setChan c f s).gnss = s.gnss := rfl
@[simp] theorem setChan_can (c : Nat) (f : AnaChanSt → AnaChanSt) : (setChan c f s).can = s.can := rfl
@[simp] theorem setChan_slots (c : Nat) (f : AnaChanSt → AnaChanSt) : (setChan c f s).slots = s.slots := rfl
@[simp] theorem setChan_osc (c : Nat) (f : AnaChanSt → AnaChanSt) : (setChan c f s).osc = s.osc := rfl
@[simp] theorem setChan_safety (c : Nat) (f : AnaChanSt → AnaChanSt) : (setChan c f s).safety = s.safety := rfl
@[simp] theorem setChan_field (c : Nat) (f : AnaChanSt → AnaChanSt) : (setChan c f s).field = s.field := rfl
@[simp] theorem setChan_faults (c : Nat) (f : AnaChanSt → AnaChanSt) : (setChan c f s).faults = s.faults := rfl
@[simp] theorem setChan_ledger (c : Nat) (f : AnaChanSt → AnaChanSt) : (setChan c f s).ledger = s.ledger := rfl

/-! `setSupply` -/

@[simp] theorem setSupply_pending (i : Nat) (f : SupplySt → SupplySt) : (setSupply i f s).pending = s.pending := rfl
@[simp] theorem setSupply_out (i : Nat) (f : SupplySt → SupplySt) : (setSupply i f s).out = s.out := rfl
@[simp] theorem setSupply_nFree (i : Nat) (f : SupplySt → SupplySt) : (setSupply i f s).nFree = s.nFree := rfl
@[simp] theorem setSupply_unit (i : Nat) (f : SupplySt → SupplySt) : (setSupply i f s).unit = s.unit := rfl
@[simp] theorem setSupply_clk (i : Nat) (f : SupplySt → SupplySt) : (setSupply i f s).clk = s.clk := rfl
@[simp] theorem setSupply_st (i : Nat) (f : SupplySt → SupplySt) : (setSupply i f s).st = s.st := rfl
@[simp] theorem setSupply_frame (i : Nat) (f : SupplySt → SupplySt) : (setSupply i f s).frame = s.frame := rfl
@[simp] theorem setSupply_time (i : Nat) (f : SupplySt → SupplySt) : (setSupply i f s).time = s.time := rfl
@[simp] theorem setSupply_rtc (i : Nat) (f : SupplySt → SupplySt) : (setSupply i f s).rtc = s.rtc := rfl
@[simp] theorem setSupply_mb (i : Nat) (f : SupplySt → SupplySt) : (setSupply i f s).mb = s.mb := rfl
@[simp] theorem setSupply_view (i : Nat) (f : SupplySt → SupplySt) : (setSupply i f s).view = s.view := rfl
@[simp] theorem setSupply_viewNext (i : Nat) (f : SupplySt → SupplySt) : (setSupply i f s).viewNext = s.viewNext := rfl
@[simp] theorem setSupply_cfg (i : Nat) (f : SupplySt → SupplySt) : (setSupply i f s).cfg = s.cfg := rfl
@[simp] theorem setSupply_store (i : Nat) (f : SupplySt → SupplySt) : (setSupply i f s).store = s.store := rfl
@[simp] theorem setSupply_close (i : Nat) (f : SupplySt → SupplySt) : (setSupply i f s).close = s.close := rfl
@[simp] theorem setSupply_snap (i : Nat) (f : SupplySt → SupplySt) : (setSupply i f s).snap = s.snap := rfl
@[simp] theorem setSupply_intake (i : Nat) (f : SupplySt → SupplySt) : (setSupply i f s).intake = s.intake := rfl
@[simp] theorem setSupply_analog (i : Nat) (f : SupplySt → SupplySt) : (setSupply i f s).analog = s.analog := rfl
@[simp] theorem setSupply_fusion (i : Nat) (f : SupplySt → SupplySt) : (setSupply i f s).fusion = s.fusion := rfl
@[simp] theorem setSupply_obs (i : Nat) (f : SupplySt → SupplySt) : (setSupply i f s).obs = s.obs := rfl
@[simp] theorem setSupply_sp (i : Nat) (f : SupplySt → SupplySt) : (setSupply i f s).sp = s.sp := rfl
@[simp] theorem setSupply_alloc (i : Nat) (f : SupplySt → SupplySt) : (setSupply i f s).alloc = s.alloc := rfl
@[simp] theorem setSupply_solver (i : Nat) (f : SupplySt → SupplySt) : (setSupply i f s).solver = s.solver := rfl
@[simp] theorem setSupply_chandler (i : Nat) (f : SupplySt → SupplySt) : (setSupply i f s).chandler = s.chandler := rfl
@[simp] theorem setSupply_lock (i : Nat) (f : SupplySt → SupplySt) : (setSupply i f s).lock = s.lock := rfl
@[simp] theorem setSupply_bring (i : Nat) (f : SupplySt → SupplySt) : (setSupply i f s).bring = s.bring := rfl
@[simp] theorem setSupply_gnss (i : Nat) (f : SupplySt → SupplySt) : (setSupply i f s).gnss = s.gnss := rfl
@[simp] theorem setSupply_can (i : Nat) (f : SupplySt → SupplySt) : (setSupply i f s).can = s.can := rfl
@[simp] theorem setSupply_slots (i : Nat) (f : SupplySt → SupplySt) : (setSupply i f s).slots = s.slots := rfl
@[simp] theorem setSupply_osc (i : Nat) (f : SupplySt → SupplySt) : (setSupply i f s).osc = s.osc := rfl
@[simp] theorem setSupply_safety (i : Nat) (f : SupplySt → SupplySt) : (setSupply i f s).safety = s.safety := rfl
@[simp] theorem setSupply_field (i : Nat) (f : SupplySt → SupplySt) : (setSupply i f s).field = { s.field with supply := upd f s.field.supply i } := rfl
@[simp] theorem setSupply_faults (i : Nat) (f : SupplySt → SupplySt) : (setSupply i f s).faults = s.faults := rfl
@[simp] theorem setSupply_ledger (i : Nat) (f : SupplySt → SupplySt) : (setSupply i f s).ledger = s.ledger := rfl

/-! `setDo` -/

@[simp] theorem setDo_pending (c : Nat) (f : DoSt → DoSt) : (setDo c f s).pending = s.pending := rfl
@[simp] theorem setDo_out (c : Nat) (f : DoSt → DoSt) : (setDo c f s).out = s.out := rfl
@[simp] theorem setDo_nFree (c : Nat) (f : DoSt → DoSt) : (setDo c f s).nFree = s.nFree := rfl
@[simp] theorem setDo_unit (c : Nat) (f : DoSt → DoSt) : (setDo c f s).unit = s.unit := rfl
@[simp] theorem setDo_clk (c : Nat) (f : DoSt → DoSt) : (setDo c f s).clk = s.clk := rfl
@[simp] theorem setDo_st (c : Nat) (f : DoSt → DoSt) : (setDo c f s).st = s.st := rfl
@[simp] theorem setDo_frame (c : Nat) (f : DoSt → DoSt) : (setDo c f s).frame = s.frame := rfl
@[simp] theorem setDo_time (c : Nat) (f : DoSt → DoSt) : (setDo c f s).time = s.time := rfl
@[simp] theorem setDo_rtc (c : Nat) (f : DoSt → DoSt) : (setDo c f s).rtc = s.rtc := rfl
@[simp] theorem setDo_mb (c : Nat) (f : DoSt → DoSt) : (setDo c f s).mb = s.mb := rfl
@[simp] theorem setDo_view (c : Nat) (f : DoSt → DoSt) : (setDo c f s).view = s.view := rfl
@[simp] theorem setDo_viewNext (c : Nat) (f : DoSt → DoSt) : (setDo c f s).viewNext = s.viewNext := rfl
@[simp] theorem setDo_cfg (c : Nat) (f : DoSt → DoSt) : (setDo c f s).cfg = s.cfg := rfl
@[simp] theorem setDo_store (c : Nat) (f : DoSt → DoSt) : (setDo c f s).store = s.store := rfl
@[simp] theorem setDo_close (c : Nat) (f : DoSt → DoSt) : (setDo c f s).close = s.close := rfl
@[simp] theorem setDo_snap (c : Nat) (f : DoSt → DoSt) : (setDo c f s).snap = s.snap := rfl
@[simp] theorem setDo_intake (c : Nat) (f : DoSt → DoSt) : (setDo c f s).intake = s.intake := rfl
@[simp] theorem setDo_analog (c : Nat) (f : DoSt → DoSt) : (setDo c f s).analog = s.analog := rfl
@[simp] theorem setDo_fusion (c : Nat) (f : DoSt → DoSt) : (setDo c f s).fusion = s.fusion := rfl
@[simp] theorem setDo_obs (c : Nat) (f : DoSt → DoSt) : (setDo c f s).obs = s.obs := rfl
@[simp] theorem setDo_sp (c : Nat) (f : DoSt → DoSt) : (setDo c f s).sp = s.sp := rfl
@[simp] theorem setDo_alloc (c : Nat) (f : DoSt → DoSt) : (setDo c f s).alloc = s.alloc := rfl
@[simp] theorem setDo_solver (c : Nat) (f : DoSt → DoSt) : (setDo c f s).solver = s.solver := rfl
@[simp] theorem setDo_chandler (c : Nat) (f : DoSt → DoSt) : (setDo c f s).chandler = s.chandler := rfl
@[simp] theorem setDo_lock (c : Nat) (f : DoSt → DoSt) : (setDo c f s).lock = s.lock := rfl
@[simp] theorem setDo_bring (c : Nat) (f : DoSt → DoSt) : (setDo c f s).bring = s.bring := rfl
@[simp] theorem setDo_gnss (c : Nat) (f : DoSt → DoSt) : (setDo c f s).gnss = s.gnss := rfl
@[simp] theorem setDo_can (c : Nat) (f : DoSt → DoSt) : (setDo c f s).can = s.can := rfl
@[simp] theorem setDo_slots (c : Nat) (f : DoSt → DoSt) : (setDo c f s).slots = s.slots := rfl
@[simp] theorem setDo_osc (c : Nat) (f : DoSt → DoSt) : (setDo c f s).osc = s.osc := rfl
@[simp] theorem setDo_safety (c : Nat) (f : DoSt → DoSt) : (setDo c f s).safety = s.safety := rfl
@[simp] theorem setDo_field (c : Nat) (f : DoSt → DoSt) : (setDo c f s).field = { s.field with dout := upd f s.field.dout c } := rfl
@[simp] theorem setDo_faults (c : Nat) (f : DoSt → DoSt) : (setDo c f s).faults = s.faults := rfl
@[simp] theorem setDo_ledger (c : Nat) (f : DoSt → DoSt) : (setDo c f s).ledger = s.ledger := rfl

/-! `setConn` -/

@[simp] theorem setConn_pending (n : Nat) (f : OscConn → OscConn) : (setConn n f s).pending = s.pending := rfl
@[simp] theorem setConn_out (n : Nat) (f : OscConn → OscConn) : (setConn n f s).out = s.out := rfl
@[simp] theorem setConn_nFree (n : Nat) (f : OscConn → OscConn) : (setConn n f s).nFree = s.nFree := rfl
@[simp] theorem setConn_unit (n : Nat) (f : OscConn → OscConn) : (setConn n f s).unit = s.unit := rfl
@[simp] theorem setConn_clk (n : Nat) (f : OscConn → OscConn) : (setConn n f s).clk = s.clk := rfl
@[simp] theorem setConn_st (n : Nat) (f : OscConn → OscConn) : (setConn n f s).st = s.st := rfl
@[simp] theorem setConn_frame (n : Nat) (f : OscConn → OscConn) : (setConn n f s).frame = s.frame := rfl
@[simp] theorem setConn_time (n : Nat) (f : OscConn → OscConn) : (setConn n f s).time = s.time := rfl
@[simp] theorem setConn_rtc (n : Nat) (f : OscConn → OscConn) : (setConn n f s).rtc = s.rtc := rfl
@[simp] theorem setConn_mb (n : Nat) (f : OscConn → OscConn) : (setConn n f s).mb = s.mb := rfl
@[simp] theorem setConn_view (n : Nat) (f : OscConn → OscConn) : (setConn n f s).view = s.view := rfl
@[simp] theorem setConn_viewNext (n : Nat) (f : OscConn → OscConn) : (setConn n f s).viewNext = s.viewNext := rfl
@[simp] theorem setConn_cfg (n : Nat) (f : OscConn → OscConn) : (setConn n f s).cfg = s.cfg := rfl
@[simp] theorem setConn_store (n : Nat) (f : OscConn → OscConn) : (setConn n f s).store = s.store := rfl
@[simp] theorem setConn_close (n : Nat) (f : OscConn → OscConn) : (setConn n f s).close = s.close := rfl
@[simp] theorem setConn_snap (n : Nat) (f : OscConn → OscConn) : (setConn n f s).snap = s.snap := rfl
@[simp] theorem setConn_intake (n : Nat) (f : OscConn → OscConn) : (setConn n f s).intake = s.intake := rfl
@[simp] theorem setConn_analog (n : Nat) (f : OscConn → OscConn) : (setConn n f s).analog = s.analog := rfl
@[simp] theorem setConn_fusion (n : Nat) (f : OscConn → OscConn) : (setConn n f s).fusion = s.fusion := rfl
@[simp] theorem setConn_obs (n : Nat) (f : OscConn → OscConn) : (setConn n f s).obs = s.obs := rfl
@[simp] theorem setConn_sp (n : Nat) (f : OscConn → OscConn) : (setConn n f s).sp = s.sp := rfl
@[simp] theorem setConn_alloc (n : Nat) (f : OscConn → OscConn) : (setConn n f s).alloc = s.alloc := rfl
@[simp] theorem setConn_solver (n : Nat) (f : OscConn → OscConn) : (setConn n f s).solver = s.solver := rfl
@[simp] theorem setConn_chandler (n : Nat) (f : OscConn → OscConn) : (setConn n f s).chandler = s.chandler := rfl
@[simp] theorem setConn_lock (n : Nat) (f : OscConn → OscConn) : (setConn n f s).lock = s.lock := rfl
@[simp] theorem setConn_bring (n : Nat) (f : OscConn → OscConn) : (setConn n f s).bring = s.bring := rfl
@[simp] theorem setConn_gnss (n : Nat) (f : OscConn → OscConn) : (setConn n f s).gnss = s.gnss := rfl
@[simp] theorem setConn_can (n : Nat) (f : OscConn → OscConn) : (setConn n f s).can = s.can := rfl
@[simp] theorem setConn_slots (n : Nat) (f : OscConn → OscConn) : (setConn n f s).slots = s.slots := rfl
@[simp] theorem setConn_osc (n : Nat) (f : OscConn → OscConn) : (setConn n f s).osc = upd f s.osc n := rfl
@[simp] theorem setConn_safety (n : Nat) (f : OscConn → OscConn) : (setConn n f s).safety = s.safety := rfl
@[simp] theorem setConn_field (n : Nat) (f : OscConn → OscConn) : (setConn n f s).field = s.field := rfl
@[simp] theorem setConn_faults (n : Nat) (f : OscConn → OscConn) : (setConn n f s).faults = s.faults := rfl
@[simp] theorem setConn_ledger (n : Nat) (f : OscConn → OscConn) : (setConn n f s).ledger = s.ledger := rfl

end Sys2Proof.Machine
end

