-- ==== Sys2Proof/Laws/Raise.lean ====
section
/-! SUPPORT. What recording an event and raising a fault can change: the Ledger's queue, the fault sources, FLT_N and, where a reaction
surrenders the lease, the lock group, what was sent and whether the frame still emits. Everything else stays. -/

namespace Sys2Proof.Machine

open Sys2Proof.Safety

variable (s : State)

theorem lose_counts (l : LedgerSt) (n : Nat) :
    { l.lose n with queue := [], lost := 0, lostSince := 0 } = { l with queue := [], lost := 0, lostSince := 0 } := rfl

theorem enqueue_counts (l : LedgerSt) (r : Rec) :
    { l.enqueue r with queue := [], lost := 0, lostSince := 0 } = { l with queue := [], lost := 0, lostSince := 0 } := by
  unfold LedgerSt.enqueue
  split
  · rfl
  · split
    · split <;> rfl
    · rfl

theorem recordRaw_rest (r : Rec) : rest (recordRaw r s) = rest s := by
  have h := enqueue_counts s.ledger (stampRec s r)
  unfold recordRaw
  split
  · rfl
  · simp only [rest, h]

theorem evRaw_rest (c : Nat) (d : Bytes) : rest (evRaw c d s) = rest s := recordRaw_rest s _
theorem setSrc_rest (c : Nat) (f : FaultSt) : rest (setSrc c f s) = rest s := rfl
theorem touchClass_rest (c : Nat) : rest (touchClass c s) = rest s := rfl
theorem demandReset_rest : rest (demandReset s) = rest s := rfl
theorem holdBlock_rest (c : Nat) (b : Block) : rest (holdBlock c b s) = rest s := rfl
theorem assertFlt_rest (c : Nat) : rest (assertFlt c s) = rest s := by unfold assertFlt; split <;> rfl
theorem releaseBetweenTicks_rest : rest (releaseBetweenTicks s) = rest s := by unfold releaseBetweenTicks; split <;> rfl

theorem surrender_rest : rest (surrender s) = rest s := by
  unfold surrender
  rw [demandReset_rest, releaseBetweenTicks_rest]
  split
  · exact evRaw_rest s _ _
  · rfl

theorem resetAtRaise_rest (c : Nat) (b : Block) : rest (resetAtRaise c b s) = rest s := by
  unfold resetAtRaise
  split
  · exact surrender_rest s
  · exact holdBlock_rest s c b

theorem foldl_rest {α : Type} (f : State → α → State) (h : ∀ t a, rest (f t a) = rest t) (xs : List α) :
    rest (xs.foldl f s) = rest s := by
  induction xs generalizing s with
  | nil => rfl
  | cons a r ih => rw [List.foldl_cons, ih, h]

theorem directReact_rest (c : Nat) (bs : List Block) : rest (directReact c bs s) = rest s := by
  unfold directReact
  split
  · exact foldl_rest s _ (fun t b => resetAtRaise_rest t c b) bs
  · split
    · exact surrender_rest s
    · rfl

theorem raiseCore_rest (c : Nat) (o : Bool) (bs : List Block) : rest (raiseCore c o bs s) = rest s := by
  unfold raiseCore
  split
  · rfl
  · simp only [directReact_rest, assertFlt_rest, touchClass_rest, setSrc_rest]
    split
    · rw [evRaw_rest, recordRaw_rest]
    · exact recordRaw_rest s _

theorem lossCheck_rest (n : Nat) : rest (lossCheck n s) = rest s := by
  unfold lossCheck
  split
  · exact raiseCore_rest s _ _ _
  · rfl

theorem event_rest (c : Nat) (d : Bytes) : rest (event c d s) = rest s := by unfold event; rw [lossCheck_rest, evRaw_rest]

theorem faultShot_rest (c : Nat) (bs : List Block) : rest (faultShot c bs s) = rest s := by
  unfold faultShot
  split
  · rfl
  · rw [lossCheck_rest, raiseCore_rest]

theorem faultSet_rest (c : Nat) (on : Bool) (bs : List Block) : rest (faultSet c on bs s) = rest s := by
  unfold faultSet
  split
  · split
    · rfl
    · rw [lossCheck_rest, raiseCore_rest]
  · split <;> rfl

theorem faultCond_rest (c : Nat) (on : Bool) : rest (faultCond c on s) = rest s := faultSet_rest s c on _
theorem faultOnce_rest (c : Nat) : rest (faultOnce c s) = rest s := faultShot_rest s c _

theorem degrade_rest (b : Nat) : rest (degrade b s) = rest s := by
  unfold degrade
  dsimp only
  split
  · rfl
  · rw [event_rest]; rfl

theorem updateFlt_rest : rest (updateFlt s) = rest s := by unfold updateFlt; split <;> rfl
theorem settle_rest : rest (settle s) = rest s := updateFlt_rest s

/-- What `settle` leaves of the fields that a raise may touch (18 R484, 19 R500): MOK only drops, FLT_N is only released. -/
theorem updateFlt_fields : (updateFlt s).out = s.out ∧ (updateFlt s).frame = s.frame ∧ (updateFlt s).lock = s.lock ∧
    (updateFlt s).faults = s.faults ∧ (updateFlt s).ledger = s.ledger ∧ (updateFlt s).field.repl = s.field.repl ∧
    (updateFlt s).field.fltEl = s.field.fltEl ∧ (updateFlt s).field.mok = s.field.mok := by
  unfold updateFlt
  split <;> exact ⟨rfl, rfl, rfl, rfl, rfl, rfl, rfl, rfl⟩

@[simp] theorem settle_out : (settle s).out = s.out := (updateFlt_fields s).1
@[simp] theorem settle_frame : (settle s).frame = s.frame := (updateFlt_fields s).2.1
@[simp] theorem settle_lock : (settle s).lock = s.lock := (updateFlt_fields s).2.2.1
@[simp] theorem settle_faults : (settle s).faults = s.faults := (updateFlt_fields s).2.2.2.1
@[simp] theorem settle_ledger : (settle s).ledger = s.ledger := (updateFlt_fields s).2.2.2.2.1
@[simp] theorem settle_repl : (settle s).field.repl = s.field.repl := (updateFlt_fields s).2.2.2.2.2.1

/-! The sources after a raise -/

theorem recordRaw_faults (r : Rec) : (recordRaw r s).faults = s.faults := by unfold recordRaw; split <;> rfl
theorem assertFlt_faults (c : Nat) : (assertFlt c s).faults = s.faults := by unfold assertFlt; split <;> rfl
theorem releaseBetweenTicks_faults : (releaseBetweenTicks s).faults = s.faults := by unfold releaseBetweenTicks; split <;> rfl

theorem surrender_src : (surrender s).faults.src = s.faults.src := by
  unfold surrender
  show (releaseBetweenTicks _).faults.src = _
  rw [releaseBetweenTicks_faults]
  split
  · exact congrArg FaultsSt.src (recordRaw_faults s _)
  · rfl

theorem resetAtRaise_src (c : Nat) (b : Block) : (resetAtRaise c b s).faults.src = s.faults.src := by
  unfold resetAtRaise
  split
  · exact surrender_src s
  · rfl

theorem directReact_src (c : Nat) (bs : List Block) : (directReact c bs s).faults.src = s.faults.src := by
  unfold directReact
  split
  · induction bs generalizing s with
    | nil => rfl
    | cons b r ih =>
      rename_i h
      rw [List.foldl_cons]
      have h1 : cfgReact (resetAtRaise c b s) c = cfgReact s c := by
        have e := congrArg (fun t => cfgReact t c) (resetAtRaise_rest s c b); exact e
      have h2 : (resetAtRaise c b s).st = s.st := by
        have e := congrArg State.st (resetAtRaise_rest s c b); exact e
      rw [ih (resetAtRaise c b s) (by rw [h1, h2]; exact h), resetAtRaise_src]
  · split
    · exact surrender_src s
    · rfl

/-- A raise makes its source active and leaves the others as they were (19 R490). -/
theorem raiseCore_src (c : Nat) (o : Bool) (bs : List Block) (h : s.st ≠ .off) :
    ∃ f : FaultSt, f.active = true ∧ f.oneShot = o ∧ f.latched = true ∧ (raiseCore c o bs s).faults.src = Table.set s.faults.src (faultIndex c) f := by
  refine ⟨raisedSrc s c o bs, rfl, rfl, rfl, ?_⟩
  unfold raiseCore
  split
  · rename_i h0; exact absurd h0 h
  · dsimp only
    rw [directReact_src, assertFlt_faults]
    show Table.set (State.faults _).src _ _ = _
    congr 1
    split
    · unfold evRaw; rw [recordRaw_faults, recordRaw_faults]
    · rw [recordRaw_faults]

theorem lossCheck_src (n i : Nat) (hi : i ≠ faultIndex 0x1410) :
    Table.get {} (lossCheck n s).faults.src i = Table.get {} s.faults.src i := by
  unfold lossCheck
  split
  · by_cases h : s.st = .off
    · unfold raiseCore; rw [h]
    · obtain ⟨f, _, _, _, hf⟩ := raiseCore_src s 0x1410 true [.host] h
      rw [hf, Table.get_set, if_neg (fun e => hi e.symm)]
  · rfl

/-- A loss check never makes an active source inactive. -/
theorem lossCheck_active (n c : Nat) (h : faultActive s c = true) : faultActive (lossCheck n s) c = true := by
  by_cases hi : faultIndex c = faultIndex 0x1410
  · unfold lossCheck
    split
    · by_cases hs : s.st = .off
      · unfold raiseCore; rw [hs]; exact h
      · obtain ⟨f, ha, _, _, hf⟩ := raiseCore_src s 0x1410 true [.host] hs
        show (Table.get ({} : FaultSt) _ (faultIndex c)).active = true
        rw [hf, Table.get_set, hi, if_pos rfl, ha]
    · exact h
  · show (Table.get ({} : FaultSt) _ (faultIndex c)).active = true
    rw [lossCheck_src _ _ _ hi]
    exact h

/-- A condition that holds leaves its source active, unless the module is OFF (19 R490). -/
theorem faultSet_active (c : Nat) (bs : List Block) (h : s.st ≠ .off) : faultActive (faultSet c true bs s) c = true := by
  unfold faultSet
  simp only [if_true]
  split
  · assumption
  · apply lossCheck_active
    obtain ⟨f, ha, _, _, hf⟩ := raiseCore_src s c false bs h
    show (Table.get ({} : FaultSt) _ (faultIndex c)).active = true
    rw [hf, Table.get_set, if_pos rfl, ha]

theorem faultShot_active (c : Nat) (bs : List Block) (h : s.st ≠ .off) : faultActive (faultShot c bs s) c = true := by
  unfold faultShot
  split
  · assumption
  · apply lossCheck_active
    obtain ⟨f, ha, _, _, hf⟩ := raiseCore_src s c true bs h
    show (Table.get ({} : FaultSt) _ (faultIndex c)).active = true
    rw [hf, Table.get_set, if_pos rfl, ha]

theorem faultCond_active (c : Nat) (h : s.st ≠ .off) : faultActive (faultCond c true s) c = true := faultSet_active s c _ h
theorem faultOnce_active (c : Nat) (h : s.st ≠ .off) : faultActive (faultOnce c s) c = true := faultShot_active s c _ h

theorem settle_active (c : Nat) : faultActive (settle s) c = faultActive s c := by
  unfold faultActive srcOf
  rw [settle_faults]

/-- A row whose effect is to raise a condition source. -/
theorem raises_of_cond {c : Instr} {t v : State} {code : Nat} (hc : exec c s = .next (settle (faultCond code true t))) (ht : t.st ≠ .off)
    (hv : rest t = rest v) : Raises c s code v :=
  ⟨_, hc, by rw [settle_active]; exact faultCond_active t code ht, by rw [settle_rest, faultCond_rest, hv]⟩

/-! An event's record -/

/-- An occurrence finds room in the write queue: it stands at its end, stamped, and nothing is lost (20 R517, R518). -/
theorem event_queue (c : Nat) (d : Bytes) (h : s.st ≠ .off) (hr : queueSize s.ledger.queue + Rec.size { code := c, data := d } ≤ queueCap) :
    (event c d s).ledger = { s.ledger with queue := s.ledger.queue ++ [stampRec s { code := c, data := d }] } := by
  have hq : (evRaw c d s).ledger = { s.ledger with queue := s.ledger.queue ++ [stampRec s { code := c, data := d }] } := by
    unfold evRaw recordRaw
    split
    · rename_i h0; exact absurd h0 h
    · show LedgerSt.enqueue _ _ = _
      unfold LedgerSt.enqueue
      have : (stampRec s { code := c, data := d }).size = Rec.size { code := c, data := d } := rfl
      rw [this, if_pos hr]
  unfold event lossCheck
  rw [hq]
  simp [hq]


/-! `event` -/

@[simp] theorem event_pending (c : Nat) (d : Bytes) : (event c d s).pending = s.pending := by have h := congrArg State.pending (event_rest s c d); exact h
@[simp] theorem event_nFree (c : Nat) (d : Bytes) : (event c d s).nFree = s.nFree := by have h := congrArg State.nFree (event_rest s c d); exact h
@[simp] theorem event_unit (c : Nat) (d : Bytes) : (event c d s).unit = s.unit := by have h := congrArg State.unit (event_rest s c d); exact h
@[simp] theorem event_clk (c : Nat) (d : Bytes) : (event c d s).clk = s.clk := by have h := congrArg State.clk (event_rest s c d); exact h
@[simp] theorem event_st (c : Nat) (d : Bytes) : (event c d s).st = s.st := by have h := congrArg State.st (event_rest s c d); exact h
@[simp] theorem event_time (c : Nat) (d : Bytes) : (event c d s).time = s.time := by have h := congrArg State.time (event_rest s c d); exact h
@[simp] theorem event_rtc (c : Nat) (d : Bytes) : (event c d s).rtc = s.rtc := by have h := congrArg State.rtc (event_rest s c d); exact h
@[simp] theorem event_mb (c : Nat) (d : Bytes) : (event c d s).mb = s.mb := by have h := congrArg State.mb (event_rest s c d); exact h
@[simp] theorem event_view (c : Nat) (d : Bytes) : (event c d s).view = s.view := by have h := congrArg State.view (event_rest s c d); exact h
@[simp] theorem event_viewNext (c : Nat) (d : Bytes) : (event c d s).viewNext = s.viewNext := by have h := congrArg State.viewNext (event_rest s c d); exact h
@[simp] theorem event_cfg (c : Nat) (d : Bytes) : (event c d s).cfg = s.cfg := by have h := congrArg State.cfg (event_rest s c d); exact h
@[simp] theorem event_store (c : Nat) (d : Bytes) : (event c d s).store = s.store := by have h := congrArg State.store (event_rest s c d); exact h
@[simp] theorem event_close (c : Nat) (d : Bytes) : (event c d s).close = s.close := by have h := congrArg State.close (event_rest s c d); exact h
@[simp] theorem event_snap (c : Nat) (d : Bytes) : (event c d s).snap = s.snap := by have h := congrArg State.snap (event_rest s c d); exact h
@[simp] theorem event_intake (c : Nat) (d : Bytes) : (event c d s).intake = s.intake := by have h := congrArg State.intake (event_rest s c d); exact h
@[simp] theorem event_analog (c : Nat) (d : Bytes) : (event c d s).analog = s.analog := by have h := congrArg State.analog (event_rest s c d); exact h
@[simp] theorem event_fusion (c : Nat) (d : Bytes) : (event c d s).fusion = s.fusion := by have h := congrArg State.fusion (event_rest s c d); exact h
@[simp] theorem event_obs (c : Nat) (d : Bytes) : (event c d s).obs = s.obs := by have h := congrArg State.obs (event_rest s c d); exact h
@[simp] theorem event_sp (c : Nat) (d : Bytes) : (event c d s).sp = s.sp := by have h := congrArg State.sp (event_rest s c d); exact h
@[simp] theorem event_alloc (c : Nat) (d : Bytes) : (event c d s).alloc = s.alloc := by have h := congrArg State.alloc (event_rest s c d); exact h
@[simp] theorem event_solver (c : Nat) (d : Bytes) : (event c d s).solver = s.solver := by have h := congrArg State.solver (event_rest s c d); exact h
@[simp] theorem event_chandler (c : Nat) (d : Bytes) : (event c d s).chandler = s.chandler := by have h := congrArg State.chandler (event_rest s c d); exact h
@[simp] theorem event_bring (c : Nat) (d : Bytes) : (event c d s).bring = s.bring := by have h := congrArg State.bring (event_rest s c d); exact h
@[simp] theorem event_gnss (c : Nat) (d : Bytes) : (event c d s).gnss = s.gnss := by have h := congrArg State.gnss (event_rest s c d); exact h
@[simp] theorem event_can (c : Nat) (d : Bytes) : (event c d s).can = s.can := by have h := congrArg State.can (event_rest s c d); exact h
@[simp] theorem event_slots (c : Nat) (d : Bytes) : (event c d s).slots = s.slots := by have h := congrArg State.slots (event_rest s c d); exact h
@[simp] theorem event_osc (c : Nat) (d : Bytes) : (event c d s).osc = s.osc := by have h := congrArg State.osc (event_rest s c d); exact h
@[simp] theorem event_safety (c : Nat) (d : Bytes) : (event c d s).safety = s.safety := by have h := congrArg State.safety (event_rest s c d); exact h
@[simp] theorem event_frame_index (c : Nat) (d : Bytes) : (event c d s).frame.index = s.frame.index := by have h := congrArg (fun t => t.frame.index) (event_rest s c d); exact h
@[simp] theorem event_frame_tic (c : Nat) (d : Bytes) : (event c d s).frame.tic = s.frame.tic := by have h := congrArg (fun t => t.frame.tic) (event_rest s c d); exact h
@[simp] theorem event_frame_ticEl (c : Nat) (d : Bytes) : (event c d s).frame.ticEl = s.frame.ticEl := by have h := congrArg (fun t => t.frame.ticEl) (event_rest s c d); exact h
@[simp] theorem event_frame_nextTick (c : Nat) (d : Bytes) : (event c d s).frame.nextTick = s.frame.nextTick := by have h := congrArg (fun t => t.frame.nextTick) (event_rest s c d); exact h
@[simp] theorem event_frame_phase (c : Nat) (d : Bytes) : (event c d s).frame.phase = s.frame.phase := by have h := congrArg (fun t => t.frame.phase) (event_rest s c d); exact h
@[simp] theorem event_frame_mode (c : Nat) (d : Bytes) : (event c d s).frame.mode = s.frame.mode := by have h := congrArg (fun t => t.frame.mode) (event_rest s c d); exact h
@[simp] theorem event_frame_pendingMode (c : Nat) (d : Bytes) : (event c d s).frame.pendingMode = s.frame.pendingMode := by have h := congrArg (fun t => t.frame.pendingMode) (event_rest s c d); exact h
@[simp] theorem event_frame_status (c : Nat) (d : Bytes) : (event c d s).frame.status = s.frame.status := by have h := congrArg (fun t => t.frame.status) (event_rest s c d); exact h
@[simp] theorem event_frame_history (c : Nat) (d : Bytes) : (event c d s).frame.history = s.frame.history := by have h := congrArg (fun t => t.frame.history) (event_rest s c d); exact h
@[simp] theorem event_frame_running (c : Nat) (d : Bytes) : (event c d s).frame.running = s.frame.running := by have h := congrArg (fun t => t.frame.running) (event_rest s c d); exact h

/-! `faultShot` -/

@[simp] theorem faultShot_pending (c : Nat) (bs : List Block) : (faultShot c bs s).pending = s.pending := by have h := congrArg State.pending (faultShot_rest s c bs); exact h
@[simp] theorem faultShot_nFree (c : Nat) (bs : List Block) : (faultShot c bs s).nFree = s.nFree := by have h := congrArg State.nFree (faultShot_rest s c bs); exact h
@[simp] theorem faultShot_unit (c : Nat) (bs : List Block) : (faultShot c bs s).unit = s.unit := by have h := congrArg State.unit (faultShot_rest s c bs); exact h
@[simp] theorem faultShot_clk (c : Nat) (bs : List Block) : (faultShot c bs s).clk = s.clk := by have h := congrArg State.clk (faultShot_rest s c bs); exact h
@[simp] theorem faultShot_st (c : Nat) (bs : List Block) : (faultShot c bs s).st = s.st := by have h := congrArg State.st (faultShot_rest s c bs); exact h
@[simp] theorem faultShot_time (c : Nat) (bs : List Block) : (faultShot c bs s).time = s.time := by have h := congrArg State.time (faultShot_rest s c bs); exact h
@[simp] theorem faultShot_rtc (c : Nat) (bs : List Block) : (faultShot c bs s).rtc = s.rtc := by have h := congrArg State.rtc (faultShot_rest s c bs); exact h
@[simp] theorem faultShot_mb (c : Nat) (bs : List Block) : (faultShot c bs s).mb = s.mb := by have h := congrArg State.mb (faultShot_rest s c bs); exact h
@[simp] theorem faultShot_view (c : Nat) (bs : List Block) : (faultShot c bs s).view = s.view := by have h := congrArg State.view (faultShot_rest s c bs); exact h
@[simp] theorem faultShot_viewNext (c : Nat) (bs : List Block) : (faultShot c bs s).viewNext = s.viewNext := by have h := congrArg State.viewNext (faultShot_rest s c bs); exact h
@[simp] theorem faultShot_cfg (c : Nat) (bs : List Block) : (faultShot c bs s).cfg = s.cfg := by have h := congrArg State.cfg (faultShot_rest s c bs); exact h
@[simp] theorem faultShot_store (c : Nat) (bs : List Block) : (faultShot c bs s).store = s.store := by have h := congrArg State.store (faultShot_rest s c bs); exact h
@[simp] theorem faultShot_close (c : Nat) (bs : List Block) : (faultShot c bs s).close = s.close := by have h := congrArg State.close (faultShot_rest s c bs); exact h
@[simp] theorem faultShot_snap (c : Nat) (bs : List Block) : (faultShot c bs s).snap = s.snap := by have h := congrArg State.snap (faultShot_rest s c bs); exact h
@[simp] theorem faultShot_intake (c : Nat) (bs : List Block) : (faultShot c bs s).intake = s.intake := by have h := congrArg State.intake (faultShot_rest s c bs); exact h
@[simp] theorem faultShot_analog (c : Nat) (bs : List Block) : (faultShot c bs s).analog = s.analog := by have h := congrArg State.analog (faultShot_rest s c bs); exact h
@[simp] theorem faultShot_fusion (c : Nat) (bs : List Block) : (faultShot c bs s).fusion = s.fusion := by have h := congrArg State.fusion (faultShot_rest s c bs); exact h
@[simp] theorem faultShot_obs (c : Nat) (bs : List Block) : (faultShot c bs s).obs = s.obs := by have h := congrArg State.obs (faultShot_rest s c bs); exact h
@[simp] theorem faultShot_sp (c : Nat) (bs : List Block) : (faultShot c bs s).sp = s.sp := by have h := congrArg State.sp (faultShot_rest s c bs); exact h
@[simp] theorem faultShot_alloc (c : Nat) (bs : List Block) : (faultShot c bs s).alloc = s.alloc := by have h := congrArg State.alloc (faultShot_rest s c bs); exact h
@[simp] theorem faultShot_solver (c : Nat) (bs : List Block) : (faultShot c bs s).solver = s.solver := by have h := congrArg State.solver (faultShot_rest s c bs); exact h
@[simp] theorem faultShot_chandler (c : Nat) (bs : List Block) : (faultShot c bs s).chandler = s.chandler := by have h := congrArg State.chandler (faultShot_rest s c bs); exact h
@[simp] theorem faultShot_bring (c : Nat) (bs : List Block) : (faultShot c bs s).bring = s.bring := by have h := congrArg State.bring (faultShot_rest s c bs); exact h
@[simp] theorem faultShot_gnss (c : Nat) (bs : List Block) : (faultShot c bs s).gnss = s.gnss := by have h := congrArg State.gnss (faultShot_rest s c bs); exact h
@[simp] theorem faultShot_can (c : Nat) (bs : List Block) : (faultShot c bs s).can = s.can := by have h := congrArg State.can (faultShot_rest s c bs); exact h
@[simp] theorem faultShot_slots (c : Nat) (bs : List Block) : (faultShot c bs s).slots = s.slots := by have h := congrArg State.slots (faultShot_rest s c bs); exact h
@[simp] theorem faultShot_osc (c : Nat) (bs : List Block) : (faultShot c bs s).osc = s.osc := by have h := congrArg State.osc (faultShot_rest s c bs); exact h
@[simp] theorem faultShot_safety (c : Nat) (bs : List Block) : (faultShot c bs s).safety = s.safety := by have h := congrArg State.safety (faultShot_rest s c bs); exact h
@[simp] theorem faultShot_frame_index (c : Nat) (bs : List Block) : (faultShot c bs s).frame.index = s.frame.index := by have h := congrArg (fun t => t.frame.index) (faultShot_rest s c bs); exact h
@[simp] theorem faultShot_frame_tic (c : Nat) (bs : List Block) : (faultShot c bs s).frame.tic = s.frame.tic := by have h := congrArg (fun t => t.frame.tic) (faultShot_rest s c bs); exact h
@[simp] theorem faultShot_frame_ticEl (c : Nat) (bs : List Block) : (faultShot c bs s).frame.ticEl = s.frame.ticEl := by have h := congrArg (fun t => t.frame.ticEl) (faultShot_rest s c bs); exact h
@[simp] theorem faultShot_frame_nextTick (c : Nat) (bs : List Block) : (faultShot c bs s).frame.nextTick = s.frame.nextTick := by have h := congrArg (fun t => t.frame.nextTick) (faultShot_rest s c bs); exact h
@[simp] theorem faultShot_frame_phase (c : Nat) (bs : List Block) : (faultShot c bs s).frame.phase = s.frame.phase := by have h := congrArg (fun t => t.frame.phase) (faultShot_rest s c bs); exact h
@[simp] theorem faultShot_frame_mode (c : Nat) (bs : List Block) : (faultShot c bs s).frame.mode = s.frame.mode := by have h := congrArg (fun t => t.frame.mode) (faultShot_rest s c bs); exact h
@[simp] theorem faultShot_frame_pendingMode (c : Nat) (bs : List Block) : (faultShot c bs s).frame.pendingMode = s.frame.pendingMode := by have h := congrArg (fun t => t.frame.pendingMode) (faultShot_rest s c bs); exact h
@[simp] theorem faultShot_frame_status (c : Nat) (bs : List Block) : (faultShot c bs s).frame.status = s.frame.status := by have h := congrArg (fun t => t.frame.status) (faultShot_rest s c bs); exact h
@[simp] theorem faultShot_frame_history (c : Nat) (bs : List Block) : (faultShot c bs s).frame.history = s.frame.history := by have h := congrArg (fun t => t.frame.history) (faultShot_rest s c bs); exact h
@[simp] theorem faultShot_frame_running (c : Nat) (bs : List Block) : (faultShot c bs s).frame.running = s.frame.running := by have h := congrArg (fun t => t.frame.running) (faultShot_rest s c bs); exact h

/-! `faultSet` -/

@[simp] theorem faultSet_pending (c : Nat) (on : Bool) (bs : List Block) : (faultSet c on bs s).pending = s.pending := by have h := congrArg State.pending (faultSet_rest s c on bs); exact h
@[simp] theorem faultSet_nFree (c : Nat) (on : Bool) (bs : List Block) : (faultSet c on bs s).nFree = s.nFree := by have h := congrArg State.nFree (faultSet_rest s c on bs); exact h
@[simp] theorem faultSet_unit (c : Nat) (on : Bool) (bs : List Block) : (faultSet c on bs s).unit = s.unit := by have h := congrArg State.unit (faultSet_rest s c on bs); exact h
@[simp] theorem faultSet_clk (c : Nat) (on : Bool) (bs : List Block) : (faultSet c on bs s).clk = s.clk := by have h := congrArg State.clk (faultSet_rest s c on bs); exact h
@[simp] theorem faultSet_st (c : Nat) (on : Bool) (bs : List Block) : (faultSet c on bs s).st = s.st := by have h := congrArg State.st (faultSet_rest s c on bs); exact h
@[simp] theorem faultSet_time (c : Nat) (on : Bool) (bs : List Block) : (faultSet c on bs s).time = s.time := by have h := congrArg State.time (faultSet_rest s c on bs); exact h
@[simp] theorem faultSet_rtc (c : Nat) (on : Bool) (bs : List Block) : (faultSet c on bs s).rtc = s.rtc := by have h := congrArg State.rtc (faultSet_rest s c on bs); exact h
@[simp] theorem faultSet_mb (c : Nat) (on : Bool) (bs : List Block) : (faultSet c on bs s).mb = s.mb := by have h := congrArg State.mb (faultSet_rest s c on bs); exact h
@[simp] theorem faultSet_view (c : Nat) (on : Bool) (bs : List Block) : (faultSet c on bs s).view = s.view := by have h := congrArg State.view (faultSet_rest s c on bs); exact h
@[simp] theorem faultSet_viewNext (c : Nat) (on : Bool) (bs : List Block) : (faultSet c on bs s).viewNext = s.viewNext := by have h := congrArg State.viewNext (faultSet_rest s c on bs); exact h
@[simp] theorem faultSet_cfg (c : Nat) (on : Bool) (bs : List Block) : (faultSet c on bs s).cfg = s.cfg := by have h := congrArg State.cfg (faultSet_rest s c on bs); exact h
@[simp] theorem faultSet_store (c : Nat) (on : Bool) (bs : List Block) : (faultSet c on bs s).store = s.store := by have h := congrArg State.store (faultSet_rest s c on bs); exact h
@[simp] theorem faultSet_close (c : Nat) (on : Bool) (bs : List Block) : (faultSet c on bs s).close = s.close := by have h := congrArg State.close (faultSet_rest s c on bs); exact h
@[simp] theorem faultSet_snap (c : Nat) (on : Bool) (bs : List Block) : (faultSet c on bs s).snap = s.snap := by have h := congrArg State.snap (faultSet_rest s c on bs); exact h
@[simp] theorem faultSet_intake (c : Nat) (on : Bool) (bs : List Block) : (faultSet c on bs s).intake = s.intake := by have h := congrArg State.intake (faultSet_rest s c on bs); exact h
@[simp] theorem faultSet_analog (c : Nat) (on : Bool) (bs : List Block) : (faultSet c on bs s).analog = s.analog := by have h := congrArg State.analog (faultSet_rest s c on bs); exact h
@[simp] theorem faultSet_fusion (c : Nat) (on : Bool) (bs : List Block) : (faultSet c on bs s).fusion = s.fusion := by have h := congrArg State.fusion (faultSet_rest s c on bs); exact h
@[simp] theorem faultSet_obs (c : Nat) (on : Bool) (bs : List Block) : (faultSet c on bs s).obs = s.obs := by have h := congrArg State.obs (faultSet_rest s c on bs); exact h
@[simp] theorem faultSet_sp (c : Nat) (on : Bool) (bs : List Block) : (faultSet c on bs s).sp = s.sp := by have h := congrArg State.sp (faultSet_rest s c on bs); exact h
@[simp] theorem faultSet_alloc (c : Nat) (on : Bool) (bs : List Block) : (faultSet c on bs s).alloc = s.alloc := by have h := congrArg State.alloc (faultSet_rest s c on bs); exact h
@[simp] theorem faultSet_solver (c : Nat) (on : Bool) (bs : List Block) : (faultSet c on bs s).solver = s.solver := by have h := congrArg State.solver (faultSet_rest s c on bs); exact h
@[simp] theorem faultSet_chandler (c : Nat) (on : Bool) (bs : List Block) : (faultSet c on bs s).chandler = s.chandler := by have h := congrArg State.chandler (faultSet_rest s c on bs); exact h
@[simp] theorem faultSet_bring (c : Nat) (on : Bool) (bs : List Block) : (faultSet c on bs s).bring = s.bring := by have h := congrArg State.bring (faultSet_rest s c on bs); exact h
@[simp] theorem faultSet_gnss (c : Nat) (on : Bool) (bs : List Block) : (faultSet c on bs s).gnss = s.gnss := by have h := congrArg State.gnss (faultSet_rest s c on bs); exact h
@[simp] theorem faultSet_can (c : Nat) (on : Bool) (bs : List Block) : (faultSet c on bs s).can = s.can := by have h := congrArg State.can (faultSet_rest s c on bs); exact h
@[simp] theorem faultSet_slots (c : Nat) (on : Bool) (bs : List Block) : (faultSet c on bs s).slots = s.slots := by have h := congrArg State.slots (faultSet_rest s c on bs); exact h
@[simp] theorem faultSet_osc (c : Nat) (on : Bool) (bs : List Block) : (faultSet c on bs s).osc = s.osc := by have h := congrArg State.osc (faultSet_rest s c on bs); exact h
@[simp] theorem faultSet_safety (c : Nat) (on : Bool) (bs : List Block) : (faultSet c on bs s).safety = s.safety := by have h := congrArg State.safety (faultSet_rest s c on bs); exact h
@[simp] theorem faultSet_frame_index (c : Nat) (on : Bool) (bs : List Block) : (faultSet c on bs s).frame.index = s.frame.index := by have h := congrArg (fun t => t.frame.index) (faultSet_rest s c on bs); exact h
@[simp] theorem faultSet_frame_tic (c : Nat) (on : Bool) (bs : List Block) : (faultSet c on bs s).frame.tic = s.frame.tic := by have h := congrArg (fun t => t.frame.tic) (faultSet_rest s c on bs); exact h
@[simp] theorem faultSet_frame_ticEl (c : Nat) (on : Bool) (bs : List Block) : (faultSet c on bs s).frame.ticEl = s.frame.ticEl := by have h := congrArg (fun t => t.frame.ticEl) (faultSet_rest s c on bs); exact h
@[simp] theorem faultSet_frame_nextTick (c : Nat) (on : Bool) (bs : List Block) : (faultSet c on bs s).frame.nextTick = s.frame.nextTick := by have h := congrArg (fun t => t.frame.nextTick) (faultSet_rest s c on bs); exact h
@[simp] theorem faultSet_frame_phase (c : Nat) (on : Bool) (bs : List Block) : (faultSet c on bs s).frame.phase = s.frame.phase := by have h := congrArg (fun t => t.frame.phase) (faultSet_rest s c on bs); exact h
@[simp] theorem faultSet_frame_mode (c : Nat) (on : Bool) (bs : List Block) : (faultSet c on bs s).frame.mode = s.frame.mode := by have h := congrArg (fun t => t.frame.mode) (faultSet_rest s c on bs); exact h
@[simp] theorem faultSet_frame_pendingMode (c : Nat) (on : Bool) (bs : List Block) : (faultSet c on bs s).frame.pendingMode = s.frame.pendingMode := by have h := congrArg (fun t => t.frame.pendingMode) (faultSet_rest s c on bs); exact h
@[simp] theorem faultSet_frame_status (c : Nat) (on : Bool) (bs : List Block) : (faultSet c on bs s).frame.status = s.frame.status := by have h := congrArg (fun t => t.frame.status) (faultSet_rest s c on bs); exact h
@[simp] theorem faultSet_frame_history (c : Nat) (on : Bool) (bs : List Block) : (faultSet c on bs s).frame.history = s.frame.history := by have h := congrArg (fun t => t.frame.history) (faultSet_rest s c on bs); exact h
@[simp] theorem faultSet_frame_running (c : Nat) (on : Bool) (bs : List Block) : (faultSet c on bs s).frame.running = s.frame.running := by have h := congrArg (fun t => t.frame.running) (faultSet_rest s c on bs); exact h

/-! `faultCond` -/

@[simp] theorem faultCond_pending (c : Nat) (on : Bool) : (faultCond c on s).pending = s.pending := by have h := congrArg State.pending (faultCond_rest s c on); exact h
@[simp] theorem faultCond_nFree (c : Nat) (on : Bool) : (faultCond c on s).nFree = s.nFree := by have h := congrArg State.nFree (faultCond_rest s c on); exact h
@[simp] theorem faultCond_unit (c : Nat) (on : Bool) : (faultCond c on s).unit = s.unit := by have h := congrArg State.unit (faultCond_rest s c on); exact h
@[simp] theorem faultCond_clk (c : Nat) (on : Bool) : (faultCond c on s).clk = s.clk := by have h := congrArg State.clk (faultCond_rest s c on); exact h
@[simp] theorem faultCond_st (c : Nat) (on : Bool) : (faultCond c on s).st = s.st := by have h := congrArg State.st (faultCond_rest s c on); exact h
@[simp] theorem faultCond_time (c : Nat) (on : Bool) : (faultCond c on s).time = s.time := by have h := congrArg State.time (faultCond_rest s c on); exact h
@[simp] theorem faultCond_rtc (c : Nat) (on : Bool) : (faultCond c on s).rtc = s.rtc := by have h := congrArg State.rtc (faultCond_rest s c on); exact h
@[simp] theorem faultCond_mb (c : Nat) (on : Bool) : (faultCond c on s).mb = s.mb := by have h := congrArg State.mb (faultCond_rest s c on); exact h
@[simp] theorem faultCond_view (c : Nat) (on : Bool) : (faultCond c on s).view = s.view := by have h := congrArg State.view (faultCond_rest s c on); exact h
@[simp] theorem faultCond_viewNext (c : Nat) (on : Bool) : (faultCond c on s).viewNext = s.viewNext := by have h := congrArg State.viewNext (faultCond_rest s c on); exact h
@[simp] theorem faultCond_cfg (c : Nat) (on : Bool) : (faultCond c on s).cfg = s.cfg := by have h := congrArg State.cfg (faultCond_rest s c on); exact h
@[simp] theorem faultCond_store (c : Nat) (on : Bool) : (faultCond c on s).store = s.store := by have h := congrArg State.store (faultCond_rest s c on); exact h
@[simp] theorem faultCond_close (c : Nat) (on : Bool) : (faultCond c on s).close = s.close := by have h := congrArg State.close (faultCond_rest s c on); exact h
@[simp] theorem faultCond_snap (c : Nat) (on : Bool) : (faultCond c on s).snap = s.snap := by have h := congrArg State.snap (faultCond_rest s c on); exact h
@[simp] theorem faultCond_intake (c : Nat) (on : Bool) : (faultCond c on s).intake = s.intake := by have h := congrArg State.intake (faultCond_rest s c on); exact h
@[simp] theorem faultCond_analog (c : Nat) (on : Bool) : (faultCond c on s).analog = s.analog := by have h := congrArg State.analog (faultCond_rest s c on); exact h
@[simp] theorem faultCond_fusion (c : Nat) (on : Bool) : (faultCond c on s).fusion = s.fusion := by have h := congrArg State.fusion (faultCond_rest s c on); exact h
@[simp] theorem faultCond_obs (c : Nat) (on : Bool) : (faultCond c on s).obs = s.obs := by have h := congrArg State.obs (faultCond_rest s c on); exact h
@[simp] theorem faultCond_sp (c : Nat) (on : Bool) : (faultCond c on s).sp = s.sp := by have h := congrArg State.sp (faultCond_rest s c on); exact h
@[simp] theorem faultCond_alloc (c : Nat) (on : Bool) : (faultCond c on s).alloc = s.alloc := by have h := congrArg State.alloc (faultCond_rest s c on); exact h
@[simp] theorem faultCond_solver (c : Nat) (on : Bool) : (faultCond c on s).solver = s.solver := by have h := congrArg State.solver (faultCond_rest s c on); exact h
@[simp] theorem faultCond_chandler (c : Nat) (on : Bool) : (faultCond c on s).chandler = s.chandler := by have h := congrArg State.chandler (faultCond_rest s c on); exact h
@[simp] theorem faultCond_bring (c : Nat) (on : Bool) : (faultCond c on s).bring = s.bring := by have h := congrArg State.bring (faultCond_rest s c on); exact h
@[simp] theorem faultCond_gnss (c : Nat) (on : Bool) : (faultCond c on s).gnss = s.gnss := by have h := congrArg State.gnss (faultCond_rest s c on); exact h
@[simp] theorem faultCond_can (c : Nat) (on : Bool) : (faultCond c on s).can = s.can := by have h := congrArg State.can (faultCond_rest s c on); exact h
@[simp] theorem faultCond_slots (c : Nat) (on : Bool) : (faultCond c on s).slots = s.slots := by have h := congrArg State.slots (faultCond_rest s c on); exact h
@[simp] theorem faultCond_osc (c : Nat) (on : Bool) : (faultCond c on s).osc = s.osc := by have h := congrArg State.osc (faultCond_rest s c on); exact h
@[simp] theorem faultCond_safety (c : Nat) (on : Bool) : (faultCond c on s).safety = s.safety := by have h := congrArg State.safety (faultCond_rest s c on); exact h
@[simp] theorem faultCond_frame_index (c : Nat) (on : Bool) : (faultCond c on s).frame.index = s.frame.index := by have h := congrArg (fun t => t.frame.index) (faultCond_rest s c on); exact h
@[simp] theorem faultCond_frame_tic (c : Nat) (on : Bool) : (faultCond c on s).frame.tic = s.frame.tic := by have h := congrArg (fun t => t.frame.tic) (faultCond_rest s c on); exact h
@[simp] theorem faultCond_frame_ticEl (c : Nat) (on : Bool) : (faultCond c on s).frame.ticEl = s.frame.ticEl := by have h := congrArg (fun t => t.frame.ticEl) (faultCond_rest s c on); exact h
@[simp] theorem faultCond_frame_nextTick (c : Nat) (on : Bool) : (faultCond c on s).frame.nextTick = s.frame.nextTick := by have h := congrArg (fun t => t.frame.nextTick) (faultCond_rest s c on); exact h
@[simp] theorem faultCond_frame_phase (c : Nat) (on : Bool) : (faultCond c on s).frame.phase = s.frame.phase := by have h := congrArg (fun t => t.frame.phase) (faultCond_rest s c on); exact h
@[simp] theorem faultCond_frame_mode (c : Nat) (on : Bool) : (faultCond c on s).frame.mode = s.frame.mode := by have h := congrArg (fun t => t.frame.mode) (faultCond_rest s c on); exact h
@[simp] theorem faultCond_frame_pendingMode (c : Nat) (on : Bool) : (faultCond c on s).frame.pendingMode = s.frame.pendingMode := by have h := congrArg (fun t => t.frame.pendingMode) (faultCond_rest s c on); exact h
@[simp] theorem faultCond_frame_status (c : Nat) (on : Bool) : (faultCond c on s).frame.status = s.frame.status := by have h := congrArg (fun t => t.frame.status) (faultCond_rest s c on); exact h
@[simp] theorem faultCond_frame_history (c : Nat) (on : Bool) : (faultCond c on s).frame.history = s.frame.history := by have h := congrArg (fun t => t.frame.history) (faultCond_rest s c on); exact h
@[simp] theorem faultCond_frame_running (c : Nat) (on : Bool) : (faultCond c on s).frame.running = s.frame.running := by have h := congrArg (fun t => t.frame.running) (faultCond_rest s c on); exact h

/-! `faultOnce` -/

@[simp] theorem faultOnce_pending (c : Nat) : (faultOnce c s).pending = s.pending := by have h := congrArg State.pending (faultOnce_rest s c); exact h
@[simp] theorem faultOnce_nFree (c : Nat) : (faultOnce c s).nFree = s.nFree := by have h := congrArg State.nFree (faultOnce_rest s c); exact h
@[simp] theorem faultOnce_unit (c : Nat) : (faultOnce c s).unit = s.unit := by have h := congrArg State.unit (faultOnce_rest s c); exact h
@[simp] theorem faultOnce_clk (c : Nat) : (faultOnce c s).clk = s.clk := by have h := congrArg State.clk (faultOnce_rest s c); exact h
@[simp] theorem faultOnce_st (c : Nat) : (faultOnce c s).st = s.st := by have h := congrArg State.st (faultOnce_rest s c); exact h
@[simp] theorem faultOnce_time (c : Nat) : (faultOnce c s).time = s.time := by have h := congrArg State.time (faultOnce_rest s c); exact h
@[simp] theorem faultOnce_rtc (c : Nat) : (faultOnce c s).rtc = s.rtc := by have h := congrArg State.rtc (faultOnce_rest s c); exact h
@[simp] theorem faultOnce_mb (c : Nat) : (faultOnce c s).mb = s.mb := by have h := congrArg State.mb (faultOnce_rest s c); exact h
@[simp] theorem faultOnce_view (c : Nat) : (faultOnce c s).view = s.view := by have h := congrArg State.view (faultOnce_rest s c); exact h
@[simp] theorem faultOnce_viewNext (c : Nat) : (faultOnce c s).viewNext = s.viewNext := by have h := congrArg State.viewNext (faultOnce_rest s c); exact h
@[simp] theorem faultOnce_cfg (c : Nat) : (faultOnce c s).cfg = s.cfg := by have h := congrArg State.cfg (faultOnce_rest s c); exact h
@[simp] theorem faultOnce_store (c : Nat) : (faultOnce c s).store = s.store := by have h := congrArg State.store (faultOnce_rest s c); exact h
@[simp] theorem faultOnce_close (c : Nat) : (faultOnce c s).close = s.close := by have h := congrArg State.close (faultOnce_rest s c); exact h
@[simp] theorem faultOnce_snap (c : Nat) : (faultOnce c s).snap = s.snap := by have h := congrArg State.snap (faultOnce_rest s c); exact h
@[simp] theorem faultOnce_intake (c : Nat) : (faultOnce c s).intake = s.intake := by have h := congrArg State.intake (faultOnce_rest s c); exact h
@[simp] theorem faultOnce_analog (c : Nat) : (faultOnce c s).analog = s.analog := by have h := congrArg State.analog (faultOnce_rest s c); exact h
@[simp] theorem faultOnce_fusion (c : Nat) : (faultOnce c s).fusion = s.fusion := by have h := congrArg State.fusion (faultOnce_rest s c); exact h
@[simp] theorem faultOnce_obs (c : Nat) : (faultOnce c s).obs = s.obs := by have h := congrArg State.obs (faultOnce_rest s c); exact h
@[simp] theorem faultOnce_sp (c : Nat) : (faultOnce c s).sp = s.sp := by have h := congrArg State.sp (faultOnce_rest s c); exact h
@[simp] theorem faultOnce_alloc (c : Nat) : (faultOnce c s).alloc = s.alloc := by have h := congrArg State.alloc (faultOnce_rest s c); exact h
@[simp] theorem faultOnce_solver (c : Nat) : (faultOnce c s).solver = s.solver := by have h := congrArg State.solver (faultOnce_rest s c); exact h
@[simp] theorem faultOnce_chandler (c : Nat) : (faultOnce c s).chandler = s.chandler := by have h := congrArg State.chandler (faultOnce_rest s c); exact h
@[simp] theorem faultOnce_bring (c : Nat) : (faultOnce c s).bring = s.bring := by have h := congrArg State.bring (faultOnce_rest s c); exact h
@[simp] theorem faultOnce_gnss (c : Nat) : (faultOnce c s).gnss = s.gnss := by have h := congrArg State.gnss (faultOnce_rest s c); exact h
@[simp] theorem faultOnce_can (c : Nat) : (faultOnce c s).can = s.can := by have h := congrArg State.can (faultOnce_rest s c); exact h
@[simp] theorem faultOnce_slots (c : Nat) : (faultOnce c s).slots = s.slots := by have h := congrArg State.slots (faultOnce_rest s c); exact h
@[simp] theorem faultOnce_osc (c : Nat) : (faultOnce c s).osc = s.osc := by have h := congrArg State.osc (faultOnce_rest s c); exact h
@[simp] theorem faultOnce_safety (c : Nat) : (faultOnce c s).safety = s.safety := by have h := congrArg State.safety (faultOnce_rest s c); exact h
@[simp] theorem faultOnce_frame_index (c : Nat) : (faultOnce c s).frame.index = s.frame.index := by have h := congrArg (fun t => t.frame.index) (faultOnce_rest s c); exact h
@[simp] theorem faultOnce_frame_tic (c : Nat) : (faultOnce c s).frame.tic = s.frame.tic := by have h := congrArg (fun t => t.frame.tic) (faultOnce_rest s c); exact h
@[simp] theorem faultOnce_frame_ticEl (c : Nat) : (faultOnce c s).frame.ticEl = s.frame.ticEl := by have h := congrArg (fun t => t.frame.ticEl) (faultOnce_rest s c); exact h
@[simp] theorem faultOnce_frame_nextTick (c : Nat) : (faultOnce c s).frame.nextTick = s.frame.nextTick := by have h := congrArg (fun t => t.frame.nextTick) (faultOnce_rest s c); exact h
@[simp] theorem faultOnce_frame_phase (c : Nat) : (faultOnce c s).frame.phase = s.frame.phase := by have h := congrArg (fun t => t.frame.phase) (faultOnce_rest s c); exact h
@[simp] theorem faultOnce_frame_mode (c : Nat) : (faultOnce c s).frame.mode = s.frame.mode := by have h := congrArg (fun t => t.frame.mode) (faultOnce_rest s c); exact h
@[simp] theorem faultOnce_frame_pendingMode (c : Nat) : (faultOnce c s).frame.pendingMode = s.frame.pendingMode := by have h := congrArg (fun t => t.frame.pendingMode) (faultOnce_rest s c); exact h
@[simp] theorem faultOnce_frame_status (c : Nat) : (faultOnce c s).frame.status = s.frame.status := by have h := congrArg (fun t => t.frame.status) (faultOnce_rest s c); exact h
@[simp] theorem faultOnce_frame_history (c : Nat) : (faultOnce c s).frame.history = s.frame.history := by have h := congrArg (fun t => t.frame.history) (faultOnce_rest s c); exact h
@[simp] theorem faultOnce_frame_running (c : Nat) : (faultOnce c s).frame.running = s.frame.running := by have h := congrArg (fun t => t.frame.running) (faultOnce_rest s c); exact h

/-! `degrade` -/

@[simp] theorem degrade_pending (b : Nat) : (degrade b s).pending = s.pending := by have h := congrArg State.pending (degrade_rest s b); exact h
@[simp] theorem degrade_nFree (b : Nat) : (degrade b s).nFree = s.nFree := by have h := congrArg State.nFree (degrade_rest s b); exact h
@[simp] theorem degrade_unit (b : Nat) : (degrade b s).unit = s.unit := by have h := congrArg State.unit (degrade_rest s b); exact h
@[simp] theorem degrade_clk (b : Nat) : (degrade b s).clk = s.clk := by have h := congrArg State.clk (degrade_rest s b); exact h
@[simp] theorem degrade_st (b : Nat) : (degrade b s).st = s.st := by have h := congrArg State.st (degrade_rest s b); exact h
@[simp] theorem degrade_time (b : Nat) : (degrade b s).time = s.time := by have h := congrArg State.time (degrade_rest s b); exact h
@[simp] theorem degrade_rtc (b : Nat) : (degrade b s).rtc = s.rtc := by have h := congrArg State.rtc (degrade_rest s b); exact h
@[simp] theorem degrade_mb (b : Nat) : (degrade b s).mb = s.mb := by have h := congrArg State.mb (degrade_rest s b); exact h
@[simp] theorem degrade_view (b : Nat) : (degrade b s).view = s.view := by have h := congrArg State.view (degrade_rest s b); exact h
@[simp] theorem degrade_viewNext (b : Nat) : (degrade b s).viewNext = s.viewNext := by have h := congrArg State.viewNext (degrade_rest s b); exact h
@[simp] theorem degrade_cfg (b : Nat) : (degrade b s).cfg = s.cfg := by have h := congrArg State.cfg (degrade_rest s b); exact h
@[simp] theorem degrade_store (b : Nat) : (degrade b s).store = s.store := by have h := congrArg State.store (degrade_rest s b); exact h
@[simp] theorem degrade_close (b : Nat) : (degrade b s).close = s.close := by have h := congrArg State.close (degrade_rest s b); exact h
@[simp] theorem degrade_snap (b : Nat) : (degrade b s).snap = s.snap := by have h := congrArg State.snap (degrade_rest s b); exact h
@[simp] theorem degrade_intake (b : Nat) : (degrade b s).intake = s.intake := by have h := congrArg State.intake (degrade_rest s b); exact h
@[simp] theorem degrade_analog (b : Nat) : (degrade b s).analog = s.analog := by have h := congrArg State.analog (degrade_rest s b); exact h
@[simp] theorem degrade_fusion (b : Nat) : (degrade b s).fusion = s.fusion := by have h := congrArg State.fusion (degrade_rest s b); exact h
@[simp] theorem degrade_obs (b : Nat) : (degrade b s).obs = s.obs := by have h := congrArg State.obs (degrade_rest s b); exact h
@[simp] theorem degrade_sp (b : Nat) : (degrade b s).sp = s.sp := by have h := congrArg State.sp (degrade_rest s b); exact h
@[simp] theorem degrade_alloc (b : Nat) : (degrade b s).alloc = s.alloc := by have h := congrArg State.alloc (degrade_rest s b); exact h
@[simp] theorem degrade_solver (b : Nat) : (degrade b s).solver = s.solver := by have h := congrArg State.solver (degrade_rest s b); exact h
@[simp] theorem degrade_chandler (b : Nat) : (degrade b s).chandler = s.chandler := by have h := congrArg State.chandler (degrade_rest s b); exact h
@[simp] theorem degrade_bring (b : Nat) : (degrade b s).bring = s.bring := by have h := congrArg State.bring (degrade_rest s b); exact h
@[simp] theorem degrade_gnss (b : Nat) : (degrade b s).gnss = s.gnss := by have h := congrArg State.gnss (degrade_rest s b); exact h
@[simp] theorem degrade_can (b : Nat) : (degrade b s).can = s.can := by have h := congrArg State.can (degrade_rest s b); exact h
@[simp] theorem degrade_slots (b : Nat) : (degrade b s).slots = s.slots := by have h := congrArg State.slots (degrade_rest s b); exact h
@[simp] theorem degrade_osc (b : Nat) : (degrade b s).osc = s.osc := by have h := congrArg State.osc (degrade_rest s b); exact h
@[simp] theorem degrade_safety (b : Nat) : (degrade b s).safety = s.safety := by have h := congrArg State.safety (degrade_rest s b); exact h
@[simp] theorem degrade_frame_index (b : Nat) : (degrade b s).frame.index = s.frame.index := by have h := congrArg (fun t => t.frame.index) (degrade_rest s b); exact h
@[simp] theorem degrade_frame_tic (b : Nat) : (degrade b s).frame.tic = s.frame.tic := by have h := congrArg (fun t => t.frame.tic) (degrade_rest s b); exact h
@[simp] theorem degrade_frame_ticEl (b : Nat) : (degrade b s).frame.ticEl = s.frame.ticEl := by have h := congrArg (fun t => t.frame.ticEl) (degrade_rest s b); exact h
@[simp] theorem degrade_frame_nextTick (b : Nat) : (degrade b s).frame.nextTick = s.frame.nextTick := by have h := congrArg (fun t => t.frame.nextTick) (degrade_rest s b); exact h
@[simp] theorem degrade_frame_phase (b : Nat) : (degrade b s).frame.phase = s.frame.phase := by have h := congrArg (fun t => t.frame.phase) (degrade_rest s b); exact h
@[simp] theorem degrade_frame_mode (b : Nat) : (degrade b s).frame.mode = s.frame.mode := by have h := congrArg (fun t => t.frame.mode) (degrade_rest s b); exact h
@[simp] theorem degrade_frame_pendingMode (b : Nat) : (degrade b s).frame.pendingMode = s.frame.pendingMode := by have h := congrArg (fun t => t.frame.pendingMode) (degrade_rest s b); exact h
@[simp] theorem degrade_frame_status (b : Nat) : (degrade b s).frame.status = s.frame.status := by have h := congrArg (fun t => t.frame.status) (degrade_rest s b); exact h
@[simp] theorem degrade_frame_history (b : Nat) : (degrade b s).frame.history = s.frame.history := by have h := congrArg (fun t => t.frame.history) (degrade_rest s b); exact h
@[simp] theorem degrade_frame_running (b : Nat) : (degrade b s).frame.running = s.frame.running := by have h := congrArg (fun t => t.frame.running) (degrade_rest s b); exact h

/-! `settle` -/

@[simp] theorem settle_pending : (settle s).pending = s.pending := by have h := congrArg State.pending (settle_rest s); exact h
@[simp] theorem settle_nFree : (settle s).nFree = s.nFree := by have h := congrArg State.nFree (settle_rest s); exact h
@[simp] theorem settle_unit : (settle s).unit = s.unit := by have h := congrArg State.unit (settle_rest s); exact h
@[simp] theorem settle_clk : (settle s).clk = s.clk := by have h := congrArg State.clk (settle_rest s); exact h
@[simp] theorem settle_st : (settle s).st = s.st := by have h := congrArg State.st (settle_rest s); exact h
@[simp] theorem settle_time : (settle s).time = s.time := by have h := congrArg State.time (settle_rest s); exact h
@[simp] theorem settle_rtc : (settle s).rtc = s.rtc := by have h := congrArg State.rtc (settle_rest s); exact h
@[simp] theorem settle_mb : (settle s).mb = s.mb := by have h := congrArg State.mb (settle_rest s); exact h
@[simp] theorem settle_view : (settle s).view = s.view := by have h := congrArg State.view (settle_rest s); exact h
@[simp] theorem settle_viewNext : (settle s).viewNext = s.viewNext := by have h := congrArg State.viewNext (settle_rest s); exact h
@[simp] theorem settle_cfg : (settle s).cfg = s.cfg := by have h := congrArg State.cfg (settle_rest s); exact h
@[simp] theorem settle_store : (settle s).store = s.store := by have h := congrArg State.store (settle_rest s); exact h
@[simp] theorem settle_close : (settle s).close = s.close := by have h := congrArg State.close (settle_rest s); exact h
@[simp] theorem settle_snap : (settle s).snap = s.snap := by have h := congrArg State.snap (settle_rest s); exact h
@[simp] theorem settle_intake : (settle s).intake = s.intake := by have h := congrArg State.intake (settle_rest s); exact h
@[simp] theorem settle_analog : (settle s).analog = s.analog := by have h := congrArg State.analog (settle_rest s); exact h
@[simp] theorem settle_fusion : (settle s).fusion = s.fusion := by have h := congrArg State.fusion (settle_rest s); exact h
@[simp] theorem settle_obs : (settle s).obs = s.obs := by have h := congrArg State.obs (settle_rest s); exact h
@[simp] theorem settle_sp : (settle s).sp = s.sp := by have h := congrArg State.sp (settle_rest s); exact h
@[simp] theorem settle_alloc : (settle s).alloc = s.alloc := by have h := congrArg State.alloc (settle_rest s); exact h
@[simp] theorem settle_solver : (settle s).solver = s.solver := by have h := congrArg State.solver (settle_rest s); exact h
@[simp] theorem settle_chandler : (settle s).chandler = s.chandler := by have h := congrArg State.chandler (settle_rest s); exact h
@[simp] theorem settle_bring : (settle s).bring = s.bring := by have h := congrArg State.bring (settle_rest s); exact h
@[simp] theorem settle_gnss : (settle s).gnss = s.gnss := by have h := congrArg State.gnss (settle_rest s); exact h
@[simp] theorem settle_can : (settle s).can = s.can := by have h := congrArg State.can (settle_rest s); exact h
@[simp] theorem settle_slots : (settle s).slots = s.slots := by have h := congrArg State.slots (settle_rest s); exact h
@[simp] theorem settle_osc : (settle s).osc = s.osc := by have h := congrArg State.osc (settle_rest s); exact h
@[simp] theorem settle_safety : (settle s).safety = s.safety := by have h := congrArg State.safety (settle_rest s); exact h

end Sys2Proof.Machine
end

