-- ==== Sys2Proof/Laws/Mailbox.lean ====
section
/-! SUPPORT. Mailboxes: what a turn, the responses and an immediate command can change (02_mailbox R53, R55, R66). -/

namespace Sys2Proof.Machine

open Sys2Proof.Safety

theorem nth_upd {α : Type} (d : α) (f : α → α) : ∀ (l : List α) (i : Nat), i < l.length → nth d (upd f l i) i = f (nth d l i)
  | [], _, h => by simp at h
  | _ :: _, 0, _ => rfl
  | _ :: r, i + 1, h => nth_upd d f r i (by simpa using h)

theorem upd_length {α : Type} (f : α → α) : ∀ (l : List α) (i : Nat), (upd f l i).length = l.length
  | [], _ => rfl
  | _ :: _, 0 => rfl
  | _ :: r, i + 1 => by simp [upd, upd_length f r i]

theorem nth_upd_other {α : Type} (d : α) (f : α → α) : ∀ (l : List α) (i j : Nat), i ≠ j → nth d (upd f l i) j = nth d l j
  | [], _, _, _ => rfl
  | _ :: _, 0, 0, h => absurd rfl h
  | _ :: _, 0, _ + 1, _ => rfl
  | _ :: _, _ + 1, 0, _ => rfl
  | _ :: r, i + 1, j + 1, h => nth_upd_other d f r i j (fun e => h (congrArg (· + 1) e))

/-- A mailbox after it is written. -/
theorem boxOf_setBox {s : State} {m : Nat} (b : Mbox) (h : m < s.mb.boxes.length) : boxOf (setBox m b s) m = b := by
  simp only [boxOf, setBox_mb, nth_upd _ _ _ _ h]

theorem boxOf_setBox_other {s : State} {m k : Nat} (b : Mbox) (h : m ≠ k) : boxOf (setBox m b s) k = boxOf s k := by
  simp only [boxOf, setBox_mb]
  exact nth_upd_other _ _ _ _ _ h

theorem setBox_quiet (m : Nat) (b : Mbox) (s : State) : quiet (setBox m b s) = quiet s := rfl
theorem sendTo_quiet (r : Request) (x : Bytes) (s : State) : quiet (sendTo r x s) = quiet s := rfl

theorem foldl_quiet {α : Type} (f : State → α → State) (h : ∀ t a, quiet (f t a) = quiet t) :
    ∀ (xs : List α) (s : State), quiet (xs.foldl f s) = quiet s
  | [], _ => rfl
  | a :: r, s => by rw [List.foldl_cons, foldl_quiet f h r, h]

theorem flushBox_quiet (m : Nat) (s : State) : quiet (flushBox m s) = quiet s := by
  unfold flushBox
  dsimp only
  exact foldl_quiet (fun t (r : Request) => sendTo r (r.answer.getD []) t) (fun t r => sendTo_quiet r _ t) _ _

theorem pump_quiet : ∀ (n m : Nat) (s : State), quiet (pump n m s) = quiet s
  | 0, _, _ => rfl
  | n + 1, m, s => by
    unfold pump
    dsimp only
    split
    · rfl
    · split
      · rfl
      · rw [pump_quiet n m]; rfl

/-- Serving a mailbox changes the mailboxes and what is sent, nothing else. -/
theorem serve_quiet (m : Nat) (s : State) : quiet (serve m s) = quiet s := by
  unfold serve
  rw [flushBox_quiet, pump_quiet]

theorem answerTurn_quiet (m : Nat) (x : Bytes) (s : State) : quiet (answerTurn m x s) = quiet s := rfl

/-- The number of mailboxes never changes. -/
theorem setBox_length (m : Nat) (b : Mbox) (s : State) : (setBox m b s).mb.boxes.length = s.mb.boxes.length := by
  simp only [setBox_mb, upd_length]

theorem pump_length : ∀ (n m : Nat) (s : State), (pump n m s).mb.boxes.length = s.mb.boxes.length
  | 0, _, _ => rfl
  | n + 1, m, s => by
    unfold pump
    dsimp only
    split
    · rfl
    · split
      · rfl
      · rw [pump_length n m, setBox_length]

/-- What was sent before a fold of sends stays sent. -/
theorem foldl_sends (xs : List Request) : ∀ (s : State),
    (xs.foldl (fun t r => sendTo r (r.answer.getD []) t) s).out = s.out ++ xs.map (fun r => Out.msg r.port r.src (r.answer.getD [])) := by
  induction xs with
  | nil => intro s; simp
  | cons r q ih => intro s; rw [List.foldl_cons, ih]; simp [sendTo, List.append_assoc]

/-- Turns leave what was sent alone. -/
theorem pump_out : ∀ (n m : Nat) (s : State), (pump n m s).out = s.out
  | 0, _, _ => rfl
  | n + 1, m, s => by
    unfold pump
    dsimp only
    split
    · rfl
    · split
      · rfl
      · rw [pump_out n m]; rfl

/-- An answered request is not the one whose turn it is. -/
theorem answered_not_waiting {r : Request} (h : r.answer.isSome = true) : r.waiting = false := by
  cases ha : r.answer with
  | none => rw [ha] at h; cases h
  | some x => simp [Request.waiting, ha]

theorem answerFirst_head {f : Request → Bool} {g : Request → Request} {r : Request} {q : List Request} (h : f r = false) :
    answerFirst f g (r :: q) = r :: answerFirst f g q := by simp [answerFirst, h]

/-- An answered request at the head of a queue stays there while turns pass behind it. -/
theorem pump_head {r : Request} {x : Bytes} (ha : r.answer = some x) : ∀ (n m : Nat) (s : State) (q : List Request),
    m < s.mb.boxes.length → (boxOf s m).queue = r :: q → ∃ q', (boxOf (pump n m s) m).queue = r :: q'
  | 0, _, _, q, _, h => ⟨q, h⟩
  | n + 1, m, s, q, hm, h => by
    have hw : r.waiting = false := answered_not_waiting (by simp [ha])
    unfold pump
    dsimp only
    split
    · exact ⟨q, h⟩
    · split
      · exact ⟨q, h⟩
      · rename_i r' _
        refine pump_head ha n m _ (answerFirst Request.waiting (fun _ => r') q) ?_ ?_
        · rw [setBox_length]; exact hm
        · rw [boxOf_setBox _ hm]
          simp only [h]
          exact answerFirst_head hw

/-- An answered request at the head of a mailbox leaves when the mailbox is served (R66). -/
theorem serve_sends {r : Request} {x : Bytes} {m : Nat} {s : State} {q : List Request} (hm : m < s.mb.boxes.length)
    (hq : (boxOf s m).queue = r :: q) (ha : r.answer = some x) (hh : r.hold = false) :
    Out.msg r.port r.src x ∈ (serve m s).out ∧ ∀ o ∈ s.out, o ∈ (serve m s).out := by
  obtain ⟨q', hp⟩ := pump_head ha 6 m s q hm hq
  have hf : ∃ a b, flushQueue (r :: q') = (r :: a, b) := by
    refine ⟨(flushQueue q').1, (flushQueue q').2, ?_⟩
    simp [flushQueue, ha, hh]
  obtain ⟨a, b, hab⟩ := hf
  have ho : (serve m s).out = s.out ++ (r :: a).map (fun r => Out.msg r.port r.src (r.answer.getD [])) := by
    unfold serve flushBox
    dsimp only
    rw [hp, hab]
    dsimp only
    rw [foldl_sends, setBox_out, pump_out]
  rw [ho]
  refine ⟨?_, fun o h => List.mem_append_left _ h⟩
  refine List.mem_append_right _ ?_
  simp [ha]

/-- The mailbox whose request is answered on its turn. -/
theorem answerTurn_queue {r : Request} {m : Nat} {s : State} {q : List Request} (x : Bytes) (hm : m < s.mb.boxes.length)
    (hq : (boxOf s m).queue = r :: q) (hw : r.waiting = true) :
    (boxOf (answerTurn m x s) m).queue = { r with answer := some x } :: q := by
  unfold answerTurn
  dsimp only
  rw [boxOf_setBox _ hm]
  simp [hq, answerFirst, hw]

/-- An immediate command that its own checks accept is answered with its response map, and the mailbox is served (R53, R66, R69). -/
theorem runImmediate_ok {u t : State} {m word : Nat} {r : Request} {q : List Request} {f : Request → State → Reply} {p : Bytes}
    (h : Turn u m word r q) (hf : f r u = .ok t p) :
    runImmediate word f m u = serve m (answerTurn m (respond r p none) t) := by
  have ht : turnRequest u m word = some r := by
    unfold turnRequest
    simp [h.queue, h.waiting, h.cmd]
  unfold runImmediate
  simp only [ht, h.header, h.command, hf, h.inTime, judgeReply]

/-- … and one that its own checks refuse is answered with the refusal and changes nothing else (R53). -/
theorem runImmediate_refuse {u : State} {m word : Nat} {r : Request} {q : List Request} {f : Request → State → Reply} {e : Err}
    (h : Turn u m word r q) (hf : f r u = .refuse e) :
    runImmediate word f m u = serve m (answerTurn m (respond r [] (some e)) u) := by
  have ht : turnRequest u m word = some r := by
    unfold turnRequest
    simp [h.queue, h.waiting, h.cmd]
  unfold runImmediate
  simp only [ht, h.header, h.command, hf, h.inTime, judgeReply]

/-- The response of an accepted immediate command leaves at once, where its request came from (R47, R66). -/
theorem runImmediate_sends {u t : State} {m word : Nat} {r : Request} {q : List Request} {f : Request → State → Reply} {p : Bytes}
    (h : Turn u m word r q) (hf : f r u = .ok t p) (hb : m < t.mb.boxes.length) (hq : (boxOf t m).queue = r :: q) :
    Out.msg r.port r.src (respond r p none) ∈ (runImmediate word f m u).out := by
  rw [runImmediate_ok h hf]
  refine (serve_sends (r := { r with answer := some (respond r p none) }) (q := q) ?_ ?_ rfl h.hold).1
  · unfold answerTurn
    dsimp only
    rw [setBox_length]
    exact hb
  · exact answerTurn_queue _ hb hq h.waiting

/-- What an accepted immediate command leaves outside the mailboxes is what its own effect leaves. -/
theorem runImmediate_quiet {u t : State} {m word : Nat} {r : Request} {q : List Request} {f : Request → State → Reply} {p : Bytes}
    (h : Turn u m word r q) (hf : f r u = .ok t p) : quiet (runImmediate word f m u) = quiet t := by
  rw [runImmediate_ok h hf, serve_quiet, answerTurn_quiet]

/-- The pins that `settle` judges are not part of a quiet state. -/
theorem settle_quiet (s : State) : quiet (settle s) = quiet s := by
  unfold settle updateFlt
  split <;> rfl

/-- An accepted immediate command: its response has left, and the module is as its own effect leaves it. -/
theorem answered_of_ok {c : Instr} {s u t : State} {m word : Nat} {r : Request} {q : List Request} {f : Request → State → Reply} {p : Bytes}
    (hc : exec c s = .next (settle (runImmediate word f m u))) (h : Turn u m word r q) (hf : f r u = .ok t p)
    (hb : m < t.mb.boxes.length) (hq : (boxOf t m).queue = r :: q) : Answered c s r p t := by
  refine ⟨_, hc, ?_, ?_⟩
  · rw [settle_out]
    exact runImmediate_sends h hf hb hq
  · rw [settle_quiet, runImmediate_quiet h hf]

end Sys2Proof.Machine
end

