-- ==== Sys2Proof/Laws/Memory.lean ====
section
/-! SUPPORT. The firmware bank: reading after writing, and the canonical form that every write keeps (02_mailbox R80,
notes/assumptions/33.md). -/

namespace Sys2Proof.Machine

/-- Every address listed by a bank is above `k`. -/
def Above (k : Nat) (m : List Host.Cell) : Prop := ∀ c ∈ m, k < c.1

theorem wf_tail {c : Host.Cell} {m : List Host.Cell} (h : Memory.wf (c :: m) = true) : Memory.wf m = true := by
  cases m with
  | nil => rfl
  | cons d r => simp [Memory.wf] at h; exact h.2

theorem wf_head {k : Nat} {v : Byte} {m : List Host.Cell} (h : Memory.wf ((k, v) :: m) = true) : v ≠ fwEmpty := by
  cases m with
  | nil => simpa [Memory.wf] using h
  | cons d r => simp [Memory.wf] at h; exact h.1.1

theorem wf_above {k : Nat} {v : Byte} {m : List Host.Cell} (h : Memory.wf ((k, v) :: m) = true) : Above k m := by
  induction m generalizing k v with
  | nil => intro c hc; cases hc
  | cons d r ih =>
    have hd : k < d.1 := by simp [Memory.wf] at h; exact h.1.2
    intro c hc
    rcases List.mem_cons.mp hc with rfl | hr
    · exact hd
    · exact Nat.lt_trans hd (ih (wf_tail h) c hr)

theorem wf_cons {k : Nat} {v : Byte} {m : List Host.Cell} (hv : v ≠ fwEmpty) (ha : Above k m) (hm : Memory.wf m = true) :
    Memory.wf ((k, v) :: m) = true := by
  cases m with
  | nil => simpa [Memory.wf] using hv
  | cons d r => simp [Memory.wf]; exact ⟨⟨hv, ha d (List.mem_cons_self ..)⟩, hm⟩

/-- A write adds at most its own address to those listed. -/
theorem fwWrite_above {k a : Nat} {b : Byte} (hka : k < a) :
    ∀ {m : List Host.Cell}, Above k m → Above k (fwWrite m a b)
  | [], _ => by
    intro c hc
    simp only [fwWrite] at hc
    split at hc
    · cases hc
    · simp at hc; subst hc; exact hka
  | (l, w) :: r, h => by
    have hr : Above k r := fun c hc => h c (List.mem_cons_of_mem _ hc)
    have hl : k < l := h (l, w) (List.mem_cons_self ..)
    intro c hc
    simp only [fwWrite] at hc
    split at hc
    · split at hc
      · exact h c hc
      · rcases List.mem_cons.mp hc with rfl | h'
        · exact hka
        · exact h c h'
    · split at hc
      · split at hc
        · exact hr c hc
        · rcases List.mem_cons.mp hc with rfl | h'
          · exact hka
          · exact hr c h'
      · rcases List.mem_cons.mp hc with rfl | h'
        · exact hl
        · exact fwWrite_above hka hr c h'

/-- A write keeps the canonical form. -/
theorem fwWrite_wf (a : Nat) (b : Byte) : ∀ {m : List Host.Cell}, Memory.wf m = true → Memory.wf (fwWrite m a b) = true
  | [], _ => by
    simp only [fwWrite]
    split
    · rfl
    · simpa [Memory.wf] using ‹_›
  | (k, v) :: r, h => by
    have hv := wf_head h
    have ha := wf_above h
    have hr := wf_tail h
    simp only [fwWrite]
    split
    · rename_i hlt
      split
      · exact h
      · rename_i hb
        exact wf_cons hb (fun c hc => by
          rcases List.mem_cons.mp hc with rfl | h'
          · exact hlt
          · exact Nat.lt_trans hlt (ha c h')) h
    · split
      · rename_i _ he
        split
        · exact hr
        · rename_i hb
          subst he
          exact wf_cons hb ha hr
      · rename_i hge hne
        exact wf_cons hv (fwWrite_above (by omega) ha) (fwWrite_wf a b hr)

theorem fwWriteAll_wf : ∀ (bs : Bytes) (a : Nat) {m : List Host.Cell}, Memory.wf m = true → Memory.wf (fwWriteAll m a bs) = true
  | [], _, _, h => h
  | b :: bs, a, _, h => fwWriteAll_wf bs (a + 1) (fwWrite_wf a b h)

/-- An address that a bank does not list reads as empty. -/
theorem fwRead_above : ∀ {m : List Host.Cell} {k : Nat}, Above k m → fwRead m k = fwEmpty
  | [], _, _ => rfl
  | (l, w) :: r, k, h => by
    have hl : k < l := h (l, w) (List.mem_cons_self ..)
    have hne : l ≠ k := by omega
    simp only [fwRead, hne, if_false]
    exact fwRead_above (fun c hc => h c (List.mem_cons_of_mem _ hc))

/-- A byte written reads back. -/
theorem fwRead_write_same (a : Nat) (b : Byte) : ∀ {m : List Host.Cell}, Memory.wf m = true → fwRead (fwWrite m a b) a = b
  | [], _ => by
    simp only [fwWrite]
    split
    · rename_i h; simp [fwRead, h]
    · simp [fwRead]
  | (k, v) :: r, h => by
    have ha := wf_above h
    simp only [fwWrite]
    split
    · rename_i hlt
      split
      · rename_i hb
        have hab : Above a ((k, v) :: r) := fun c hc => by
          rcases List.mem_cons.mp hc with rfl | h'
          · exact hlt
          · exact Nat.lt_trans hlt (ha c h')
        rw [fwRead_above hab, hb]
      · simp [fwRead]
    · split
      · rename_i _ he
        subst he
        split
        · rename_i hb; rw [fwRead_above ha, hb]
        · simp [fwRead]
      · rename_i _ hne
        have hk : k ≠ a := fun e => hne e.symm
        simp only [fwRead, hk, if_false]
        exact fwRead_write_same a b (wf_tail h)

/-- Every other byte reads as before. -/
theorem fwRead_write_other (a : Nat) (b : Byte) {x : Nat} (hx : x ≠ a) :
    ∀ {m : List Host.Cell}, Memory.wf m = true → fwRead (fwWrite m a b) x = fwRead m x
  | [], _ => by
    have : a ≠ x := fun e => hx e.symm
    simp only [fwWrite]
    split <;> simp [fwRead, this]
  | (k, v) :: r, h => by
    have hax : a ≠ x := fun e => hx e.symm
    simp only [fwWrite]
    split
    · split
      · rfl
      · simp [fwRead, hax]
    · split
      · rename_i _ he
        subst he
        split
        · simp [fwRead, hax]
        · simp [fwRead, hax]
      · by_cases hkx : k = x
        · simp [fwRead, hkx]
        · simp only [fwRead, hkx, if_false]
          exact fwRead_write_other a b hx (wf_tail h)

/-- A stretch written reads back byte by byte; every address outside it reads as before. -/
theorem fwRead_writeAll (x : Nat) : ∀ (bs : Bytes) (a : Nat) {m : List Host.Cell}, Memory.wf m = true →
    fwRead (fwWriteAll m a bs) x = if a ≤ x ∧ x < a + bs.length then nth fwEmpty bs (x - a) else fwRead m x
  | [], a, m, _ => by simp [fwWriteAll]
  | b :: bs, a, m, h => by
    have ih := fwRead_writeAll x bs (a + 1) (fwWrite_wf a b h)
    simp only [fwWriteAll, ih, List.length_cons]
    by_cases hxa : x = a
    · subst hxa
      have h1 : ¬(x + 1 ≤ x ∧ x < x + 1 + bs.length) := by omega
      have h2 : x ≤ x ∧ x < x + (bs.length + 1) := by omega
      rw [if_neg h1, if_pos h2, fwRead_write_same x b h]
      simp [nth]
    · by_cases hlt : x < a
      · have h1 : ¬(a + 1 ≤ x ∧ x < a + 1 + bs.length) := by omega
        have h2 : ¬(a ≤ x ∧ x < a + (bs.length + 1)) := by omega
        rw [if_neg h1, if_neg h2, fwRead_write_other a b hxa h]
      · by_cases hin : x < a + (bs.length + 1)
        · have h1 : a + 1 ≤ x ∧ x < a + 1 + bs.length := by omega
          have h2 : a ≤ x ∧ x < a + (bs.length + 1) := by omega
          rw [if_pos h1, if_pos h2]
          obtain ⟨n, hn⟩ : ∃ n, x - a = n + 1 := ⟨x - a - 1, by omega⟩
          have hn' : x - (a + 1) = n := by omega
          rw [hn, hn']
          rfl
        · have h1 : ¬(a + 1 ≤ x ∧ x < a + 1 + bs.length) := by omega
          have h2 : ¬(a ≤ x ∧ x < a + (bs.length + 1)) := by omega
          rw [if_neg h1, if_neg h2, fwRead_write_other a b hxa h]

theorem reset_bank_wf : Memory.wf State.reset.mb.fwBank = true := rfl

end Sys2Proof.Machine
end

