-- ==== Sys2Proof/Laws/Queue.lean ====
section
/-! SUPPORT. The Ledger's write queue never holds more than 64 records (20_ledger R517, R518). -/

namespace Sys2Proof.Machine

theorem size_pos (r : Rec) : 1 ≤ r.size := by unfold Rec.size; split <;> omega

theorem queueSize_append (a b : List Rec) : queueSize (a ++ b) = queueSize a + queueSize b := by
  induction a with
  | nil => simp [queueSize]
  | cons r q ih => simp [queueSize, ih, Nat.add_assoc]

theorem queueSize_reverse (a : List Rec) : queueSize a.reverse = queueSize a := by
  induction a with
  | nil => rfl
  | cons r q ih => simp [queueSize_append, queueSize, ih, Nat.add_comm]

/-- Dropping the newest event occurrence takes exactly its records away (R518). -/
theorem dropNewestEvent_size {q q' : List Rec} {e : Rec} (h : dropNewestEvent q = some (e, q')) :
    queueSize q' + e.size = queueSize q := by
  unfold dropNewestEvent at h
  dsimp only at h
  cases hf : q.reverse.find? (fun r => !r.fault) with
  | none => rw [hf] at h; cases h
  | some r =>
    rw [hf] at h
    simp only [Option.some.injEq, Prod.mk.injEq] at h
    obtain ⟨rfl, rfl⟩ := h
    have key : ∀ l : List Rec, l.find? (fun r => !r.fault) = some r →
        queueSize (l.takeWhile (fun x => x.fault)) + queueSize ((l.dropWhile (fun x => x.fault)).drop 1) + r.size = queueSize l := by
      intro l
      induction l with
      | nil => intro h; cases h
      | cons a l ih =>
        intro h
        cases ha : a.fault with
        | true =>
          simp only [List.find?_cons, ha, Bool.not_true] at h
          simp only [List.takeWhile_cons, List.dropWhile_cons, ha, if_true, queueSize]
          have := ih h
          omega
        | false =>
          simp only [List.find?_cons, ha, Bool.not_false, Option.some.injEq] at h
          subst h
          simp [ha, queueSize]
          omega
    have hk := key _ hf
    rw [queueSize_reverse] at hk
    rw [queueSize_reverse, queueSize_append]
    exact hk

/-- The write queue within its capacity. -/
def queueOk (l : LedgerSt) : Prop := queueSize l.queue ≤ queueCap

/-- An arriving occurrence keeps the queue within its capacity; a fault's record takes one place (19 R490, 20 R518). -/
theorem enqueue_queueOk {l : LedgerSt} {r : Rec} (h : queueOk l) (hr : r.fault = true → r.size = 1) : queueOk (l.enqueue r) := by
  unfold LedgerSt.enqueue
  split
  · rename_i hc
    simpa [queueOk, queueSize_append, queueSize] using hc
  · split
    · rename_i hf
      split
      · rename_i e q hd
        have h1 := dropNewestEvent_size hd
        have h2 := size_pos e
        have h3 := hr hf
        simp only [queueOk, LedgerSt.lose, queueSize_append, queueSize] at h ⊢
        omega
      · exact h
    · exact h

end Sys2Proof.Machine
end

