-- ==== Sys2Proof/Tests/Slice0.lean ====
section
/-! SUPPORT. Tests: ill-formed commands that WellFormed refuses, values that the manual works out, one command on a small state, and for
each statement states and operands that meet the hypotheses of its clauses. A test's source stands in its comment; a witness has none but
the statement it is for. -/

namespace Sys2Proof.Tests

open Sys2Proof Sys2Proof.Machine Sys2Proof.Safety

/-- A module on duty in READY at the start of a frame in Full, 10⁶ s after the epoch and after power came. -/
def duty : State :=
  { st := .ready, clk := { el := 10 ^ 15, tb := 10 ^ 15 * 2 ^ 32 }
    frame := { running := true, index := 200000000, tic := 10 ^ 15, ticEl := 10 ^ 15, nextTick := 10 ^ 15 + 5000000, phase := 0 }
    bring := { step := 9, complete := true, resetHold := false }, lock := { slot := 1, groupVer := 2 } }

/-- The same module in another state. -/
def inState (m : ModState) : State := { duty with st := m }

def withCfg (f : Image.Img → Image.Img) (s : State) : State := { s with cfg := { s.cfg with img := f s.cfg.img } }
def withFrame (f : FrameSt → FrameSt) (s : State) : State := { s with frame := f s.frame }
def withLock (f : LockSt → LockSt) (s : State) : State := { s with lock := f s.lock }
def withTime (f : TimeSt → TimeSt) (s : State) : State := { s with time := f s.time }
def withRtc (f : Rtc → Rtc) (s : State) : State := { s with rtc := f s.rtc }
def withGnss (f : GnssSt → GnssSt) (s : State) : State := { s with gnss := f s.gnss }
def withSp (f : SpSt → SpSt) (s : State) : State := { s with sp := f s.sp }
def withMb (f : MboxSt → MboxSt) (s : State) : State := { s with mb := f s.mb }
def withBring (f : BringSt → BringSt) (s : State) : State := { s with bring := f s.bring }
def withFaults (f : FaultsSt → FaultsSt) (s : State) : State := { s with faults := f s.faults }
def withBox (m : Nat) (f : Mbox → Mbox) (s : State) : State := withMb (fun b => { b with boxes := upd f b.boxes m }) s

/-- A request of a session of version 3 (HELLO: version 1). -/
def ask (m cmd : Nat) (p : Bytes) : Request :=
  { port := if m = 0 then .x5 else .h1, mbox := m, version := if cmd = wHello then 1 else 3, tag := 5, cmd := cmd, payload := p, stamp := 10 ^ 15
    stampEl := 10 ^ 15, crc := 77 }

/-- The request waits alone in its mailbox, whose session has version 3. -/
def asked (r : Request) (s : State) : State := withBox r.mbox (fun b => { b with session := some 3, queue := [r] }) s

/-- What a turn asks for, to be decided. -/
def turnHolds (u : State) (m word : Nat) (r : Request) : Bool :=
  decide (m < u.mb.boxes.length) && decide ((boxOf u m).queue = [r]) && r.waiting && !r.hold && decide (r.cmd = word) &&
  decide (headerCheck u r = none) && decide (commandCheck u r = none) && decide (expiryCheck r (nowNs u) = none)

theorem turn_of {u : State} {m word : Nat} {r : Request} (h : turnHolds u m word r = true) : Turn u m word r [] := by
  simp only [turnHolds, Bool.and_eq_true, decide_eq_true_eq, Bool.not_eq_true'] at h
  obtain ⟨⟨⟨⟨⟨⟨⟨h1, h2⟩, h3⟩, h4⟩, h5⟩, h6⟩, h7⟩, h8⟩ := h
  exact ⟨h1, h2, h3, h4, h5, h6, h7, h8⟩

/-- A frame-bound request accepted for the frame in progress. -/
def bound (r : Request) : Request := { r with applyTic := some (10 ^ 15), hold := true }

def boundHolds (u : State) (m word : Nat) (r : Request) : Bool :=
  decide (u.frame.phase = 0) && onDuty u.st && decide (dueRequests u = [r]) && decide (r.cmd = word) && decide (r.mbox = m) &&
  decide (m < u.mb.boxes.length) && decide (r ∈ (boxOf u m).queue)

theorem bound_of {u : State} {m word : Nat} {r : Request} (h : boundHolds u m word r = true) : BoundTurn u m word r [] := by
  simp only [boundHolds, Bool.and_eq_true, decide_eq_true_eq] at h
  obtain ⟨⟨⟨⟨⟨⟨h1, h2⟩, h3⟩, h4⟩, h5⟩, h6⟩, h7⟩ := h
  exact ⟨h1, h2, h3, h4, h5, h6, h7⟩

/-- The state that a command finds when no time has passed since the one before. -/
def now (s : State) : State := advance s 0


/-! ### Ill-formed commands, one for each kind of check of WellFormed -/

/-- Ill-formed commands: each is refused. -/
def illFormed : List Instr :=
  [.frameTick 0 [.saA, .saA, .saA, .saA, .saA], .phaseBoundary 0 { stepsDone := 7 }, .trigPulse 0 0, .trigPulseEnd 0 5, .oxmpRequestArrival 0 .h1 {} { data := zeros 1465 },
   .tagCacheExpiry 0 9, .hello 0 9, .stateRead 0 9, .ledgerRead 0 1 [2 ^ 32], .stDate 0 (2 ^ 32), .stTime 0 (2 ^ 32), .status 0 (2 ^ 32), .rawWindowWrite 0 128 0,
   .rawWindowWrite 0 2 0, .sentenceReceive 0 1 9600 [0x0A] .lf, .sentenceReceive 0 9 4800 [0x0A] .lf, .sentenceReceive 0 8 4800 [0x0D] .lf, .serialUnlock 0 0, .floodFault 0 15, .datagram450Receive 0 8 {},
   .udpBinaryReceive 0 9 { port := 65536 } {} [], .canFrameReceive 0 5 0 false [], .canFrameReceive 0 1 0 false (zeros 65), .captureEdge 0 16 true, .groupStart 0 5,
   .analogSample 0 17 [], .gnssMeasurementEpoch 0 [{ chan := 33 }], .navigationWord 0 { bits := 2 ^ 30 }, .skewRelearn 0 28, .exceedFault 0 6, .beatReceive 0 2 {},
   .pathDown 0 4 0 true, .electionClaim 0 65536, .selftestComplete 0 65536, .ptpMessage 0 2 .other, .sourceLoss 0 (some 2) false, .safetySlotStart 0 0,
   .soRefreshTimeout 0 8, .discrepancy 0 4, .stuckReset 0 33, .edmCheck 0 4, .fieldSupplyRecovered 0 2 .below192, .oscTelegramReceive 0 64 [],
   .outputOverload 0 25, .groupOvercurrent 0 2 true, .firmwareAck 0 65536, .classRecovery 0 32, .sramScrub 0 .host 65, .sramScrub 0 .host 0,
   .modulatorOverload 0 { ch := 17 }, .powerOff 0 { cut := [0] }, .checkpointFragment 0 0 { ethertype := 65536 }, .datagram450Receive 0 9 { dst := { port := 65536 } }]

theorem test_ill_formed : illFormed.all (fun i => !i.wf) = true := by decide +kernel

/-- Operands at the ends of their ranges are well formed. -/
theorem test_well_formed :
    [Instr.trigPulse 0 4, .tagCacheExpiry 0 8, .rawWindowWrite 0 124 (2 ^ 32 - 1), .sentenceReceive 0 8 38400 [0x0A] .lf, .canFrameReceive 0 4 (2 ^ 32 - 1) true (zeros 64),
     .analogSample 0 16 [], .electionClaim 0 65535, .stuckReset 0 32, .sramScrub 0 .host 64, .moduleReset 7].all (fun i => i.wf) = true := by decide

/-! ### Reset and the queue -/

/-- The table gives no row bits. -/
theorem test_no_words (n w : Nat) : decodeTableWord n w = none := rfl

/-- OFF at first; the calendar of 14 R386. -/
theorem test_reset : State.reset.pending = [] ∧ State.reset.st = .off ∧ calOf State.reset.rtc = ⟨0, 1, 1, 5, 0, 0, 0⟩ ∧ State.reset.rtc.osf = true ∧
    State.reset.mb.boxes.length = 9 := by decide

theorem test_idle : step State.reset = .next State.reset := rfl
theorem test_front : step { State.reset with pending := [.snap 0, .moduleReset 0] } = exec (.snap 0) { State.reset with pending := [.moduleReset 0] } := rfl

/-- POWER_GOOD starts the self-test (13 R354, Table 13-1). -/
theorem test_power_good : (match exec (.powerGood 0 24000 0 false false) State.reset with | .next t => decide (t.st = .selftest) && t.bring.step == 1 | _ => false) = true := by
  decide +kernel

/-! ### Values the manual works out -/

def digits : Bytes := [0x31, 0x32, 0x33, 0x34, 0x35, 0x36, 0x37, 0x38, 0x39]

/-- Check value of 02 R51. -/
theorem test_crc : crc32 digits = 0xCBF43926 := by decide +kernel
/-- Check value of 17 R459. -/
theorem test_scrc : scrc digits = 0x1697D06A := by decide +kernel
/-- SHA-256 of "abc" (FIPS 180-4). -/
theorem test_sha : (sha256 [0x61, 0x62, 0x63]).take 4 = [0xBA, 0x78, 0x16, 0xBF] := by decide +kernel
/-- Example of 00 R7: 045° less 315° is +90°. -/
theorem test_heading_difference : angDiff 0x20000000 0xE0000000 = 0x40000000 := by decide
/-- 01 Table 1-7. -/
theorem test_periods : [0, 1, 2, 3].map periodNs = [5000000, 10000000, 20000000, 40000000] := by decide
/-- 01 Table 1-9: a change accepted at T₀ + 12.3 ms falls on T₀ + 80 ms. -/
theorem test_change_tick : changeTickNs (10 ^ 15 + 12300000) = 10 ^ 15 + 80000000 := by decide
/-- 02 Table 2-17, last rows: deadline T + 104.90 ms and T + 105.00 ms against the tick T + 105 ms. -/
theorem test_expiry :
    expiryCheck { stamp := 10 ^ 15 + 103900000, expiryMs := 1 } (10 ^ 15 + 105000000) = some { code := 0x000A, ofs := 16, detail := 100 } ∧
    expiryCheck { stamp := 10 ^ 15 + 104000000, expiryMs := 1 } (10 ^ 15 + 105000000) = none := by decide
/-- 03 worked entries: "6012.3456,N" is 60,205,760,000; 21,500 and 26,000 under a gain of 100. -/
theorem test_worked_entries :
    let pms : Image.Entry := { gainM := 0x64000000, gainE := 6, limLo := 0, limHi := 2400000 }
    (match decodeAngle 2 0x4E 0x53 (ascii "6012.3456") (ascii "N") with
     | some x => scale { destType := 2, gainM := 0x40000000, gainE := 0 } x | none => 0) = 60205760000 ∧
    scale pms (Frac.ofNat 21500) = 2150000 ∧ inLimits pms (scale pms (Frac.ofNat 26000)) = false := by decide +kernel
/-- 05 worked chain: L − 1, K, and 9.6 mA as 21,000 mm/s. -/
theorem test_worked_chain :
    let b : Image.AnaGroup := { stages := 6, taps := [11, 11, 11, 11, 23, 23, 0, 0] }
    respLen b = 77499 ∧ settleCount b = 19 ∧ groupDelayNs b = 6306884 ∧ scale { gainM := 0x7AE147AE, gainE := -9, offset := -15000 } (Frac.ofNat 9600000) = 21000 := by
  decide +kernel
/-- 16 worked example: 98.75 µs and 78.75 µs in units of 12.5 ns. -/
theorem test_can_frames :
    let k : Image.Ctrl := { nbrp := 1, ntseg1 := 63, ntseg2 := 16, dbrp := 1, dtseg1 := 7, dtseg2 := 2 }
    frameUnits k (2 ^ 30 + 2 ^ 29) 48 = 7900 ∧ frameUnits k (2 ^ 30 + 2 ^ 29) 32 = 6300 := by decide

/-- 08 worked profiles: 300 m in 206.5 s and 30 m in 62.9 s; at 2000 mm/s after 78.25 s. -/
theorem test_worked_profiles :
    let blk : Image.ProfBlk := { vStart := 100, vBreak := 500, vCruise := 2000, vStop := 100, a1 := 20, a2 := 50, d2 := 50, d1 := 20, stopDec := 100 }
    let s := withCfg (fun i => { i with profile := { i.profile with maxMoveMm := 10 ^ 6, sets := [(blk, {})] } }) duty
    let mv := fun (n : Int) => planMove s (-150000 * 65536) (-50000 * 65536) 0x80000000 { n := n, e := -50000, hdg := 0x80000000 } 0
    msOf (moveLeft (mv (-450000)) 0) = 206500 ∧ (msOf (moveLeft (mv (-180000)) 0) + 50) / 100 = 629 ∧
    (profAt (mv (-450000)).trans 78250000000).v.floor = 2000 := by decide +kernel
/-- 14 Table 14-6: month lengths; year 0 is 2000. -/
theorem test_month_lengths : [monthLen 2 0, monthLen 2 99, monthLen 4 1, monthLen 12 1] = [29, 28, 30, 31] := by decide

/-! ### Witnesses: the invariant and the queue -/

/-- No entry beyond the nine mailboxes. -/
theorem no_tenth_box (m : Nat) (h : 9 ≤ m) : boxOf duty m = {} := by
  obtain ⟨k, rfl⟩ := Nat.exists_eq_add_of_le h
  rw [Nat.add_comm]
  rfl

/-- For InvariantKept: a module on duty that idles. -/
theorem witness_invariant : Inv duty ∧ step duty = .next duty :=
  ⟨{ boxes := by decide
     queues := fun m => if h : m < 9 then (by decide : ∀ k < 9, (boxOf duty k).queue.length ≤ boxCap k) m h
       else by rw [no_tenth_box m (Nat.le_of_not_lt h)]; exact Nat.zero_le _
     caches := fun m => if h : m < 9 then (by decide : ∀ k < 9, (boxOf duty k).cache.length ≤ 64) m h
       else by rw [no_tenth_box m (Nat.le_of_not_lt h)]; exact Nat.zero_le _
     bank := by decide, write := by decide, history := by decide, sources := by decide }, rfl⟩

/-- For StepTakesFrontCommand and CommandsLeaveTheQueue. -/
theorem witness_queue : ({ duty with pending := [.snap 0] } : State).pending = [.snap 0] ∧ ∃ t, exec (.snap 0) duty = .next t := ⟨rfl, _, rfl⟩
/-! ### Witnesses: mailboxes -/

/-- For ReadsAnswerTheLastFrame and FrameReadNewestFirst: COUNT 64 and 0. -/
theorem witness_reads :
    (∃ s r, (now s).view = some {} ∧ Turn (now s) 1 wStateRead r []) ∧ (∃ s r, (now s).view = some {} ∧ Turn (now s) 1 wTargetRead r []) ∧
    (∃ s r, Turn (now s) 1 wFrameRead r [] ∧ byteAt r.payload 0 = 64) ∧ (∃ s r, Turn (now s) 1 wFrameRead r [] ∧ byteAt r.payload 0 = 0) :=
  ⟨⟨asked (ask 1 wStateRead []) { duty with view := some {} }, ask 1 wStateRead [], rfl, turn_of (by decide)⟩,
   ⟨asked (ask 1 wTargetRead []) { duty with view := some {} }, ask 1 wTargetRead [], rfl, turn_of (by decide)⟩,
   ⟨asked (ask 1 wFrameRead [64, 0, 0, 0]) duty, ask 1 wFrameRead [64, 0, 0, 0], turn_of (by decide), rfl⟩,
   ⟨asked (ask 1 wFrameRead [0, 0, 0, 0]) duty, ask 1 wFrameRead [0, 0, 0, 0], turn_of (by decide), rfl⟩⟩

/-- For HelloOpensASession: versions 3 to 3, and 4 to 4. -/
theorem witness_hello :
    (∃ s r, Turn (now s) 1 wHello r [] ∧ r.mbox = 1 ∧ byteAt r.payload 0 = 3 ∧ byteAt r.payload 1 = 3) ∧
    (∃ s r, Turn (now s) 1 wHello r [] ∧ r.mbox = 1 ∧ byteAt r.payload 0 = 4 ∧ byteAt r.payload 1 = 4) :=
  ⟨⟨asked (ask 1 wHello [3, 3, 0, 0, 0, 0, 0, 0]) duty, ask 1 wHello [3, 3, 0, 0, 0, 0, 0, 0], turn_of (by decide), by decide⟩,
   ⟨asked (ask 1 wHello [4, 4, 0, 0, 0, 0, 0, 0]) duty, ask 1 wHello [4, 4, 0, 0, 0, 0, 0, 0], turn_of (by decide), by decide⟩⟩

/-- For FrameSubscribeKeepsOnePerMailbox: an end, a fourth subscription, a fifth. -/
theorem witness_subscribe :
    (∃ s r, Turn (now s) 1 wFrameSubscribe r [] ∧ byteAt r.payload 0 = 0 ∧ byteAt r.payload 1 = 1) ∧
    (∃ s r, Turn (now s) 1 wFrameSubscribe r [] ∧ byteAt r.payload 0 = 1 ∧ byteAt r.payload 1 = 3 ∧
      ((now s).mb.boxes.filter (fun b => b.sub.isSome)).length < 4) ∧
    (∃ s r, Turn (now s) 1 wFrameSubscribe r [] ∧ byteAt r.payload 0 = 1 ∧ byteAt r.payload 1 = 1 ∧ (boxOf (now s) 1).sub.isSome = false ∧
      ¬((now s).mb.boxes.filter (fun b => b.sub.isSome)).length < 4) :=
  let sub := fun (m : Nat) => withBox m (fun b => { b with sub := some {} })
  ⟨⟨asked (ask 1 wFrameSubscribe [0, 1, 0, 0, 0, 0, 0, 0]) duty, ask 1 wFrameSubscribe [0, 1, 0, 0, 0, 0, 0, 0], turn_of (by decide), by decide⟩,
   ⟨asked (ask 1 wFrameSubscribe [1, 3, 0, 0, 0, 0, 0, 0]) (sub 2 (sub 3 (sub 4 duty))), ask 1 wFrameSubscribe [1, 3, 0, 0, 0, 0, 0, 0], turn_of (by decide), by decide⟩,
   ⟨asked (ask 1 wFrameSubscribe [1, 1, 0, 0, 0, 0, 0, 0]) (sub 2 (sub 3 (sub 4 (sub 5 duty)))), ask 1 wFrameSubscribe [1, 1, 0, 0, 0, 0, 0, 0], turn_of (by decide), by decide⟩⟩

/-- For ServiceChallengeAndLock, ServiceRespondUsesTheNonceOnce and ServiceAndCacheTimers. -/
theorem witness_service :
    (∃ s r, Turn (now s) 0 wServiceChallenge r [] ∧ byteAt r.payload 0 = 3) ∧ (∃ s r, Turn (now s) 0 wServiceChallenge r [] ∧ byteAt r.payload 0 = 4) ∧
    (∃ s r, Turn (now s) 0 wServiceLock r []) ∧
    (∃ s r, Turn (now s) 0 wServiceRespond r [] ∧ (now s).mb.nonce = some ([1], 2, 10 ^ 15) ∧ (now s).mb.lockoutUntil = none) ∧
    (now duty).mb.lastServiceEl + 900000000000 < elNs (now duty) ∧
    elNs (now (withMb (fun b => { b with lastServiceEl := 10 ^ 15 - 900000000000 }) duty)) ≤ (10 ^ 15 - 900000000000) + 900000000000 ∧
    (∃ s, (now s).mb.lockoutUntil = some (10 ^ 15) ∧ 10 ^ 15 ≤ elNs (now s)) ∧ 8 < (now duty).mb.boxes.length :=
  ⟨⟨asked (ask 0 wServiceChallenge [3, 0, 0, 0]) duty, ask 0 wServiceChallenge [3, 0, 0, 0], turn_of (by decide), by decide⟩,
   ⟨asked (ask 0 wServiceChallenge [4, 0, 0, 0]) duty, ask 0 wServiceChallenge [4, 0, 0, 0], turn_of (by decide), by decide⟩, ⟨asked (ask 0 wServiceLock []) duty, ask 0 wServiceLock [], turn_of (by decide)⟩,
   ⟨asked (ask 0 wServiceRespond (zeros 64)) (withMb (fun b => { b with nonce := some ([1], 2, 10 ^ 15) }) duty), ask 0 wServiceRespond (zeros 64), turn_of (by decide), by decide⟩,
   by decide, by decide, ⟨withMb (fun b => { b with lockoutUntil := some (10 ^ 15) }) duty, by decide⟩, by decide⟩

/-- For FwStageWritesTheInactiveBank: the last four bytes of the bank; an activation in HELD. -/
theorem witness_firmware :
    (∃ s r, Turn (now s) 0 wFwStage r [] ∧ Memory.wf (now s).mb.fwBank = true ∧ fld r.payload 0 4 % 4 = 0 ∧ fld r.payload 0 4 < fwSize ∧
      fld r.payload 0 4 + (r.payload.drop 4).length = fwSize) ∧
    (∃ s r, Turn (now s) 0 wFwActivate r [] ∧ fld r.payload 0 4 ≤ fwSize ∧ (now s).st = .held) :=
  let open3 := withMb (fun b => { b with unlock := 3 })
  ⟨⟨asked (ask 0 wFwStage (u32 (fwSize - 4) ++ [1, 2, 3, 4])) (open3 duty), ask 0 wFwStage (u32 (fwSize - 4) ++ [1, 2, 3, 4]), turn_of (by decide), by decide⟩,
   ⟨asked (ask 0 wFwActivate (u32 fwSize)) (open3 (inState .held)), ask 0 wFwActivate (u32 fwSize), turn_of (by decide), by decide⟩⟩

/-- For ModeSetChangesModeAndDp. -/
theorem witness_mode_set :
    (∃ s r, Turn (now s) 1 wModeSet r [] ∧ onDuty (now s).st = true ∧ byteAt r.payload 0 = 0 ∧ byteAt r.payload 1 = 3 ∧
      (now s).cfg.img.frame.modesAllowed.testBit 3 = true ∧ 3 ≠ (now s).frame.mode ∧ (now s).frame.pendingMode = none) ∧
    (∃ s r, Turn (now s) 1 wModeSet r [] ∧ onDuty (now s).st = true ∧ byteAt r.payload 0 = 2 ∧ byteAt r.payload 1 = 0xFF) ∧
    (∃ s r, Turn (now s) 1 wModeSet r [] ∧ onDuty (now s).st = true ∧ byteAt r.payload 0 = 0 ∧ byteAt r.payload 1 = 0 ∧
      (now s).cfg.img.frame.modesAllowed.testBit 0 = true ∧ (now s).frame.pendingMode.isSome = true) ∧
    (∃ s r, Turn (now s) 1 wModeSet r [] ∧ (now s).st = .standby) ∧ (∃ s r, Turn (now s) 1 wModeSet r [] ∧ (now s).st = .held) ∧
    (applyTick (now duty) (10 ^ 15) ≤ (now duty).frame.tic ∧ (now duty).frame.tic < applyTick (now duty) (10 ^ 15 + 1)) :=
  ⟨⟨asked (ask 1 wModeSet [0, 3, 0, 0]) duty, ask 1 wModeSet [0, 3, 0, 0], turn_of (by decide), by decide⟩,
   ⟨asked (ask 1 wModeSet [2, 0xFF, 0, 0]) (inState .active), ask 1 wModeSet [2, 0xFF, 0, 0], turn_of (by decide), by decide⟩,
   ⟨asked (ask 1 wModeSet [0, 0, 0, 0]) (withFrame (fun f => { f with pendingMode := some (1, 10 ^ 15 + 40000000) }) duty), ask 1 wModeSet [0, 0, 0, 0], turn_of (by decide), by decide⟩,
   ⟨asked (ask 1 wModeSet [0, 0, 0, 0]) (inState .standby), ask 1 wModeSet [0, 0, 0, 0], turn_of (by decide), by decide⟩,
   ⟨asked (ask 1 wModeSet [0, 0, 0, 0]) (inState .held), ask 1 wModeSet [0, 0, 0, 0], turn_of (by decide), by decide⟩, by decide⟩

/-- A STATE.READ of mailbox 1 as its bytes arrive (02 Table 2-1). -/
def stateReadMsg : Bytes :=
  let m := u16 0x584F ++ u8 3 ++ u8 1 ++ u16 5 ++ u16 0 ++ u32 wStateRead ++ u16 0 ++ u16 0 ++ u16 0 ++ u16 0
  m ++ u32 (crc32 m)

def netOpen (s : State) : State := { s with cfg := { s.cfg with netOpen := true } }

/-- For ArrivalDropsCountsAndQueues: SELFTEST, the slot's address and another, a fragment, a short datagram, a wrong CRC, a repeat whose response is 2 s old, a request that waits. -/
theorem witness_arrival :
    portOpen (now (inState .selftest)) .h1 = false ∧ portOpen (now (netOpen duty)) .h1 = true ∧
    (forMailbox (now duty) .h1 { addr := hostAddr (now duty) 0 } = true ∧ forMailbox (now duty) .h1 { addr := hostAddr (now duty) 0 + 1 } = false ∧
      forMailbox (now duty) .h1 { addr := hostAddr (now duty) 0, fragment := true } = false) ∧
    parseMessage .h1 {} (10 ^ 15) (10 ^ 15) [1, 2, 3] = .format ∧
    parseMessage .h1 {} (10 ^ 15) (10 ^ 15) (stateReadMsg.take 20 ++ [0, 0, 0, 0]) = .crc ∧
    (∃ r, parseMessage .h1 {} (10 ^ 15) (10 ^ 15) stateReadMsg = .req r ∧ r.mbox = 1 ∧ r.cmd = wStateRead ∧ headerCheck (now (asked r duty)) r = none ∧
      commandCheck (now (asked r duty)) r = none ∧ (boxOf (now (netOpen duty)) 1).cache = [] ∧ (boxOf (now (netOpen duty)) 1).queue = [] ∧
      ∃ e, e ∈ (boxOf (now (withBox 1 (fun b => { b with cache := [e] }) (netOpen duty))) 1).cache ∧ e.tag = r.tag ∧ e.crc = r.crc ∧
        10 ^ 15 = e.stampEl + 2000000000) :=
  ⟨by decide, by decide, by decide, by decide, by decide +kernel,
   ⟨(match parseMessage .h1 {} (10 ^ 15) (10 ^ 15) stateReadMsg with | .req r => r | _ => {}), by decide +kernel, by decide +kernel, by decide +kernel,
    by decide +kernel, by decide +kernel, by decide, by decide,
    ⟨{ tag := 5, crc := fld stateReadMsg 20 4, stampEl := 10 ^ 15 - 2000000000 }, by decide +kernel, by decide +kernel, by decide +kernel, by decide⟩⟩⟩


/-! ### Witnesses: frames and set-points -/

/-- The module at the end of its frame: the next frame is due now. -/
def atEnd : State := withFrame (fun f => { f with tic := 10 ^ 15 - 5000000, ticEl := 10 ^ 15 - 5000000, index := 199999999, nextTick := 10 ^ 15, phase := 7 }) duty

/-- Every boundary of the frame is due: its budgets are 0 µs. -/
def atBoundary (p : Nat) : State := withCfg (fun i => { i with frame := { i.frame with phaseUs := [List.replicate 8 0] } }) (withFrame (fun f => { f with phase := p }) duty)

/-- For FrameTickBeginsTheNextFrame: the tick's own instant, 1 ns before it, and no frames. -/
theorem witness_frame_tick :
    ((now atEnd).frame.running = true ∧ (now atEnd).frame.nextTick = nowNs (now atEnd)) ∧
    nowNs (now (withFrame (fun f => { f with nextTick := 10 ^ 15 + 1 }) duty)) < 10 ^ 15 + 1 ∧
    (now (withFrame (fun f => { f with running := false }) duty)).frame.running = false := by decide

/-- For PhasesBeginAtTheirBoundaries: the boundaries of P0 and P6, the guard window, 1 ns before a boundary. -/
theorem witness_phase_boundary :
    let due := fun (u : State) => u.frame.tic + 1000 * ((nth [] u.cfg.img.frame.phaseUs u.frame.mode).take (u.frame.phase + 1)).sum
    (∀ p ∈ [0, 6], (now (atBoundary p)).frame.running = true ∧ (now (atBoundary p)).frame.phase = p ∧
      due (now (atBoundary p)) = nowNs (now (atBoundary p)) ∧ onDuty (now (atBoundary p)).st = true) ∧
    7 ≤ (now (atBoundary 7)).frame.phase ∧
    nowNs (now (withFrame (fun f => { f with tic := 10 ^ 15 + 1 }) (atBoundary 0))) < due (now (withFrame (fun f => { f with tic := 10 ^ 15 + 1 }) (atBoundary 0))) := by
  decide

/-- For ModeChangeTickEntersThePendingMode: at its tick, one ns before its change tick, and a tick that is no multiple of 40 ms. -/
theorem witness_mode_change :
    let pend := fun (ct nt : Nat) => now (withFrame (fun f => { f with pendingMode := some (3, ct), nextTick := nt }) atEnd)
    ((pend (10 ^ 15) (10 ^ 15)).frame.running = true ∧ (10 ^ 15 : Nat) ≤ nowNs (pend (10 ^ 15) (10 ^ 15)) ∧ (10 ^ 15 : Nat) % 40000000 = 0) ∧
    (pend (10 ^ 15 + 40000000) (10 ^ 15)).frame.nextTick < 10 ^ 15 + 40000000 ∧
    nowNs (pend (10 ^ 15 + 1) (10 ^ 15 + 1)) < 10 ^ 15 + 1 ∧ (10 ^ 15 - 5000000 : Nat) % 40000000 ≠ 0 := by decide

/-- A move that stands at its start, in force with one profile running at 1 m/s² to 1 m. -/
def aMove : Move := { trans := { kind := 1, len := ⟨65536000, 1⟩, t0 := 10 ^ 15, vPeak := ⟨65536, 1⟩ }, head := { kind := 0 } }

/-- A TARGET.SET payload 5 m north, heading to the tangent; a set-point block for it. -/
def goNorth : Bytes := u32 5000 ++ u32 0 ++ u32 0 ++ u8 0 ++ u8 0 ++ u16 0 ++ u32 0 ++ u32 0
def withSet (s : State) : State :=
  withCfg (fun i => { i with profile := { i.profile with maxMoveMm := 10000, sets := [({}, {})] } }) s
def boundAsk (cmd : Nat) (p : Bytes) : Request := bound (ask 1 cmd p)
def boundAt (cmd : Nat) (p : Bytes) (s : State) : State := asked (boundAsk cmd p) s

/-- For TargetSetStartsOrWaits. -/
theorem witness_target_set :
    let r := boundAsk wTargetSet goNorth
    let st := fun (s : State) => now (boundAt wTargetSet goNorth (withSet s))
    let far := fun (u : State) => (targetOf r.payload).tflags.testBit 1 = false ∧
      ((u.cfg.img.profile.maxMoveMm * 65536 : Nat) : Int) ^ 2 < ((targetOf r.payload).n * 65536 - u.sp.n) ^ 2 + ((targetOf r.payload).e * 65536 - u.sp.e) ^ 2
    let push := withSp (fun p => { p with push := { p.push with inForce := true } })
    let move := fun (m : Move) => withSp (fun p => { p with move := some m })
    BoundTurn (st (inState .ready)) 1 wTargetSet r [] ∧
    (BoundTurn (st (withSp (fun p => { p with n := -6000 * 65536 }) (inState .active))) 1 wTargetSet r [] ∧
      far (st (withSp (fun p => { p with n := -6000 * 65536 }) (inState .active)))) ∧
    (BoundTurn (st (push (inState .active))) 1 wTargetSet r [] ∧ ¬far (st (push (inState .active))) ∧
      (targetOf r.payload).sel < (st (push (inState .active))).cfg.img.profile.sets.length) ∧
    (BoundTurn (st (inState .active)) 1 wTargetSet r [] ∧ ¬far (st (inState .active)) ∧
      (planMove (st (inState .active)) 0 0 0 (targetOf r.payload) (10 ^ 15 + 5000000)).absent = false ∧
      (planMove (st (inState .active)) 0 0 0 (targetOf (zeros 24)) (10 ^ 15 + 5000000)).absent = true) ∧
    (BoundTurn (st (move aMove (inState .tripped))) 1 wTargetSet r [] ∧ aMove.stopping = false ∧ aMove.braking = false) ∧
    BoundTurn (st (move { aMove with stopping := true } (inState .active))) 1 wTargetSet r [] :=
  ⟨bound_of (by decide), ⟨bound_of (by decide), by decide⟩, ⟨bound_of (by decide), by decide⟩, ⟨bound_of (by decide), by decide⟩,
   ⟨bound_of (by decide), by decide⟩, bound_of (by decide)⟩

/-- For TargetStopBrakesBothProfiles. -/
theorem witness_target_stop :
    let r := boundAsk wTargetStop []
    let st := fun (s : State) => now (boundAt wTargetStop [] s)
    BoundTurn (st (inState .active)) 1 wTargetStop r [] ∧ (st (inState .active)).sp.move = none ∧
    BoundTurn (st (withSp (fun p => { p with move := some aMove }) (inState .active))) 1 wTargetStop r [] ∧ aMove.trans.kind = 1 ∧
    (profAt aMove.trans (10 ^ 15 + 5000000)).ended = false :=
  ⟨bound_of (by decide), by decide, bound_of (by decide), by decide, by decide +kernel⟩

/-- For PushSetRampsOrIsRefused: a force of 100 N, the release, a ramp time of 0 and of 1 ms. -/
theorem witness_push_set :
    let pay := fun (n : Nat) (free ms : Nat) => u32 n ++ u32 0 ++ u32 0 ++ u8 free ++ u8 0 ++ u16 ms
    let st := fun (n free ms : Nat) (s : State) => now (boundAt wPushSet (pay n free ms) s)
    let r := fun (n free ms : Nat) => boundAsk wPushSet (pay n free ms)
    let zero := fun (r : Request) => byteAt r.payload 12 = 0 ∧ [fldI r.payload 0 4, fldI r.payload 4 4, fldI r.payload 8 4] = [0, 0, 0]
    BoundTurn (st 100 0 0 (inState .ready)) 1 wPushSet (r 100 0 0) [] ∧
    (BoundTurn (st 100 0 0 (withSp (fun p => { p with pending := some {} }) (inState .active))) 1 wPushSet (r 100 0 0) [] ∧ ¬zero (r 100 0 0)) ∧
    (BoundTurn (st 0 0 1 (inState .active)) 1 wPushSet (r 0 0 1) [] ∧ zero (r 0 0 1)) ∧
    (BoundTurn (st 0 1 0 (inState .active)) 1 wPushSet (r 0 1 0) [] ∧ ¬zero (r 0 1 0) ∧ (st 0 1 0 (inState .active)).sp.push.free = [false, false, false]) ∧
    (BoundTurn (st 0 0 0 (withSp (fun p => { p with push := { p.push with inForce := true } }) (inState .tripped))) 1 wPushSet (r 0 0 0) [] ∧ zero (r 0 0 0)) :=
  ⟨bound_of (by decide), ⟨bound_of (by decide), by decide⟩, ⟨bound_of (by decide), by decide⟩, ⟨bound_of (by decide), by decide⟩,
   ⟨bound_of (by decide), by decide⟩⟩

/-- For LockChangeNamesAGoodTarget: groups of version 2 and 1, a fresh beat and none. -/
theorem witness_lock_change :
    let r := boundAsk wLockChange [2, 0, 0, 0]
    let b : Beat := { slot := 2, lflags := 4, verMax := 2, digest8 := digest8 duty, atFrame := 200000000, frame := 200000000 }
    let heard := withLock (fun l => { l with peers := upd (fun p => { p with inStep := some b, last := some b, heard := true, pathL1 := some 200000000 }) l.peers 2 })
    let st := fun (s : State) => now (boundAt wLockChange [2, 0, 0, 0] s)
    (BoundTurn (st (heard (inState .active))) 1 wLockChange r [] ∧ freshBeat (st (heard (inState .active))) 2 = some b ∧ b.good = true ∧
      b.digest8 = digest8 (st (heard (inState .active)))) ∧
    (BoundTurn (st (withLock (fun l => { l with groupVer := 1, change := some (3, 1) }) (heard (inState .ready)))) 1 wLockChange r [] ∧
      freshBeat (st (withLock (fun l => { l with groupVer := 1, change := some (3, 1) }) (heard (inState .ready)))) 2 = some b) ∧
    (BoundTurn (st (inState .ready)) 1 wLockChange r [] ∧ freshBeat (st (inState .ready)) 2 = none) ∧
    BoundTurn (st (inState .tripped)) 1 wLockChange r [] :=
  ⟨⟨bound_of (by decide), by decide +kernel, by decide, by decide +kernel⟩, ⟨bound_of (by decide), by decide +kernel⟩,
   ⟨bound_of (by decide), by decide⟩, bound_of (by decide)⟩

/-! ### Witnesses: conditions that raise faults -/

def withIntake (f : PortSt → PortSt) (s : State) : State := { s with intake := { s.intake with ports := upd f s.intake.ports 1 } }
def withImgTime (f : Image.Time → Image.Time) (s : State) : State := withCfg (fun i => { i with time := f i.time }) s

/-- For IntakeAndFrameConditionsRaise: the third late frame and the second; 10 s unlocked; 20 seconds of flood and 19; overdue by 1 s. -/
theorem witness_intake_conditions :
    let late := fun (n : Nat) => now (withFrame (fun f => { f with lateRun := [0, 0, n, 0, 0, 0, 0] }) duty)
    let port := fun (f : PortSt → PortSt) => now (withIntake f (withCfg (fun i => { i with map := [{ kind := 1, port := 1 }] }) duty))
    let drill := now { withLock (fun l => { l with drillOp := some 0 }) (withCfg (fun i => { i with lock := { i.lock with lockDrillDays := 1 } }) (inState .standby))
                       with ledger := { opS := 86401 } }
    let proof := now { withCfg (fun i => { i with safety := { i.safety with proofDays := 1 } }) duty with safety := { funcs := [{}, {}] }, ledger := { opS := 86401 } }
    duty.st ≠ .off ∧ (∃ n ∈ (late 3).frame.lateRun, 3 ≤ n) ∧ (∀ n ∈ (late 2).frame.lateRun, n < 3) ∧
    (onDuty (port id).st = true ∧ (nth {} (port id).intake.ports 1).baud = 0 ∧ (nth {} (port id).intake.ports 1).unlockEl + 10000000000 ≤ elNs (port id) ∧
      (∃ e ∈ (port id).cfg.img.map, e.kind = 1 ∧ e.port = 1)) ∧
    (elNs (port (fun p => { p with unlockEl := 10 ^ 15 })) < 10 ^ 15 + 10000000000) ∧
    20 ≤ (nth {} (port (fun p => { p with floodRun := 20 })).intake.ports 1).floodRun ∧ (nth {} (port (fun p => { p with floodRun := 19 })).intake.ports 1).floodRun < 20 ∧
    (nth {} (port (fun p => { p with rateBad := true })).intake.ports 1).rateBad = true ∧ (nth {} (port id).intake.ports 1).rateBad = false ∧
    (drill.st = .standby ∧ drill.cfg.img.lock.lockDrillDays ≠ 0 ∧ drill.lock.drillOp = some 0 ∧ 0 + drill.cfg.img.lock.lockDrillDays * 86400 < drill.ledger.opS) ∧
    ((now duty).cfg.img.lock.lockDrillDays = 0 ∨ (now duty).st ≠ .standby) ∧
    (proof.cfg.img.safety.proofDays ≠ 0 ∧ 1 < proof.safety.funcs.length ∧ (funcOf proof 1).lastTripOp + proof.cfg.img.safety.proofDays * 86400 < proof.ledger.opS) ∧
    (now (withCfg (fun i => { i with safety := { i.safety with proofDays := 0 } }) duty)).cfg.img.safety.proofDays = 0 := by decide

/-- For FusionAndControlConditionsRaise: one second to the ns; each output. -/
theorem witness_fusion_conditions :
    let u := now { withCfg (fun i => { i with fusion := { i.fusion with drLimitS := 1, hdgDrLimitS := 1, refs := [{ kind := 2 }, { kind := 3 }] } }) duty with
      fusion := { running := true, tov := 10 ^ 15, heading := { lastValidTic := some (10 ^ 15 - 1000000001) }, position := { lastValidTic := some (10 ^ 15 - 1000000001) }
                  motion := { sinceEl := some (10 ^ 15 - 1000000000) }, wind := { sinceEl := some (10 ^ 15 - 1000000000) } }
      obs := { noRegionEl := some (10 ^ 15 - 1000000000), demLimEl := some (10 ^ 15 - 1000000000) } }
    let valid : Fused := { flags := { valid := true } }
    let v := now { duty with fusion := { running := true, heading := valid, motion := valid, position := valid, wind := valid } }
    (u.fusion.running = true ∧ u.fusion.heading.flags.valid = false ∧ u.fusion.position.flags.valid = false ∧ (10 ^ 15 - 1000000001) + 1000000000 < u.fusion.tov) ∧
    ((∃ r ∈ u.cfg.img.fusion.refs, r.kind = 2) ∧ (∃ r ∈ u.cfg.img.fusion.refs, r.kind = 3) ∧ u.fusion.motion.flags.valid = false ∧
      u.fusion.wind.flags.valid = false ∧ (10 ^ 15 - 1000000000) + 1000000000 ≤ elNs u) ∧
    (u.obs.noRegionEl = some (10 ^ 15 - 1000000000) ∧ u.obs.demLimEl = some (10 ^ 15 - 1000000000)) ∧
    (v.fusion.position.flags.valid = true ∧ v.fusion.wind.flags.valid = true ∧ v.obs.noRegionEl = none ∧ v.obs.demLimEl = none) := by decide

/-- For AllocationAndSolverConditionsRaise: each count at its limit and one below, each span to the ns. -/
theorem witness_solver_conditions :
    let img := withCfg (fun i => { i with alloc := { i.alloc with slackFaultMs := 1, groups := [{}] }, solver := { i.solver with conseqMs := 1, coverAgeMs := 1 } }) duty
    let at_ := fun (n : Nat) => now { img with
      alloc := { slackEl := some (10 ^ 15 - 1000001), bus := [{ exceedRun := 20 - n }] }
      solver := { holdRun := 3 - n, accRun := 20 - n, epsRun := 20 - n, conseqEl := some (10 ^ 15 - 1000000), shadows := [{}] }
      chandler := { shadowCutEl := some (10 ^ 15 - 10000000000) }, fusion := { running := true } }
    let young := now { img with alloc := { slackEl := some (10 ^ 15 - 1000000) }, solver := { conseqEl := some (10 ^ 15 - 1000001) }, chandler := { shadowCutEl := some (10 ^ 15 - 9999999999) } }
    ((10 ^ 15 - 1000001) + (at_ 0).cfg.img.alloc.slackFaultMs * 1000000 < elNs (at_ 0) ∧ elNs young ≤ (10 ^ 15 - 1000000) + young.cfg.img.alloc.slackFaultMs * 1000000) ∧
    (20 ≤ (nth {} (at_ 0).alloc.bus 0).exceedRun ∧ (nth {} (at_ 1).alloc.bus 0).exceedRun < 20) ∧
    (3 ≤ (at_ 0).solver.holdRun ∧ (at_ 1).solver.holdRun < 3 ∧ 20 ≤ (at_ 0).solver.accRun ∧ (at_ 1).solver.accRun < 20 ∧ 20 ≤ (at_ 0).solver.epsRun ∧ (at_ 1).solver.epsRun < 20) ∧
    ((10 ^ 15 - 1000001) + young.cfg.img.solver.conseqMs * 1000000 < elNs young ∧ elNs (at_ 0) ≤ (10 ^ 15 - 1000000) + (at_ 0).cfg.img.solver.conseqMs * 1000000) ∧
    (onDuty (at_ 0).st = true ∧ (at_ 0).fusion.running = true ∧ (at_ 0).cfg.img.solver.coverAgeMs ≠ 0) ∧
    ((10 ^ 15 - 10000000000) + 10000000000 ≤ elNs (at_ 0) ∧ elNs young < (10 ^ 15 - 9999999999) + 10000000000) ∧
    (now (withCfg (fun i => { i with solver := { i.solver with coverAgeMs := 0 } }) duty)).cfg.img.solver.coverAgeMs = 0 := by decide

/-- For AllocationAndSolverConditionsRaise, COVER_AGE_FAULT: a shadow that covers one thruster and is 2 ms old, limit 1 ms. -/
theorem witness_cover_age :
    let u := now { withCfg (fun i => { i with
        vessel := { i.vessel with thrusters := [{}] }, alloc := { i.alloc with groups := [{ thrMask := 1 }] }, solver := { i.solver with coverAgeMs := 1 } }) duty with
      solver := { shadows := [{ sol := some {}, refreshTic := 10 ^ 15 - 2000000 }] }, fusion := { running := true }, alloc := { thr := [{ avail := true }] } }
    u.cfg.img.solver.coverAgeMs * 1000 < oldestAge u := by decide +kernel

/-- For CanAndAnalogConditionsRaise: runs of 3 and 2, of 2 and 1; one second. -/
theorem witness_can_conditions :
    let u := now { withCfg (fun i => { i with schedule := { i.schedule with slots := [{ kind := 1, ctrl := 3 }] } }) duty with
      slots := [{ run := 3 }, { run := 2 }], can := [{}, {}, { safe := { run := 1 } }, { safe := { run := 2 } }]
      analog := { chans := List.replicate 16 { ovlEl := some (10 ^ 15 - 1000000000), lowEl := some (10 ^ 15 - 1000000000), highEl := some (10 ^ 15 - 1000000000) } } }
    ((slotCfg u 0).kind = 1 ∧ (slotCfg u 0).ctrl = 4 - 1 ∧ 3 ≤ (slotMsg u 0).run ∧ (slotMsg u 1).run < 3) ∧ (2 ≤ (canOf u 3).safe.run ∧ (canOf u 2).safe.run < 2) ∧
    ((chanSt u 16).ovlEl = some (10 ^ 15 - 1000000000) ∧ (chanSt u 16).lowEl = some (10 ^ 15 - 1000000000) ∧ (chanSt u 16).highEl = some (10 ^ 15 - 1000000000) ∧
      (10 ^ 15 - 1000000000) + 1000000000 ≤ elNs u) ∧
    ((chanSt (now duty) 16).ovlEl = none ∧ (chanSt (now duty) 16).lowEl = none ∧ (chanSt (now duty) 16).highEl = none) := by decide

/-! ### Witnesses: time, the calendar, the Ledger -/

/-- For TimebaseTimersAndTriggers: an expiry a ns past and one now; ticks by the frame and by a period. -/
theorem witness_timers :
    let u := now (withTime (fun t => { t with permitUntil := some (10 ^ 15 - 1), notLockedEl := 10 ^ 15 - 10000000000, trigHigh := [true, true, true, true], trigEndEl := [10 ^ 15, 10 ^ 15 + 1, 0, 0] })
      (withCfg (fun i => { i with frame := { i.frame with tickTrig := 1 }, time := { i.time with sourcePri := 0, trigs := [{}, { periodUs := 1000, phaseNs := 0, widthNs := 100 }, {}, {}] } }) duty))
    let v := now (withTime (fun t => { t with permitUntil := some (10 ^ 15), state := .locked, trigLast := [10 ^ 15, 10 ^ 15, 10 ^ 15, 10 ^ 15] })
      (withCfg (fun i => { i with time := { i.time with trigs := [{}, { periodUs := 1000, phaseNs := 0, widthNs := 100 }, {}, {}] } }) duty))
    let off := now (withFrame (fun f => { f with running := false }) duty)
    (10 ^ 15 - 1 : Nat) < elNs u ∧ elNs v ≤ 10 ^ 15 ∧
    (duty.st ≠ .off ∧ u.cfg.img.time.sourcePri ≠ 2 ∧ u.time.state ≠ .locked ∧ u.time.notLockedEl + 10000000000 ≤ elNs u) ∧ v.time.state = .locked ∧
    (u.frame.running = true ∧ u.cfg.img.frame.tickTrig = 1 ∧ nth 0 u.time.trigLast 0 < u.frame.tic) ∧
    (u.cfg.img.frame.tickTrig ≠ 2 ∧ (nth {} u.cfg.img.time.trigs 1).phaseNs ≤ nowNs u ∧ nth 0 u.time.trigLast 1 < nowNs u / 1000000 * 1000000 + 0) ∧
    (v.cfg.img.frame.tickTrig ≠ 2 ∧ nowNs v / 1000000 * 1000000 + 0 ≤ nth 0 v.time.trigLast 1) ∧ off.frame.running = false ∧
    ((nth {} v.cfg.img.time.trigs 2).periodUs = 0 ∧ v.frame.running = true ∧ v.cfg.img.frame.tickTrig ≠ 3 ∧ (now duty).time.permitUntil = none ∧
      nth false v.time.trigHigh 0 = false) ∧
    (nth false u.time.trigHigh 0 = true ∧ nth 0 u.time.trigEndEl 0 ≤ elNs u ∧ nth false u.time.trigHigh 1 = true ∧ elNs u < nth 0 u.time.trigEndEl 1) := by decide

/-- For TimebaseStepStretchesTheFrame. -/
theorem witness_timebase_step :
    let u := now (withTime (fun t => { t with stepQueued := some (-3000000) }) (withFrame (fun f => { f with phase := 7 }) duty))
    u.time.stepQueued = some (-3000000) ∧ u.frame.phase = 7 ∧ u.frame.running = true ∧ u.time.deferTo = none ∧
    (now duty).time.stepQueued = none := by decide

/-- For TimeMailboxCommands: READ of both views and an unknown one; SET of the calendar at its last value, of a backup word; ADJUST. -/
theorem witness_time_commands :
    let at_ := fun (cmd : Nat) (p : Bytes) (s : State) => now (asked (ask 1 cmd p) s)
    let date := u32 (99 * 2 ^ 16 + 12 * 2 ^ 8 + 31)
    let time := u32 (23 * 2 ^ 16 + 59 * 2 ^ 8 + 59)
    let c := calOfWords (fld (u8 0 ++ zeros 3 ++ date ++ time) 4 4) (fld (u8 0 ++ zeros 3 ++ date ++ time) 8 4)
    (∀ n ∈ [0, 1, 2], turnHolds (at_ wTimeRead (u8 n ++ zeros 3) duty) 1 wTimeRead (ask 1 wTimeRead (u8 n ++ zeros 3)) = true) ∧
    turnHolds (at_ wTimeSet (u8 0 ++ zeros 3 ++ date ++ time) duty) 1 wTimeSet (ask 1 wTimeSet (u8 0 ++ zeros 3 ++ date ++ time)) = true ∧
    (c.weekday = 0 ∧ c.year = 99 ∧ c.month = 12 ∧ c.day = monthLen c.month c.year ∧ c.hour = 23 ∧ c.minute = 59 ∧ c.second = 59) ∧
    turnHolds (at_ wTimeSet (u8 1 ++ zeros 3 ++ u32 0x7C ++ u32 7) duty) 1 wTimeSet (ask 1 wTimeSet (u8 1 ++ zeros 3 ++ u32 0x7C ++ u32 7)) = true ∧
    turnHolds (at_ wTimeSet (u8 1 ++ zeros 3 ++ u32 0x14 ++ u32 7) duty) 1 wTimeSet (ask 1 wTimeSet (u8 1 ++ zeros 3 ++ u32 0x14 ++ u32 7)) = true ∧
    (following (now duty) = true ∧ following (now (withImgTime (fun t => { t with rtcFollow := 0 }) duty)) = false) ∧
    turnHolds (at_ wTimeAdjust (u8 0 ++ zeros 11) duty) 1 wTimeAdjust (ask 1 wTimeAdjust (u8 0 ++ zeros 11)) = true ∧
    (turnHolds (at_ wTimeAdjust (u8 2 ++ zeros 3 ++ u64 (2 ^ 40)) duty) 1 wTimeAdjust (ask 1 wTimeAdjust (u8 2 ++ zeros 3 ++ u64 (2 ^ 40))) = true ∧
      (fldI (u8 2 ++ zeros 3 ++ u64 (2 ^ 40)) 4 8).natAbs = 2 ^ 40 ∧ (now duty).time.state = .noTime ∧ (now duty).time.stepPending = none) := by decide

/-- For AlarmSetArmsOneSlot: slot 3 on 1 January 2001, from a calendar at 1 January 2000 and one after it. -/
theorem witness_alarm :
    let p := fun (on : Nat) => u8 3 ++ u8 on ++ zeros 2 ++ u32 (1 * 2 ^ 16 + 1 * 2 ^ 8 + 1) ++ u32 0
    let c := calOfWords (fld (p 1) 4 4) (fld (p 1) 8 4)
    let at_ := fun (on : Nat) (s : State) => now (asked (ask 1 wAlarmSet (p on)) s)
    let late := withRtc (fun r => { r with year := 2 }) duty
    (∀ on ∈ [0, 1], turnHolds (at_ on duty) 1 wAlarmSet (ask 1 wAlarmSet (p on)) = true ∧ turnHolds (at_ on late) 1 wAlarmSet (ask 1 wAlarmSet (p on)) = true) ∧
    (c.weekday = 0 ∧ c.year = 1 ∧ c.month = 1 ∧ c.day = 1 ∧ c.hour = 0 ∧ c.minute = 0 ∧ c.second = 0) ∧
    (calKey (calOf (now duty).rtc) < calKey c ∧ calKey c ≤ calKey (calOf (now late).rtc) ∧ (now duty).rtc.calValid = false ∧
      (now (withRtc (fun r => { r with calValid := true }) duty)).rtc.calValid = true) := by decide

/-- For RawWindowCommandsActAsTheirRegistersSay. -/
theorem witness_raw_window :
    let follow := now (withTime (fun t => { t with state := .locked, utcValid := true }) duty)
    (now duty).rtc.stageDirty = false ∧ (now (withRtc (fun r => { r with stageDirty := true }) duty)).rtc.stageDirty = true ∧
    following (now (withImgTime (fun t => { t with rtcFollow := 0 }) duty)) = false ∧ following follow = true ∧ follow.cfg.img.time.rtcFollow = 1 ∧
    2000000 < ((calNs follow : Int) - utcNs follow).natAbs ∧ (now duty).time.state ≠ .locked := by decide

/-- For CalendarCountsAndCarries: a second, a minute, an hour, a day, a leap February, a year's and the century's end. -/
theorem witness_calendar :
    let at_ := fun (y mo d h mi s : Nat) => now (withRtc (fun r => { r with year := y, month := mo, day := d, weekday := 6, hour := h, minute := mi, second := s }) duty)
    let due := fun (u : State) => u.rtc.subEl + 1000000000 ≤ elNs u
    (due (at_ 0 1 1 0 0 58) ∧ (at_ 0 1 1 0 0 58).rtc.second < 59) ∧ (due (at_ 0 1 1 0 58 59) ∧ (at_ 0 1 1 0 58 59).rtc.minute < 59) ∧
    (due (at_ 0 1 1 22 59 59) ∧ (at_ 0 1 1 22 59 59).rtc.hour < 23) ∧ (due (at_ 4 2 28 23 59 59) ∧ (28 : Nat) < monthLen 2 4) ∧
    (due (at_ 4 2 29 23 59 59) ∧ monthLen 2 4 ≤ 29) ∧ (due (at_ 98 12 31 23 59 59) ∧ monthLen 12 98 ≤ 31) ∧ due (at_ 99 12 31 23 59 59) ∧
    duty.st ≠ .off ∧ (now State.reset).st = .off := by decide

/-- For PtpMessagesMeasureAndAnswer: port 1 in the role; its source lost with the last announce; roles of the other port alone. -/
theorem witness_ptp :
    let b : PtpMaster := { ident := 7 }
    let role := withImgTime (fun t => { t with sourcePri := 0, ptpRole := 1 })
    let heard := now (withTime (fun t => { t with source := some 1, state := .locked, ports := [{}, { best := some b, delayNs := some 100 }] }) (role (inState .standby)))
    (duty.st ≠ .off ∧ heard.st ≠ .selftest) ∧
    (rolePort heard 1 = true ∧ (nth {} heard.time.ports 1).best = some b ∧ heard.time.source = some 1 ∧ (nth {} heard.time.ports 1).delayNs = some 100 ∧
      1 < heard.time.ports.length) ∧
    (rolePort (now (role duty)) 1 = true ∧ (nth {} (now (role duty)).time.ports 1).best = none ∧ portMaster (now (role duty)) 1 = true) ∧
    (rolePort heard 0 = false ∧ portMaster heard 0 = false) ∧
    (heard.time.ports.length = 2 ∧ heard.time.state = .locked ∧ ptpLost heard 1 = true ∧ heard.time.gnssUsable = false ∧ onDuty heard.st = false ∧
      bestPort { heard with time := { heard.time with ports := upd (fun _ => {}) heard.time.ports 1 } } = none) := by decide

/-- For LedgerWritesReadsAndCounts: a merge, a new record in an empty region, the last READ count of 40. -/
theorem witness_ledger :
    let e : Rec := { opS := 10, code := 0x0501, data := [1] }
    let w : Window := { first := 0, last := 5, cursor := 0 }
    let u := now { duty with ledger := { queue := [e], recs := [e], opS := 10, counting := true, next := 1 } }
    duty.st ≠ .off ∧ u.ledger.queue = [e] ∧ u.ledger.lostSince = 0 ∧ mergeable e e = true ∧ e.size ≤ ledgerCap ∧ (now duty).ledger.queue = [] ∧ (now duty).ledger.recs = [] ∧
    (u.ledger.counting = true ∧ u.ledger.opS % 10 = 0 ∧ (now duty).ledger.counting = false) ∧
    (turnHolds (now (asked (ask 1 wLedgerWindow (u8 1 ++ zeros 7 ++ u32 1048576)) duty)) 1 wLedgerWindow (ask 1 wLedgerWindow (u8 1 ++ zeros 7 ++ u32 1048576)) = true ∧
      fld (u8 1 ++ zeros 7 ++ u32 1048576) 8 4 = 1048576) ∧
    turnHolds (now (asked (ask 1 wLedgerRead (u8 40 ++ zeros 3)) duty)) 1 wLedgerRead (ask 1 wLedgerRead (u8 40 ++ zeros 3)) = true ∧
    (boxOf (now (asked (ask 1 wLedgerRead (u8 40 ++ zeros 3)) duty)) 1).window = none ∧
    (boxOf (now (asked (ask 1 wLedgerRead (u8 40 ++ zeros 3)) (withBox 1 (fun b => { b with window := some w }) duty))) 1).window = some w := by decide

/-! ### Witnesses: intake, the analog chain, the receiver -/

/-- "$GPXTE,7.5*cs" with the checksum worked out by hand: the XOR of "GPXTE,7.5" is 0x5E. -/
def xte : Bytes := [0x24, 0x47, 0x50, 0x58, 0x54, 0x45, 0x2C, 0x37, 0x2E, 0x35, 0x2A, 0x35, 0x45, 0x0D, 0x0A]

def xteEntry : Image.Entry := { kind := 1, port := 8, decode := 1, dest := 9, mtch := [0x47, 0x50, 0x58, 0x54, 0x45], field := 1, width := 0, gainM := 1, gainE := 0 }

/-- The sentence with a wrong checksum, without its end, and with a second start in its middle. -/
def xteBad : Bytes := [0x24, 0x47, 0x50, 0x58, 0x54, 0x45, 0x2C, 0x37, 0x2E, 0x35, 0x2A, 0x35, 0x46, 0x0D, 0x0A]
def xteCut : Bytes := xte.take 9

/-- For SentencesCommitOrAreCounted, the characters: one whole sentence, one that goes on, one that 83 characters end, none. -/
theorem witness_messages :
    (∀ m ∈ [xte, xteBad], messagesOf m none = ([(m, true)], none)) ∧ messagesOf xteCut none = ([], some xteCut.reverse) ∧
    messagesOf (0x24 :: List.replicate 82 0x41) none = ([(0x24 :: List.replicate 81 0x41, false)], none) ∧ messagesOf [0x41, 0x0A] none = ([], none) ∧
    (∃ x, parseSentence xteBad = some x ∧ x.hasCk = true ∧ x.ckOk = false) ∧
    (messagesOf [0x24, 0x0A] none = ([([0x24, 0x0A], true)], none) ∧ parseSentence [0x24, 0x0A] = none) :=
  ⟨by decide, by decide, by decide +kernel, by decide, ⟨(parseSentence xteBad).getD {}, by decide, by decide, by decide⟩, by decide⟩

/-- For SentencesCommitOrAreCounted: port 8, an entry that matches and none, 2 s of silence. -/
theorem witness_sentence :
    let u := now (withCfg (fun i => { i with map := [xteEntry] }) duty)
    let port := fun (f : PortSt → PortSt) => now { duty with intake := { duty.intake with ports := upd f duty.intake.ports 8 } }
    onDuty u.st = true ∧ onDuty (now (inState .held)).st = false ∧ (nth {} u.intake.ports 8).baud = 0 ∧ 8 < u.intake.ports.length ∧
    (∃ x, parseSentence xte = some x ∧ x.hasCk = true ∧ x.ckOk = true ∧ serialEntries u 8 x = [xteEntry] ∧ serialEntries (now duty) 8 x = [] ∧
      ∃ w q, fate u.cfg.img.map (sentenceRaw x) xteEntry = .commit w q) ∧
    ((nth {} (port (fun p => { p with baud := 4800, goodEl := 10 ^ 15 - 2000000000 })).intake.ports 8).baud ≠ 0 ∧
      (10 ^ 15 - 2000000000) + 2000000000 ≤ elNs (port id) ∧ (nth {} (port (fun p => { p with baud := 4800 })).intake.ports 8).baud ≠ 38400) :=
  ⟨by decide, by decide, by decide, by decide,
   ⟨(parseSentence xte).getD {}, by decide, by decide, by decide, by decide, by decide,
    (match fate [xteEntry] (sentenceRaw ((parseSentence xte).getD {})) xteEntry with | .commit w _ => w | _ => 0), 0, by decide⟩, by decide⟩

/-- For DatagramsWaitInTheirQueue: an empty queue and one of 256; group 1 by its multicast and the slot's own address, a fragment. -/
theorem witness_datagrams :
    let full := now { duty with intake := { duty.intake with ports := upd (fun p => { p with waiting := List.replicate 256 { doneEl := 10 ^ 15 + 1 } }) duty.intake.ports 10 } }
    let grouped := now duty
    (onDuty (now duty).st = true ∧ (nth {} (now duty).intake.ports 10).waiting = [] ∧ (∀ i ∈ queuePorts, servedOf (now duty) i = []) ∧
      ∀ i ∈ queuePorts, servedOf full i = []) ∧
    (accepts450 grouped 10 { addr := 0xEFC00001, port := 60001 } = true ∧ accepts450 grouped 10 { addr := hostAddr grouped 1, port := 60001 } = true ∧
      accepts450 grouped 10 { addr := 5, port := 60001 } = false ∧ accepts450 grouped 10 { addr := 0xEFC00001, port := 60001, fragment := true } = false) ∧
    (notIntake 5000 = false ∧ notIntake 48000 = true) ∧
    ((nth {} full.intake.ports 10).waiting.length = 256 ∧ (nth {} full.intake.ports 10).waiting.head? = some { doneEl := 10 ^ 15 + 1 } ∧
      (nth {} full.intake.ports 10).waiting.getLast? = some { doneEl := 10 ^ 15 + 1 } ∧ elNs full < 10 ^ 15 + 1) ∧
    onDuty (now (inState .standby)).st = false := by decide +kernel

/-- For CanFramesReachTheirEntry: controller 4 with an entry for one identity, in READY and in STANDBY. -/
theorem witness_can_receive :
    let e : Image.Entry := { kind := 4, port := 4, decode := 16, dest := 3, mtch := [1, 0, 0, 0, 0xFF, 0xFF, 0xFF, 0x1F, 0, 0, 0, 0], field := 0, width := 8, gainM := 1 }
    let cfg := withCfg (fun i => { i with map := [e], schedule := { i.schedule with ctrls := [{}, {}, {}, { mode := 2 }] } })
    let u := now (cfg duty)
    (canLive u 3 = true ∧ 3 < u.can.length ∧ (canOf u 3).rec_ ≤ 127 ∧ (canOf u 3).st = .active ∧ (canOf u 3).tec ≤ 127) ∧
    (∀ i ∈ queuePorts, servedOf u i = [] ∧ (nth {} u.intake.ports i).waiting = []) ∧
    (let d : Pend := { kind := .can, key := 1, doneEl := 10 ^ 15, data := [7] }
     let v := now (cfg { duty with intake := { duty.intake with ports := upd (fun p => { p with waiting := [d] }) duty.intake.ports 14 } })
     servedOf v 14 = [(14, d)] ∧ (∀ i ∈ queuePorts, i ≠ 14 → servedOf v i = []) ∧ canEntries v 3 d.key = [e]) ∧
    (onDuty u.st = true ∧ rxConn u 3 1 = none ∧ filterPass (ctrlCfg u 3) 1 = true ∧ canEntries u 3 1 = [e] ∧
      (match fate u.cfg.img.map (payloadRaw [7]) e with | .commit _ q => q | _ => 9) = 0) ∧
    (canLive (now (cfg (inState .standby))) 3 = true ∧ onDuty (now (cfg (inState .standby))).st = false) ∧ canLive (now duty) 3 = false := by decide

/-- For CapturesAndCountersOfIntake: PPS_IN, an input unit, seven and eight edges held. -/
theorem witness_captures :
    let cfg := withImgTime (fun t => { t with capSrc := [0x40] }) duty
    let u := fun (n : Nat) => now (withTime (fun t => { t with captures := List.replicate 16 (List.replicate n (1, 10 ^ 15 + 1)) }) cfg)
    (∀ n ∈ [0, 7, 8], ∀ i ∈ [0, 1], ∀ x ∈ nth [] (u n).time.captures i, elNs (u n) < x.2) ∧
    (∀ i ∈ [0, 1], capTakes (u 0) i true = true ∧ i < (u 0).time.captures.length) ∧ ((nth [] (u 7).time.captures 1).length < 8 ∧ (nth [] (u 8).time.captures 1).length = 8) ∧
    capTakes (u 0) 1 false = false ∧ (∀ p ∈ (u 0).intake.ports, p.waiting = []) ∧ duty.st ≠ .off := by decide

/-- For AnalogGroupsStartAndDeliver: group 4 and channel 16, at the start instant and 1 ns before it, settled and overloaded. -/
theorem witness_analog :
    let e : Image.Entry := { kind := 5, port := 16, dest := 4, decode := 32 }
    let cfg := withCfg (fun i => { i with map := [e], analog := { i.analog with chans := List.replicate 16 { enable := 1 } } }) duty
    let u := fun (t0 : Nat) (q : AnaChanSt) => now { cfg with analog := { powered := true, groups := List.replicate 4 { running := true, startAt := some t0 }
                                                                          chans := List.replicate 16 q } }
    (∀ t ∈ [10 ^ 15, 10 ^ 15 + 1], (u t {}).analog.groups.length = 4 ∧ (u t {}).analog.chans.length = 16 ∧ (groupSt (u t {}) 4).startAt = some t ∧
      (u t {}).analog.powered = true) ∧ nowNs (u (10 ^ 15 + 1) {}) < 10 ^ 15 + 1 ∧
    ((groupSt (u 0 {}) (groupOf 16)).running = true ∧ (anaChan (u 0 {}) 16).enable = 1 ∧ groupHeld (u 0 {}) (groupOf 16) = false) ∧
    ((chanSt (u 0 {}) 16).ovl = false ∧ (chanSt (u 0 {}) 16).left = 0 ∧ onDuty (u 0 {}).st = true ∧ (anaChan (u 0 {}) 16).dcbEn = 0 ∧
      nativeEntries (u 0 {}) 5 16 = [e] ∧ e.rangeEn = false ∧ e.srcqEn = false) ∧
    (96 * (groupSt (u 0 {}) (groupOf 16)).startEl + (chanSt (u 0 {}) 16).n * (64 * 2 ^ (anaGroup (u 0 {}) (groupOf 16)).stages) * 15625 ≤ 96 * elNs (u 0 {}) ∧
      (chanSt (u 0 {}) 16).waiting = [] ∧ ¬96 * (groupSt (u 0 { n := 10 ^ 20 }) (groupOf 16)).startEl +
        (chanSt (u 0 { n := 10 ^ 20 }) 16).n * (64 * 2 ^ (anaGroup (u 0 { n := 10 ^ 20 }) (groupOf 16)).stages) * 15625 ≤ 96 * elNs (u 0 { n := 10 ^ 20 })) ∧
    ((anaChan (u 0 {}) 16).inputSel = 0 ∧ (11000001 > (spanOf (anaChan (u 0 {}) 16).range).2 ∧ ¬(11000000 > (spanOf (anaChan (u 0 {}) 16).range).2)) ∧
      (chanSt (u 0 {}) 16).inReset = false) ∧
    ((chanSt (u 0 { inReset := true }) 16).inReset = true ∧ 96 * (chanSt (u 0 { inReset := true }) 16).resetEl + 1000000 ≤ 96 * elNs (u 0 {}) ∧
      ¬96 * (chanSt (u 0 { inReset := true, resetEl := 10 ^ 15 }) 16).resetEl + 1000000 ≤ 96 * elNs (u 0 {}) ∧ (now duty).analog.powered = false) := by decide

/-- For ReceiverCommitsMeasurementsAndGrades: channel 32, PRN 32, a new epoch and the old one, PDOP at its limit and above. -/
theorem witness_receiver :
    let e : Image.Entry := { kind := 8, port := 32, dest := 4, decode := 32, mtch := zeros 12 }
    let e4 : Image.Entry := { e with mtch := [4] ++ zeros 11 }
    let u := fun (e : Image.Entry) (g : GnssSt → GnssSt) => now (withGnss (fun x => g { x with powered := true }) (withCfg (fun i => { i with map := [e] }) duty))
    let m : ChanMeas := { chan := 32, prn := 32, codeLock := true }
    ((u e id).gnss.epoch < epochInstant (u e id) ∧ (u e id).gnss.powered = true ∧ gnssHeld (u e id) = false ∧ (u e id).gnss.regime = .continuous ∧
      nativeEntries (u e id) 8 m.chan = [e] ∧ byteAt e.mtch 0 = 0 ∧ e.rangeEn = false ∧ e.srcqEn = false ∧ m.masked = false ∧ 1 ≤ m.prn ∧ m.prn ≤ 32) ∧
    (epochInstant (u e (fun g => { g with epoch := 10 ^ 15 })) ≤ 10 ^ 15 ∧ (now duty).gnss.powered = false) ∧
    ((u e4 id).gnss.regime ≠ .burst ∧ nativeEntries (u e4 id) 8 32 = [e4] ∧ byteAt e4.mtch 0 = 4 ∧ (u e4 (fun g => { g with regime := .burst })).gnss.regime = .burst) ∧
    ((4 : Nat) ≤ ({ sats := 4, pdop := 60 } : NavSol).sats ∧ 60 ≤ (u e id).cfg.img.gnss.pdopMax ∧ (u e id).cfg.img.gnss.pdopMax < 61 ∧ (u e id).gnss.ret.pos = none ∧
      ({ sats := 3 } : NavSol).sats = 3 ∧ ({} : NavSol).sats < 3 ∧ (u e (fun g => { g with ret := { g.ret with pos := some default } })).gnss.ret.pos.isSome = true) := by
  decide

/-- For ReceiverSleepsWakesAndGuardsItsAntenna: each span to the ns, at a whole second. -/
theorem witness_sleep :
    let u := fun (g : GnssSt → GnssSt) => now (withGnss (fun x => g { x with powered := true }) duty)
    let burst := u (fun g => { g with regime := .burst })
    let sleepy := u (fun g => { g with regime := .longSleep, wakeEl := 10 ^ 15 - 120000000000 })
    let asleep := fun (d : Nat) => u (fun g => { g with asleep := true, sleepEl := 10 ^ 15 - 600000000000 + d })
    let short := u (fun g => { g with shortEl := some (10 ^ 15 - 10000000000), wakeEl := 10 ^ 15 - 60000000000, fullEl := 10 ^ 15 - 60000000000 })
    duty.st ≠ .off ∧ (burst.gnss.regime = .burst ∧ burst.gnss.powered = true ∧ gnssHeld burst = false ∧ burst.gnss.burst = false) ∧ (u id).gnss.regime ≠ .burst ∧
    (sleepy.gnss.regime = .longSleep ∧ atSecond sleepy = true ∧ sleepy.gnss.wakeEl + sleepy.cfg.img.gnss.wakeMaxS * 1000000000 ≤ elNs sleepy ∧
      (10 ^ 15 - 100000000000) + sleepy.cfg.img.gnss.awakeS * 1000000000 ≤ elNs sleepy) ∧
    ((asleep 0).gnss.asleep = true ∧ (asleep 0).gnss.sleepEl + (asleep 0).cfg.img.gnss.sleepMin * 60000000000 ≤ elNs (asleep 0) ∧
      elNs (asleep 1) < (asleep 1).gnss.sleepEl + (asleep 1).cfg.img.gnss.sleepMin * 60000000000) ∧
    ((u (fun g => { g with bias := true })).gnss.bias = true ∧ (u id).gnss.bias = false) ∧
    (short.gnss.shortEl = some (10 ^ 15 - 10000000000) ∧ (10 ^ 15 - 10000000000) + 10000000000 ≤ elNs short ∧ short.gnss.powered = true ∧ (u id).gnss.shortEl = none ∧
      (now duty).gnss.powered = false ∧ (now duty).gnss.asleep = false) ∧
    (short.gnss.grade ≠ 2 ∧ short.gnss.wakeEl + 60000000000 ≤ elNs short ∧ short.gnss.fullEl + 60000000000 ≤ elNs short ∧ (now duty).gnss.powered = false) := by decide

/-- For PpsOutPulsesOncePerSecond: the first pulse, one 500 ms after the last and one before that, the pulse's width. -/
theorem witness_pps :
    let u := fun (o : Option Nat) => now (withGnss (fun g => { g with ppsHigh := true, ppsEl := o }) (withTime (fun t => { t with state := .free }) duty))
    ((u none).frame.running = true ∧ hasTime (u none) = true ∧ atSecond (u none) = true ∧ (u none).time.deferAddend = none ∧ (u none).gnss.ppsEl = none) ∧
    ((10 ^ 15 - 500000000) + 500000000 ≤ elNs (u (some (10 ^ 15 - 500000000))) ∧ (10 ^ 15 - 499999999) + 1000 ≤ elNs (u (some (10 ^ 15 - 499999999))) ∧
      elNs (u (some (10 ^ 15 - 499999999))) < (10 ^ 15 - 499999999) + 500000000 ∧ elNs (u (some (10 ^ 15 - 999))) < (10 ^ 15 - 999) + 1000) ∧ (now duty).time.state = .noTime ∧
    ((u (some (10 ^ 15 - 100000000))).gnss.ppsHigh = true ∧ (10 ^ 15 - 100000000) + (u none).cfg.img.gnss.ppsWidthMs * 1000000 ≤ elNs (u none) ∧
      elNs (u none) < (10 ^ 15 - 99999999) + (u none).cfg.img.gnss.ppsWidthMs * 1000000) := by decide

/-! ### Witnesses: stages of the frame -/

/-- For StagesEndWhatHasRunOut. -/
theorem witness_stages :
    let u := now { inState .active with
      frame := { duty.frame with phase := 2 }, obs := { steps := 3, blend := some (1, 100), tov := 10 ^ 15 }
      fusion := { running := true, refs := [{ skew := true, skewEl := 10 ^ 15 - 60000000000, awaiting := true, awaitUntil := 10 ^ 15 },
                                            { skew := true, skewEl := 10 ^ 15 - 59999999999, awaiting := true, awaitUntil := 10 ^ 15 + 1 }] }
      sp := { move := some { trans := { kind := 1, t0 := 0 }, head := { kind := 1, t0 := 0 } }, push := { ramping := true, t1 := 10 ^ 15 + 5000000 } } }
    let m : Move := { trans := { kind := 1, t0 := 0 }, head := { kind := 1, t0 := 0 } }
    (u.fusion.running = true ∧ 0 < u.fusion.refs.length ∧ (nth {} u.fusion.refs 0).skew = true ∧ (nth {} u.fusion.refs 0).skewEl + 60000000000 ≤ elNs u ∧
      elNs u < (nth {} u.fusion.refs 1).skewEl + 60000000000) ∧
    ((nth {} u.fusion.refs 0).awaiting = true ∧ (nth {} u.fusion.refs 0).awaitUntil ≤ nowNs u ∧ nowNs u < (nth {} u.fusion.refs 1).awaitUntil) ∧
    (u.obs.blend = some (1, 100) ∧ u.obs.tov ≤ u.frame.tic ∧ u.cfg.img.gains.blendFrames ≤ 100 ∧ 0 < u.cfg.img.gains.blendFrames) ∧
    (u.frame.phase = 2 ∧ u.st = .active ∧ u.fusion.running = true ∧ u.obs.steps = 3 ∧ (now { u with sp := { u.sp with pending := some {} } }).sp.pending = some {} ∧
      (now { u with sp := { u.sp with push := { u.sp.push with release := true } } }).sp.push.release = true) ∧ (u.sp.move = some m ∧ restAt m u.frame.nextTick = true ∧ u.sp.pending = none) ∧
    (u.sp.push.ramping = true ∧ u.sp.push.t1 ≤ u.frame.nextTick ∧ u.sp.push.release = false) ∧ (now duty).frame.phase ≠ 2 := by decide +kernel

/-- For SolveCompleteTakesTheResult: a primary at its tolerance on SA-A; no solve. -/
theorem witness_solve :
    let v : Solve := { cur := { resid := 0 } }
    let u := now { withFrame (fun f => { f with phase := 4 }) duty with solver := { onA := some v } }
    u.frame.phase = 4 ∧ onArr u .A = some v ∧ v.prob.group = none ∧ u.solver.primary = none ∧ u.solver.queue = [] ∧ v.cur.resid ≤ u.cfg.img.solver.tolPrimary ∧
    onArr u .B = none := by decide

/-! ### Witnesses: the lock group -/

def inGroup (s : State) : State := withCfg (fun i => { i with lock := { i.lock with nSlots := 3 } }) s

/-- A Rafoger message (12 Table 12-2) from slot 2 to slot 1 with its CRC. -/
def rafMsg (ty frame : Nat) (body : Bytes) : Bytes :=
  let m := u8 2 ++ u8 ty ++ u8 2 ++ u8 0 ++ u8 1 ++ u8 0 ++ u16 body.length ++ u64 frame ++ u32 0 ++ u32 0 ++ body
  m ++ u32 (crc32 m)

/-- A beat of a holder (12 Table 12-3: LFLAGS bit 1). -/
def holderBeat (frame : Nat) : Bytes :=
  rafMsg 1 frame (u8 5 ++ u8 2 ++ u8 0 ++ u8 2 ++ u8 2 ++ [1, 3, 0] ++ u64 (frame + 4) ++ u64 (frame - 1) ++ zeros 8 ++ zeros 12 ++ zeros 20)

/-- The last of six fragments of 7208 bytes (12 Table 12-4). -/
def lastFragment : Bytes := rafMsg 2 199999999 (u16 5 ++ u16 6 ++ u32 7208 ++ zeros 8)

/-- For RafogerMessagesAreTakenRelayedOrCounted: a beat in step and one three frames old, a bad CRC, the last fragment. -/
theorem witness_rafoger_beat :
    let u := now (inGroup (inState .standby))
    (0x88B5 : Nat) ≠ 0x88B6 ∧ rafTakes u = true ∧ rafTakes (now (inState .held)) = false ∧ rafValid u (holderBeat 200000000) = true ∧ rafValid u (holderBeat 199999997) = true ∧
    rafValid u ((holderBeat 200000000).take 91 ++ [0]) = false ∧
    (byteAt (holderBeat 200000000) 1 = 1 ∧ (byteAt (holderBeat 200000000) 4).testBit (u.lock.slot - 1) = true ∧ byteAt (holderBeat 200000000) 2 < u.lock.peers.length) ∧
    (inStepBeat u (beatOf u (holderBeat 200000000)) = true ∧ (beatOf u (holderBeat 200000000)).held = true ∧ inStepBeat u (beatOf u (holderBeat 199999997)) = false) := by
  decide +kernel

theorem witness_rafoger_fragment :
    let fifth : Assembly := { src := 2, frame := 199999999, count := 6, parts := [(0, []), (1, []), (2, []), (3, []), (4, [])] }
    let u := now (withLock (fun l => { l with asm := some fifth }) (inGroup (inState .standby)))
    (u.st = .standby ∧ rafValid u lastFragment = true ∧ byteAt lastFragment 1 = 2 ∧ (byteAt lastFragment 4).testBit (u.lock.slot - 1) = true ∧ fragOk lastFragment = true ∧
      countedFrame u (fld lastFragment 8 8) = 199999999 ∧ fifth.frame = countedFrame u (fld lastFragment 8 8) ∧ fifth.count = fld lastFragment 26 2 ∧ fifth.src = byteAt lastFragment 2) ∧
    ((Table.set fifth.parts (fld lastFragment 24 2) (slice lastFragment 32 (fld lastFragment 6 2 - 8))).length = fifth.count ∧
      (Table.set ([] : Table Bytes) (fld lastFragment 24 2) (slice lastFragment 32 (fld lastFragment 6 2 - 8))).length ≠ fifth.count ∧ u.lock.claim = none) ∧
    ((now (inGroup (inState .standby))).lock.asm = none ∧ u.lock.committed = none ∧ (199999999 : Nat) < ({ fifth with frame := 200000000 } : Assembly).frame) := by decide +kernel

theorem witness_rafoger_paths :
    let u := now (inGroup duty)
    let up := fun (f : Nat) => now (withLock (fun l => { l with peers := upd (fun p => { p with pathL2 := some f }) l.peers 3 }) (inGroup duty))
    (u.st ≠ .off ∧ 28 ≤ (holderBeat 5).length ∧ byteAt (holderBeat 5) 3 = 0 ∧
      Nat.land (byteAt (rafMsg 1 5 []) 4) (if u.lock.slot = 0 then 7 else 7 - 2 ^ (u.lock.slot - 1)) = 0 ∧ Nat.land 2 (if u.lock.slot = 0 then 7 else 7 - 2 ^ (u.lock.slot - 1)) ≠ 0) ∧
    u.lock.drops = [0, 0] ∧ ((peerOf (up 199999997) 3).pathL2 = some 199999997 ∧ recent (up 199999997) 199999997 = false ∧ recent (up 199999998) 199999998 = true ∧
      (peerOf u 3).pathL2 = none) := by decide

/-- For DiscoveryElectionAndClaims. -/
theorem witness_claims :
    let disc := fun (t : Nat) (b : Option Beat) => now { withLock (fun l => { l with discStart := some t, peers := upd (fun p => { p with last := b, holdAt := b.map (·.atFrame) }) l.peers 2 }) (inGroup (inState .standby)) with
      bring := { duty.bring with step := 3 } }
    let elect := now { withLock (fun l => { l with discEnd := some (10 ^ 15) }) (inGroup (inState .standby)) with bring := { duty.bring with step := 4 } }
    let r : Beat := { slot := 2, succ := [1, 3, 0], expiry := 199999999 }
    let claim := now (withLock (fun l => { l with renewal := some r, committed := some { frame := 199999998 }, peers := upd (fun p => { p with inStep := some { slot := 2, atFrame := 200000000 } }) l.peers 2 })
      (inGroup (inState .standby)))
    let target := now (withLock (fun l => { l with prepared := some 199999999, committed := some { frame := 199999999 } }) (inGroup (inState .standby)))
    ((disc (10 ^ 15 - 2000000000) none).st = .standby ∧ (disc (10 ^ 15 - 2000000000) none).bring.step = 3 ∧ hearsHolder (disc (10 ^ 15 - 2000000000) none) = false ∧
      hearsHolder (disc (10 ^ 15 - 2000000000) (some { lflags := 2, atFrame := 200000000 })) = true ∧
      ((otherSlots (disc (10 ^ 15 - 1999999999) none)).all (fun x => (peerOf (disc (10 ^ 15 - 1999999999) none) x).heard)) = false ∧
      elNs (disc (10 ^ 15 - 1999999999) none) < (10 ^ 15 - 1999999999) + 2000000000) ∧
    (electionDue elect = true ∧ electionDue (now duty) = false) ∧ (claimDue claim = true ∧ claim.lock.committed = some { frame := 199999998 } ∧ claimDue (now duty) = false) ∧
    (targetDue target = true ∧ target.lock.committed = some { frame := 199999999 } ∧ targetDue (now duty) = false) ∧
    (claimFails target 0 = false ∧ claimFails target (Nat.land (2 ^ dHC) (claimDomains target)) = true ∧ target.lock.held = false) := by decide +kernel

/-- For LeasePassesEndsAndIsYielded and SuppliesStartAndStopTheModule: no source of this image reacts by Table 19-5. -/
theorem witness_react : ∀ code, cfgReact (now duty) code ≤ 2 := fun _ => Nat.zero_le _

theorem witness_lease :
    let pass := fun (kind : Nat) (ok : Bool) => now (withLock (fun l => { l with claim := some (199999999, kind), claimOk := ok, committed := some {} }) (inGroup (inState .standby)))
    let held := fun (f : LockSt → LockSt) => now (withLock (fun l => f { l with held := true, expiry := 200000004 }) (inGroup duty))
    let lost := now (withLock (fun l => { l with held := true, slot := 2, expiry := 200000004, peers := upd (fun p => { p with lostSince := some 199999991 }) l.peers 1 }) (inGroup duty))
    (passDue (pass 0 false) = true ∧ passDue (pass 0 true) = true ∧ passDue (pass 1 true) = true ∧ (pass 1 true).lock.committed = some {} ∧ passDue (now duty) = false) ∧
    (leaseEndDue (held (fun l => { l with expiry := 200000000 })) = true ∧ leaseEndDue (held id) = false) ∧
    (yieldDue (held (fun l => { l with yielding := true, yieldTick := 200000000 })) = true ∧ yieldDue (held id) = false ∧ yieldLost (held id) = false) ∧
    (yieldLost lost = true ∧ yieldDue lost = false ∧ lost.st ≠ .off) := by decide

/-- For LockChangeHandsOverOnFixedTicks. -/
theorem witness_lock_change_ticks :
    let held := fun (k : Nat) => now (withLock (fun l => { l with held := true, expiry := 200000004, change := some (2, k) }) (inGroup duty))
    let fall := fun (s : State) => now (withLock (fun l => { l with claim := some (200000000, 2), claimOk := true, committed := some {} }) s)
    let adopt := now (withLock (fun l => { l with periodDiff := true }) (inGroup (inState .standby)))
    (changeTick 1 (held 199999999) = true ∧ leaseEndDue (held 199999999) = false ∧ changeTick 2 (held 199999998) = true ∧ onDuty (held 199999998).st = true ∧
      changeTick 1 (now duty) = false ∧ changeTick 2 (now duty) = false) ∧
    ((fall (withFrame (fun f => { f with ticEl := 10 ^ 15 - 4000000 }) duty)).frame.ticEl + 4000000 ≤ elNs (fall duty) ∧ (fall duty).lock.cpLoaded = none ∧
      (fall duty).lock.committed = some {} ∧ frameIndex (fall duty) = 200000000 ∧ elNs (fall duty) < (fall duty).frame.ticEl + 4000000) ∧
    (adopt.st = .standby ∧ adopt.lock.periodDiff = true ∧ atTick adopt = true ∧ adopt.frame.tic % 40000000 = 0 ∧ (now duty).st ≠ .standby) := by decide

/-! ### Witnesses: supplies, bring-up, configuration -/

/-- For SuppliesStartAndStopTheModule: 17.000 V and below, 15.999 V, 2 ms of failure. -/
theorem witness_supplies :
    (now State.reset).st = .off ∧ 17000 ≤ Nat.max 0 17000 ∧ Nat.max 16999 16999 < 17000 ∧ Nat.max 15999 0 < 16000 ∧
    ((now duty).st ≠ .off ∧ (now duty).st ≠ .selftest ∧ (now duty).bring.powerFailEl = none) ∧
    ((now (withLock (fun l => { l with held := true }) duty)).lock.held = true ∧ onDuty (now duty).st = true) ∧
    ((10 ^ 15 - 2000000) + 2000000 ≤ elNs (now (withBring (fun b => { b with powerFailEl := some (10 ^ 15 - 2000000) }) duty)) ∧
      elNs (now (withBring (fun b => { b with powerFailEl := some (10 ^ 15 - 1999999) }) duty)) < (10 ^ 15 - 1999999) + 2000000) := by decide

/-- For BringUpStepsEndAsTheirTableSays: a failed PD-AN and SA-A go on, both arrays stay; the bounds of steps 5, 6 and of bring-up. -/
theorem witness_bring_up :
    let st := fun (n : Nat) => now (withBring (fun b => { b with step := n, stepEl := 10 ^ 15 - 8000000000, complete := false, boundFrom := 10 ^ 15 - 105000000000 }) duty)
    let self := now (withBring (fun b => { b with step := 1 }) (inState .selftest))
    let conn := now { withBring (fun b => { b with step := 6, stepEl := 10 ^ 15 - 3000000000 }) (withCfg (fun i => { i with vessel := { i.vessel with thrusters := [{}] }, osc := { i.osc with conns := [{}] } }) duty) with osc := [{}] }
    (self.st = .selftest ∧ self.bring.step = 1 ∧ staysInSelftest (2 ^ 6 + 2 ^ 10) = false ∧ staysInSelftest (2 ^ 6 + 2 ^ 7) = true ∧ (now duty).st ≠ .selftest) ∧
    (onDuty (st 5).st = true ∧ (st 5).bring.step = 5 ∧ (st 5).time.state ≠ .locked ∧ (st 5).bring.stepEl + 8000000000 ≤ elNs (st 5)) ∧
    (conn.bring.step = 6 ∧ allConnsOpen conn = false ∧ conn.bring.stepEl + 3000000000 ≤ elNs conn) ∧ allConnsOpen (now duty) = true ∧
    ((st 5).bring.complete = false ∧ (st 5).bring.boundFrom + bringBound (st 5) ≤ elNs (st 5) ∧ (now duty).bring.complete = true) := by decide

/-- The module in STANDBY with a staging of an image of 512 bytes, of which 256 have arrived, owned by mailbox 1. -/
def staging : State :=
  let s := inState .standby
  { s with cfg := { s.cfg with bank1 := { bytes := zeros 256, state := 1, totalLen := 512 }, owner := some 1, nextOffset := 256 } }

/-- For ConfigurationIsStagedCommittedAndRead, staging: the first and the last part of 512 bytes, a part out of place, a staging of another. -/
theorem witness_stage :
    let pay := fun (o n : Nat) => u32 o ++ u32 512 ++ zeros n
    let at_ := fun (o n : Nat) (s : State) => now (asked (ask 1 wConfigStage (pay o n)) s)
    let other := { staging with cfg := { staging.cfg with owner := some 2 } }
    (turnHolds (at_ 0 256 (inState .standby)) 1 wConfigStage (ask 1 wConfigStage (pay 0 256)) = true ∧ stagingOpen (at_ 0 256 (inState .standby)) = false ∧
      fld (pay 0 256) 4 4 % 4 = 0 ∧ 512 ≤ fld (pay 0 256) 4 4 ∧ 0 + ((pay 0 256).drop 8).length ≤ 512) ∧
    (turnHolds (at_ 256 256 staging) 1 wConfigStage (ask 1 wConfigStage (pay 256 256)) = true ∧ (inactiveBank (at_ 256 256 staging)).state = 1 ∧
      fld (pay 256 256) 0 4 = (at_ 256 256 staging).cfg.nextOffset ∧ (inactiveBank (at_ 256 256 staging)).totalLen = 512 ∧ (at_ 256 256 staging).cfg.owner = some 1) ∧
    (turnHolds (at_ 252 4 staging) 1 wConfigStage (ask 1 wConfigStage (pay 252 4)) = true ∧ fld (pay 252 4) 0 4 ≠ (at_ 252 4 staging).cfg.nextOffset) ∧
    (turnHolds (at_ 0 256 other) 1 wConfigStage (ask 1 wConfigStage (pay 0 256)) = true ∧ stagingOpen (at_ 0 256 other) = true ∧ (at_ 0 256 other).cfg.owner = some 2) ∧
    ((now { duty with cfg := { duty.cfg with grantUntil := some (10 ^ 15) } }).cfg.grantUntil = some (10 ^ 15) ∧ (10 ^ 15 : Nat) ≤ elNs (now duty) ∧ stagingOpen (now duty) = false ∧
      stagingOpen (now staging) = true) := by decide +kernel

/-- For ConfigurationIsStagedCommittedAndRead, commit, abort and read: each state of the inactive bank, the first eight bytes of the digest. -/
theorem witness_commit :
    let bank := fun (n : Nat) => { staging with cfg := { staging.cfg with bank1 := { bytes := zeros 64, state := n, totalLen := 512, verdict := if n = 4 then 5 else 0 } } }
    let exp := (imageDigest (zeros 64)).take 8
    let at_ := fun (cmd : Nat) (p : Bytes) (s : State) => now (asked (ask 1 cmd p) s)
    (∀ n ∈ [0, 1, 2, 3, 4], turnHolds (at_ wConfigCommit exp (bank n)) 1 wConfigCommit (ask 1 wConfigCommit exp) = true ∧ (inactiveBank (at_ wConfigCommit exp (bank n))).state = n ∧
      turnHolds (at_ wConfigAbort [] (bank n)) 1 wConfigAbort (ask 1 wConfigAbort []) = true) ∧
    (turnHolds (at_ wConfigCommit (zeros 8) (bank 3)) 1 wConfigCommit (ask 1 wConfigCommit (zeros 8)) = true ∧ zeros 8 ≠ exp ∧ (ask 1 wConfigCommit exp).payload.take 8 = exp) ∧
    (turnHolds (at_ wConfigCommit exp { bank 3 with st := .active }) 1 wConfigCommit (ask 1 wConfigCommit exp) = true) ∧
    (∀ p ∈ [zeros 8, u8 1 ++ zeros 1 ++ u16 1016 ++ u32 0, u8 2 ++ zeros 1 ++ u16 32 ++ u32 0, u8 2 ++ zeros 1 ++ u16 33 ++ u32 0, u8 3 ++ zeros 1 ++ u16 16 ++ u32 0, u8 4 ++ zeros 7],
      turnHolds (at_ wConfigRead p duty) 1 wConfigRead (ask 1 wConfigRead p) = true) := by decide +kernel

/-- For AnImageIsVerifiedAndTakesEffect. -/
theorem witness_effect :
    let self := now (withBring (fun b => { b with step := 2 }) (inState .selftest))
    let eff := fun (f : Nat) (s : State) => now { s with cfg := { s.cfg with effect := some f } }
    let ver := now { staging with cfg := { staging.cfg with verifying := some 1 } }
    (self.st = .selftest ∧ self.bring.step = 2 ∧ (now duty).cfg.verifying = none ∧ (now State.reset).st = .off) ∧ (ver.st ≠ .off ∧ ver.st ≠ .selftest ∧ ver.cfg.verifying = some 1) ∧
    (∀ s ∈ [duty, inState .standby], (eff (10 ^ 15) s).cfg.effect = some (10 ^ 15) ∧ atTick (eff (10 ^ 15) s) = true ∧ 10 ^ 15 ≤ (eff (10 ^ 15) s).frame.tic) ∧
    (eff (10 ^ 15 + 1) duty).frame.tic < 10 ^ 15 + 1 := by decide

/-! ### Witnesses: CAN and OSC -/

def withSchedule (f : Image.Schedule → Image.Schedule) (s : State) : State := withCfg (fun i => { i with schedule := f i.schedule }) s

/-- For SlotsOpenEndAndComplete: slots of both kinds on controller 4, their window's end to the ns, the safety slot with content and without. -/
theorem witness_slots :
    let cfg := withSchedule (fun c => { c with ctrls := [{}, {}, { mode := 1, safeLen := 14 }, { mode := 1, safeLen := 14 }], slots := [{ ctrl := 3, kind := 1, len := 40 }, { ctrl := 3, kind := 2, len := 24 }] })
      (withCfg (fun i => { i with osc := { i.osc with conns := [{}] } }) duty)
    let u := fun (d : Nat) (m : SlotMsg) => now { withLock (fun l => { l with held := true, expiry := 200000004 }) (withFrame (fun f => { f with tic := 10 ^ 15 - d }) cfg) with
      slots := [m, m], osc := [{ st := 2 }], can := [{}, {}, {}, { safe := { st := 1, content := some [1] } }] }
    let full : SlotMsg := { content := some [0x24], frame := 200000000 }
    (slotDue (u 0 {}) 0 = true ∧ openContent (u 0 {}) 0 = none ∧ slotDue (u 0 {}) 2 = false) ∧
    (slotDue (u 0 full) 0 = true ∧ openContent (u 0 full) 0 = some [0x24] ∧ (slotCfg (u 0 full) 0).kind = 1) ∧
    (slotDue (u 0 full) 1 = true ∧ openContent (u 0 full) 1 = some [0x24] ∧ (slotCfg (u 0 full) 1).kind = 2 ∧ canSends (u 0 full) 3 = true) ∧
    ((slotMsg (u 1000 { st := 1 }) 0).st = 1 ∧ slotStartNs (u 1000 { st := 1 }) 0 0 + 1 * 1000 ≤ nowNs (u 1000 { st := 1 }) ∧
      nowNs (u 999 { st := 1 }) < slotStartNs (u 999 { st := 1 }) 0 0 + 1 * 1000 ∧ removed (u 1000 { st := 1 }) 0 = false ∧
      removed (now (withFrame (fun f => { f with emitSuppressed := true }) (u 1000 { st := 1 }))) 0 = true) ∧
    ((u 0 {}).frame.running = true ∧ onDuty (u 0 {}).st = true ∧ (ctrlCfg (u 0 {}) 3).safeLen ≠ 0 ∧ (canOf (u 0 {}) 3).safe.opened ≠ some (frameIndex (u 0 {})) ∧
      (ctrlCfg (u 0 {}) 3).safeRef = 0 ∧ slotStartNs (u 0 {}) 0 0 ≤ nowNs (u 0 {}) ∧ (canOf (u 0 {}) 2).safe.content = none ∧ (canOf (u 0 {}) 3).safe.content = some [1] ∧
      (canOf (u 0 {}) 3).safe.st ≠ 0 ∧ 3 < (u 0 {}).safety.seq.length ∧
      (ctrlCfg (u 0 {}) 3).mode = 1 ∧ (ctrlCfg (u 0 {}) 0).safeLen = 0) ∧
    ((slotMsg (u 0 { st := 2 }) 0).st ≠ 0 ∧ (slotCfg (u 0 {}) 0).ctrl = 3 ∧ (canOf (u 0 {}) 2).safe.st = 0) := by decide

/-- For CanControllersCountErrorsAndRecover. -/
theorem witness_can_errors :
    let u := now { withSchedule (fun c => { c with ctrls := [{}, { mode := 1 }, { mode := 1, fdEn := 1 }, { mode := 1, busoffHoldMs := 100 }] }) duty with
      can := [{}, { rec_ := 255 }, {}, { st := .busOff, busOffEl := 10 ^ 15 - 100000000, recovering := true }] }
    (canLive u 1 = true ∧ (ctrlCfg u 1).fdEn = 0 ∧ canLive u 0 = false ∧ (ctrlCfg u 2).fdEn ≠ 0) ∧
    ((canOf u 3).st = .busOff ∧ (canOf u 3).busOffEl + (ctrlCfg u 3).busoffHoldMs * 1000000 ≤ elNs u ∧ (canOf u 3).recovering = true ∧ (canOf u 2).st ≠ .busOff) ∧
    (u.st ≠ .off ∧ (now State.reset).st = .off) := by decide

/-- For OscConnectionsOpenTakeAndExpire: a status telegram at sequence 64 and 65, one at the watchdog's limit and after it, a SETUP_ACK with
versions 1 and 2. -/
theorem witness_osc :
    let conn : Image.Conn := { verMax := 1, connId := 1, connId16 := 1 }
    let u := fun (q : OscConn) => now { withCfg (fun i => { i with osc := { i.osc with conns := [{ conn with ctrl := 4 }, conn] } }) duty with osc := [q, q] }
    let opened := fun (d : Nat) => u { st := 2, ver := 2, rxLast := 0, rxEl := 10 ^ 15 - 100000000 - d, rxExpMs := 100 }
    let st := fun (seq : Nat) => telegram 2 5 seq 1 100 (zeros 8)
    let ack := fun (v : Nat) => telegram 1 2 1 1 100 (u8 v ++ zeros 3 ++ u32 1)
    (onDuty (opened 0).st = true ∧ 1 < (opened 0).osc.length ∧ byteAt (st 64) 0 % 16 ≠ 2 ∧ (connOf (opened 0) 1).st = 2) ∧
    (failedCheck (connCfg (opened 0) 1) (connOf (opened 0) 1) (st 64) = none ∧ failedCheck (connCfg (opened 0) 1) (connOf (opened 0) 1) (st 65) = some 4 ∧
      (readTelegram (st 64)).isSome = true ∧ 4 ≤ (connCfg (opened 0) 0).ctrl ∧ (connOf (u {}) 0).st ≠ 2) ∧
    (¬(connOf (opened 0) 1).rxEl + (connOf (opened 0) 1).rxExpMs * 1000000 < elNs (opened 0) ∧
      (connOf (opened 1) 1).rxEl + (connOf (opened 1) 1).rxExpMs * 1000000 < elNs (opened 1) ∧ (connOf (opened 1) 1).watchPending = false) ∧
    ((connOf (u { st := 1 }) 1).st = 1 ∧ (ackOk conn (ack 1)).map (·.2) = some 1 ∧ (ackOk conn (ack 2)).map (·.2) = some 2 ∧ ackOk conn (st 1) = none ∧ conn.verMax < 2) := by
  decide +kernel

/-! ### Witnesses: the safety pair and the field -/

def oneFunc (f : Image.Func) (x : SafetySt) : State :=
  { withCfg (fun i => { i with safety := { i.safety with funcs := [f] } }) duty with safety := { x with running := true } }

/-- For SafetyCycleTripsArmsAndWrites: an armed function with no cause and with one, a reset pulse of 50 ms and of 3 s. -/
theorem witness_safety_cycle :
    let two : InSt := { level := some true, broken := some false }
    let run := now (oneFunc { soMask := 1 } { funcs := [{ st := 1 }], sx := List.replicate 8 two, rdSx := List.replicate 8 two, rdDi := [] })
    let bad := now (oneFunc { soMask := 1 } { funcs := [{ st := 1 }], rdDi := [], latch := [true, false, false, false] })
    let pulse := fun (d : Nat) => now (oneFunc { soMask := 1, resetDi := 32 } { funcs := [{ st := 3 }], rdDi := List.replicate 33 (some false), rdEl := 10 ^ 15
                                                                                resets := List.replicate 33 { level := some true, lowOk := true, highEl := 10 ^ 15 - d } })
    let w := fun (u : State) => edmStep (pairsStep { u with safety := { u.safety with supply := [false, false] } })
    (run.safety.running = true ∧ run.safety.stopped = false ∧ (now duty).safety.running = false) ∧ ((funcOf run 0).st = 1 ∧ tripCause (w run) 0 = none) ∧
    ((funcOf bad 0).st = 1 ∧ tripCause (w bad) 0 ≠ none) ∧
    (∀ d ∈ [50000000, 3000000000], 2 ≤ (funcOf (pulse d) 0).st ∧ rdInput (pulse d) 32 = some false ∧ (nth {} (pulse d).safety.resets 32).level = some true ∧
      (nth {} (pulse d).safety.resets 32).highEl + 50000000 ≤ (pulse d).safety.rdEl ∧ (pulse d).safety.rdEl ≤ (nth {} (pulse d).safety.resets 32).highEl + 3000000000) := by
  decide

theorem witness_no_reset_input : ∀ y, rdInput (now (oneFunc {} { rdDi := [] })) y ≠ some false := fun y h => by
  have e : rdInput (now (oneFunc {} { rdDi := [] })) y = none := by simp [rdInput, nth, oneFunc, now, advance]
  rw [e] at h; exact nomatch h

/-- For SafetyMonitorsActAtOnce: 2 ms without refresh, a discrepancy longer than DISC_MS by 1 ns and of DISC_MS, a reset input high for 3 s and
1 ns, an EDM input that has not answered. -/
theorem witness_monitors :
    let f : Image.Func := { pair := 4, resetDi := 32, edmDi := 1, soMask := 8, discMs := 100 }
    let u := fun (d : Nat) => now (oneFunc f { funcs := [{ st := 1, edmUntil := some (10 ^ 15 - 1 + d) }], so := List.replicate 8 { refreshEl := 10 ^ 15 - 2000000 + d }
                                               pairs := List.replicate 4 { disEl := some (10 ^ 15 - 100000001 + d) }
                                               resets := List.replicate 33 { level := some true, highEl := 10 ^ 15 - 3000000001 + d } })
    ((nth {} (u 0).safety.so 7).refreshEl + 2000000 ≤ elNs (u 0) ∧ elNs (u 1) < (nth {} (u 1).safety.so 7).refreshEl + 2000000) ∧
    ((u 0).safety.running = true ∧ (u 0).st ≠ .off ∧ (nth {} (u 0).safety.pairs 3).disEl = some (10 ^ 15 - 100000001) ∧ discMs (u 0) (3 + 1) = some 100 ∧
      (10 ^ 15 - 100000001) + 100 * 1000000 < elNs (u 0) ∧ elNs (u 1) ≤ (10 ^ 15 - 100000001 + 1) + 100 * 1000000) ∧
    ((nth {} (u 0).safety.resets 32).level = some true ∧ (nth {} (u 0).safety.resets 32).stuck = false ∧ (nth {} (u 0).safety.resets 32).highEl + 3000000000 < elNs (u 0) ∧
      (resetInputs (u 0)).contains 32 = true ∧ ¬(nth {} (u 1).safety.resets 32).highEl + 3000000000 < elNs (u 1)) ∧
    ((funcOf (u 0) 0).edmUntil = some (10 ^ 15 - 1) ∧ (10 ^ 15 - 1 : Nat) ≤ elNs (u 0) ∧ (funcOf (u 0) 0).st = 1 ∧
      (nth ({} : InSt) (u 0).field.di ((funcCfg (u 0) 0).edmDi - 1)).level ≠ some false ∧ elNs (u 2) < 10 ^ 15 - 1 + 2) ∧ (now duty).safety.running = false := by decide

/-- For FieldInputsSuppliesAndOutputs and SamplesAndWordsAreJudgedAtTheirLimits. -/
theorem witness_field :
    let u := fun (q : SupplySt) => now { duty with field := { supply := [q, q], dout := List.replicate 24 { pin := true } } }
    let ok : SupplySt := { goodRun := 4, okEl := some (10 ^ 15 - 100000000), latched := true, armed := true }
    ((u ok).st ≠ .off ∧ ioPowered (u ok).st = true ∧ 1 < (u ok).field.supply.length ∧ 32 ≤ (u ok).field.di.length ∧ diSampling (u ok) 32 = true ∧ ioPowered (now (inState .standby)).st = false) ∧
    (4 ≤ (supplyOf (u ok) 1).goodRun ∧ supplyOk100 (u ok) 1 = true ∧ (supplyOf (u ok) 1).latched = true ∧ (supplyOf (u ok) 1).armed = true) ∧
    ((supplyOf (u { goodRun := 3 }) 1).goodRun < 4 ∧ supplyOk100 (u { okEl := some (10 ^ 15 - 99999999) }) 1 = false ∧ (supplyOf (u {}) 1).latched = false) ∧
    (nth false (measureSupply (elNs (u {})) 11999 (supplyOf (u { below := [9, 9, 1] }) 1)).cond 2 = true ∧ (supplyOf (u { below := [9, 9, 1] }) 1).latched = false) ∧
    (doLevel (u ok) 23 = true ∧ doLevel (now duty) 23 = false ∧ (now State.reset).st = .off) := by decide

/-! ### Witnesses: faults -/

def withSource (code : Nat) (f : FaultSt) (s : State) : State := withFaults (fun x => { x with src := Table.set x.src (faultIndex code) f }) s

/-- For FaultsAreReadAcknowledgedAndReacted: sources 511 and 512, counts 116 and 129, one code and all; a sluice at its tick; 2 s of quiet. -/
theorem witness_faults :
    let at_ := fun (cmd : Nat) (p : Bytes) => now (asked (ask 1 cmd p) { duty with view := some {} })
    let read := fun (a b : Nat) => u16 a ++ u16 b ++ u32 0
    let due := fun (sev : Nat) (bl : List Block) => now (withSource 0x0412 { active := true, pending := true, sev := sev, sluiceTick := some 200000000, blocks := bl } duty)
    let cls := fun (d : Nat) => now (withFaults (fun f => { f with cls := [(4, { inFault := true, lastEl := 10 ^ 15 - 2000000000 + d })] }) duty)
    (∀ p ∈ [read 512 0, read 511 116, read 511 129], turnHolds (at_ wFaultRead p) 1 wFaultRead (ask 1 wFaultRead p) = true) ∧ (at_ wFaultRead (read 511 116)).view = some {} ∧
    (∀ c ∈ [0xFFFF, 0x0412, 0x0001], turnHolds (at_ wFaultAck (u16 c ++ u16 0)) 1 wFaultAck (ask 1 wFaultAck (u16 c ++ u16 0)) = true) ∧
    (defaultSev 0x0001 = none ∧ defaultSev 0x0412 ≠ none ∧ queueSize (now duty).ledger.queue < queueCap) ∧
    ((srcOf (due 2 []) 0x0412).pending = true ∧ (srcOf (due 2 []) 0x0412).withheld = false ∧ (due 2 []).faults.hostStop = false ∧ (srcOf (now duty) 0x0412).pending = false) ∧
    (atTick (due 2 []) = true ∧ sluiceDue (due 2 []) (srcOf (due 2 []) 0x0412) = true ∧ faultIndex 0x0412 ≠ faultIndex 0x1410) ∧
    (sluiceReaction 0x0412 (srcOf (due 2 [.can 1]) 0x0412) = 1 ∧ criticalDue (due 2 [.can 1]) = false ∧ blockNo (.can 1) < (now duty).faults.blkReset.length ∧
      sluiceReaction 0x0412 (srcOf (due 3 []) 0x0412) = 2 ∧ criticalDue (due 3 []) = true) ∧
    (atTick (cls 0) = true ∧ (Table.get {} (cls 0).faults.cls 4).inFault = true ∧ classBusy (cls 0) 4 = false ∧
      (Table.get {} (cls 0).faults.cls 4).lastEl + (cls 0).cfg.img.faultMap.quietMs * 1000000 ≤ elNs (cls 0) ∧
      ¬(Table.get {} (cls 1).faults.cls 4).lastEl + (cls 1).cfg.img.faultMap.quietMs * 1000000 ≤ elNs (cls 1)) := by decide

/-- For BlocksRestartAndMemoryErrorsCount: a reset that is complete, a second one 600 s after the first, 65 corrected words in an hour. -/
theorem witness_blocks :
    let u := now { withFaults (fun f => { f with blkReset := List.replicate 12 true, lastResetA := some (10 ^ 15 - 600000000000), lastResetB := some (10 ^ 15 - 600000000001) }) duty with safety := { running := true } }
    let ecc := fun (n : Nat) => now { withFaults (fun f => { f with ecc := [(10, n)] }) duty with ledger := { opS := 3609 } }
    (resetDue .saA u = true ∧ resetDue .saB u = true ∧ resetDue (.can 3) u = true ∧ resetDue .host u = false) ∧
    (elNs u ≤ (10 ^ 15 - 600000000000) + 600000000000 ∧ ¬elNs u ≤ (10 ^ 15 - 600000000001) + 600000000000 ∧ 3 < u.can.length) ∧
    (u.st ≠ .off ∧ onDuty u.st = true ∧ onDuty (now (inState .standby)).st = false ∧ u.safety.running = true) ∧
    ((ecc 65).cfg.img.faultMap.eccRate < eccHour (ecc 65).ledger.opS (ecc 65).faults.ecc ∧ ¬(ecc 64).cfg.img.faultMap.eccRate < eccHour (ecc 64).ledger.opS (ecc 64).faults.ecc ∧
      (now State.reset).st = .off) := by decide

end Sys2Proof.Tests
end

section
/-! SUPPORT. What ends a service session, the unlock, the lockout and a cached response, and what each of these leaves as it was
(02_mailbox R55, R62, R77, R78). -/

namespace Sys2Proof.Machine

open Sys2Proof.Safety

/-! ### `settle` around an effect -/

theorem settle_noPins (s : State) : noPins (settle s) = noPins s := by
  unfold settle updateFlt
  split <;> rfl

@[simp] theorem boxOf_settle (s : State) (m : Nat) : boxOf (settle s) m = boxOf s m := by
  simp only [boxOf, settle_mb]

/-- A command that settles the result `t` of its effect gives any state that `t` is. -/
theorem gives_of_settle {c : Instr} {s t v : State} (h : exec c s = .next (settle t)) (hv : t = v) : Gives c s v :=
  ⟨settle t, h, by rw [settle_noPins, hv]⟩

/-! ### The end of a session and USB_DETACH -/

/-- A mailbox without its session and what ends with it (R61; 20 R521). -/
def sessionless (b : Mbox) : Mbox := { b with session := none, cache := [], sub := none, window := none }

/-- Losing the staging's owner (03 R94) does not touch the mailboxes. -/
theorem endSession_mb (m : Nat) (s : State) : (endSession m s).mb = (setBox m (sessionless (boxOf s m)) s).mb := by
  unfold endSession
  dsimp only
  split <;> rfl

theorem endSession_length (m : Nat) (s : State) : (endSession m s).mb.boxes.length = s.mb.boxes.length := by
  rw [endSession_mb, setBox_length]

theorem boxOf_endSession {s : State} {m : Nat} (h : m < s.mb.boxes.length) : boxOf (endSession m s) m = sessionless (boxOf s m) := by
  rw [boxOf, endSession_mb]
  exact boxOf_setBox _ h

theorem boxOf_endSession_other {s : State} {m k : Nat} (h : m ≠ k) : boxOf (endSession m s) k = boxOf s k := by
  rw [boxOf, endSession_mb]
  exact boxOf_setBox_other _ h

@[simp] theorem usbDetach_unlock (s : State) : (usbDetach s).mb.unlock = 0 := rfl

/-- The service mailbox after USB is detached has neither a session nor requests. -/
theorem boxOf_usbDetach {s : State} (h : 0 < s.mb.boxes.length) : boxOf (usbDetach s) 0 = { sessionless (boxOf s 0) with queue := [] } := by
  rw [← boxOf_endSession h]
  exact boxOf_setBox _ (by rwa [endSession_length])

theorem boxOf_usbDetach_other {s : State} {k : Nat} (h : 0 ≠ k) : boxOf (usbDetach s) k = boxOf s k :=
  (boxOf_setBox_other _ h).trans (boxOf_endSession_other h)

/-! ### The unlock, the lockout and the tag caches -/

theorem unlockTimeout_late {s : State} (h : s.mb.lastServiceEl + 900000000000 < elNs s) :
    unlockTimeout s = { s with mb := { s.mb with unlock := 0 } } := if_pos h

/-- A request at the deadline is in time (00 R15). -/
theorem unlockTimeout_inTime {s : State} (h : elNs s ≤ s.mb.lastServiceEl + 900000000000) : unlockTimeout s = s :=
  if_neg (Nat.not_lt.mpr h)

theorem lockoutExpiry_over {s : State} {e : Nat} (hl : s.mb.lockoutUntil = some e) (he : e ≤ elNs s) :
    lockoutExpiry s = { s with mb := { s.mb with lockoutUntil := none } } := by
  simp only [lockoutExpiry, hl, if_pos he]

theorem tagExpiry_quiet (m : Nat) (s : State) : quiet (tagExpiry m s) = quiet s := setBox_quiet _ _ _

theorem boxOf_tagExpiry {s : State} {m : Nat} (h : m < s.mb.boxes.length) : boxOf (tagExpiry m s) m =
    { boxOf s m with cache := (boxOf s m).cache.filter (fun c => decide (elNs s ≤ c.stampEl + 2000000000)) } := boxOf_setBox _ h

theorem boxOf_tagExpiry_other {s : State} {m k : Nat} (h : m ≠ k) : boxOf (tagExpiry m s) k = boxOf s k := boxOf_setBox_other _ h

/-! ### The commands -/

theorem execUsbDetach_service (dt : Nat) (s : State) (h : 0 < (advance s dt).mb.boxes.length) :
    ∃ t, exec (.usbDetach dt) s = .next t ∧ (boxOf t 0).session = none ∧ (boxOf t 0).queue = [] ∧ (boxOf t 0).sub = none ∧
      (boxOf t 0).window = none ∧ t.mb.unlock = 0 ∧ ∀ k, k ≠ 0 → boxOf t k = boxOf (advance s dt) k := by
  have hbox : boxOf (settle (usbDetach (advance s dt))) 0 = { sessionless (boxOf (advance s dt) 0) with queue := [] } := by
    rw [boxOf_settle, boxOf_usbDetach h]
  refine ⟨settle (usbDetach (advance s dt)), rfl, ?session, ?queue, ?sub, ?window, ?unlock, fun k hk => ?others⟩
  case unlock => rw [settle_mb, usbDetach_unlock]
  case others => rw [boxOf_settle, boxOf_usbDetach_other hk.symm]
  all_goals simp only [hbox, sessionless]

theorem execTagCacheExpiry_cache (dt m : Nat) (s : State) (h : m < (advance s dt).mb.boxes.length) :
    ∃ t, exec (.tagCacheExpiry dt m) s = .next t ∧ quiet t = quiet (advance s dt) ∧ (∀ k, k ≠ m → boxOf t k = boxOf (advance s dt) k) ∧
      boxOf t m = { boxOf (advance s dt) m with
        cache := (boxOf (advance s dt) m).cache.filter (fun c => decide (elNs (advance s dt) ≤ c.stampEl + 2000000000)) } := by
  refine ⟨settle (tagExpiry m (advance s dt)), rfl, ?quiet, fun k hk => ?others, ?box⟩
  case quiet => rw [settle_quiet, tagExpiry_quiet]
  case others => rw [boxOf_settle, boxOf_tagExpiry_other hk.symm]
  case box => rw [boxOf_settle, boxOf_tagExpiry h]

/-- Settles O11: each command settles one effect, whose own equation gives the clause. -/
theorem serviceAndCacheTimers : Obligations.ServiceAndCacheTimers := by
  intro dt m s u
  refine ⟨execUsbDetach_service dt s, fun hlate => ?late, fun htime => ?inTime, fun e hl he => ?lockout, execTagCacheExpiry_cache dt m s⟩
  case late => exact gives_of_settle rfl (unlockTimeout_late hlate)
  case inTime => exact gives_of_settle rfl (unlockTimeout_inTime htime)
  case lockout => exact gives_of_settle rfl (lockoutExpiry_over hl he)

end Sys2Proof.Machine
end

section
/-! SUPPORT. The invariant of mailboxes, firmware bank, write queue, history and fault sources: what it speaks of, and the shapes of a meaning that
keep it (notes/assumptions/33.md for the bank). -/

namespace Sys2Proof.Safety

open Sys2Proof.Machine

/-- The parts of a state that the invariant speaks of. -/
abbrev invParts (s : State) : List Mbox × List Host.Cell × List Rec × List (Nat × Nat) × Table FaultSt :=
  (s.mb.boxes, s.mb.fwBank, s.ledger.queue, s.frame.history, s.faults.src)

/-- A mailbox within the sizes of 02 R65 and R55. -/
def BoxOk (m : Nat) (b : Mbox) : Prop := b.queue.length ≤ boxCap m ∧ b.cache.length ≤ 64

/-- What an immediate command leaves behind meets the invariant, whether it accepts or fails. -/
def InvReply : Reply → Prop
  | .ok t _ => Inv t
  | .fail t _ => Inv t
  | .refuse _ => True

variable {s t : State}

theorem Inv.box (h : Inv s) (m : Nat) : BoxOk m (boxOf s m) := ⟨h.queues m, h.caches m⟩

/-- The invariant from what its parts are, field by field. -/
theorem inv_of_fields (hn : t.mb.boxes.length = 9) (hb : ∀ m, BoxOk m (boxOf t m)) (hf : Memory.wf t.mb.fwBank = true)
    (hq : queueOk t.ledger) (hh : t.frame.history.length ≤ 64) (hs : Table.sorted t.faults.src = true) : Inv t :=
  ⟨hn, fun m => (hb m).1, fun m => (hb m).2, hf, hq, hh, hs⟩

/-- A state with the parts of one that meets the invariant meets it. -/
theorem Inv.of_parts (h : Inv s) (e : invParts t = invParts s) : Inv t := by
  simp only [invParts, Prod.mk.injEq] at e
  obtain ⟨hboxes, hbank, hqueue, hhist, hsrc⟩ := e
  refine inv_of_fields (by rw [hboxes]; exact h.boxes) (fun m => ?_) (by rw [hbank]; exact h.bank) ?_ (by rw [hhist]; exact h.history)
    (by rw [hsrc]; exact h.sources)
  · rw [boxOf, hboxes]
    exact h.box m
  · rw [queueOk, hqueue]
    exact h.write

/-- Other fault sources, in rising order. -/
theorem Inv.of_src (h : Inv s) (hs : Table.sorted t.faults.src = true)
    (e : invParts t = (s.mb.boxes, s.mb.fwBank, s.ledger.queue, s.frame.history, t.faults.src)) : Inv t :=
  have h' : Inv { s with faults := t.faults } := ⟨h.boxes, h.queues, h.caches, h.bank, h.write, h.history, hs⟩
  h'.of_parts e

/-- Another write queue, within its capacity. -/
theorem Inv.of_queue (h : Inv s) (hq : queueOk t.ledger)
    (e : invParts t = (s.mb.boxes, s.mb.fwBank, t.ledger.queue, s.frame.history, s.faults.src)) : Inv t :=
  have h' : Inv { s with ledger := t.ledger } := ⟨h.boxes, h.queues, h.caches, h.bank, hq, h.history, h.sources⟩
  h'.of_parts e

/-- Another history, within its length. -/
theorem Inv.of_history (h : Inv s) (hh : t.frame.history.length ≤ 64)
    (e : invParts t = (s.mb.boxes, s.mb.fwBank, s.ledger.queue, t.frame.history, s.faults.src)) : Inv t :=
  have h' : Inv { s with frame := t.frame } := ⟨h.boxes, h.queues, h.caches, h.bank, h.write, hh, h.sources⟩
  h'.of_parts e

/-- Another firmware bank, in canonical form. -/
theorem Inv.of_bank (h : Inv s) (hf : Memory.wf t.mb.fwBank = true)
    (e : invParts t = (s.mb.boxes, t.mb.fwBank, s.ledger.queue, s.frame.history, s.faults.src)) : Inv t :=
  have h' : Inv { s with mb := { s.mb with fwBank := t.mb.fwBank } } :=
    ⟨h.boxes, h.queues, h.caches, hf, h.write, h.history, h.sources⟩
  h'.of_parts e

/-- Other mailboxes, within their sizes. -/
theorem Inv.of_boxes (h : Inv s) (hn : t.mb.boxes.length = 9) (hb : ∀ m, BoxOk m (boxOf t m))
    (e : invParts t = (t.mb.boxes, s.mb.fwBank, s.ledger.queue, s.frame.history, s.faults.src)) : Inv t :=
  have h' : Inv { s with mb := { s.mb with boxes := t.mb.boxes } } := inv_of_fields hn hb h.bank h.write h.history h.sources
  h'.of_parts e

theorem nth_replicate_default {α : Type} (d : α) (n m : Nat) : nth d (List.replicate n d) m = d := by
  induction n generalizing m with
  | zero => rfl
  | succ n ih => cases m with
    | zero => rfl
    | succ m => exact ih m

/-- A state whose mailboxes, write queue, history and sources are those of a start. -/
theorem inv_fresh (hf : Memory.wf t.mb.fwBank = true)
    (e : invParts t = (List.replicate 9 {}, t.mb.fwBank, [], [], [])) : Inv t := by
  have h0 : Inv { (State.reset) with mb := { fwBank := t.mb.fwBank } } := by
    refine inv_of_fields rfl (fun m => ?_) hf (Nat.zero_le _) (Nat.zero_le _) rfl
    rw [boxOf, nth_replicate_default]
    exact ⟨Nat.zero_le _, Nat.zero_le _⟩
  exact h0.of_parts e

/-! ### Fields that the invariant does not speak of -/

theorem inv_with_st {x : ModState} (h : Inv s) : Inv { s with st := x } := h.of_parts rfl
theorem inv_with_time {x : TimeSt} (h : Inv s) : Inv { s with time := x } := h.of_parts rfl
theorem inv_with_intake {x : IntakeSt} (h : Inv s) : Inv { s with intake := x } := h.of_parts rfl
theorem inv_with_analog {x : AnalogSt} (h : Inv s) : Inv { s with analog := x } := h.of_parts rfl
theorem inv_with_fusion {x : FusionSt} (h : Inv s) : Inv { s with fusion := x } := h.of_parts rfl
theorem inv_with_obs {x : ObsSt} (h : Inv s) : Inv { s with obs := x } := h.of_parts rfl
theorem inv_with_solver {x : SolverSt} (h : Inv s) : Inv { s with solver := x } := h.of_parts rfl
theorem inv_with_bring {x : BringSt} (h : Inv s) : Inv { s with bring := x } := h.of_parts rfl
theorem inv_with_osc {x : List OscConn} (h : Inv s) : Inv { s with osc := x } := h.of_parts rfl

/-! ### Shapes of a meaning -/

theorem inv_ite {c : Prop} [Decidable c] (hs : Inv s) (ht : Inv t) : Inv (if c then s else t) := by
  split
  · exact hs
  · exact ht

/-- What is done only on a condition, to a state that meets the invariant anyway. -/
theorem inv_when {c : Prop} [Decidable c] (h : Inv s) (ht : Inv s → Inv t) : Inv (if c then t else s) := inv_ite (ht h) h

/-- What is done unless a condition holds. -/
theorem inv_unless {c : Prop} [Decidable c] (h : Inv s) (ht : Inv s → Inv t) : Inv (if c then s else t) := inv_ite h (ht h)

theorem inv_foldl {α : Type} {f : State → α → State} {xs : List α} (hf : ∀ t a, Inv t → Inv (f t a)) (h : Inv s) :
    Inv (xs.foldl f s) := by
  induction xs generalizing s with
  | nil => exact h
  | cons a r ih => exact ih (hf s a h)

theorem invReply_ite {c : Prop} [Decidable c] {a b : Reply} (ha : InvReply a) (hb : InvReply b) : InvReply (if c then a else b) := by
  split
  · exact ha
  · exact hb

/-- A check that refuses comes before what a command does. -/
theorem invReply_guard {c : Prop} [Decidable c] {e : Err} {b : Reply} (hb : InvReply b) : InvReply (if c then .refuse e else b) :=
  invReply_ite trivial hb

end Sys2Proof.Safety
end

section
/-! SUPPORT. What is sent, recorded and raised keeps the invariant (12 R322 to R336; 19 R488 to R505; 20 R517, R518). -/

namespace Sys2Proof.Machine

open Sys2Proof.Safety

variable {s : State}

/-! ### Time, sending, the write queue -/

theorem inv_emitAll {os : List Out} (h : Safety.Inv s) : Safety.Inv (emitAll os s) := h.of_parts rfl

/-- An occurrence is queued within the queue's capacity (20 R518). -/
theorem inv_recordRaw {r : Rec} (h : Safety.Inv s) (hr : r.fault = true → r.size = 1) : Safety.Inv (recordRaw r s) := by
  have hq : queueOk (s.ledger.enqueue (stampRec s r)) := enqueue_queueOk h.write hr
  unfold recordRaw
  split
  · exact h
  · exact h.of_queue hq rfl

theorem inv_nextFree (h : Safety.Inv s) : Safety.Inv (nextFree s) := h.of_parts rfl

theorem tick_queue (l : LedgerSt) (d : Nat) : (l.tick d).queue = l.queue := by
  unfold LedgerSt.tick
  split <;> rfl

theorem inv_advance {d : Nat} (h : Safety.Inv s) : Safety.Inv (advance s d) := h.of_parts (by simp only [invParts, advance, tick_queue])

theorem inv_emit {o : Out} (h : Safety.Inv s) : Safety.Inv (emit o s) := h.of_parts rfl

/-! ### Rafoger messages and the lease -/

theorem inv_sendRaf {type frame : Nat} {body : Bytes} (h : Safety.Inv s) : Safety.Inv (sendRaf type frame body s) := inv_emitAll (h.of_parts rfl)

theorem inv_sendRelease {frame expiry : Nat} (h : Safety.Inv s) : Safety.Inv (sendRelease frame expiry s) := inv_sendRaf h

theorem inv_releaseBetweenTicks (h : Safety.Inv s) : Safety.Inv (releaseBetweenTicks s) := inv_ite ((inv_sendRelease h).of_parts rfl) h

theorem inv_releaseAtTick (h : Safety.Inv s) : Safety.Inv (releaseAtTick s) := inv_ite ((inv_sendRelease h).of_parts rfl) h

/-! ### Events and faults -/

theorem inv_updateFlt (h : Safety.Inv s) : Safety.Inv (updateFlt s) := inv_ite (h.of_parts rfl) h

theorem inv_settle (h : Safety.Inv s) : Safety.Inv (settle s) := (inv_updateFlt h).of_parts rfl

theorem inv_mokAtTick (h : Safety.Inv s) : Safety.Inv (mokAtTick s) := h.of_parts rfl

theorem inv_evRaw {code : Nat} {data : Bytes} (h : Safety.Inv s) : Safety.Inv (evRaw code data s) := inv_recordRaw h (fun hf => nomatch hf)

theorem inv_setSrc {code : Nat} {f : FaultSt} (h : Safety.Inv s) : Safety.Inv (setSrc code f s) := h.of_src (Table.sorted_set _ _ _ h.sources) rfl

theorem inv_demandReset (h : Safety.Inv s) : Safety.Inv (demandReset s) := h.of_parts rfl

theorem inv_surrender (h : Safety.Inv s) : Safety.Inv (surrender s) := inv_demandReset (inv_releaseBetweenTicks <| inv_ite (inv_evRaw h) h)

theorem inv_holdBlock {code : Nat} {b : Block} (h : Safety.Inv s) : Safety.Inv (holdBlock code b s) := h.of_parts rfl

theorem inv_resetAtRaise {code : Nat} {b : Block} (h : Safety.Inv s) : Safety.Inv (resetAtRaise code b s) := by
  dsimp only [resetAtRaise]
  split
  · exact inv_surrender h
  · exact inv_holdBlock h

theorem inv_directReact {code : Nat} {blks : List Block} (h : Safety.Inv s) : Safety.Inv (directReact code blks s) :=
  inv_ite (inv_foldl (fun _ _ h1 => inv_resetAtRaise h1) h) <| inv_ite (inv_surrender h) h

theorem inv_assertFlt {code : Nat} (h : Safety.Inv s) : Safety.Inv (assertFlt code s) := inv_ite (h.of_parts rfl) h

theorem inv_touchClass {c : Nat} (h : Safety.Inv s) : Safety.Inv (touchClass c s) := h.of_parts rfl

/-- The record of a raise takes one place (20 R512). -/
theorem raiseRec_size (s : State) (code : Nat) : (raiseRec s code).size = 1 := rfl

theorem inv_raiseCore {code : Nat} {oneShot : Bool} {blks : List Block} (h : Safety.Inv s) : Safety.Inv (raiseCore code oneShot blks s) := by
  have hrec : Safety.Inv (recordRaw (raiseRec s code) s) := inv_recordRaw h (fun _ => raiseRec_size s code)
  unfold raiseCore
  split
  · exact h
  · exact inv_directReact (inv_assertFlt (inv_touchClass (inv_setSrc (inv_when hrec inv_evRaw))))

theorem inv_lossCheck {before : Nat} (h : Safety.Inv s) : Safety.Inv (lossCheck before s) := inv_ite (inv_raiseCore h) h

theorem inv_faultSet {code : Nat} {on : Bool} {blks : List Block} (h : Safety.Inv s) : Safety.Inv (faultSet code on blks s) :=
  inv_ite (inv_ite h (inv_lossCheck (inv_raiseCore h))) <| inv_ite (inv_setSrc h) h

theorem inv_faultCond {code : Nat} {on : Bool} (h : Safety.Inv s) : Safety.Inv (faultCond code on s) := inv_faultSet h

theorem inv_event {code : Nat} {data : Bytes} (h : Safety.Inv s) : Safety.Inv (event code data s) := inv_lossCheck (inv_evRaw h)

theorem inv_faultShot {code : Nat} {blks : List Block} (h : Safety.Inv s) : Safety.Inv (faultShot code blks s) :=
  inv_ite h (inv_lossCheck (inv_raiseCore h))

theorem inv_faultOnce {code : Nat} (h : Safety.Inv s) : Safety.Inv (faultOnce code s) := inv_faultShot h

theorem inv_degrade {bit : Nat} (h : Safety.Inv s) : Safety.Inv (degrade bit s) := inv_unless (h.of_parts rfl) inv_event

end Sys2Proof.Machine
end

section
/-! SUPPORT. Mailboxes keep their sizes: a turn answers requests and never adds one, a response enters a cache of 64, and a request is queued only while
there is room (02 R53, R55, R65, R66). -/

namespace Sys2Proof.Machine

open Sys2Proof.Safety

variable {s : State}

/-! ### Turns, responses, arrival -/

theorem upd_ge {α : Type} (f : α → α) : ∀ (l : List α) (i : Nat), l.length ≤ i → upd f l i = l
  | [], _, _ => rfl
  | x :: r, i + 1, h => congrArg (x :: ·) (upd_ge f r i (Nat.le_of_succ_le_succ h))

/-- Writing a mailbox that meets its sizes. -/
theorem inv_setBox {m : Nat} {b : Mbox} (h : Safety.Inv s) (hb : BoxOk m b) : Safety.Inv (setBox m b s) := by
  refine h.of_boxes ((setBox_length m b s).trans h.boxes) (fun k => ?_) rfl
  by_cases hk : m = k
  · subst hk
    by_cases hm : m < s.mb.boxes.length
    · rwa [boxOf_setBox _ hm]
    · rw [boxOf, setBox_mb, upd_ge _ _ _ (Nat.le_of_not_lt hm)]
      exact h.box m
  · rw [boxOf_setBox_other _ hk]
    exact h.box k

/-- A mailbox whose queue and cache are no longer than before. -/
theorem boxOk_mono {m : Nat} {b c : Mbox} (h : BoxOk m b) (hq : c.queue.length ≤ b.queue.length) (hc : c.cache.length ≤ b.cache.length) :
    BoxOk m c :=
  ⟨Nat.le_trans hq h.1, Nat.le_trans hc h.2⟩

/-- The cache keeps the last 64 responses (R55). -/
theorem boxOk_cacheAdd {m : Nat} {b : Mbox} {r : Request} {msg : Bytes} (h : BoxOk m b) : BoxOk m (cacheAdd r msg b) := by
  refine ⟨h.1, ?_⟩
  simp only [cacheAdd, List.length_reverse, List.length_take]
  exact Nat.min_le_left ..

theorem answerFirst_length (f : Request → Bool) (g : Request → Request) (q : List Request) :
    (answerFirst f g q).length = q.length := by
  induction q with
  | nil => rfl
  | cons r q ih =>
    unfold answerFirst
    split
    · rfl
    · exact congrArg (· + 1) ih

theorem flushQueue_rest_length (q : List Request) : (flushQueue q).2.length ≤ q.length := by
  induction q with
  | nil => exact Nat.le_refl _
  | cons r q ih =>
    unfold flushQueue
    split
    · exact Nat.le_succ_of_le ih
    · exact Nat.le_refl _

/-- Answering a request of a mailbox. -/
theorem boxOk_answerFirst {m : Nat} {b : Mbox} {f : Request → Bool} {g : Request → Request} (h : BoxOk m b) :
    BoxOk m { b with queue := answerFirst f g b.queue } :=
  boxOk_mono h (Nat.le_of_eq (answerFirst_length f g b.queue)) (Nat.le_refl _)

/-- Changing every request of a mailbox. -/
theorem boxOk_map {m : Nat} {b : Mbox} {g : Request → Request} (h : BoxOk m b) : BoxOk m { b with queue := b.queue.map g } :=
  boxOk_mono h (Nat.le_of_eq (List.length_map g)) (Nat.le_refl _)

theorem inv_sendTo {r : Request} {msg : Bytes} (h : Safety.Inv s) : Safety.Inv (sendTo r msg s) := inv_emit h

theorem inv_flushBox {m : Nat} (h : Safety.Inv s) : Safety.Inv (flushBox m s) := by
  have hrest : BoxOk m { boxOf s m with queue := (flushQueue (boxOf s m).queue).2 } :=
    boxOk_mono (h.box m) (flushQueue_rest_length _) (Nat.le_refl _)
  have hcached : ∀ (rs : List Request) (b : Mbox), BoxOk m b → BoxOk m (rs.foldl (fun x r => cacheAdd r (r.answer.getD []) x) b) := by
    intro rs
    induction rs with
    | nil => exact fun _ hb => hb
    | cons r rs ih => exact fun b hb => ih _ (boxOk_cacheAdd hb)
  exact inv_foldl (fun _ _ ht => inv_sendTo ht) (inv_setBox h (hcached _ _ hrest))

theorem inv_pump {m : Nat} (n : Nat) (h : Safety.Inv s) : Safety.Inv (pump n m s) := by
  induction n generalizing s with
  | zero => exact h
  | succ n ih =>
    unfold pump
    dsimp only
    split
    · exact h
    · split
      · exact h
      · exact ih (inv_setBox h (boxOk_answerFirst (h.box m)))

theorem inv_serve {m : Nat} (h : Safety.Inv s) : Safety.Inv (serve m s) := inv_flushBox (inv_pump 6 h)

theorem inv_refuseNow {e : Err} {r : Request} (h : Safety.Inv s) : Safety.Inv (refuseNow e r s) :=
  inv_sendTo (inv_setBox h (boxOk_cacheAdd (h.box r.mbox)))

/-- `refuseFull` with the length of its window as a variable: unfolded at the number itself, the kernel counts it down one by one. -/
def refuseFullIn (window : Nat) (r : Request) (s : State) : State :=
  let b := boxOf s r.mbox
  let (st0, n) := if b.fullStartEl + window ≤ elNs s ∨ b.fullCount = 0 then (elNs s, 0) else (b.fullStartEl, b.fullCount)
  if 100 ≤ n then
    { s with mb := { s.mb with queueDrops := Nat.min 0xFFFFFFFF (s.mb.queueDrops + 1) } }
  else refuseNow { code := 0x000C } r (setBox r.mbox { b with fullStartEl := st0, fullCount := n + 1 } s)

theorem refuseFull_eq (r : Request) (s : State) : refuseFull r s = refuseFullIn 1000000000 r s := rfl

theorem inv_refuseFullIn {window : Nat} {r : Request} (h : Safety.Inv s) : Safety.Inv (refuseFullIn window r s) := by
  unfold refuseFullIn
  extract_lets b
  split
  exact inv_ite (h.of_parts rfl) (inv_refuseNow (inv_setBox h (h.box r.mbox)))

theorem inv_refuseFull {r : Request} (h : Safety.Inv s) : Safety.Inv (refuseFull r s) := by
  rw [refuseFull_eq]
  exact inv_refuseFullIn h

/-- A request enters the queue only while there is room (R65). -/
theorem inv_acceptRequest {r : Request} (h : Safety.Inv s) : Safety.Inv (acceptRequest r s) := by
  have haged : Safety.Inv (setBox r.mbox (cacheAge (elNs s) (boxOf s r.mbox)) s) :=
    inv_setBox h (boxOk_mono (h.box r.mbox) (Nat.le_refl _) (List.length_filter_le ..))
  unfold acceptRequest
  extract_lets u b
  have hu : Safety.Inv u := haged
  split
  · exact inv_sendTo hu
  · refine inv_ite hu (inv_ite ?reused (inv_ite (inv_refuseNow hu) ?queued))
    case reused =>
      split
      · exact inv_sendTo hu
      · exact inv_sendTo hu
    case queued =>
      split
      · exact inv_refuseFull hu
      · rename_i hroom
        refine inv_serve (inv_setBox hu ⟨?_, (hu.box r.mbox).2⟩)
        rw [List.length_append]
        exact Nat.lt_of_not_le hroom

theorem inv_arrive {port : HostPort} {src : Src} {dst : IpDst} {m : Bytes} (h : Safety.Inv s) : Safety.Inv (arrive port src dst m s) := by
  refine inv_ite ?_ h
  split
  · exact h.of_parts rfl
  · exact h.of_parts rfl
  · exact inv_acceptRequest <| inv_ite (h.of_parts rfl) h

theorem inv_answerTurn {m : Nat} {msg : Bytes} (h : Safety.Inv s) : Safety.Inv (answerTurn m msg s) := inv_setBox h (boxOk_answerFirst (h.box m))

theorem invReply_judgeReply {late : Option Err} {y : Reply} (h : InvReply y) : InvReply (judgeReply late y) := by
  unfold judgeReply
  split
  · exact invReply_ite trivial trivial
  · trivial
  · trivial
  · exact h

/-- An immediate command keeps the invariant when its own effect does. -/
theorem inv_runImmediate {word m : Nat} {f : Request → State → Reply} (hf : ∀ r, InvReply (f r s)) (h : Safety.Inv s) :
    Safety.Inv (runImmediate word f m s) := by
  unfold runImmediate
  split
  · exact h
  · rename_i r _
    split
    · exact inv_serve (inv_answerTurn h)
    · have hy := invReply_judgeReply (late := expiryCheck r (nowNs s)) (hf r)
      split
      · exact inv_serve (inv_answerTurn h)
      · rename_i hj
        rw [hj] at hy
        exact inv_serve (inv_answerTurn hy)
      · rename_i hj
        rw [hj] at hy
        exact inv_serve (inv_answerTurn hy)

end Sys2Proof.Machine
end

section
/-! SUPPORT. The Ledger, the clock and the timebase keep the invariant (14; 20). -/

namespace Sys2Proof.Machine

open Sys2Proof.Safety

variable {s : State}

/-! ### The Ledger's writer, its window and its counters -/

theorem invReply_cmdLedgerWindow {r : Request} (h : Safety.Inv s) : InvReply (cmdLedgerWindow r s) :=
  invReply_guard <| invReply_guard <| invReply_guard <| invReply_guard <| inv_setBox h (h.box r.mbox)

theorem invReply_cmdLedgerRead {readErr : List Nat} {r : Request} (h : Safety.Inv s) : InvReply (cmdLedgerRead readErr r s) := by
  unfold cmdLedgerRead
  dsimp only
  split
  · trivial
  · exact invReply_guard <| inv_when (inv_setBox h (h.box r.mbox)) inv_faultOnce

theorem inv_drainQueue (h : Safety.Inv s) : Safety.Inv (drainQueue s) := h.of_queue (Nat.zero_le _) rfl

theorem inv_reportLoss (h : Safety.Inv s) : Safety.Inv (reportLoss s) := inv_ite (inv_event (h.of_parts rfl)) h

theorem write_queue (l : LedgerSt) (r : Rec) : (l.write r).queue = l.queue := by
  unfold LedgerSt.write
  split
  · split <;> rfl
  · rfl

/-- The writer takes the oldest occurrence off the queue (20 R517). -/
theorem inv_writeRecord {failedTwice : Bool} (h : Safety.Inv s) : Safety.Inv (writeRecord failedTwice s) := by
  unfold writeRecord
  split
  · exact h
  · exact h
  · rename_i r q hq _
    have hsize : queueOk { s.ledger with queue := q } := by
      have := h.write
      rw [hq, queueSize] at this
      exact Nat.le_trans (Nat.le_add_left ..) this
    have htaken : Safety.Inv { s with ledger := { s.ledger with queue := q } } := h.of_queue hsize rfl
    refine inv_ite (inv_reportLoss (inv_lossCheck (inv_faultOnce (htaken.of_parts rfl)))) (inv_reportLoss ?_)
    exact htaken.of_parts (by simp only [invParts, write_queue])

theorem inv_saveOp (h : Safety.Inv s) : Safety.Inv (saveOp s) := inv_ite (h.of_parts rfl) h

/-! ### The real-time clock -/

theorem inv_fireAlarm {i : Nat} {skipped : Bool} (h : Safety.Inv s) : Safety.Inv (fireAlarm i skipped s) := inv_event (h.of_parts rfl)

theorem inv_alarmsAtLoad {old : Cal} (h : Safety.Inv s) : Safety.Inv (alarmsAtLoad old s) :=
  inv_foldl (fun _ _ h1 => inv_ite (inv_fireAlarm h1) <| inv_ite (inv_fireAlarm h1) h1) h

theorem inv_loadCal {who : Nat} {c : Cal} {subEl : Nat} (h : Safety.Inv s) : Safety.Inv (loadCal who c subEl s) :=
  inv_alarmsAtLoad (inv_event (h.of_parts rfl))

theorem inv_opSnap (h : Safety.Inv s) : Safety.Inv (opSnap s) := h.of_parts rfl

theorem inv_opCommit (h : Safety.Inv s) : Safety.Inv (opCommit s) := inv_ite (inv_loadCal (h.of_parts rfl)) h

theorem inv_opStatus {v : Nat} (h : Safety.Inv s) : Safety.Inv (opStatus v s) := inv_ite (inv_faultCond (h.of_parts rfl)) h

theorem inv_opStDate {v : Nat} (h : Safety.Inv s) : Safety.Inv (opStDate v s) := h.of_parts rfl

theorem inv_opStTime {v : Nat} (h : Safety.Inv s) : Safety.Inv (opStTime v s) := h.of_parts rfl

theorem inv_opRaw {ofs v : Nat} (h : Safety.Inv s) : Safety.Inv (opRaw ofs v s) :=
  inv_ite (inv_opSnap h) <| inv_ite (inv_opCommit h) <| inv_ite (inv_opStatus h) <| inv_ite (inv_opStDate h) <| inv_ite
    (inv_opStTime h) <| inv_ite (h.of_parts rfl) h

theorem invReply_cmdTimeSet {r : Request} (h : Safety.Inv s) : InvReply (cmdTimeSet r s) := by
  refine invReply_ite ?_ <| invReply_ite (invReply_guard (invReply_guard (inv_opRaw h))) trivial
  split
  · exact trivial
  · exact invReply_guard (inv_loadCal h)

theorem inv_unlessFollowing {f : State → State} (hf : Safety.Inv s → Safety.Inv (f s)) (h : Safety.Inv s) : Safety.Inv (unlessFollowing f s) := inv_unless h hf

theorem inv_rawPlain {ofs v : Nat} (h : Safety.Inv s) : Safety.Inv (rawPlain ofs v s) := inv_ite h (inv_opRaw h)

theorem invReply_cmdAlarmSet {r : Request} (h : Safety.Inv s) : InvReply (cmdAlarmSet r s) := by
  refine invReply_guard (invReply_guard ?_)
  split
  · exact invReply_guard (h.of_parts rfl)
  · exact invReply_ite (h.of_parts rfl) (invReply_guard (invReply_guard (h.of_parts rfl)))

theorem inv_alarmsAtCarry (h : Safety.Inv s) : Safety.Inv (alarmsAtCarry s) := inv_foldl (fun _ _ h1 => inv_ite (inv_fireAlarm h1) h1) h

theorem inv_secondCarry (h : Safety.Inv s) : Safety.Inv (secondCarry s) := inv_ite (inv_alarmsAtCarry (h.of_parts rfl)) h

theorem inv_oscStop (h : Safety.Inv s) : Safety.Inv (oscStop s) := inv_faultCond (h.of_parts rfl)

theorem inv_bkReset (h : Safety.Inv s) : Safety.Inv (bkReset s) := by
  dsimp only [bkReset]
  split
  · exact h.of_parts rfl
  · exact h

theorem inv_followCheck (h : Safety.Inv s) : Safety.Inv (followCheck s) := inv_ite (inv_loadCal h) h

/-! ### Steps of bring-up -/

theorem inv_endStep {n : Nat} (h : Safety.Inv s) : Safety.Inv (endStep n s) := inv_event (h.of_parts rfl)

theorem inv_note7 (h : Safety.Inv s) : Safety.Inv (note7 s) := inv_ite (inv_event (h.of_parts rfl)) h

theorem inv_advance7 (h : Safety.Inv s) : Safety.Inv (advance7 s) := inv_ite (h.of_parts rfl) h

theorem inv_advance6 (h : Safety.Inv s) : Safety.Inv (advance6 s) := inv_ite (inv_endStep h) h

theorem inv_advance5 (h : Safety.Inv s) : Safety.Inv (advance5 s) := inv_ite (inv_endStep h) h

theorem inv_lockFault (h : Safety.Inv s) : Safety.Inv (lockFault s) := inv_ite (inv_faultCond h) h

theorem inv_bringProgress (h : Safety.Inv s) : Safety.Inv (bringProgress s) :=
  inv_when (inv_note7 h) fun h1 => inv_advance7 (inv_advance6 (inv_advance5 (inv_lockFault h1)))

/-! ### The timebase -/

theorem inv_markLate {t0 t1 : Nat} (h : Safety.Inv s) : Safety.Inv (markLate t0 t1 s) := h.of_parts rfl

theorem nth_map {α : Type} (d : α) (g : α → α) (hg : g d = d) : ∀ (l : List α) (m : Nat), nth d (l.map g) m = g (nth d l m)
  | [], _ => hg.symm
  | _ :: _, 0 => rfl
  | _ :: r, m + 1 => nth_map d g hg r m

/-- Instants of decided requests move; the requests stay (02 R69). -/
theorem inv_moveDecided {d : Int} (h : Safety.Inv s) : Safety.Inv (moveDecided d s) := by
  refine h.of_boxes ((List.length_map _).trans h.boxes) (fun m => ?_) rfl
  unfold boxOf moveDecided
  dsimp only
  rw [nth_map _ _ rfl]
  exact boxOk_map (h.box m)

theorem inv_timeFaults (h : Safety.Inv s) : Safety.Inv (timeFaults s) := inv_when (inv_faultCond (inv_faultCond (inv_faultCond h))) inv_faultCond

theorem inv_setTb {t : TbState} (h : Safety.Inv s) : Safety.Inv (setTb t s) := inv_ite h (inv_timeFaults (inv_event (h.of_parts rfl)))

theorem inv_timebaseStep (h : Safety.Inv s) : Safety.Inv (timebaseStep s) := by
  dsimp only [timebaseStep]
  split
  · exact h
  · exact inv_ite (inv_timeFaults <| inv_when (inv_event (inv_event (inv_markLate (inv_moveDecided (h.of_parts rfl))))) fun h1 =>
      inv_setTb (h1.of_parts rfl)) h

theorem inv_trigPulse {n : Nat} (h : Safety.Inv s) : Safety.Inv (trigPulse n s) := by
  refine inv_ite h <| inv_ite (inv_ite (h.of_parts rfl) h) ?_
  extract_lets t
  split
  · exact inv_ite (h.of_parts rfl) h
  · exact h

theorem inv_trigEnd {n : Nat} (h : Safety.Inv s) : Safety.Inv (trigEnd n s) := inv_ite (h.of_parts rfl) h

theorem inv_setAddend {a : Int} (h : Safety.Inv s) : Safety.Inv (setAddend a s) := h.of_parts rfl

theorem inv_loseSources_hold {e : Nat} {g : Bool} (h : Safety.Inv s) : Safety.Inv (loseSources.hold e g s) := by
  refine inv_timeFaults (inv_setTb ?_)
  split
  · exact (h.of_parts rfl).of_parts rfl
  · exact inv_setAddend (h.of_parts rfl)

theorem inv_loseSources (h : Safety.Inv s) : Safety.Inv (loseSources s) := by
  dsimp only [loseSources]
  split
  · exact inv_loseSources_hold (h.of_parts rfl)
  · exact inv_ite (inv_loseSources_hold (h.of_parts rfl)) (inv_timeFaults (inv_setTb (h.of_parts rfl)))
  · exact inv_timeFaults (h.of_parts rfl)

theorem inv_reselect (h : Safety.Inv s) : Safety.Inv (reselect s) := by
  refine inv_ite h ?_
  split
  · exact inv_loseSources h
  · exact inv_ite (inv_event (h.of_parts rfl)) (inv_setTb (h.of_parts rfl))

theorem invReply_cmdTimeRead {r : Request} (h : Safety.Inv s) : InvReply (cmdTimeRead r s) := invReply_guard h

theorem inv_queueStep {theta : Int} (h : Safety.Inv s) : Safety.Inv (queueStep theta s) := h.of_parts rfl

theorem inv_moveCal {ms : Int} (h : Safety.Inv s) : Safety.Inv (moveCal ms s) := inv_loadCal h

theorem invReply_cmdTimeAdjust {r : Request} (h : Safety.Inv s) : InvReply (cmdTimeAdjust r s) := by
  unfold cmdTimeAdjust
  dsimp only
  refine invReply_guard <| invReply_ite (invReply_guard ?_) <| invReply_ite (invReply_guard (invReply_guard (inv_moveCal h)))
    (invReply_guard <| invReply_ite (h.of_parts rfl) trivial)
  split
  · exact inv_timeFaults (inv_queueStep (h.of_parts rfl))
  · exact h.of_parts rfl

theorem inv_applyUtc (h : Safety.Inv s) : Safety.Inv (applyUtc s) := inv_unless (h.of_parts rfl) inv_event

theorem inv_judgeLock {theta : Int} (h : Safety.Inv s) : Safety.Inv (judgeLock theta s) := by
  dsimp only [judgeLock]
  split
  · exact inv_when (h.of_parts rfl) inv_setTb
  · exact inv_when (h.of_parts rfl) inv_setTb
  · exact h.of_parts rfl

theorem inv_slew {theta : Int} (h : Safety.Inv s) : Safety.Inv (slew theta s) := h.of_parts rfl

theorem inv_correct_duty {theta : Int} {a : Nat} (h : Safety.Inv s) : Safety.Inv (correct.duty theta a s) :=
  inv_ite (inv_slew (h.of_parts rfl)) <| inv_ite (inv_queueStep h) (inv_slew (h.of_parts rfl))

theorem inv_correct {theta : Int} (h : Safety.Inv s) : Safety.Inv (correct theta s) := by
  dsimp only [correct]
  split
  · exact h
  · exact h.of_parts rfl
  · exact inv_correct_duty h
  · exact inv_correct_duty h
  · exact inv_ite (inv_slew ((h.of_parts rfl).of_parts rfl)) (inv_queueStep (h.of_parts rfl))

theorem inv_measure {theta : Int} (h : Safety.Inv s) : Safety.Inv (measure theta s) := by
  unfold measure
  dsimp only
  refine inv_bringProgress (inv_timeFaults ?_)
  split
  · exact inv_with_time (inv_judgeLock (h.of_parts rfl))
  · exact inv_correct <| inv_unless (inv_judgeLock (h.of_parts rfl)) inv_setAddend

theorem inv_setPort {p : Nat} {q : PtpPort} (h : Safety.Inv s) : Safety.Inv (setPort p q s) := h.of_parts rfl

theorem inv_firstTime {theta : Int} (h : Safety.Inv s) : Safety.Inv (firstTime theta s) := inv_when (h.of_parts rfl) inv_setTb

theorem inv_syncDone {p : Nat} {t1 t2 : Int} (h : Safety.Inv s) : Safety.Inv (syncDone p t1 t2 s) :=
  inv_ite (inv_firstTime (inv_setPort h)) <| inv_when (inv_setPort h) inv_measure

theorem inv_delayDone {p : Nat} {d : Int} (h : Safety.Inv s) : Safety.Inv (delayDone p d s) := inv_applyUtc (inv_reselect (inv_setPort h))

theorem inv_ptpReceive {p : Nat} {m : PtpMsg} (h : Safety.Inv s) : Safety.Inv (ptpReceive p m s) := by
  refine inv_ite h ?_
  split
  · exact inv_ite (inv_applyUtc (inv_reselect (inv_setPort h))) h
  · exact inv_ite (inv_ite (inv_setPort (inv_setPort h)) (inv_syncDone (inv_setPort h))) h
  · split
    · exact inv_ite (inv_syncDone h) h
    · exact h
  · split
    · exact inv_ite (inv_delayDone h) h
    · exact h
  · split
    · exact inv_delayDone h
    · exact h
  · exact inv_ite (inv_emit h) h
  · exact inv_emit h
  · exact h

theorem inv_sourceLoss {ptpPort : Option Nat} {gnss : Bool} (h : Safety.Inv s) : Safety.Inv (sourceLoss ptpPort gnss s) := by
  refine inv_bringProgress (inv_applyUtc (inv_reselect <| inv_when ?_ fun h1 => h1.of_parts rfl))
  split
  · exact inv_ite (inv_ite (inv_setPort h) (inv_setPort h)) h
  · exact h

theorem inv_permitExpiry (h : Safety.Inv s) : Safety.Inv (permitExpiry s) := by
  dsimp only [permitExpiry]
  split
  · exact inv_ite (h.of_parts rfl) h
  · exact h

theorem inv_notLockedFault (h : Safety.Inv s) : Safety.Inv (notLockedFault s) := inv_ite (inv_faultCond h) h

theorem inv_ptpSend {p : Nat} {m : PtpSend} (h : Safety.Inv s) : Safety.Inv (ptpSend p m s) := by
  dsimp only [ptpSend]
  split
  · exact inv_ite (inv_emit h) h
  · exact inv_ite (inv_emit h) h
  · exact inv_ite (inv_emit (inv_setPort h)) h
  · exact inv_ite (inv_emit (inv_setPort h)) h

end Sys2Proof.Machine
end

section
/-! SUPPORT. Intake, analog channels and field I/O keep the invariant (04, 05, 18). -/

namespace Sys2Proof.Machine

open Sys2Proof.Safety

variable {s : State}

/-! ### Intake -/

theorem inv_closeIntake (h : Safety.Inv s) : Safety.Inv (closeIntake s) := h.of_parts rfl

theorem inv_commitSlot {dest : Nat} {v : Int} {stamp q : Nat} (h : Safety.Inv s) : Safety.Inv (commitSlot dest v stamp q s) := h.of_parts rfl

theorem inv_commitNative {e : Image.Entry} {v : Int} {stamp q : Nat} (h : Safety.Inv s) : Safety.Inv (commitNative e v stamp q s) := by
  dsimp only [commitNative]
  split
  · split
    · exact inv_commitSlot h
    · exact h
  · exact h

theorem inv_setIntakePort {p : Nat} {f : PortSt → PortSt} (h : Safety.Inv s) : Safety.Inv (setIntakePort p f s) := h.of_parts rfl

theorem inv_count {p : Nat} {f : Counters → Counters} (h : Safety.Inv s) : Safety.Inv (count p f s) := inv_setIntakePort h

theorem inv_applyFate {p stamp : Nat} {e : Image.Entry} {f : Fate} (h : Safety.Inv s) : Safety.Inv (applyFate p stamp e f s) := by
  dsimp only [applyFate]
  split
  · exact inv_commitSlot h
  · exact inv_count h
  · exact h

theorem inv_commitMessage {p stamp : Nat} {es : List Image.Entry} {read : Image.Entry → Raw} (h : Safety.Inv s) : Safety.Inv (commitMessage p stamp es read s) :=
  inv_foldl (fun _ _ h1 => inv_applyFate h1) <| inv_when (inv_ite (inv_count h) h) inv_count

theorem inv_sentence450 {p h' arr stamp : Nat} {line : Bytes} (h : Safety.Inv s) : Safety.Inv (sentence450 p h' arr stamp line s) := by
  refine inv_unless (inv_count h) fun h1 => ?_
  split
  · exact h1
  · exact inv_ite (inv_count h) <| inv_ite h1 <| inv_ite (inv_count h) (inv_commitMessage <| inv_ite (h.of_parts rfl) h)

theorem inv_serve450 {p h' : Nat} {d : Pend} (h : Safety.Inv s) : Safety.Inv (serve450 p h' d s) :=
  inv_ite (inv_foldl (fun _ _ h1 => inv_sentence450 h1) h) (inv_count h)

theorem inv_noteUdp {h' arr : Nat} {bs : Bytes} {e : Image.Entry} (h : Safety.Inv s) : Safety.Inv (noteUdp h' arr bs e s) :=
  inv_ite (h.of_parts rfl) h

theorem inv_serveUdp {p h' : Nat} {d : Pend} (h : Safety.Inv s) : Safety.Inv (serveUdp p h' d s) :=
  inv_unless (inv_ite (inv_count h) h) fun h1 => inv_foldl (fun _ _ h2 => inv_noteUdp h2) (inv_commitMessage h1)

theorem inv_servePend {p : Nat} {d : Pend} (h : Safety.Inv s) : Safety.Inv (servePend p d s) := by
  dsimp only [servePend]
  split
  · exact inv_serve450 h
  · exact inv_serveUdp h
  · exact inv_commitMessage h

theorem inv_serveIntake (h : Safety.Inv s) : Safety.Inv (serveIntake s) :=
  inv_when (inv_foldl (fun _ _ h1 => inv_setIntakePort h1) h) fun h1 => inv_foldl (fun _ _ h2 => inv_servePend h2) h1

theorem inv_endCond {code : Nat} {on : Bool} (h : Safety.Inv s) : Safety.Inv (endCond code on s) := inv_ite h (inv_faultCond h)

theorem inv_floodTick (h : Safety.Inv s) : Safety.Inv (floodTick s) := inv_endCond (h.of_parts rfl)

theorem inv_takeSnapshot (h : Safety.Inv s) : Safety.Inv (takeSnapshot s) := h.of_parts rfl

theorem inv_resetStore (h : Safety.Inv s) : Safety.Inv (resetStore s) := h.of_parts rfl

theorem inv_lockSerial {p baud : Nat} (h : Safety.Inv s) : Safety.Inv (lockSerial p baud s) := inv_when (inv_setIntakePort h) inv_event

theorem inv_serialMessage {p baud : Nat} {m : Bytes × Bool} (h : Safety.Inv s) : Safety.Inv (serialMessage p baud m s) := by
  dsimp only [serialMessage]
  split
  · exact inv_count (inv_count h)
  · exact inv_ite (inv_count (inv_count h)) <| inv_ite (inv_count (inv_count h)) (inv_endCond (inv_commitMessage (inv_lockSerial
      (inv_count h))))

theorem inv_sentenceReceive {p baud : Nat} {chars : Bytes} {_ending : MsgEnd} (h : Safety.Inv s) : Safety.Inv (sentenceReceive p baud chars _ending s) :=
  inv_foldl (fun _ _ h1 => inv_serialMessage h1) h

theorem inv_serialUnlock {p : Nat} (h : Safety.Inv s) : Safety.Inv (serialUnlock p s) := inv_ite (inv_event (inv_setIntakePort h)) h

theorem inv_serialUnlockedFault {p : Nat} (h : Safety.Inv s) : Safety.Inv (serialUnlockedFault p s) := inv_ite (inv_faultCond h) h

theorem inv_floodFault {p : Nat} (h : Safety.Inv s) : Safety.Inv (floodFault p s) := inv_ite (inv_faultCond h) h

theorem inv_malformedRateFault {p : Nat} (h : Safety.Inv s) : Safety.Inv (malformedRateFault p s) := inv_ite (inv_faultCond h) h

theorem inv_queueMessage {p : Nat} {d : Pend} (h : Safety.Inv s) : Safety.Inv (queueMessage p d s) :=
  inv_ite (inv_count (inv_setIntakePort (inv_count (inv_serveIntake h)))) (inv_setIntakePort (inv_count (inv_serveIntake h)))

theorem inv_datagram450 {port : Nat} {d : Datagram} (h : Safety.Inv s) : Safety.Inv (datagram450 port d s) := inv_ite (inv_queueMessage h) h

theorem inv_counterSecond (h : Safety.Inv s) : Safety.Inv (counterSecond s) :=
  inv_endCond ((inv_foldl (fun _ _ h1 => inv_event h1) (inv_serveIntake h)).of_parts rfl)

theorem inv_unlockPort {p : Nat} (h : Safety.Inv s) : Safety.Inv (unlockPort p s) := by
  unfold unlockPort
  exact inv_ite h (inv_event h)

theorem inv_startIntake (h : Safety.Inv s) : Safety.Inv (startIntake s) :=
  inv_resetStore <| inv_with_intake <| inv_foldl (fun _ _ ht => inv_unlockPort ht) h

/-! ### Analog channels -/

theorem inv_setChan {c : Nat} {f : AnaChanSt → AnaChanSt} (h : Safety.Inv s) : Safety.Inv (setChan c f s) := h.of_parts rfl

theorem inv_serveChannel {c : Nat} (h : Safety.Inv s) : Safety.Inv (serveChannel c s) :=
  inv_when (inv_setChan h) fun h1 => inv_foldl (fun _ _ h2 => inv_foldl (fun _ _ h3 => inv_commitNative h3) h2) h1

theorem inv_serveAnalog (h : Safety.Inv s) : Safety.Inv (serveAnalog s) := inv_foldl (fun _ _ h1 => inv_serveChannel h1) h

theorem inv_setGroup {g : Nat} {f : AnaGroupSt → AnaGroupSt} (h : Safety.Inv s) : Safety.Inv (setGroup g f s) := h.of_parts rfl

theorem inv_groupTick {g : Nat} (h : Safety.Inv s) : Safety.Inv (groupTick s g) := inv_ite (inv_setGroup h) h

theorem inv_analogTick (h : Safety.Inv s) : Safety.Inv (analogTick s) := inv_foldl (fun _ _ h1 => inv_groupTick h1) h

theorem inv_endChanFaults (h : Safety.Inv s) : Safety.Inv (endChanFaults s) := inv_endCond (inv_endCond (inv_endCond h))

theorem inv_stopGroup {g : Nat} (h : Safety.Inv s) : Safety.Inv (stopGroup g s) := by
  unfold stopGroup
  exact inv_endChanFaults <| inv_foldl (fun _ _ h1 => inv_setChan h1) (inv_setGroup h)

theorem inv_analogOff (h : Safety.Inv s) : Safety.Inv (analogOff s) := inv_with_analog (inv_foldl (fun _ _ ht => inv_stopGroup ht) h)

theorem inv_noteAnalog (h : Safety.Inv s) : Safety.Inv (noteAnalog s) := h.of_parts rfl

theorem inv_noteSettled (h : Safety.Inv s) : Safety.Inv (noteSettled s) := by
  unfold noteSettled
  exact inv_ite (inv_bringProgress (h.of_parts rfl)) h

theorem inv_analogOn (h : Safety.Inv s) : Safety.Inv (analogOn s) :=
  inv_ite h <| inv_ite (inv_noteSettled h) (inv_with_analog (inv_analogOff h))

theorem inv_analogImage {old : Image.Analog} (h : Safety.Inv s) : Safety.Inv (analogImage old s) := by
  unfold analogImage
  exact inv_ite (inv_analogOff <| inv_foldl (fun _ _ h1 => inv_stopGroup h1) h) <| inv_ite (inv_foldl (fun _ _ h1 =>
    inv_groupTick h1) <| inv_foldl (fun _ _ h1 => inv_stopGroup h1) h) (inv_analogOn <| inv_foldl (fun _ _ h1 => inv_stopGroup h1) h)

theorem inv_groupStart {g : Nat} (h : Safety.Inv s) : Safety.Inv (groupStart g s) := by
  dsimp only [groupStart]
  split
  · exact inv_ite (inv_event <| inv_foldl (fun _ _ h1 => inv_setChan h1) (inv_setGroup h)) h
  · exact h

theorem inv_analogSample {c : Nat} {mods : List Bool} (h : Safety.Inv s) : Safety.Inv (analogSample c mods s) :=
  inv_ite (inv_endChanFaults <| inv_when (inv_serveChannel (inv_setChan (inv_setGroup (inv_nextFree h)))) inv_noteSettled) h

theorem inv_modulatorOverload {c : Nat} {input : Int} (h : Safety.Inv s) : Safety.Inv (modulatorOverload c input s) := inv_ite (inv_setChan h) h

theorem inv_modulatorRestart {c : Nat} (h : Safety.Inv s) : Safety.Inv (modulatorRestart c s) := inv_ite (inv_event (inv_setChan h)) h

theorem inv_analogChannelFault {c : Nat} (h : Safety.Inv s) : Safety.Inv (analogChannelFault c s) :=
  inv_when (inv_when (inv_ite (inv_faultSet h) h) inv_faultSet) inv_faultSet

/-! ### Paths of the links -/

theorem inv_linkFaults (h : Safety.Inv s) : Safety.Inv (linkFaults s) := inv_faultCond (inv_faultCond (inv_faultCond h))

/-! ### Inputs, captures and outputs -/

theorem inv_serveUnit {u : Nat} (h : Safety.Inv s) : Safety.Inv (serveUnit u s) :=
  inv_when (h.of_parts rfl) fun h1 => inv_foldl (fun _ _ h2 => inv_foldl (fun _ _ h3 => inv_commitNative h3) h2) h1

theorem inv_serveCaptures (h : Safety.Inv s) : Safety.Inv (serveCaptures s) := inv_foldl (fun _ _ h1 => inv_serveUnit h1) h

theorem inv_serveAll (h : Safety.Inv s) : Safety.Inv (serveAll s) := inv_serveAnalog (inv_serveCaptures (inv_serveIntake h))

theorem inv_supplyFaults (h : Safety.Inv s) : Safety.Inv (supplyFaults s) := inv_faultCond (inv_faultCond (inv_faultCond h))

theorem inv_ioOff (h : Safety.Inv s) : Safety.Inv (ioOff s) := inv_faultCond (inv_faultCond (inv_supplyFaults (h.of_parts rfl)))

theorem inv_latchFaults (h : Safety.Inv s) : Safety.Inv (latchFaults s) := inv_faultCond (inv_faultCond h)

theorem inv_setDo {c : Nat} {f : DoSt → DoSt} (h : Safety.Inv s) : Safety.Inv (setDo c f s) := h.of_parts rfl

theorem inv_applyDo {c : Nat} (h : Safety.Inv s) : Safety.Inv (applyDo c s) := inv_ite (inv_ite (inv_setDo h) (inv_event (inv_setDo h))) (inv_setDo h)

theorem inv_applyOutputs (h : Safety.Inv s) : Safety.Inv (applyOutputs s) :=
  inv_ite (inv_latchFaults <| inv_foldl (fun _ _ h1 => inv_applyDo h1) h) h

theorem inv_setSupply {i : Nat} {f : SupplySt → SupplySt} (h : Safety.Inv s) : Safety.Inv (setSupply i f s) := h.of_parts rfl

theorem inv_groupRelease {g : Nat} (h : Safety.Inv s) : Safety.Inv (groupRelease g s) := inv_supplyFaults (inv_event (inv_setSupply h))

theorem inv_tryRelease {g : Nat} (h : Safety.Inv s) : Safety.Inv (tryRelease g s) := inv_ite (inv_groupRelease h) h

theorem inv_armStep {g : Nat} (h : Safety.Inv s) : Safety.Inv (armStep g s) :=
  inv_ite (inv_tryRelease <| inv_ite (inv_ite (inv_setSupply h) <| inv_ite (inv_setSupply h) h) h) h

theorem inv_fieldImage (h : Safety.Inv s) : Safety.Inv (fieldImage s) :=
  inv_latchFaults <| inv_foldl (fun _ _ h1 => inv_ite (inv_event (inv_setDo h1)) h1) <| inv_when (inv_ite
    (inv_groupRelease h) h) inv_groupRelease

theorem inv_groupOff {g : Nat} (h : Safety.Inv s) : Safety.Inv (groupOff g s) :=
  inv_degrade (inv_faultCond (inv_event <| inv_foldl (fun _ _ h1 => h1.of_parts rfl) (inv_setSupply h)))

theorem inv_windowSupply {w : WindowIn} (h : Safety.Inv s) : Safety.Inv (windowSupply w s) :=
  inv_ite (inv_supplyFaults <| inv_when (inv_when (inv_setSupply (inv_setSupply h)) inv_groupOff) inv_groupOff) h

theorem inv_windowSx {w : WindowIn} (h : Safety.Inv s) : Safety.Inv (windowSx w s) := inv_ite (inv_faultCond (h.of_parts rfl)) h

theorem inv_commitInput {n : Nat} (h : Safety.Inv s) : Safety.Inv (commitInput n s) := by
  dsimp only [commitInput]
  split
  · exact h
  · exact inv_ite (inv_foldl (fun _ _ h1 => inv_commitNative h1) h) h

theorem inv_windowDi {w : WindowIn} (h : Safety.Inv s) : Safety.Inv (windowDi w s) :=
  inv_faultCond <| inv_foldl (fun _ _ h1 => inv_commitInput h1) (h.of_parts rfl)

theorem inv_inputWindow {w : WindowIn} (h : Safety.Inv s) : Safety.Inv (inputWindow w s) := by
  dsimp only [inputWindow]
  split
  · exact h
  · exact inv_linkFaults (inv_windowSupply (inv_windowSx (inv_windowDi h)))

theorem inv_captureEdge {u : Nat} {rising : Bool} (h : Safety.Inv s) : Safety.Inv (captureEdge u rising s) := by
  have hserved : Safety.Inv (serveUnit u s) := inv_serveUnit h
  unfold captureEdge
  dsimp only
  refine inv_when hserved fun h1 => ?_
  have hnoted : ∀ x : TimeSt, Safety.Inv (if u = 0 then { serveUnit u s with time := x } else serveUnit u s) := fun _ =>
    inv_ite (h1.of_parts rfl) h1
  exact inv_ite (inv_faultOnce ((hnoted _).of_parts rfl)) ((hnoted _).of_parts rfl)

theorem inv_supplyRecovered {i : Nat} {l : FsLevel} (h : Safety.Inv s) : Safety.Inv (supplyRecovered i l s) := by
  unfold supplyRecovered
  dsimp only
  split
  · exact inv_ite (inv_supplyFaults (inv_setSupply h)) h
  · exact inv_ite (inv_supplyFaults (h.of_parts rfl)) h
  · exact inv_tryRelease h

theorem inv_latchDo {c kind : Nat} (h : Safety.Inv s) : Safety.Inv (latchDo c kind s) := inv_ite (inv_latchFaults (inv_event (inv_setDo h))) h

theorem inv_groupOvercurrent {g : Nat} {still : Bool} (h : Safety.Inv s) : Safety.Inv (groupOvercurrent g still s) :=
  inv_ite (inv_faultCond (inv_setSupply h)) h

end Sys2Proof.Machine
end

section
/-! SUPPORT. Connections, CAN and the safety pair keep the invariant (16, 17). -/

namespace Sys2Proof.Machine

open Sys2Proof.Safety

variable {s : State}

/-! ### Connections -/

theorem inv_setConn {n : Nat} {f : OscConn → OscConn} (h : Safety.Inv s) : Safety.Inv (setConn n f s) := h.of_parts rfl

theorem inv_placeTelegram {n type : Nat} {data : Bytes} (h : Safety.Inv s) : Safety.Inv (placeTelegram n type data s).1 := inv_setConn h

theorem inv_sendUdp {c : Image.Conn} {bs : Bytes} (h : Safety.Inv s) : Safety.Inv (sendUdp c bs s) := inv_emitAll h

theorem inv_sendSetup {n : Nat} (h : Safety.Inv s) : Safety.Inv (sendSetup n s) := inv_setConn h

theorem inv_connEvent {n : Nat} {opened : Bool} {ver : Nat} (h : Safety.Inv s) : Safety.Inv (connEvent n opened ver s) := inv_event h

theorem inv_closeConn {n : Nat} (h : Safety.Inv s) : Safety.Inv (closeConn n s) :=
  inv_ite (inv_connEvent (inv_setConn h)) <| inv_when (inv_setConn h) inv_connEvent

theorem inv_closeAll (h : Safety.Inv s) : Safety.Inv (closeAll s) := (inv_foldl (fun _ _ h1 => inv_closeConn h1) h).of_parts rfl

theorem inv_connFault (h : Safety.Inv s) : Safety.Inv (connFault s) := inv_endCond h

theorem inv_setupAck {n : Nat} {bs : Bytes} (h : Safety.Inv s) : Safety.Inv (setupAck n bs s) := by
  refine inv_ite ?_ h
  split
  · exact h
  · exact inv_ite (inv_setConn h) (inv_bringProgress (inv_connFault (inv_connEvent (inv_setConn h))))

theorem inv_watchdogExpired {n : Nat} (h : Safety.Inv s) : Safety.Inv (watchdogExpired n s) := inv_when (inv_closeConn h) inv_faultOnce

theorem inv_oscReceive {n : Nat} {bs : Bytes} (h : Safety.Inv s) : Safety.Inv (oscReceive n bs s).1 := by
  unfold oscReceive
  dsimp only
  split
  · exact inv_setupAck h
  · split
    · exact h
    · split
      · exact inv_event h
      · split
        · exact h
        · split
          · exact inv_watchdogExpired h
          · exact inv_setConn h

theorem inv_canIntake {c idWord : Nat} {data : Bytes} (h : Safety.Inv s) : Safety.Inv (canIntake c idWord data s) := inv_queueMessage h

theorem inv_canUnread {c : Nat} (h : Safety.Inv s) : Safety.Inv (canUnread c s) := inv_count (inv_count h)

theorem inv_oscArrive {n : Nat} {bs : Bytes} (h : Safety.Inv s) : Safety.Inv (oscArrive n bs s) :=
  inv_ite (inv_when (inv_oscReceive h) fun h1 => inv_ite (inv_canIntake h1) (inv_canUnread h1)) h

theorem inv_watchdogRow {n : Nat} (h : Safety.Inv s) : Safety.Inv (watchdogRow n s) := inv_ite (inv_watchdogExpired h) h

/-! ### Controllers and slots -/

theorem inv_setCan {c : Nat} {f : CanSt → CanSt} (h : Safety.Inv s) : Safety.Inv (setCan c f s) := h.of_parts rfl

theorem inv_setSafe {c : Nat} {f : SlotMsg → SlotMsg} (h : Safety.Inv s) : Safety.Inv (setSafe c f s) := inv_setCan h

theorem inv_setSlot {e : Nat} {f : SlotMsg → SlotMsg} (h : Safety.Inv s) : Safety.Inv (setSlot e f s) := h.of_parts rfl

theorem inv_canFaults {c : Nat} (h : Safety.Inv s) : Safety.Inv (canFaults c s) := inv_faultSet (inv_faultSet h)

theorem inv_canStart {c : Nat} (h : Safety.Inv s) : Safety.Inv (canStart c s) := inv_canFaults (inv_setCan h)

theorem inv_canStartAll (h : Safety.Inv s) : Safety.Inv (canStartAll s) := by
  unfold canStartAll
  exact inv_faultSet (inv_faultSet <| inv_foldl (fun _ _ h1 => inv_canStart h1) (h.of_parts rfl))

theorem inv_cancelPending {c : Nat} (h : Safety.Inv s) : Safety.Inv (cancelPending c s) := by
  unfold cancelPending
  exact inv_setSafe (h.of_parts rfl)

theorem inv_setErr {c tec rec : Nat} (h : Safety.Inv s) : Safety.Inv (setErr c tec rec s) :=
  inv_unless (inv_setCan h) fun h1 => inv_canFaults (inv_event <| inv_ite (inv_cancelPending h1) h1)

theorem inv_rxGood {c : Nat} (h : Safety.Inv s) : Safety.Inv (rxGood c s) := inv_ite (inv_setErr (inv_nextFree h)) (inv_setErr h)

theorem inv_canFrame {c idWord : Nat} {remote : Bool} {data : Bytes} (h : Safety.Inv s) : Safety.Inv (canFrame c idWord remote data s) := by
  refine inv_ite (inv_when (inv_rxGood (inv_setCan h)) fun h1 => ?_) h
  split
  · exact inv_oscArrive h1
  · exact inv_ite (inv_canIntake h1) h1

theorem inv_canCount {c : Nat} {f : CanCounters → CanCounters} (h : Safety.Inv s) : Safety.Inv (canCount c f s) := inv_setCan h

theorem inv_drive {ctrl idWord len : Nat} {b : Bytes} (h : Safety.Inv s) : Safety.Inv (drive ctrl idWord len b s) := inv_emit h

theorem inv_gateSlots {started : List Nat} {hit : Nat → Bool} (h : Safety.Inv s) : Safety.Inv (gateSlots started hit s) := by
  refine inv_foldl (fun _ _ h1 => inv_ite ?_ h1) h
  split
  · exact inv_ite (inv_canCount (inv_drive (inv_setSlot h1))) (inv_canCount (inv_setSlot h1))
  · exact inv_canCount h1
  · exact h1

theorem inv_suppressSlots {started : List Nat} (h : Safety.Inv s) : Safety.Inv (suppressSlots started s) := inv_gateSlots h

theorem inv_slotStart {e : Nat} {sof : Bool} (h : Safety.Inv s) : Safety.Inv (slotStart e sof s) := by
  refine inv_ite ?_ h
  split
  · exact inv_canCount (inv_setSlot (inv_setSlot h))
  · exact inv_when (inv_when (inv_setSlot (inv_setSlot h)) inv_sendSetup) inv_drive

theorem inv_lostArb {c n : Nat} (h : Safety.Inv s) : Safety.Inv (lostArb c n s) := inv_canCount h

theorem inv_slotEnd {e : Nat} {sof : Bool} {arbLost : Nat} (h : Safety.Inv s) : Safety.Inv (slotEnd e sof arbLost s) :=
  inv_ite (inv_ite (inv_canCount (inv_setSlot (inv_lostArb h))) <| inv_ite (inv_drive (inv_setSlot (inv_lostArb h))) (inv_canCount
    (inv_setSlot (inv_lostArb h)))) h

theorem inv_safetySlotStart {c : Nat} (h : Safety.Inv s) : Safety.Inv (safetySlotStart c s) := by
  unfold safetySlotStart
  dsimp only
  refine inv_ite ?_ h
  split
  · exact inv_canCount (inv_setSafe <| inv_ite h (inv_canCount (inv_setSafe h)))
  · exact inv_when (inv_setSafe ((inv_ite h (inv_canCount (inv_setSafe h))).of_parts rfl)) inv_drive

theorem inv_runFaults (h : Safety.Inv s) : Safety.Inv (runFaults s) := inv_unless (inv_ite h (inv_faultSet h)) inv_faultSet

theorem inv_txResult {c : Nat} {acked : Bool} (h : Safety.Inv s) : Safety.Inv (txResult c acked s) :=
  inv_ite (inv_setErr h) <| inv_ite (inv_nextFree h) (inv_setErr h)

theorem inv_txCount {c : Nat} {acked : Bool} (h : Safety.Inv s) : Safety.Inv (txCount c acked s) := inv_canCount h

theorem inv_txComplete {c : Nat} {entry : Option Nat} {acked : Bool} {arbLost : Nat} (h : Safety.Inv s) : Safety.Inv (txComplete c entry acked arbLost s) := by
  dsimp only [txComplete]
  split
  · exact inv_ite (inv_runFaults (inv_txResult (inv_txCount (inv_lostArb (inv_setSlot <| inv_when (inv_ite
      (inv_canCount h) h) inv_drive))))) h
  · exact inv_ite (inv_runFaults (inv_txResult (inv_txCount (inv_lostArb (inv_setSafe <| inv_ite (inv_drive h) h))))) h

theorem inv_busoffHold {c : Nat} (h : Safety.Inv s) : Safety.Inv (busoffHold c s) := inv_ite (inv_setCan h) h

theorem inv_busoffRecovered {c : Nat} (h : Safety.Inv s) : Safety.Inv (busoffRecovered c s) := inv_ite (inv_setErr h) h

theorem inv_canSecond (h : Safety.Inv s) : Safety.Inv (canSecond s) := (inv_foldl (fun _ _ h1 => inv_event h1) h).of_parts rfl

theorem inv_slotRunFault {c : Nat} {entry : Option Nat} (h : Safety.Inv s) : Safety.Inv (slotRunFault c entry s) := by
  dsimp only [slotRunFault]
  split
  · exact inv_ite (inv_faultSet h) h
  · exact inv_ite (inv_faultSet h) h

theorem inv_receiveError {c : Nat} (h : Safety.Inv s) : Safety.Inv (receiveError c s) := inv_ite (inv_setErr (inv_setCan h)) h

theorem inv_protocolException {c : Nat} (h : Safety.Inv s) : Safety.Inv (protocolException c s) := inv_ite (inv_setCan h) h

/-! ### The safety pair -/

theorem inv_safetyOff (h : Safety.Inv s) : Safety.Inv (safetyOff s) :=
  inv_faultCond (inv_faultCond (inv_faultCond <| inv_foldl (fun _ _ h1 => inv_setSafe h1) (h.of_parts rfl)))

theorem inv_setFunc {f : Nat} {g : FuncSt → FuncSt} (h : Safety.Inv s) : Safety.Inv (setFunc f g s) := h.of_parts rfl

theorem inv_tripQuiet {f cause : Nat} (h : Safety.Inv s) : Safety.Inv (tripQuiet f cause s) := inv_event (inv_setFunc h)

theorem inv_startTrips (h : Safety.Inv s) : Safety.Inv (startTrips s) := inv_foldl (fun _ _ h1 => inv_tripQuiet h1) (h.of_parts rfl)

theorem inv_safetyOn (h : Safety.Inv s) : Safety.Inv (safetyOn s) := inv_ite h (h.of_parts rfl)

theorem inv_soOff {mask : Nat} (h : Safety.Inv s) : Safety.Inv (soOff mask s) := h.of_parts rfl

theorem inv_trip {f cause : Nat} {started : List Nat} (h : Safety.Inv s) : Safety.Inv (trip f cause started s) := by
  unfold trip
  exact inv_gateSlots (inv_event (inv_soOff (h.of_parts rfl)))

theorem inv_tripAll {started : List Nat} (h : Safety.Inv s) : Safety.Inv (tripAll started s) :=
  inv_foldl (fun _ _ h1 => inv_ite (by split; exacts [inv_trip h1, h1]) h1) h

theorem inv_edmStep (h : Safety.Inv s) : Safety.Inv (edmStep s) := inv_foldl (fun _ _ h1 => inv_ite (inv_setFunc h1) h1) h

theorem inv_pairsStep (h : Safety.Inv s) : Safety.Inv (pairsStep s) := inv_foldl (fun _ _ h1 => h1.of_parts rfl) h

theorem inv_arm {f : Nat} {auto : Bool} (h : Safety.Inv s) : Safety.Inv (arm f auto s) := inv_event (inv_setFunc h)

theorem inv_autoArm (h : Safety.Inv s) : Safety.Inv (autoArm s) := inv_foldl (fun _ _ h1 => inv_ite (inv_arm h1) h1) h

theorem inv_pulse {d : Nat} (h : Safety.Inv s) : Safety.Inv (pulse d s) := by
  refine inv_foldl (fun _ _ h1 => inv_ite ?_ h1) h
  split
  · exact inv_arm h1
  · exact inv_event (inv_setFunc h1)

theorem inv_resetsStep (h : Safety.Inv s) : Safety.Inv (resetsStep s) := inv_foldl (fun _ _ h1 => inv_when (h1.of_parts rfl) inv_pulse) h

theorem inv_safetyFaults (h : Safety.Inv s) : Safety.Inv (safetyFaults s) := inv_endCond (inv_endCond (inv_endCond h))

theorem inv_readInputs (h : Safety.Inv s) : Safety.Inv (readInputs s) := h.of_parts rfl

theorem inv_writeTelegrams (h : Safety.Inv s) : Safety.Inv (writeTelegrams s) := inv_foldl (fun _ _ h1 => inv_ite (inv_setSafe h1) h1) h

theorem inv_writeOutputs (h : Safety.Inv s) : Safety.Inv (writeOutputs s) := h.of_parts rfl

theorem inv_safetyCycle {fs1Mv fs2Mv : Nat} {started : List Nat} (h : Safety.Inv s) : Safety.Inv (safetyCycle fs1Mv fs2Mv started s) :=
  inv_ite (inv_safetyFaults (inv_readInputs (inv_writeTelegrams (inv_writeOutputs (inv_autoArm (inv_resetsStep (inv_tripAll
    (inv_edmStep (inv_pairsStep (h.of_parts rfl)))))))))) h

theorem inv_soTimeout {ch : Nat} (h : Safety.Inv s) : Safety.Inv (soTimeout ch s) := inv_ite (h.of_parts rfl) h

theorem inv_lockstep (h : Safety.Inv s) : Safety.Inv (lockstep s) :=
  inv_ite (inv_faultCond <| inv_foldl (fun _ _ h1 => inv_setSafe h1) (h.of_parts rfl)) h

theorem inv_discrepancy {k : Nat} (h : Safety.Inv s) : Safety.Inv (discrepancy k s) := by
  dsimp only [discrepancy]
  split
  · exact inv_ite (inv_faultCond (h.of_parts rfl)) h
  · exact h

theorem inv_stuckReset {d : Nat} (h : Safety.Inv s) : Safety.Inv (stuckReset d s) := inv_ite (inv_faultCond (inv_event (h.of_parts rfl))) h

theorem inv_edmCheck {f : Nat} (h : Safety.Inv s) : Safety.Inv (edmCheck f s) := by
  dsimp only [edmCheck]
  split
  · exact inv_ite (inv_faultOnce (inv_writeTelegrams (inv_trip h))) h
  · exact h

theorem inv_soTestPulse {ch : Nat} {ok : Bool} (h : Safety.Inv s) : Safety.Inv (soTestPulse ch ok s) :=
  inv_ite h (inv_faultCond (inv_soOff (h.of_parts rfl)))

theorem inv_proofOverdue {f : Nat} (h : Safety.Inv s) : Safety.Inv (proofOverdue f s) := inv_ite (inv_faultCond h) h

end Sys2Proof.Machine
end

section
/-! SUPPORT. Fusion, observer, set-points, control, Chandler and allocation keep the invariant (06 to 09, 11). -/

namespace Sys2Proof.Machine

open Sys2Proof.Safety

variable {s : State}

/-! ### Fusion -/

theorem inv_fusionStart (h : Safety.Inv s) : Safety.Inv (fusionStart s) := h.of_parts rfl

theorem inv_latchNav (h : Safety.Inv s) : Safety.Inv (latchNav s) := by
  dsimp only [latchNav]
  split
  · exact inv_ite (h.of_parts rfl) h
  · exact h

theorem inv_fusionLate (h : Safety.Inv s) : Safety.Inv (fusionLate s) := h.of_parts rfl

theorem inv_refEvents {old : RefSt} {w : RefW} (h : Safety.Inv s) : Safety.Inv (refEvents old w s) :=
  inv_when (inv_when (inv_ite (inv_event h) h) inv_event) inv_event

theorem inv_kindStep {kind minIn : Nat} {a : Attitude} {hp : Bool} {old : Fused} (h : Safety.Inv s) : Safety.Inv (kindStep kind a hp old minIn s).1 := by
  unfold kindStep
  dsimp only
  refine inv_when ?_ fun h1 => inv_event h1
  split
  · exact inv_event (inv_foldl (fun _ _ h1 => inv_refEvents h1) (h.of_parts rfl))
  · exact inv_foldl (fun _ _ h1 => inv_refEvents h1) (h.of_parts rfl)

theorem inv_warmCheck (h : Safety.Inv s) : Safety.Inv (warmCheck s) := inv_ite (inv_event (h.of_parts rfl)) h

theorem inv_fusionFaults (h : Safety.Inv s) : Safety.Inv (fusionFaults s) := by
  unfold fusionFaults
  exact inv_endCond (inv_endCond (inv_endCond (inv_endCond (inv_faultCond (inv_faultCond (inv_faultCond (inv_faultCond h)))))))

theorem inv_fusionP1 (h : Safety.Inv s) : Safety.Inv (fusionP1 s) := by
  unfold fusionP1
  dsimp only
  refine inv_ite (inv_fusionFaults <| inv_with_fusion <| inv_warmCheck <| inv_with_fusion ?_) h
  exact inv_kindStep <| inv_with_fusion <| inv_kindStep <| inv_with_fusion <| inv_kindStep <| inv_with_fusion <| inv_kindStep h

theorem inv_fusionStop (h : Safety.Inv s) : Safety.Inv (fusionStop s) := inv_foldl (fun _ _ h1 => inv_faultCond h1) (h.of_parts rfl)

theorem inv_skewRelearn {i : Nat} (h : Safety.Inv s) : Safety.Inv (skewRelearn i s) := inv_ite (inv_event (inv_event (h.of_parts rfl))) h

theorem inv_awaitTimeout {i : Nat} (h : Safety.Inv s) : Safety.Inv (awaitTimeout i s) := inv_ite (h.of_parts rfl) h

theorem inv_drLimit {heading : Bool} (h : Safety.Inv s) : Safety.Inv (drLimit heading s) :=
  inv_ite (inv_ite ((inv_faultCond h).of_parts rfl) ((inv_faultCond h).of_parts rfl)) h

theorem inv_kindNotValid {wind : Bool} (h : Safety.Inv s) : Safety.Inv (kindNotValid wind s) := inv_ite (inv_faultCond h) h

/-! ### Observer -/

theorem inv_setObs {f : ObsSt → ObsSt} (h : Safety.Inv s) : Safety.Inv (setObs f s) := h.of_parts rfl

theorem inv_endBlend (h : Safety.Inv s) : Safety.Inv (endBlend s) := by
  dsimp only [endBlend]
  split
  · exact inv_ite (inv_setObs h) h
  · exact h

theorem inv_setCtrl {bit : Nat} {on : Bool} (h : Safety.Inv s) : Safety.Inv (setCtrl bit on s) := inv_ite (inv_setObs h) h

theorem inv_regionStep (h : Safety.Inv s) : Safety.Inv (regionStep s) := by
  unfold regionStep
  dsimp only
  split
  · exact inv_setCtrl (inv_setObs (inv_endBlend h))
  · exact inv_unless (inv_endBlend h) fun h1 => inv_ite (inv_setCtrl h1) <| inv_ite h1 (inv_event (inv_setCtrl (inv_setObs h1)))

theorem inv_selectors (h : Safety.Inv s) : Safety.Inv (selectors s) := by
  unfold selectors
  exact inv_setObs h

theorem inv_windStep (h : Safety.Inv s) : Safety.Inv (windStep s) := inv_when (inv_setCtrl (inv_setObs h)) inv_event

theorem inv_obsStep1 (h : Safety.Inv s) : Safety.Inv (obsStep1 s) := inv_regionStep (inv_selectors (inv_windStep (inv_setObs h)))

theorem inv_corrFlags (h : Safety.Inv s) : Safety.Inv (corrFlags s) := inv_setCtrl (inv_setCtrl (inv_setCtrl h))

theorem inv_applyUpdate {q : ObsInputs} {eps : List Int} (h : Safety.Inv s) : Safety.Inv (applyUpdate q eps s) := inv_setCtrl (inv_setObs h)

theorem inv_obsRun (h : Safety.Inv s) : Safety.Inv (obsRun s) := by
  unfold obsRun
  exact inv_setObs (inv_applyUpdate (inv_setCtrl (inv_setCtrl <| inv_foldl (fun _ _ h1 => inv_applyUpdate h1) h)))

theorem inv_obsInit (h : Safety.Inv s) : Safety.Inv (obsInit s) := inv_event (inv_setCtrl (inv_setObs h))

theorem inv_obsStep2 (h : Safety.Inv s) : Safety.Inv (obsStep2 s) := by
  unfold obsStep2
  exact inv_when (inv_setObs <| inv_ite (inv_obsRun (inv_corrFlags h)) <| inv_when (inv_corrFlags h) inv_obsInit) inv_faultCond

theorem inv_obsStep3 (h : Safety.Inv s) : Safety.Inv (obsStep3 s) := by
  unfold obsStep3
  exact inv_setObs h

theorem inv_obsMissed (h : Safety.Inv s) : Safety.Inv (obsMissed s) := inv_ite (inv_setObs h) h

theorem inv_obsReset (h : Safety.Inv s) : Safety.Inv (obsReset s) := h.of_parts rfl

theorem inv_blendEnd (h : Safety.Inv s) : Safety.Inv (blendEnd s) := inv_ite (inv_endBlend h) h

theorem inv_controlPersist {noRegion : Bool} (h : Safety.Inv s) : Safety.Inv (controlPersist noRegion s) := inv_ite (inv_faultCond h) h

/-! ### Set-points -/

theorem inv_setSp {f : SpSt → SpSt} (h : Safety.Inv s) : Safety.Inv (setSp f s) := h.of_parts rfl

theorem inv_spDiscard (h : Safety.Inv s) : Safety.Inv (spDiscard s) := inv_setSp h

theorem inv_beginMove {m : Move} {t : Nat} (h : Safety.Inv s) : Safety.Inv (beginMove m t s) := inv_event (inv_setSp h)

theorem invReply_cmdTargetSet {r : Request} (h : Safety.Inv s) : InvReply (cmdTargetSet r s) := by
  refine invReply_guard (invReply_guard (invReply_guard ?_))
  split
  · exact invReply_ite (inv_ite (inv_event h) h) <| inv_when (inv_beginMove h) inv_event
  · exact inv_when (inv_event (inv_setSp h)) inv_event

theorem invReply_cmdPushSet {r : Request} (h : Safety.Inv s) : InvReply (cmdPushSet r s) :=
  invReply_guard <| invReply_ite (inv_ite (inv_event h) h) <| inv_when (inv_setSp h) inv_event

theorem invReply_cmdTargetStop {x : Request} (h : Safety.Inv s) : InvReply (cmdTargetStop x s) := by
  dsimp only [cmdTargetStop]
  split
  · exact inv_event (inv_setSp h)
  · exact inv_event (inv_setSp h)

theorem inv_spCapture {t : Nat} (h : Safety.Inv s) : Safety.Inv (spCapture t s) := inv_setSp h

theorem inv_spEval {t : Nat} (h : Safety.Inv s) : Safety.Inv (spEval t s) := by
  unfold spEval
  dsimp only
  split
  · exact inv_setSp h
  · exact inv_nextFree (inv_setSp h)

theorem inv_pushRampEnd {t : Nat} (h : Safety.Inv s) : Safety.Inv (pushRampEnd t s) := inv_ite (inv_setSp h) h

theorem inv_pushLatch (h : Safety.Inv s) : Safety.Inv (pushLatch s) := inv_when (inv_setSp h) inv_event

theorem inv_moveRest {t : Nat} (h : Safety.Inv s) : Safety.Inv (moveRest t s) := by
  unfold moveRest
  dsimp only
  split
  · exact h
  · refine inv_ite ?_ h
    split
    · exact inv_event (inv_setSp h)
    · exact inv_unless (inv_event (inv_setSp h)) inv_beginMove

theorem inv_spStep (h : Safety.Inv s) : Safety.Inv (spStep s) := by
  unfold spStep
  dsimp only
  refine inv_setObs ?_
  split
  · exact inv_ite (inv_spCapture h) h
  · exact inv_spEval (inv_pushRampEnd (inv_pushLatch (inv_moveRest h)))
  · exact inv_spEval (inv_pushRampEnd (inv_pushLatch (inv_moveRest h)))
  · exact h

/-! ### Control -/

theorem inv_ctlStep5 (h : Safety.Inv s) : Safety.Inv (ctlStep5 s) := inv_faultCond (inv_setCtrl (inv_setObs h))

theorem inv_ctlStep6 (h : Safety.Inv s) : Safety.Inv (ctlStep6 s) := inv_endCond (inv_endCond (inv_setCtrl (inv_setObs h)))

theorem inv_p2Step {n : Nat} (h : Safety.Inv s) : Safety.Inv (p2Step n s) :=
  inv_ite (inv_obsStep1 h) <| inv_ite (inv_obsStep2 h) <| inv_ite (inv_obsStep3 h) <| inv_ite (inv_spStep h) <| inv_ite
    (inv_ctlStep5 h) (inv_ctlStep6 h)

theorem inv_p2Upto {n : Nat} (h : Safety.Inv s) : Safety.Inv (p2Upto n s) := inv_foldl (fun _ _ h1 => inv_ite (inv_setObs (inv_p2Step h1)) h1) h

theorem inv_p2End {n : Nat} (h : Safety.Inv s) : Safety.Inv (p2End n s) := inv_when (inv_p2Upto h) inv_obsMissed

theorem inv_moveAtRest (h : Safety.Inv s) : Safety.Inv (moveAtRest s) := inv_ite (by split; exacts [inv_ite (inv_moveRest (inv_p2Upto h)) h, h]) h

theorem inv_pushRampRow (h : Safety.Inv s) : Safety.Inv (pushRampRow s) := inv_ite (inv_pushRampEnd (inv_pushLatch (inv_p2Upto h))) h

/-! ### The Chandler -/

theorem inv_setCh {f : ChandlerSt → ChandlerSt} (h : Safety.Inv s) : Safety.Inv (setCh f s) := h.of_parts rfl

theorem inv_sbPowerOn (h : Safety.Inv s) : Safety.Inv (sbPowerOn s) := inv_ite h (inv_setCh h)

theorem inv_sbPowerOff (h : Safety.Inv s) : Safety.Inv (sbPowerOff s) := inv_setCh h

theorem inv_chTick (h : Safety.Inv s) : Safety.Inv (chTick s) :=
  inv_endCond (inv_setCh <| inv_ite (inv_sbPowerOn (inv_setCh h)) (inv_sbPowerOff (inv_setCh h)))

theorem inv_chEnergies {esh : List Nat} {epr : Nat} (h : Safety.Inv s) : Safety.Inv (chEnergies esh epr s) := inv_setCh h

theorem inv_chMeasure {pIn : Nat} {p1 p2 : Int} {pDom : List Nat} (h : Safety.Inv s) : Safety.Inv (chMeasure pIn p1 p2 pDom s) :=
  inv_faultCond <| inv_when (inv_setCh (inv_setCh h)) inv_event

theorem inv_chDecide (h : Safety.Inv s) : Safety.Inv (chDecide s) := by
  refine inv_faultCond ?_
  split
  · exact inv_event <| inv_foldl (fun _ _ h1 => inv_event h1) (inv_setCh h)
  · exact inv_foldl (fun _ _ h1 => inv_event h1) (inv_setCh h)

theorem inv_chStop (h : Safety.Inv s) : Safety.Inv (chStop s) := inv_faultCond (inv_faultCond (inv_setCh h))

theorem inv_shadowCutFault (h : Safety.Inv s) : Safety.Inv (shadowCutFault s) := by
  dsimp only [shadowCutFault]
  split
  · exact inv_ite (inv_faultCond h) h
  · exact h

theorem inv_chStart (h : Safety.Inv s) : Safety.Inv (chStart s) := inv_when (inv_setCh h) inv_sbPowerOn

/-! ### Allocation -/

theorem inv_setAlloc {f : AllocSt → AllocSt} (h : Safety.Inv s) : Safety.Inv (setAlloc f s) := h.of_parts rfl

theorem inv_setThr {i : Nat} {f : ThrSt → ThrSt} (h : Safety.Inv s) : Safety.Inv (setThr i f s) := inv_setAlloc h

theorem inv_crossEnd {i : Nat} (h : Safety.Inv s) : Safety.Inv (crossEnd s i) := by
  dsimp only [crossEnd]
  split
  · exact h
  · exact inv_ite (inv_event (inv_setThr h)) h

theorem inv_crossBegin {i : Nat} (h : Safety.Inv s) : Safety.Inv (crossBegin s i) := inv_ite (by split; exacts [h, inv_event (inv_setThr h)]) h

theorem inv_allocCross (h : Safety.Inv s) : Safety.Inv (allocCross s) := inv_foldl (fun _ _ h1 => inv_crossEnd (inv_crossBegin h1)) h

theorem inv_allocAvail (h : Safety.Inv s) : Safety.Inv (allocAvail s) :=
  inv_faultCond (inv_faultCond (inv_faultCond <| inv_when (inv_setAlloc <| inv_foldl (fun _ _ h1 => inv_ite (inv_event h1) h1)
    (inv_setAlloc h)) inv_event))

theorem inv_allocAfter {sol : Solution} {n : Nat} (h : Safety.Inv s) : Safety.Inv (allocAfter sol n s) := inv_endCond (inv_setAlloc h)

theorem inv_allocEmitted {sent : List Nat} (h : Safety.Inv s) : Safety.Inv (allocEmitted sent s) := inv_endCond (inv_setObs (inv_setAlloc h))

theorem inv_allocStart (h : Safety.Inv s) : Safety.Inv (allocStart s) := h.of_parts rfl

theorem inv_slackFault (h : Safety.Inv s) : Safety.Inv (slackFault s) := by
  dsimp only [slackFault]
  split
  · exact inv_ite (inv_faultCond h) h
  · exact h

theorem inv_exceedFault {b : Nat} (h : Safety.Inv s) : Safety.Inv (exceedFault b s) := inv_ite (inv_faultCond h) h

end Sys2Proof.Machine
end

section
/-! SUPPORT. The GNSS receiver and the solver keep the invariant (10, 15). -/

namespace Sys2Proof.Machine

open Sys2Proof.Safety

variable {s : State}

/-! ### The receiver -/

theorem inv_setGnss {f : GnssSt → GnssSt} (h : Safety.Inv s) : Safety.Inv (setGnss f s) := h.of_parts rfl

theorem inv_gnssStart (h : Safety.Inv s) : Safety.Inv (gnssStart s) := by
  unfold gnssStart
  exact inv_setGnss (inv_nextFree h)

theorem inv_gnssRegime (h : Safety.Inv s) : Safety.Inv (gnssRegime s) :=
  inv_ite h <| inv_when (inv_setGnss h) fun h1 => inv_event (inv_gnssStart h1)

theorem inv_gnssOff (h : Safety.Inv s) : Safety.Inv (gnssOff s) := inv_faultSet (inv_faultSet (inv_faultSet (inv_setGnss h)))

theorem inv_announcePulse (h : Safety.Inv s) : Safety.Inv (announcePulse s) := inv_ite (inv_emitAll (h.of_parts rfl)) h

theorem inv_commitChannel {epoch : Nat} {m : ChanMeas} (h : Safety.Inv s) : Safety.Inv (commitChannel epoch m s) := by
  refine inv_foldl (fun _ _ h1 => inv_ite ?_ h1) (inv_setGnss h)
  split
  · exact inv_commitNative h1
  · exact h1

theorem inv_measurementEpoch {ms : List ChanMeas} (h : Safety.Inv s) : Safety.Inv (measurementEpoch ms s) :=
  inv_ite (inv_foldl (fun _ _ h1 => inv_commitChannel h1) (inv_setGnss h)) h

theorem inv_retainWord {w : NavWord} {data : Nat} (h : Safety.Inv s) : Safety.Inv (retainWord w data s) := inv_when (inv_setGnss h) inv_setGnss

theorem inv_navigationWord {w : NavWord} (h : Safety.Inv s) : Safety.Inv (navigationWord w s) :=
  inv_ite (inv_when (inv_foldl (fun _ _ h1 => inv_ite (inv_commitNative h1) h1) (inv_setGnss h)) inv_retainWord) h

theorem inv_commitSolution {grade : Nat} {x : NavSol} (h : Safety.Inv s) : Safety.Inv (commitSolution grade x s) := by
  refine inv_foldl (fun _ _ h1 => ?_) h
  split
  · exact inv_ite (inv_commitNative h1) h1
  · exact inv_commitNative h1
  · exact h1

theorem inv_navSolution {x : NavSol} (h : Safety.Inv s) : Safety.Inv (navSolution x s) :=
  inv_ite (inv_when (inv_unless (inv_commitSolution (inv_setGnss <| inv_ite h (inv_event h))) inv_faultSet) fun h1 => inv_when
    (inv_applyUtc (inv_reselect (inv_faultSet (h1.of_parts rfl)))) inv_measure) h

theorem inv_gnssBurst (h : Safety.Inv s) : Safety.Inv (gnssBurst s) := inv_ite (inv_setGnss h) h

theorem inv_gnssSleep {ephFresh : Bool} (h : Safety.Inv s) : Safety.Inv (gnssSleep ephFresh s) :=
  inv_ite (inv_event (inv_faultSet (inv_setGnss h))) h

theorem inv_gnssWake (h : Safety.Inv s) : Safety.Inv (gnssWake s) := inv_ite (inv_event (inv_gnssStart h)) h

theorem inv_noFullFault (h : Safety.Inv s) : Safety.Inv (noFullFault s) := inv_ite (inv_faultSet h) h

theorem inv_antennaOpen (h : Safety.Inv s) : Safety.Inv (antennaOpen s) := inv_ite (inv_faultSet h) h

theorem inv_antennaShort (h : Safety.Inv s) : Safety.Inv (antennaShort s) := inv_ite (inv_faultSet (inv_faultSet (inv_setGnss h))) h

theorem inv_biasRetry (h : Safety.Inv s) : Safety.Inv (biasRetry s) := by
  dsimp only [biasRetry]
  split
  · exact inv_ite (inv_faultSet (inv_setGnss h)) h
  · exact h

theorem inv_gnssDuty (h : Safety.Inv s) : Safety.Inv (gnssDuty s) := inv_ite (inv_ite h (inv_gnssStart h)) <| inv_ite (inv_gnssOff h) h

theorem inv_endDefer (h : Safety.Inv s) : Safety.Inv (endDefer s) := by
  dsimp only [endDefer]
  split
  · exact inv_when (inv_setAddend (h.of_parts rfl)) fun h1 => inv_timeFaults (inv_correct h1)
  · exact h.of_parts rfl

theorem inv_ppsPulse (h : Safety.Inv s) : Safety.Inv (ppsPulse s) :=
  inv_ite (inv_ite (inv_event (inv_setGnss h)) (inv_endDefer (inv_setGnss (h.of_parts rfl)))) h

theorem inv_ppsEnd (h : Safety.Inv s) : Safety.Inv (ppsEnd s) := by
  dsimp only [ppsEnd]
  split
  · exact inv_ite (inv_setGnss h) h
  · exact h

/-! ### The solver arrays -/

theorem inv_setSol {f : SolverSt → SolverSt} (h : Safety.Inv s) : Safety.Inv (setSol f s) := h.of_parts rfl

theorem inv_decideEmission {out0 : Nat} (h : Safety.Inv s) : Safety.Inv (decideEmission out0 s) := by
  refine inv_unless (inv_setSol (inv_setAlloc h)) fun h1 => ?_
  split
  · exact inv_event (inv_setSol (inv_setAlloc h1))
  · exact inv_faultOnce (inv_event h1)

theorem inv_setArr {a : Arr} {v : Option Solve} (h : Safety.Inv s) : Safety.Inv (setArr a v s) := inv_setSol h

theorem inv_startNext {a : Arr} (h : Safety.Inv s) : Safety.Inv (startNext a s) := by
  dsimp only [startNext]
  split
  · exact inv_setArr (inv_setSol h)
  · split
    · exact inv_setArr (inv_setSol h)
    · exact inv_setArr h

theorem inv_dispatch (h : Safety.Inv s) : Safety.Inv (dispatch s) := by
  dsimp only [dispatch]
  split
  · exact inv_startNext (by split; exacts [inv_startNext h, h])
  · split
    · exact inv_startNext h
    · exact h

theorem inv_p3Run {primary : Bool} {k : Nat} (h : Safety.Inv s) : Safety.Inv (p3Run primary k s) :=
  have hdecided : Safety.Inv (decideEmission (outMask s) (allocCross (allocAvail s))) := inv_decideEmission (inv_allocCross (inv_allocAvail h))
  inv_dispatch (hdecided.of_parts rfl)

theorem inv_solveEvent {v : Solve} (h : Safety.Inv s) : Safety.Inv (solveEvent v s) := inv_foldl (fun _ _ h1 => inv_event h1) h

theorem inv_setShadow {g : Nat} {f : Shadow → Shadow} (h : Safety.Inv s) : Safety.Inv (setShadow g f s) := inv_setSol h

theorem inv_takeResult {a : Arr} {cut : Bool} {v0 : Solve} (h : Safety.Inv s) : Safety.Inv (takeResult a cut v0 s) := by
  dsimp only [takeResult]
  split
  · exact inv_setSol (inv_setSol (inv_solveEvent h))
  · exact inv_setShadow (inv_setSol (inv_solveEvent h))

theorem inv_deadlineArr {a : Arr} {r : ArrIn} (h : Safety.Inv s) : Safety.Inv (deadlineArr a r s) := by
  unfold deadlineArr
  dsimp only
  split
  · exact h
  · exact inv_setArr (inv_takeResult (h.of_parts rfl))

theorem inv_standPrimary (h : Safety.Inv s) : Safety.Inv (standPrimary s) := by
  refine inv_ite (inv_setSol h) ?_
  split
  · exact inv_endCond <| inv_when (inv_setSol h) inv_event
  · exact inv_when (inv_setSol h) inv_event

theorem inv_powerReport {warm : Option Solution} (h : Safety.Inv s) : Safety.Inv (powerReport warm s) := by
  unfold powerReport
  exact inv_setAlloc h

theorem inv_p4End {a b : ArrIn} (h : Safety.Inv s) : Safety.Inv (p4End a b s) :=
  inv_endCond (inv_endCond (inv_endCond (inv_endCond (inv_allocAfter (inv_powerReport (inv_setSol (inv_standPrimary (inv_setSol
    (inv_deadlineArr (inv_deadlineArr h))))))))))

theorem inv_solveComplete {a : Arr} {busyUs : Nat} (h : Safety.Inv s) : Safety.Inv (solveComplete a busyUs s) :=
  inv_ite (by split; exacts [inv_startNext (inv_takeResult (h.of_parts rfl)), h]) h

theorem inv_solverStart (h : Safety.Inv s) : Safety.Inv (solverStart s) := by
  unfold solverStart
  exact h.of_parts rfl

theorem inv_solverStop (h : Safety.Inv s) : Safety.Inv (solverStop s) := inv_foldl (fun _ _ h1 => inv_faultCond h1) (h.of_parts rfl)

theorem inv_holdShiftFault (h : Safety.Inv s) : Safety.Inv (holdShiftFault s) := inv_ite (inv_faultCond h) h

theorem inv_solverRunFault {epsMax : Bool} (h : Safety.Inv s) : Safety.Inv (solverRunFault epsMax s) :=
  inv_ite (inv_ite (inv_faultCond h) h) <| inv_ite (inv_faultCond h) h

theorem inv_conseqFault (h : Safety.Inv s) : Safety.Inv (conseqFault s) := by
  dsimp only [conseqFault]
  split
  · exact inv_ite (inv_faultCond h) h
  · exact h

theorem inv_coverAgeFault (h : Safety.Inv s) : Safety.Inv (coverAgeFault s) := inv_ite (inv_faultCond h) h

end Sys2Proof.Machine
end

section
/-! SUPPORT. Duty, checkpoints and the lock group keep the invariant (12). -/

namespace Sys2Proof.Machine

open Sys2Proof.Safety

variable {s : State}

/-! ### What duty starts and ends -/

theorem inv_dutyPowerOffKeep (h : Safety.Inv s) : Safety.Inv (dutyPowerOffKeep s) := inv_ioOff <| inv_when (inv_safetyOff h) inv_gnssOff

theorem inv_dutyPowerOff (h : Safety.Inv s) : Safety.Inv (dutyPowerOff s) := by
  unfold dutyPowerOff
  exact inv_dutyPowerOffKeep (inv_analogOff h)

theorem inv_stagesStart (h : Safety.Inv s) : Safety.Inv (stagesStart s) := inv_solverStart (inv_allocStart (inv_obsReset (h.of_parts rfl)))

theorem inv_noteStandby (h : Safety.Inv s) : Safety.Inv (noteStandby s) := by
  unfold noteStandby
  exact h.of_parts rfl

/-- Held responses are held no longer (R70). -/
theorem inv_refuseBound (h : Safety.Inv s) : Safety.Inv (refuseBound s) :=
  inv_foldl (fun _ m ht => inv_serve (inv_setBox ht (boxOk_map (ht.box m)))) h

theorem inv_leaveDutyWith {off : State → State} (hoff : ∀ t, Safety.Inv t → Safety.Inv (off t)) (h : Safety.Inv s) : Safety.Inv (leaveDutyWith off s) := by
  unfold leaveDutyWith
  dsimp only
  refine inv_noteStandby <| inv_faultCond <| inv_faultCond <| inv_faultCond <| inv_canStartAll <| hoff _ ?_
  exact inv_solverStop <| inv_chStop <| inv_fusionStop <| inv_refuseBound (h.of_parts rfl)

theorem inv_claimPower (h : Safety.Inv s) : Safety.Inv (claimPower s) := by
  unfold claimPower
  exact inv_when (inv_safetyOn (inv_noteAnalog (inv_analogOn (h.of_parts rfl)))) inv_gnssStart

theorem inv_domainLosses {failed : Nat} (h : Safety.Inv s) : Safety.Inv (domainLosses failed s) := by
  unfold domainLosses
  exact inv_when (inv_when (inv_when (inv_ite (inv_degrade (inv_setCh h)) h) fun h1 => inv_degrade (inv_setCh h1)) fun h1 =>
    inv_degrade (inv_setGnss h1)) fun h1 => inv_noteSettled (inv_analogOff (h1.of_parts rfl))

theorem inv_leaveDuty (h : Safety.Inv s) : Safety.Inv (leaveDuty s) := inv_leaveDutyWith (fun _ ht => inv_dutyPowerOff ht) h

theorem inv_dutyStart (h : Safety.Inv s) : Safety.Inv (dutyStart s) := by
  unfold dutyStart
  exact inv_gnssDuty (inv_canStartAll (inv_startIntake h))

/-! ### Checkpoints -/

theorem inv_sendCheckpoint (h : Safety.Inv s) : Safety.Inv (sendCheckpoint s) := by
  unfold sendCheckpoint
  exact (inv_foldl (fun _ _ h1 => inv_sendRaf h1) h).of_parts rfl

theorem inv_loadConns {c : Checkpoint} (h : Safety.Inv s) : Safety.Inv (loadConns c s) := h.of_parts rfl

theorem inv_loadFuncs {c : Checkpoint} (h : Safety.Inv s) : Safety.Inv (loadFuncs c s) :=
  inv_foldl (fun _ _ h1 => inv_ite h1 (inv_tripQuiet h1)) (h.of_parts rfl)

theorem inv_advanceObs {n : Nat} (h : Safety.Inv s) : Safety.Inv (advanceObs n s) :=
  inv_ite (inv_setObs <| inv_foldl (fun _ _ h1 => inv_applyUpdate h1) h) h

theorem inv_loadParts {c : Checkpoint} (h : Safety.Inv s) : Safety.Inv (loadParts c s) := inv_spEval (inv_advanceObs (h.of_parts rfl))

theorem inv_loadCheckpoint {c : Checkpoint} (h : Safety.Inv s) : Safety.Inv (loadCheckpoint c s) := by
  unfold loadCheckpoint
  exact (inv_ite (inv_stagesStart (inv_loadConns (inv_loadFuncs h))) (inv_loadParts (inv_loadConns (inv_loadFuncs h)))).of_parts rfl

/-! ### The lock group -/

theorem inv_setLock {f : LockSt → LockSt} (h : Safety.Inv s) : Safety.Inv (setLock f s) := h.of_parts rfl

theorem inv_renew (h : Safety.Inv s) : Safety.Inv (renew s) := inv_ite (inv_setLock h) h

theorem inv_sendBeat {prepare : Bool} (h : Safety.Inv s) : Safety.Inv (sendBeat prepare s) := inv_sendRaf h

theorem inv_dropPrepare (h : Safety.Inv s) : Safety.Inv (dropPrepare s) := by
  dsimp only [dropPrepare]
  split
  · exact inv_ite (inv_dutyPowerOff (inv_setLock h)) h
  · exact h

theorem inv_setPeer {slot : Nat} {f : Peer → Peer} (h : Safety.Inv s) : Safety.Inv (setPeer slot f s) := inv_setLock h

theorem inv_lockTick (h : Safety.Inv s) : Safety.Inv (lockTick s) := inv_ite (inv_linkFaults <| inv_foldl (fun _ _ h1 => inv_setPeer h1) h) h

theorem sorted_map {β : Type} (g : Nat × β → Nat × β) (hg : ∀ p, (g p).1 = p.1) (t : Table β) :
    Table.sorted (t.map g) = Table.sorted t := by
  induction t with
  | nil => rfl
  | cons p r ih => cases r with
    | nil => rfl
    | cons q r =>
      show (decide ((g p).1 < (g q).1) && Table.sorted (g q :: r.map g)) = (decide (p.1 < q.1) && Table.sorted (q :: r))
      rw [hg, hg]
      exact congrArg _ ih

/-- Frame numbers move; the sources keep their order. -/
theorem inv_rebase {d e : Int} (h : Safety.Inv s) : Safety.Inv (rebase d e s) := by
  have hsrc := sorted_map (fun p : Nat × FaultSt => (p.1, { p.2 with sluiceTick := p.2.sluiceTick.map (shiftFrame d) })) (fun _ => rfl)
  exact inv_ite h (h.of_src ((hsrc _).trans h.sources) rfl)

theorem invReply_cmdLockChange {r : Request} (h : Safety.Inv s) : InvReply (cmdLockChange r s) := by
  unfold cmdLockChange
  dsimp only
  refine invReply_guard ?_
  split
  · exact trivial
  · exact invReply_guard (invReply_guard (invReply_guard (inv_event (inv_setLock h))))

theorem inv_startDiscovery (h : Safety.Inv s) : Safety.Inv (startDiscovery s) := inv_setLock h

theorem inv_noteForeign (h : Safety.Inv s) : Safety.Inv (noteForeign s) := inv_faultCond (inv_setLock h)

theorem inv_rafDrop {port : Nat} (h : Safety.Inv s) : Safety.Inv (rafDrop port s) := inv_setLock h

theorem inv_rafReceive {type port ety : Nat} {m : Bytes} {f : Bytes → State → State} (hf : Safety.Inv s → Safety.Inv (f m s)) (h : Safety.Inv s) :
    Safety.Inv (rafReceive type port ety m f s) :=
  inv_ite (inv_ite (inv_ite (hf h) h) (inv_rafDrop h)) h

theorem inv_notePath {slot port : Nat} (h : Safety.Inv s) : Safety.Inv (notePath slot port s) := inv_unless (inv_setPeer h) inv_event

theorem inv_judgePeriod {mode : Nat} (h : Safety.Inv s) : Safety.Inv (judgePeriod mode s) := inv_ite (inv_setLock h) h

theorem inv_prepareBeat {b : Beat} (h : Safety.Inv s) : Safety.Inv (prepareBeat b s) := inv_ite (inv_claimPower (inv_setLock h)) h

theorem inv_leaseBeat {b : Beat} (h : Safety.Inv s) : Safety.Inv (leaseBeat b s) :=
  inv_ite (inv_setLock h) (by split; exacts [inv_ite (inv_setLock h) h, h])

theorem inv_startYield (h : Safety.Inv s) : Safety.Inv (startYield s) := inv_ite h (inv_faultOnce (h.of_parts rfl))

theorem inv_decideStandby (h : Safety.Inv s) : Safety.Inv (decideStandby s) := inv_dutyPowerOff (inv_endStep h)

theorem inv_takeBeat {port : Nat} {b : Beat} (h : Safety.Inv s) : Safety.Inv (takeBeat port b s) :=
  inv_linkFaults (inv_faultCond <| inv_ite (inv_ite (inv_startYield <| inv_unless (inv_prepareBeat (inv_leaseBeat <| inv_when
    (inv_setPeer (inv_notePath h)) inv_judgePeriod)) fun h1 => inv_faultCond (inv_setLock h1)) <| inv_when (inv_unless
    (inv_prepareBeat (inv_leaseBeat <| inv_when (inv_setPeer (inv_notePath h)) inv_judgePeriod)) fun h1 => inv_faultCond
    (inv_setLock h1)) inv_decideStandby) (inv_faultCond (inv_setLock <| inv_when (inv_setPeer (inv_notePath h)) inv_judgePeriod)))

theorem inv_beatReceive {port ety : Nat} {m : Bytes} (h : Safety.Inv s) : Safety.Inv (beatReceive port ety m s) := inv_rafReceive (fun h1 => inv_takeBeat h1) h

theorem inv_claimEvents {reason : Nat} {c : Option Checkpoint} (h : Safety.Inv s) : Safety.Inv (claimEvents reason c s) := by
  dsimp only [claimEvents]
  split
  · exact inv_event (inv_event h)
  · exact inv_event h

theorem inv_targetLoad {c : Checkpoint} (h : Safety.Inv s) : Safety.Inv (targetLoad c s) := inv_claimEvents (inv_loadCheckpoint h)

theorem inv_commitCp {c : Checkpoint} (h : Safety.Inv s) : Safety.Inv (commitCp c s) := by
  refine inv_ite h ?_
  split
  · exact inv_when (inv_noteForeign (inv_setLock (inv_judgePeriod (h.of_parts rfl)))) inv_targetLoad
  · exact inv_noteForeign (inv_setLock (inv_judgePeriod (h.of_parts rfl)))

theorem inv_takeFragment {m : Bytes} (h : Safety.Inv s) : Safety.Inv (takeFragment m s) := by
  unfold takeFragment
  dsimp only
  refine inv_ite h ?_
  split
  · exact h
  · refine inv_ite ?_ (inv_setLock h)
    split
    · exact inv_when (inv_setLock h) inv_commitCp
    · exact inv_setLock h

theorem inv_checkpointFragment {port ety : Nat} {m : Bytes} (h : Safety.Inv s) : Safety.Inv (checkpointFragment port ety m s) :=
  inv_rafReceive (fun h1 => inv_takeFragment h1) h

theorem inv_forward {port : Nat} {m : Bytes} {etherOk : Bool} (h : Safety.Inv s) : Safety.Inv (forward port m etherOk s) := inv_ite (inv_emit h) h

theorem inv_dropSecond (h : Safety.Inv s) : Safety.Inv (dropSecond s) :=
  inv_ite (inv_unless (inv_ite h (inv_event (inv_setLock h))) fun h1 => inv_event (inv_setLock h1)) h

theorem inv_pathDown {peer port : Nat} {linkDown : Bool} (h : Safety.Inv s) : Safety.Inv (pathDown peer port linkDown s) := by
  dsimp only [pathDown]
  split
  · exact inv_ite (inv_linkFaults (inv_event (inv_setPeer h))) h
  · exact h

theorem inv_discoveryEnd (h : Safety.Inv s) : Safety.Inv (discoveryEnd s) := by
  dsimp only [discoveryEnd]
  split
  · exact inv_ite (inv_when (inv_endStep (inv_event (inv_setLock h))) inv_decideStandby) h
  · exact h

theorem inv_claimStart {kind failed0 : Nat} (h : Safety.Inv s) : Safety.Inv (claimStart kind failed0 s) :=
  inv_when (inv_when (inv_when (inv_domainLosses (inv_event (inv_chStart (inv_claimPower (inv_sendBeat
    (inv_setLock h)))))) inv_faultSet) inv_faultCond) fun h1 => inv_faultOnce (inv_setLock h1)

theorem inv_electionClaim {failed : Nat} (h : Safety.Inv s) : Safety.Inv (electionClaim failed s) :=
  inv_ite (inv_when (inv_claimStart h) fun h1 => inv_claimEvents (inv_stagesStart h1)) h

theorem inv_leaseEnd (h : Safety.Inv s) : Safety.Inv (leaseEnd s) := inv_ite (inv_sendBeat (inv_linkFaults (inv_leaveDuty (inv_event h)))) h

theorem inv_leaseClaim {failed : Nat} (h : Safety.Inv s) : Safety.Inv (leaseClaim failed s) := by
  unfold leaseClaim
  dsimp only
  refine inv_ite ?_ h
  split
  · exact inv_when (inv_claimStart h) fun h1 => inv_claimEvents (inv_loadCheckpoint h1)
  · exact inv_claimStart h

theorem inv_startMode {kind : Nat} (h : Safety.Inv s) : Safety.Inv (startMode kind s) := inv_ite (h.of_parts rfl) h

theorem inv_bringAtDuty {kind : Nat} (h : Safety.Inv s) : Safety.Inv (bringAtDuty kind s) := by
  unfold bringAtDuty
  exact inv_ite (inv_bringProgress ((inv_endStep h).of_parts rfl)) (inv_bringProgress (h.of_parts rfl))

theorem inv_takeDuty {kind : Nat} (h : Safety.Inv s) : Safety.Inv (takeDuty kind s) :=
  inv_mokAtTick <| inv_linkFaults <| inv_faultCond <| inv_faultCond <| inv_sendBeat <| inv_with_bring <|
    inv_startMode <| inv_bringAtDuty <| inv_dutyStart (h.of_parts rfl)

theorem inv_abortClaim (h : Safety.Inv s) : Safety.Inv (abortClaim s) := inv_dutyPowerOff (inv_chStop (inv_sendRelease (inv_setLock h)))

theorem inv_leasePass (h : Safety.Inv s) : Safety.Inv (leasePass s) := by
  unfold leasePass
  dsimp only
  refine inv_ite ?_ h
  split
  · exact inv_ite (inv_takeDuty (by split; exacts [inv_targetLoad h, h])) (inv_abortClaim h)
  · exact h

theorem inv_leaseYield (h : Safety.Inv s) : Safety.Inv (leaseYield s) :=
  inv_ite (inv_sendBeat (inv_linkFaults (inv_leaveDuty (inv_event h)))) <| inv_ite (inv_startYield h) h

theorem inv_lockPrepare (h : Safety.Inv s) : Safety.Inv (lockPrepare s) := inv_ite (inv_sendBeat (inv_renew h)) h

theorem inv_lockRelease (h : Safety.Inv s) : Safety.Inv (lockRelease s) :=
  inv_ite (inv_linkFaults (inv_leaveDuty (inv_releaseAtTick (inv_event h)))) h

theorem inv_withholdClaim {checked failed : Nat} (h : Safety.Inv s) : Safety.Inv (withholdClaim checked failed s) :=
  inv_sendBeat (inv_dutyPowerOff (inv_faultOnce (inv_setLock (inv_domainLosses (inv_event h)))))

theorem inv_targetClaim {failed : Nat} (h : Safety.Inv s) : Safety.Inv (targetClaim failed s) := by
  refine inv_ite (inv_ite (inv_withholdClaim h) ?_) h
  split
  · exact inv_when (inv_claimStart h) inv_targetLoad
  · exact inv_claimStart h

theorem inv_checkpointFallback (h : Safety.Inv s) : Safety.Inv (checkpointFallback s) := by
  dsimp only [checkpointFallback]
  split
  · exact inv_ite (inv_targetLoad h) h
  · exact h

theorem inv_periodAdopt (h : Safety.Inv s) : Safety.Inv (periodAdopt s) := inv_ite ((inv_rebase h).of_parts rfl) h

end Sys2Proof.Machine
end

section
/-! SUPPORT. Configuration, bring-up, fault collection and sessions keep the invariant (02, 03, 13, 19). -/

namespace Sys2Proof.Machine

open Sys2Proof.Safety

variable {s : State}

/-! ### Images and banks -/

theorem inv_setCfg {f : CfgSt → CfgSt} (h : Safety.Inv s) : Safety.Inv (setCfg f s) := h.of_parts rfl

theorem inv_setBank {b : Nat} {k : Bank} (h : Safety.Inv s) : Safety.Inv (setBank b k s) := inv_ite (inv_setCfg h) (inv_setCfg h)

theorem inv_noteGrant (h : Safety.Inv s) : Safety.Inv (noteGrant s) := inv_ite (inv_setCfg h) h

theorem invReply_cmdStage {r : Request} (h : Safety.Inv s) : InvReply (cmdStage r s) :=
  invReply_guard (invReply_guard (invReply_guard (invReply_guard (inv_noteGrant (inv_setCfg (inv_setBank <| inv_ite (inv_event
    (inv_setCfg (inv_setBank h))) h))))))

theorem inv_grantExpiry (h : Safety.Inv s) : Safety.Inv (grantExpiry s) := by
  dsimp only [grantExpiry]
  split
  · exact inv_ite (inv_setCfg h) h
  · exact h

theorem inv_putCopy {c : CommitCopy} (h : Safety.Inv s) : Safety.Inv (putCopy c s) := inv_ite (inv_setCfg h) (inv_setCfg h)

theorem inv_writeCommit {bank : Nat} {digest : Bytes} (h : Safety.Inv s) : Safety.Inv (writeCommit bank digest s) := by
  unfold writeCommit
  exact inv_setCfg (inv_putCopy h)

theorem invReply_cmdCommit {writeOk : Bool} {r : Request} (h : Safety.Inv s) : InvReply (cmdCommit writeOk r s) := by
  unfold cmdCommit
  exact invReply_guard (invReply_guard <| invReply_ite (inv_noteGrant h) <| invReply_ite (inv_noteGrant h) (invReply_guard
    (invReply_guard (inv_noteGrant (inv_event (inv_setCfg (inv_writeCommit (inv_setBank (inv_setBank h)))))))))

theorem invReply_cmdConfigRead {r : Request} (h : Safety.Inv s) : InvReply (cmdConfigRead r s) :=
  invReply_guard (invReply_guard (invReply_guard (inv_noteGrant h)))

theorem invReply_cmdAbort {r : Request} (h : Safety.Inv s) : InvReply (cmdAbort r s) := by
  dsimp only [cmdAbort]
  split
  · exact invReply_guard <| invReply_ite (inv_noteGrant (inv_event (inv_setCfg (inv_setBank h)))) (inv_noteGrant h)
  · exact inv_noteGrant h

theorem inv_noteVerified {img : Image.Img} (h : Safety.Inv s) : Safety.Inv (noteVerified img s) := by
  unfold noteVerified
  exact inv_setCfg h

theorem inv_adoptImage {img : Image.Img} (h : Safety.Inv s) : Safety.Inv (adoptImage img s) := h.of_parts rfl

theorem inv_imageStages (h : Safety.Inv s) : Safety.Inv (imageStages s) := by
  unfold imageStages
  exact inv_reselect <| inv_canStartAll <| inv_with_osc <| inv_solverStart <| inv_allocStart <| inv_with_obs <|
    inv_fieldImage (inv_resetStore h)

theorem inv_restartBringup {oldAnalog : Image.Analog} (h : Safety.Inv s) : Safety.Inv (restartBringup oldAnalog s) := by
  have hbegun : ∀ u, Safety.Inv u → ∀ b l, Safety.Inv { u with st := .standby, bring := b, lock := l } := fun _ hu _ _ => hu.of_parts rfl
  exact inv_startDiscovery <| hbegun _ (inv_analogImage <| inv_safetyOff <| inv_startTrips <| inv_stagesStart <| inv_imageStages h) _ _

theorem inv_imageEffect (h : Safety.Inv s) : Safety.Inv (imageEffect s) := by
  unfold imageEffect
  dsimp only
  split
  · exact h
  · have hcfg : Safety.Inv (setCfg (fun c => { c with effect := none }) s) := inv_setCfg h
    refine inv_ite (inv_ite (inv_noteForeign ?standby) (inv_noteForeign ?duty)) h
    case standby => exact inv_when (inv_imageStages (inv_adoptImage hcfg)) inv_analogImage
    case duty =>
      refine inv_restartBringup <| inv_adoptImage <| inv_with_solver <| inv_leaveDutyWith (fun _ ht => inv_dutyPowerOffKeep ht) ?_
      exact inv_closeAll <| inv_when hcfg fun h1 => inv_releaseAtTick (inv_event h1)

theorem inv_commitCut {cut : Bytes} (h : Safety.Inv s) : Safety.Inv (commitCut cut s) := by
  unfold commitCut
  exact inv_ite (inv_putCopy h) h

/-! ### Starts, power and self-test -/

theorem inv_bringComplete (h : Safety.Inv s) : Safety.Inv (bringComplete s) := inv_faultCond (inv_event ((inv_endStep h).of_parts rfl))

theorem inv_noteVerdict {b st : Nat} {v : Verdict} (h : Safety.Inv s) : Safety.Inv (noteVerdict b st v s) := inv_when (inv_setBank h) inv_noteVerified

theorem inv_timeFromRtc (h : Safety.Inv s) : Safety.Inv (timeFromRtc s) := inv_ite (inv_setTb (h.of_parts rfl)) h

theorem inv_startFrames {mode : Nat} (h : Safety.Inv s) : Safety.Inv (startFrames mode s) := h.of_history (Nat.zero_le _) rfl

theorem inv_startStation {img : Image.Img} (h : Safety.Inv s) : Safety.Inv (startStation img s) :=
  inv_noteStandby (inv_noteAnalog (inv_analogOn (inv_startDiscovery (inv_stagesStart (inv_imageStages (inv_startTrips (inv_startFrames
    ((inv_timeFromRtc (inv_endStep (inv_adoptImage h))).of_parts rfl))))))))

theorem inv_startHeld {v : Verdict} (h : Safety.Inv s) : Safety.Inv (startHeld v s) := by
  unfold startHeld
  exact inv_startFrames (inv_event (inv_setCfg (inv_timeFromRtc (h.of_parts rfl))))

theorem inv_verificationComplete {bankErr : Bool} (h : Safety.Inv s) : Safety.Inv (verificationComplete bankErr s) := by
  refine inv_ite (inv_ite (inv_ite (inv_startStation <| inv_unless (inv_ite (inv_faultOnce h) h) inv_noteVerdict) (inv_startHeld <|
    inv_unless (inv_ite (inv_faultOnce h) h) inv_noteVerdict)) h) <| inv_ite h ?_
  split
  · exact h
  · exact inv_noteVerdict (inv_setCfg <| inv_ite (inv_faultOnce h) h)

theorem inv_startOver {powerGood : Bool} {cause : Nat} (h : Safety.Inv s) : Safety.Inv (startOver powerGood cause s) := by
  refine inv_event (inv_fresh ?_ rfl)
  show Memory.wf (if _ then _ else _) = true
  split
  · exact h.bank
  · rfl

theorem inv_powerGood {lvA lvB : Nat} {h1Fast h2Fast : Bool} (h : Safety.Inv s) : Safety.Inv (powerGood lvA lvB h1Fast h2Fast s) :=
  inv_ite ((inv_startOver h).of_parts rfl) h

theorem inv_powerFail {lvA lvB : Nat} {started : List Nat} (h : Safety.Inv s) : Safety.Inv (powerFail lvA lvB started s) := by
  have hsaved : ∀ u, Safety.Inv u → Safety.Inv { u with frame := { u.frame with emitSuppressed := true }, ledger := { u.ledger with savedOp := u.ledger.opS } } :=
    fun _ hu => hu.of_parts rfl
  have hnoted : Safety.Inv (event 0x0D03 (u8 (stateCode s.st) ++ u64 (frameIndex s) ++ u16 lvA ++ u16 lvB) (suppressSlots started
      { s with bring := { s.bring with powerFailEl := some (elNs s), lvA := lvA, lvB := lvB } })) :=
    inv_event (inv_suppressSlots (h.of_parts rfl))
  exact inv_ite (inv_drainQueue <| hsaved _ <| inv_when hnoted fun h1 => inv_releaseBetweenTicks (inv_event h1)) h

theorem inv_offState {vbak : Bool} (h : Safety.Inv s) : Safety.Inv (offState vbak s) := inv_fresh h.bank rfl

theorem inv_powerOff {vbak : Bool} {cut : Bytes} (h : Safety.Inv s) : Safety.Inv (powerOff vbak cut s) := by
  dsimp only [powerOff]
  split
  · exact inv_ite (inv_offState (inv_commitCut h)) h
  · exact h

theorem inv_moduleReset (h : Safety.Inv s) : Safety.Inv (moduleReset s) := by
  dsimp only [moduleReset]
  split
  · exact h
  · exact inv_ite h (inv_startOver (inv_drainQueue h))
  · exact inv_startOver (inv_drainQueue h)

theorem inv_selftestComplete {failed0 : Nat} (h : Safety.Inv s) : Safety.Inv (selftestComplete failed0 s) :=
  inv_ite (inv_ite ((inv_event h).of_parts rfl) (inv_endStep <| inv_when (inv_domainLosses (inv_event h)) inv_faultCond)) h

theorem inv_timeLockTimeout (h : Safety.Inv s) : Safety.Inv (timeLockTimeout s) := inv_ite (inv_bringProgress (inv_faultCond (h.of_parts rfl))) h

theorem inv_oscSetupTimeout (h : Safety.Inv s) : Safety.Inv (oscSetupTimeout s) := inv_ite (inv_bringProgress (inv_faultCond (h.of_parts rfl))) h

theorem inv_bringupTimeout (h : Safety.Inv s) : Safety.Inv (bringupTimeout s) := inv_ite (inv_faultCond h) h

/-! ### Acknowledgement, block resets and classes -/

theorem invReply_faultReadCmd {r : Request} (h : Safety.Inv s) : InvReply (faultReadCmd r s) := invReply_guard (invReply_guard h)

theorem invReply_faultAckCmd {r : Request} (h : Safety.Inv s) : InvReply (faultAckCmd r s) := by
  refine invReply_guard (inv_updateFlt (inv_event (h.of_src ((sorted_map _ (fun p => ?_) _).trans h.sources) rfl)))
  split <;> rfl

theorem inv_modSrc {code : Nat} {f : FaultSt → FaultSt} (h : Safety.Inv s) : Safety.Inv (modSrc code f s) := inv_setSrc h

theorem inv_firmwareAck {code : Nat} (h : Safety.Inv s) : Safety.Inv (firmwareAck code s) := inv_ite (inv_modSrc h) h

theorem inv_criticalReaction (h : Safety.Inv s) : Safety.Inv (criticalReaction s) :=
  inv_demandReset ((inv_releaseAtTick <| inv_ite (inv_event h) h).of_parts rfl)

theorem inv_sluiceExpiry {code : Nat} (h : Safety.Inv s) : Safety.Inv (sluiceExpiry code s) :=
  inv_ite (inv_ite (inv_criticalReaction (inv_event (inv_modSrc h))) <| inv_when (inv_event (inv_modSrc h)) fun h1 => inv_foldl
    (fun _ _ h2 => inv_holdBlock h2) h1) h

theorem inv_noteReset {a : Arr} (h : Safety.Inv s) : Safety.Inv (noteReset a s).2 := by
  unfold noteReset
  split
  · exact h.of_parts rfl
  · exact h.of_parts rfl

theorem inv_loseArray {a : Arr} (h : Safety.Inv s) : Safety.Inv (loseArray a s) := inv_degrade (inv_faultCond (inv_setCh h))

theorem inv_releaseBlock {b : Block} (h : Safety.Inv s) : Safety.Inv (releaseBlock b s) := h.of_parts rfl

theorem inv_arrayReset {a : Arr} {b : Block} {pass : Bool} (h : Safety.Inv s) : Safety.Inv (arrayReset a b pass s) :=
  inv_ite (inv_loseArray (inv_noteReset h)) (inv_releaseBlock (inv_noteReset h))

theorem inv_canRestart {c : Nat} (h : Safety.Inv s) : Safety.Inv (canRestart c s) := inv_canStart (inv_setSafe (h.of_parts rfl))

theorem inv_blockRestart {b : Block} (h : Safety.Inv s) : Safety.Inv (blockRestart b s) := by
  dsimp only [blockRestart]
  split
  · exact inv_groupTick (inv_stopGroup h)
  · exact inv_ite (inv_gnssStart h) h
  · exact inv_canRestart h
  · exact h

theorem inv_plainReset {b : Block} {pass : Bool} (h : Safety.Inv s) : Safety.Inv (plainReset b pass s) :=
  inv_unless (inv_blockRestart (inv_releaseBlock h)) fun h1 => inv_lossCheck (inv_raiseCore h1)

theorem inv_blockResetComplete {b : Block} {pass : Bool} (h : Safety.Inv s) : Safety.Inv (blockResetComplete b pass s) := by
  unfold blockResetComplete
  dsimp only
  refine inv_ite ?_ h
  split
  · exact inv_arrayReset (inv_event h)
  · exact inv_arrayReset (inv_event h)
  · exact inv_plainReset (inv_event h)

theorem inv_classRecovery {c : Nat} (h : Safety.Inv s) : Safety.Inv (classRecovery c s) := by
  unfold classRecovery
  exact inv_ite (inv_event (h.of_parts rfl)) h

theorem inv_wordCorrected {o : SramOwner} (h : Safety.Inv s) : Safety.Inv (wordCorrected o s) := by
  unfold wordCorrected
  exact inv_event (h.of_parts rfl)

theorem inv_arrayWord {a : Arr} {b : Block} (h : Safety.Inv s) : Safety.Inv (arrayWord a b s) :=
  inv_ite (inv_modSrc (inv_setArr (h.of_parts rfl))) (inv_faultShot (inv_setArr (h.of_parts rfl)))

theorem inv_checkpointWord (h : Safety.Inv s) : Safety.Inv (checkpointWord s) := inv_faultOnce <| inv_ite (h.of_parts rfl) (h.of_parts rfl)

theorem inv_uncorrectable {o : SramOwner} (h : Safety.Inv s) : Safety.Inv (uncorrectable o s) := by
  dsimp only [uncorrectable]
  split
  · exact inv_faultOnce h
  · exact inv_faultOnce h
  · exact inv_lockstep h
  · exact inv_arrayWord h
  · exact inv_arrayWord h
  · exact inv_checkpointWord h
  · exact inv_faultShot (inv_setGnss h)

theorem inv_sramScrub {o : SramOwner} {bits : Nat} (h : Safety.Inv s) : Safety.Inv (sramScrub o bits s) := by
  dsimp only [sramScrub]
  split
  · exact h
  · exact inv_ite h <| inv_ite (inv_wordCorrected h) <| inv_ite (inv_uncorrectable h) <| inv_ite (inv_uncorrectable
      (inv_nextFree h)) <| inv_when (inv_nextFree h) inv_wordCorrected

theorem inv_eccRate (h : Safety.Inv s) : Safety.Inv (eccRate s) := by
  dsimp only [eccRate]
  split
  · exact h
  · exact inv_when (inv_faultCond h) inv_degrade

/-! ### Commands of the mailboxes -/

theorem inv_decideState (h : Safety.Inv s) : Safety.Inv (decideState s) :=
  inv_ite (inv_with_st <| inv_when (inv_ite (h.of_parts rfl) h) inv_spDiscard) h

theorem inv_sendReports (h : Safety.Inv s) : Safety.Inv (sendReports s) := inv_emitAll h

theorem inv_tagExpiry {m : Nat} (h : Safety.Inv s) : Safety.Inv (tagExpiry m s) :=
  inv_setBox h (boxOk_mono (h.box m) (Nat.le_refl _) (List.length_filter_le ..))

/-- A session ends with an empty cache (R61). -/
theorem inv_endSession {m : Nat} (h : Safety.Inv s) : Safety.Inv (endSession m s) :=
  inv_when (inv_setBox h ⟨(h.box m).1, Nat.zero_le _⟩) fun h1 => h1.of_parts rfl

theorem invReply_cmdHello {r : Request} (h : Safety.Inv s) : InvReply (cmdHello r s) := by
  have he : Safety.Inv (endSession r.mbox s) := inv_endSession h
  exact invReply_guard <| invReply_guard <| invReply_ite he (inv_event (inv_setBox he (he.box r.mbox)))

theorem invReply_cmdStateRead {x : Request} (h : Safety.Inv s) : InvReply (cmdStateRead x s) := h

theorem inv_requestDp {tick : Nat} {v : Bool} (h : Safety.Inv s) : Safety.Inv (requestDp tick v s) :=
  inv_ite (h.of_parts rfl) <| inv_when (h.of_parts rfl) inv_decideState

theorem invReply_cmdModeSet {r : Request} (h : Safety.Inv s) : InvReply (cmdModeSet r s) :=
  invReply_guard (invReply_guard (invReply_guard (invReply_guard (invReply_guard (invReply_guard <| inv_unless
    (h.of_parts rfl) inv_requestDp)))))

theorem invReply_cmdFrameRead {r : Request} (h : Safety.Inv s) : InvReply (cmdFrameRead r s) := invReply_guard h

theorem invReply_cmdFrameSubscribe {r : Request} (h : Safety.Inv s) : InvReply (cmdFrameSubscribe r s) :=
  invReply_guard <| invReply_ite (inv_setBox h (h.box r.mbox)) <| invReply_guard <| inv_setBox h (h.box r.mbox)

theorem invReply_cmdTargetRead {x : Request} (h : Safety.Inv s) : InvReply (cmdTargetRead x s) := h

/-- Staged bytes keep the bank's canonical form (R80). -/
theorem invReply_cmdFwStage {readBackOk : Bool} {r : Request} (h : Safety.Inv s) : InvReply (cmdFwStage readBackOk r s) :=
  invReply_guard <| invReply_guard <| h.of_bank (fwWriteAll_wf _ _ h.bank) rfl

theorem invReply_cmdFwActivate {r : Request} (h : Safety.Inv s) : InvReply (cmdFwActivate r s) :=
  invReply_guard (invReply_guard <| invReply_ite (h.of_parts rfl) (h.of_parts rfl))

theorem invReply_cmdServiceChallenge {r : Request} (h : Safety.Inv s) : InvReply (cmdServiceChallenge r s) :=
  invReply_guard (inv_nextFree (h.of_parts rfl))

theorem invReply_respondFail (h : Safety.Inv s) : InvReply (respondFail s) := inv_unless (h.of_parts rfl) inv_event

theorem invReply_cmdServiceRespond {r : Request} (h : Safety.Inv s) : InvReply (cmdServiceRespond r s) := by
  refine invReply_guard ?_
  split
  · exact invReply_respondFail h
  · exact invReply_ite (h.of_parts rfl) (invReply_respondFail h)

theorem invReply_cmdServiceLock {x : Request} (h : Safety.Inv s) : InvReply (cmdServiceLock x s) := h.of_parts rfl

theorem inv_unlockTimeout (h : Safety.Inv s) : Safety.Inv (unlockTimeout s) := inv_ite (h.of_parts rfl) h

theorem inv_lockoutExpiry (h : Safety.Inv s) : Safety.Inv (lockoutExpiry s) := by
  dsimp only [lockoutExpiry]
  split
  · exact inv_ite (h.of_parts rfl) h
  · exact h

theorem inv_usbDetach (h : Safety.Inv s) : Safety.Inv (usbDetach s) := by
  have he : Safety.Inv (endSession 0 s) := inv_endSession h
  have hd : Safety.Inv (setBox 0 { boxOf (endSession 0 s) 0 with queue := [] } (endSession 0 s)) := inv_setBox he ⟨Nat.zero_le _, (he.box 0).2⟩
  exact hd.of_parts rfl

end Sys2Proof.Machine
end

section
/-! SUPPORT. The frame keeps the invariant: its history holds the last 64 frames, and the sources keep their order (01 R31; 19 R488). -/

namespace Sys2Proof.Machine

open Sys2Proof.Safety

variable {s : State}

/-! ### Ticks, phases and emission -/

theorem inv_tickBeat (h : Safety.Inv s) : Safety.Inv (tickBeat s) := inv_ite (inv_unless (inv_ite h (inv_renew h)) inv_sendBeat) h

theorem inv_tickWork (h : Safety.Inv s) : Safety.Inv (tickWork s) :=
  inv_endCond (inv_dropPrepare (inv_lockTick <| inv_when (inv_when (inv_analogTick (inv_floodTick (inv_closeIntake (inv_serveAll h))))
    fun h1 => inv_gnssRegime (inv_chTick h1)) inv_fusionStart))

theorem inv_tickState (h : Safety.Inv s) : Safety.Inv (tickState s) :=
  inv_ite (inv_decideState (by split; exacts [inv_ite (h.of_parts rfl) h, h])) h

theorem inv_openFrame (h : Safety.Inv s) : Safety.Inv (openFrame s) := (inv_rebase h).of_parts rfl

theorem inv_endShots (h : Safety.Inv s) : Safety.Inv (endShots s) := by
  refine h.of_src ((sorted_map _ (fun p => ?_) _).trans h.sources) rfl
  split <;> rfl

/-- The history keeps the last 64 frames (R31). -/
theorem inv_closeFrame {stopped : List Engine} (h : Safety.Inv s) : Safety.Inv (closeFrame stopped s) := by
  have hhist : (if decide (s.frame.ticEl ≠ 0) = true then
      ((frameIndex s, statusWord { s.frame.status with overrun := !stopped.isEmpty }) :: s.frame.history).take 64
      else s.frame.history).length ≤ 64 := by
    split
    · rw [List.length_take]
      exact Nat.min_le_left ..
    · exact h.history
  exact inv_unless (inv_endShots (inv_endCond (h.of_history hhist rfl))) fun h1 => inv_faultShot (h1.of_parts rfl)

theorem inv_frameTick {stopped : List Engine} (h : Safety.Inv s) : Safety.Inv (frameTick stopped s) :=
  inv_ite (inv_mokAtTick (inv_tickBeat (inv_tickWork (inv_tickState (inv_openFrame (inv_closeFrame h)))))) h

theorem inv_placeCommand {n : Nat} (h : Safety.Inv s) : Safety.Inv (placeCommand n s).1 := inv_placeTelegram h

theorem inv_placeKind1 {unplaced : List Nat} (h : Safety.Inv s) : Safety.Inv (placeKind1 unplaced s) :=
  inv_ite (inv_foldl (fun _ _ h1 => inv_ite (inv_setSlot (inv_placeCommand h1)) h1) h) h

theorem inv_p5Begin {r : PhaseIn} (h : Safety.Inv s) : Safety.Inv (p5Begin r s) :=
  inv_ite ((inv_placeKind1 (inv_announcePulse (inv_applyOutputs h))).of_parts rfl) h

theorem inv_phaseBegin {p : Nat} {r : PhaseIn} (h : Safety.Inv s) : Safety.Inv (phaseBegin p r s) :=
  inv_ite (inv_p5Begin (h.of_parts rfl)) <| inv_when (h.of_parts rfl) fun h1 => h1.of_parts rfl

theorem inv_stampPhase {p : Nat} {late : Bool} {margin : Nat} (h : Safety.Inv s) : Safety.Inv (stampPhase p late margin s) := h.of_parts rfl

theorem inv_notePhase {p : Nat} {late : Bool} {margin : Nat} (h : Safety.Inv s) : Safety.Inv (notePhase p late margin s) :=
  inv_when (inv_stampPhase h) inv_faultOnce

theorem invReply_boundEffect {r : Request} (h : Safety.Inv s) : InvReply (boundEffect r s) :=
  invReply_ite (invReply_ite (invReply_cmdTargetSet h) trivial) <| invReply_ite (invReply_ite (invReply_cmdPushSet h) trivial) <|
    invReply_ite (invReply_cmdTargetStop h) (invReply_cmdLockChange h)

theorem inv_storeAnswer {r : Request} {msg : Bytes} (h : Safety.Inv s) : Safety.Inv (storeAnswer r msg s) :=
  inv_setBox h (boxOk_answerFirst (h.box r.mbox))

theorem inv_applyRequest {r : Request} (h : Safety.Inv s) : Safety.Inv (applyRequest r s) := by
  have he : InvReply (boundEffect r s) := invReply_boundEffect h
  unfold applyRequest
  split
  · rename_i hok
    rw [hok] at he
    exact inv_storeAnswer he
  · exact inv_storeAnswer h
  · rename_i hfail
    rw [hfail] at he
    exact inv_storeAnswer he

theorem inv_applyAll (h : Safety.Inv s) : Safety.Inv (applyAll s) := inv_foldl (fun _ _ h1 => inv_applyRequest h1) h

theorem inv_p0End {late : Bool} (h : Safety.Inv s) : Safety.Inv (p0End late s) :=
  inv_when (inv_serveAll (h.of_parts rfl)) fun h1 => inv_applyAll <| inv_ite h1 (inv_latchNav (inv_armStep (inv_armStep
    (inv_takeSnapshot h1))))

theorem inv_p1End {late : Bool} (h : Safety.Inv s) : Safety.Inv (p1End late s) := by
  unfold p1End
  exact inv_ite (inv_when (inv_ite (inv_fusionLate h) (inv_fusionP1 h)) inv_bringComplete) h

theorem inv_udpConn {n room : Nat} (h : Safety.Inv s) : Safety.Inv (udpConn n room s).1 := by
  unfold udpConn
  dsimp only
  split
  · split
    · split
      · exact inv_placeCommand h
      · exact inv_sendUdp (inv_placeCommand h)
    · exact h
  · split
    · exact inv_sendSetup (inv_sendUdp h)
    · exact h

theorem inv_udpAll {room : Nat} (h : Safety.Inv s) : Safety.Inv (udpAll room s).1 := by
  unfold udpAll
  generalize enumFrom 0 s.cfg.img.osc.conns = conns
  generalize ([] : List Nat) = sent
  induction conns generalizing s room sent with
  | nil => exact h
  | cons p ps ih =>
    rw [List.foldl_cons]
    split
    · exact ih (inv_udpConn h) _
    · exact ih h _

theorem inv_placeKind2 {late : Bool} {placed : List Nat} (h : Safety.Inv s) : Safety.Inv (placeKind2 late placed s) :=
  inv_foldl (fun t _ ht => inv_ite (inv_setSlot (inv_placeTelegram (type := 4) (data := mstatusData t) ht)) ht) h

theorem inv_releaseHeld (h : Safety.Inv s) : Safety.Inv (releaseHeld s) :=
  inv_foldl (fun _ m ht => inv_ite (inv_serve (inv_setBox ht (boxOk_map (ht.box m)))) ht) h

theorem inv_p5End {late : Bool} {r : PhaseIn} (h : Safety.Inv s) : Safety.Inv (p5End late r s) := by
  have hcut : ∀ u, Safety.Inv u → ∀ os d, Safety.Inv { u with out := os, frame := { u.frame with p5Done := d } } := fun _ hu _ _ => hu.of_parts rfl
  have hmeasured : Safety.Inv (chMeasure r.pInMw r.plate1 r.plate2 r.pDomain s) := inv_chMeasure h
  refine inv_when hmeasured fun h1 => hcut _ ?_ _ _
  exact inv_sendReports <| inv_stampPhase <| inv_releaseHeld <| inv_when (inv_placeKind2 (inv_udpAll h1)) inv_allocEmitted

theorem inv_p6End {late : Bool} (h : Safety.Inv s) : Safety.Inv (p6End late s) := inv_ite (inv_unless (inv_chDecide h) inv_sendCheckpoint) h

theorem inv_phaseEnd {p : Nat} {late : Bool} {r : PhaseIn} (h : Safety.Inv s) : Safety.Inv (phaseEnd p late r s) := by
  dsimp only [phaseEnd]
  split
  · exact inv_p0End h
  · exact inv_p1End h
  · exact inv_ite (inv_p2End h) h
  · exact inv_ite (inv_p3Run h) h
  · exact inv_ite (inv_p4End (inv_chEnergies h)) h
  · exact inv_p5End h
  · exact inv_p6End h

theorem inv_phaseBoundary {r : PhaseIn} (h : Safety.Inv s) : Safety.Inv (phaseBoundary r s) :=
  inv_ite (inv_phaseBegin (inv_notePhase (inv_phaseEnd h))) h

theorem inv_modeChange (h : Safety.Inv s) : Safety.Inv (modeChange s) := by
  dsimp only [modeChange]
  split
  · exact inv_ite (h.of_parts rfl) h
  · exact h

theorem inv_boundRow {word m : Nat} (h : Safety.Inv s) : Safety.Inv (boundRow word m s) := by
  dsimp only [boundRow]
  split
  · exact inv_ite (inv_applyRequest h) h
  · exact h

end Sys2Proof.Machine
end

section
/-! SUPPORT. Every command, and so every step, keeps the invariant. -/

namespace Sys2Proof.Machine

open Sys2Proof.Safety

variable {s : State}

theorem inv_of_next {u t : State} (hu : Safety.Inv u) (h : Host.Outcome.next (settle u) = (.next t : Host.Outcome State Fault Refusal)) : Safety.Inv t := by
  injection h with h
  exact h ▸ inv_settle hu

/-- Every command keeps the invariant: its effect does, at the instant of the command. -/
theorem inv_exec {c : Instr} {t : State} (h : Safety.Inv s) (hx : exec c s = .next t) : Safety.Inv t := by
  have ha : ∀ {dt}, Safety.Inv (advance s dt) := inv_advance h
  cases c with
  | frameTick _ _ => exact inv_of_next (inv_frameTick ha) hx
  | phaseBoundary _ _ => exact inv_of_next (inv_phaseBoundary ha) hx
  | lateRunFault _ => exact inv_of_next (inv_ite (inv_faultCond ha) ha) hx
  | timebaseStep _ => exact inv_of_next (inv_timebaseStep ha) hx
  | modeChangeTick _ => exact inv_of_next (inv_modeChange ha) hx
  | trigPulse _ _ => exact inv_of_next (inv_trigPulse ha) hx
  | trigPulseEnd _ _ => exact inv_of_next (inv_trigEnd ha) hx
  | solveComplete _ _ _ => exact inv_of_next (inv_solveComplete ha) hx
  | oxmpRequestArrival _ _ _ _ => exact inv_of_next (inv_arrive ha) hx
  | tagCacheExpiry _ _ => exact inv_of_next (inv_tagExpiry ha) hx
  | hello _ _ => exact inv_of_next (inv_runImmediate (fun _ => invReply_cmdHello ha) ha) hx
  | stateRead _ _ => exact inv_of_next (inv_runImmediate (fun _ => invReply_cmdStateRead ha) ha) hx
  | modeSet _ _ => exact inv_of_next (inv_runImmediate (fun _ => invReply_cmdModeSet ha) ha) hx
  | frameRead _ _ => exact inv_of_next (inv_runImmediate (fun _ => invReply_cmdFrameRead ha) ha) hx
  | frameSubscribe _ _ => exact inv_of_next (inv_runImmediate (fun _ => invReply_cmdFrameSubscribe ha) ha) hx
  | targetSet _ _ => exact inv_of_next (inv_boundRow ha) hx
  | targetStop _ _ => exact inv_of_next (inv_boundRow ha) hx
  | targetRead _ _ => exact inv_of_next (inv_runImmediate (fun _ => invReply_cmdTargetRead ha) ha) hx
  | pushSet _ _ => exact inv_of_next (inv_boundRow ha) hx
  | configStage _ _ => exact inv_of_next (inv_runImmediate (fun _ => invReply_cmdStage ha) ha) hx
  | stagingGrantExpiry _ => exact inv_of_next (inv_grantExpiry ha) hx
  | configCommit _ _ _ => exact inv_of_next (inv_runImmediate (fun _ => invReply_cmdCommit ha) ha) hx
  | configRead _ _ => exact inv_of_next (inv_runImmediate (fun _ => invReply_cmdConfigRead ha) ha) hx
  | configAbort _ _ => exact inv_of_next (inv_runImmediate (fun _ => invReply_cmdAbort ha) ha) hx
  | imageVerificationComplete _ _ => exact inv_of_next (inv_verificationComplete ha) hx
  | imageEffect _ => exact inv_of_next (inv_imageEffect ha) hx
  | ledgerWindow _ _ => exact inv_of_next (inv_runImmediate (fun _ => invReply_cmdLedgerWindow ha) ha) hx
  | ledgerRead _ _ _ => exact inv_of_next (inv_runImmediate (fun _ => invReply_cmdLedgerRead ha) ha) hx
  | timeRead _ _ => exact inv_of_next (inv_runImmediate (fun _ => invReply_cmdTimeRead ha) ha) hx
  | timeSet _ _ => exact inv_of_next (inv_runImmediate (fun _ => invReply_cmdTimeSet ha) ha) hx
  | snap _ => exact inv_of_next (inv_opSnap ha) hx
  | commit _ => exact inv_of_next (inv_unlessFollowing inv_opCommit ha) hx
  | stDate _ _ => exact inv_of_next (inv_unlessFollowing inv_opStDate ha) hx
  | stTime _ _ => exact inv_of_next (inv_unlessFollowing inv_opStTime ha) hx
  | status _ _ => exact inv_of_next (inv_opStatus ha) hx
  | rawWindowWrite _ _ _ => exact inv_of_next (inv_rawPlain ha) hx
  | timeAdjust _ _ => exact inv_of_next (inv_runImmediate (fun _ => invReply_cmdTimeAdjust ha) ha) hx
  | alarmSet _ _ => exact inv_of_next (inv_runImmediate (fun _ => invReply_cmdAlarmSet ha) ha) hx
  | faultRead _ _ => exact inv_of_next (inv_runImmediate (fun _ => invReply_faultReadCmd ha) ha) hx
  | faultAck _ _ => exact inv_of_next (inv_runImmediate (fun _ => invReply_faultAckCmd ha) ha) hx
  | lockChange _ _ => exact inv_of_next (inv_boundRow ha) hx
  | fwStage _ _ _ => exact inv_of_next (inv_runImmediate (fun _ => invReply_cmdFwStage ha) ha) hx
  | fwActivate _ _ => exact inv_of_next (inv_runImmediate (fun _ => invReply_cmdFwActivate ha) ha) hx
  | serviceChallenge _ _ => exact inv_of_next (inv_runImmediate (fun _ => invReply_cmdServiceChallenge ha) ha) hx
  | serviceRespond _ _ => exact inv_of_next (inv_runImmediate (fun _ => invReply_cmdServiceRespond ha) ha) hx
  | serviceLock _ _ => exact inv_of_next (inv_runImmediate (fun _ => invReply_cmdServiceLock ha) ha) hx
  | serviceUnlockTimeout _ => exact inv_of_next (inv_unlockTimeout ha) hx
  | serviceLockoutExpiry _ => exact inv_of_next (inv_lockoutExpiry ha) hx
  | usbDetach _ => exact inv_of_next (inv_usbDetach ha) hx
  | sentenceReceive _ _ _ _ _ => exact inv_of_next (inv_ite (inv_sentenceReceive ha) ha) hx
  | serialUnlock _ _ => exact inv_of_next (inv_serialUnlock ha) hx
  | serialUnlockedFault _ _ => exact inv_of_next (inv_serialUnlockedFault ha) hx
  | floodFault _ _ => exact inv_of_next (inv_floodFault ha) hx
  | malformedRateFault _ _ => exact inv_of_next (inv_malformedRateFault ha) hx
  | datagram450Receive _ _ _ => exact inv_of_next (inv_datagram450 ha) hx
  | udpBinaryReceive _ _ _ _ _ => exact inv_of_next (inv_ite (inv_queueMessage ha) ha) hx
  | canFrameReceive _ _ _ _ _ => exact inv_of_next (inv_canFrame ha) hx
  | inputWindowEnd _ _ => exact inv_of_next (inv_inputWindow ha) hx
  | captureEdge _ _ _ => exact inv_of_next (by split; exacts [ha, inv_captureEdge ha]) hx
  | groupStart _ _ => exact inv_of_next (inv_groupStart ha) hx
  | analogSample _ _ _ => exact inv_of_next (inv_analogSample ha) hx
  | modulatorOverload _ _ => exact inv_of_next (inv_modulatorOverload ha) hx
  | modulatorRestart _ _ => exact inv_of_next (inv_modulatorRestart ha) hx
  | analogChannelFault _ _ => exact inv_of_next (inv_analogChannelFault ha) hx
  | intakeCounterSecond _ => exact inv_of_next (by split; exacts [ha, inv_counterSecond ha]) hx
  | gnssMeasurementEpoch _ _ => exact inv_of_next (inv_measurementEpoch ha) hx
  | navigationWord _ _ => exact inv_of_next (inv_navigationWord ha) hx
  | navSolutionComplete _ _ => exact inv_of_next (inv_navSolution ha) hx
  | gnssBurst _ => exact inv_of_next (inv_gnssBurst ha) hx
  | gnssSleep _ _ => exact inv_of_next (inv_gnssSleep ha) hx
  | gnssWake _ => exact inv_of_next (inv_gnssWake ha) hx
  | noFullSolutionFault _ => exact inv_of_next (inv_noFullFault ha) hx
  | antennaOpen _ => exact inv_of_next (inv_antennaOpen ha) hx
  | antennaShort _ => exact inv_of_next (inv_antennaShort ha) hx
  | biasRetry _ => exact inv_of_next (inv_biasRetry ha) hx
  | skewRelearn _ _ => exact inv_of_next (inv_skewRelearn ha) hx
  | awaitTimeout _ _ => exact inv_of_next (inv_awaitTimeout ha) hx
  | drLimit _ _ => exact inv_of_next (inv_drLimit ha) hx
  | kindNotValidFault _ _ => exact inv_of_next (inv_kindNotValid ha) hx
  | blendEnd _ => exact inv_of_next (inv_blendEnd ha) hx
  | controlPersistFault _ _ => exact inv_of_next (inv_controlPersist ha) hx
  | moveAtRest _ => exact inv_of_next (inv_moveAtRest ha) hx
  | pushRampEnd _ => exact inv_of_next (inv_pushRampRow ha) hx
  | slackFault _ => exact inv_of_next (inv_slackFault ha) hx
  | exceedFault _ _ => exact inv_of_next (inv_exceedFault ha) hx
  | holdShiftFault _ => exact inv_of_next (inv_holdShiftFault ha) hx
  | solverRunFault _ _ => exact inv_of_next (inv_solverRunFault ha) hx
  | conseqFault _ => exact inv_of_next (inv_conseqFault ha) hx
  | coverAgeFault _ => exact inv_of_next (inv_coverAgeFault ha) hx
  | shadowCutFault _ => exact inv_of_next (inv_shadowCutFault ha) hx
  | beatReceive _ _ _ => exact inv_of_next (inv_beatReceive ha) hx
  | checkpointFragment _ _ _ => exact inv_of_next (inv_checkpointFragment ha) hx
  | rafogerForward _ _ _ _ => exact inv_of_next (inv_forward ha) hx
  | rafogerDropSecond _ => exact inv_of_next (inv_dropSecond ha) hx
  | pathDown _ _ _ _ => exact inv_of_next (inv_pathDown ha) hx
  | discoveryEnd _ => exact inv_of_next (inv_discoveryEnd ha) hx
  | electionClaim _ _ => exact inv_of_next (inv_electionClaim ha) hx
  | leaseEnd _ => exact inv_of_next (inv_leaseEnd ha) hx
  | leaseClaim _ _ => exact inv_of_next (inv_leaseClaim ha) hx
  | leasePass _ => exact inv_of_next (inv_leasePass ha) hx
  | leaseYield _ => exact inv_of_next (inv_leaseYield ha) hx
  | lockChangePrepare _ => exact inv_of_next (inv_lockPrepare ha) hx
  | lockChangeRelease _ => exact inv_of_next (inv_lockRelease ha) hx
  | targetClaim _ _ => exact inv_of_next (inv_targetClaim ha) hx
  | checkpointFallback _ => exact inv_of_next (inv_checkpointFallback ha) hx
  | periodAdopt _ => exact inv_of_next (inv_periodAdopt ha) hx
  | lockDrillOverdue _ => exact inv_of_next (inv_ite (inv_faultCond ha) ha) hx
  | powerGood _ _ _ _ _ => exact inv_of_next (inv_powerGood ha) hx
  | powerFail _ _ _ _ => exact inv_of_next (inv_powerFail ha) hx
  | powerOff _ _ => exact inv_of_next (inv_powerOff ha) hx
  | moduleReset _ => exact inv_of_next (inv_moduleReset ha) hx
  | selftestComplete _ _ => exact inv_of_next (inv_selftestComplete ha) hx
  | timeLockTimeout _ => exact inv_of_next (inv_timeLockTimeout ha) hx
  | oscSetupTimeout _ => exact inv_of_next (inv_oscSetupTimeout ha) hx
  | bringupTimeout _ => exact inv_of_next (inv_bringupTimeout ha) hx
  | ptpMessage _ _ _ => exact inv_of_next (by split; exacts [ha, inv_ptpReceive ha]) hx
  | sourceLoss _ _ _ => exact inv_of_next (by split; exacts [ha, inv_sourceLoss ha]) hx
  | permitExpiry _ => exact inv_of_next (inv_permitExpiry ha) hx
  | timeNotLockedFault _ => exact inv_of_next (inv_notLockedFault ha) hx
  | rtcSecondCarry _ => exact inv_of_next (inv_secondCarry ha) hx
  | oscillatorStop _ => exact inv_of_next (inv_oscStop ha) hx
  | pdBkReset _ => exact inv_of_next (inv_bkReset ha) hx
  | rtcFollowCheck _ => exact inv_of_next (inv_followCheck ha) hx
  | ppsOutPulse _ => exact inv_of_next (inv_ppsPulse ha) hx
  | ppsOutPulseEnd _ => exact inv_of_next (inv_ppsEnd ha) hx
  | slotStart _ _ _ => exact inv_of_next (inv_slotStart ha) hx
  | slotEnd _ _ _ _ => exact inv_of_next (inv_slotEnd ha) hx
  | safetySlotStart _ _ => exact inv_of_next (inv_safetySlotStart ha) hx
  | canTxComplete _ _ _ _ _ => exact inv_of_next (inv_txComplete ha) hx
  | busoffHoldExpiry _ _ => exact inv_of_next (inv_busoffHold ha) hx
  | busoffRecovered _ _ => exact inv_of_next (inv_busoffRecovered ha) hx
  | canCounterSecond _ => exact inv_of_next (by split; exacts [ha, inv_canSecond ha]) hx
  | slotRunFault _ _ _ => exact inv_of_next (inv_slotRunFault ha) hx
  | safetyCycle _ _ _ _ => exact inv_of_next (inv_safetyCycle ha) hx
  | soRefreshTimeout _ _ => exact inv_of_next (inv_soTimeout ha) hx
  | lockstepMismatch _ => exact inv_of_next (inv_lockstep ha) hx
  | discrepancy _ _ => exact inv_of_next (inv_discrepancy ha) hx
  | stuckReset _ _ => exact inv_of_next (inv_stuckReset ha) hx
  | edmCheck _ _ => exact inv_of_next (inv_edmCheck ha) hx
  | soTestPulse _ _ _ => exact inv_of_next (inv_soTestPulse ha) hx
  | proofTestOverdue _ _ => exact inv_of_next (inv_proofOverdue ha) hx
  | fieldSupplyRecovered _ _ _ => exact inv_of_next (inv_supplyRecovered ha) hx
  | oscTelegramReceive _ _ _ => exact inv_of_next (inv_oscArrive ha) hx
  | setupAck _ _ _ => exact inv_of_next (inv_ite (inv_setupAck ha) ha) hx
  | oscWatchdogExpiry _ _ => exact inv_of_next (inv_watchdogRow ha) hx
  | outputOverload _ _ => exact inv_of_next (inv_latchDo ha) hx
  | outputOverheat _ _ => exact inv_of_next (inv_latchDo ha) hx
  | groupOvercurrent _ _ _ => exact inv_of_next (inv_groupOvercurrent ha) hx
  | firmwareAck _ _ => exact inv_of_next (inv_firmwareAck ha) hx
  | sluiceExpiry _ _ => exact inv_of_next (inv_sluiceExpiry ha) hx
  | blockResetComplete _ _ _ => exact inv_of_next (inv_blockResetComplete ha) hx
  | classRecovery _ _ => exact inv_of_next (inv_classRecovery ha) hx
  | fltNHoldExpiry _ => exact inv_of_next (inv_updateFlt ha) hx
  | sramScrub _ _ _ => exact inv_of_next (inv_sramScrub ha) hx
  | eccRateWindow _ => exact inv_of_next (inv_eccRate ha) hx
  | ledgerRecordWrite _ _ => exact inv_of_next (inv_writeRecord ha) hx
  | canReceiveError _ _ => exact inv_of_next (inv_receiveError ha) hx
  | canProtocolException _ _ => exact inv_of_next (inv_protocolException ha) hx
  | operatingSecondsSave _ => exact inv_of_next (inv_saveOp ha) hx
  | ptpMessageSend _ _ _ => exact inv_of_next (by split; exacts [ha, inv_ptpSend ha]) hx

/-- A step takes the front command off the queue, of which the invariant does not speak. -/
theorem inv_step {t : State} (h : Safety.Inv s) (hx : step s = .next t) : Safety.Inv t := by
  unfold step at hx
  split at hx
  · injection hx with hx
    exact hx ▸ h
  · rename_i c q _
    have hq : Safety.Inv { s with pending := q } := h.of_parts rfl
    exact inv_exec hq hx

/-- Settles O2: nothing is queued, cached, written or raised at reset. -/
theorem invariantAtReset : Obligations.InvariantAtReset := inv_fresh rfl rfl

/-- Settles O3: a step is a command's effect at its instant, and every effect keeps the invariant. -/
theorem invariantKept : Obligations.InvariantKept := fun _ _ h hx => inv_step h hx

end Sys2Proof.Machine
end

section
/-! PROPERTY. MODE_CHANGE_TICK, and the conditions of intake, frames, drills and proof tests (01 R29, R37, R40; 04 Table 4-4; 12 R339; 17 R468). -/

namespace Sys2Proof.Machine

open Sys2Proof.Safety

/-- A pending mode enters exactly at a tick on the grid of 40 ms that is due and not before its change tick (01 R37). -/
theorem modeChange_of_pending {u : State} {m ct : Nat} (hrun : u.frame.running = true) (hpend : u.frame.pendingMode = some (m, ct)) :
    modeChange u = if ct ≤ u.frame.nextTick ∧ u.frame.nextTick ≤ nowNs u ∧ u.frame.nextTick % 40000000 = 0 then
        { u with frame := { u.frame with mode := m, pendingMode := none }, obs := { u.obs with notchPrime := true } }
      else u := by
  simp only [modeChange, hpend, hrun, true_and]

/-- Settles O17: the conditions of the row are those of `modeChange`, whose effect is the state named. -/
theorem modeChangeTickEntersThePendingMode : Obligations.ModeChangeTickEntersThePendingMode := by
  intro dt m ct s u hrun hpend
  have heq := modeChange_of_pending hrun hpend
  refine ⟨fun hct hnow hgrid => gives_of_settle rfl ?_, fun hnot => gives_of_settle rfl ?_⟩
  · exact heq.trans (if_pos ⟨hct, hnow, hgrid⟩)
  · exact heq.trans (if_neg (by omega))

/-- A row that raises a condition source where its condition holds and only lets time pass elsewhere. -/
theorem raises_iff_cond {c : Instr} {s u : State} {code : Nat} {p : Prop} [Decidable p]
    (hc : exec c s = .next (settle (if p then faultCond code true u else u))) (hu : u.st ≠ .off) :
    (p → Raises c s code u) ∧ (¬p → Gives c s u) := by
  refine ⟨fun hp => ?_, fun hp => ?_⟩
  · rw [if_pos hp] at hc
    exact raises_of_cond s hc hu rfl
  · exact gives_of_settle hc (if_neg hp)

/-- The same row, its condition said in other words. -/
theorem raises_iff {c : Instr} {s u : State} {code : Nat} {p q : Prop} [Decidable p]
    (hc : exec c s = .next (settle (if p then faultCond code true u else u))) (hu : u.st ≠ .off) (hpq : p ↔ q) :
    (q → Raises c s code u) ∧ (¬q → Gives c s u) := by
  rw [← hpq]
  exact raises_iff_cond hc hu

theorem lateRun3_iff (u : State) : lateRun3 u = true ↔ ∃ n ∈ u.frame.lateRun, 3 ≤ n := by
  simp [lateRun3]

theorem portUnlocked10_iff (u : State) (p : Nat) : portUnlocked10 u p = true ↔
    onDuty u.st = true ∧ (nth {} u.intake.ports p).baud = 0 ∧ (nth {} u.intake.ports p).unlockEl + 10000000000 ≤ elNs u ∧
      ∃ e ∈ u.cfg.img.map, e.kind = 1 ∧ e.port = p := by
  simp [portUnlocked10, and_assoc]

theorem drillOverdue_iff (u : State) : drillOverdue u = true ↔
    u.st = .standby ∧ u.cfg.img.lock.lockDrillDays ≠ 0 ∧
      ∃ d, u.lock.drillOp = some d ∧ d + u.cfg.img.lock.lockDrillDays * 86400 < u.ledger.opS := by
  cases hd : u.lock.drillOp with
  | none => simp [drillOverdue, hd]
  | some d => simp [drillOverdue, hd, and_assoc]

/-- Settles O22: each of the six rows is a condition source. -/
theorem intakeAndFrameConditionsRaise : Obligations.IntakeAndFrameConditionsRaise := by
  intro dt p s u q lateRun unlocked drill proof hs
  have hu : u.st ≠ .off := hs
  obtain ⟨hlate, hlate'⟩ := raises_iff (c := .lateRunFault dt) (s := s) rfl hu (lateRun3_iff u)
  obtain ⟨hser, hser'⟩ := raises_iff (c := .serialUnlockedFault dt p) (s := s) rfl hu (portUnlocked10_iff u p)
  obtain ⟨hflood, hflood'⟩ := raises_iff_cond (c := .floodFault dt p) (s := s) (p := 20 ≤ q.floodRun) rfl hu
  obtain ⟨hrate, hrate'⟩ := raises_iff_cond (c := .malformedRateFault dt p) (s := s) (p := q.rateBad = true) rfl hu
  obtain ⟨hdrill, hdrill'⟩ := raises_iff (c := .lockDrillOverdue dt) (s := s) rfl hu (drillOverdue_iff u)
  obtain ⟨hproof, hproof'⟩ := raises_iff_cond (c := .proofTestOverdue dt p) (s := s) (p := proof) rfl hu
  exact ⟨hlate, hlate', hser, hser', hflood, fun h => hflood' (by omega), hrate, fun h => hrate' (by simp [h]), hdrill, hdrill', hproof, hproof'⟩

end Sys2Proof.Machine
end

section
/-! PROPERTY. TIMEBASE_STEP (01 R20; 14 R375). -/

namespace Sys2Proof.Machine

open Sys2Proof.Safety

/-- What a step writes of the clock, of the frame and of the timebase's queue. -/
abbrev stepParts (s : State) : Clock × FrameSt × Option Int := (s.clk, { s.frame with emitSuppressed := false }, s.time.stepQueued)

/-- Recording an event or raising a fault leaves those parts. -/
theorem stepParts_of_rest {s t : State} (e : rest t = rest s) : stepParts t = stepParts s :=
  have he : stepParts (rest t) = stepParts (rest s) := congrArg stepParts e
  he

theorem timeFaults_rest (s : State) : rest (timeFaults s) = rest s := by
  unfold timeFaults
  dsimp only
  split
  · simp only [faultCond_rest]
  · simp only [faultCond_rest]

/-- The timebase's state is none of the parts a step writes. -/
theorem setTb_stepParts (x : TbState) (s : State) : stepParts (setTb x s) = stepParts s := by
  unfold setTb
  split
  · rfl
  · rw [stepParts_of_rest (timeFaults_rest _), stepParts_of_rest (event_rest _ _ _)]

/-- The first multiple of a period at or after an instant. -/
def firstMultiple (p a : Nat) : Nat := (a + p - 1) / p * p

theorem firstMultiple_spec {p : Nat} (hp : 0 < p) (a : Nat) :
    firstMultiple p a % p = 0 ∧ a ≤ firstMultiple p a ∧ firstMultiple p a < a + p := by
  unfold firstMultiple
  have hdiv : (a + p - 1) / p * p + (a + p - 1) % p = a + p - 1 := Nat.div_add_mod' _ _
  have hmod : (a + p - 1) % p < p := Nat.mod_lt _ hp
  exact ⟨Nat.mul_mod_left _ _, by omega, by omega⟩

theorem periodNs_pos (m : Nat) : 0 < periodNs m := Nat.mul_pos (by decide) (Nat.two_pow_pos _)

/-- The timebase after a step of `theta` ns. -/
def steppedTb (u : State) (theta : Int) : Nat := ((u.clk.tb : Int) + theta * tbUnit).toNat

/-- The least instant at which the stretched frame may end: T_F of elapsed time after it began, on the stepped timebase. -/
def stretchedEnd (u : State) (theta : Int) : Nat := steppedTb u theta / tbUnit + (u.frame.ticEl + periodNs u.frame.mode - elNs u)

/-- What follows the writes of a step, the source's state and the time faults, leaves those parts. -/
theorem freed_stepParts (p : Prop) [Decidable p] (v : State) :
    stepParts (timeFaults (if p then setTb .free { v with time := { v.time with stepFree := false } } else v)) = stepParts v := by
  rw [stepParts_of_rest (timeFaults_rest _)]
  split
  · exact setTb_stepParts _ _
  · rfl

/-- What a step applied in the guard window leaves of the clock, the frame and the queue. -/
theorem timebaseStep_stepParts {u : State} {theta : Int} (hq : u.time.stepQueued = some theta) (hphase : u.frame.phase = 7)
    (hrun : u.frame.running = true) (hdefer : u.time.deferTo = none) :
    stepParts (timebaseStep u) = ({ u.clk with tb := steppedTb u theta, slewLeft := 0 },
      { u.frame with
        emitSuppressed := false, status := { u.frame.status with stretch := true }
        nextTick := firstMultiple (periodNs u.frame.mode) (stretchedEnd u theta) },
      none) := by
  unfold timebaseStep
  rw [hq]
  dsimp only
  rw [if_pos ⟨hphase, hdefer, hrun⟩]
  exact (freed_stepParts _ _).trans ((stepParts_of_rest (event_rest _ _ _)).trans (stepParts_of_rest (event_rest _ _ _)))

theorem timebaseStep_of_not {u : State}
    (h : u.time.stepQueued = none ∨ u.frame.phase ≠ 7 ∨ u.frame.running = false ∨ u.time.deferTo ≠ none) : timebaseStep u = u := by
  unfold timebaseStep
  split
  · rfl
  · rename_i theta hq
    refine if_neg fun hc => ?_
    obtain ⟨hphase, hdefer, hrun⟩ := hc
    simp [hq, hphase, hdefer, hrun] at h

theorem steppedTb_eq (u : State) (theta : Int) : steppedTb u theta = ((u.clk.tb : Int) + theta * 2 ^ 32).toNat := by
  simp [steppedTb, tbUnit]

/-- Settles O27: the parts a step writes, and the first multiple of the period at or after the least end. -/
theorem timebaseStepStretchesTheFrame : Obligations.TimebaseStepStretchesTheFrame := by
  intro dt theta s u p tb' least
  refine ⟨fun hq hphase hrun hdefer => ⟨settle (timebaseStep u), rfl, ?_⟩, fun h => gives_of_settle rfl (timebaseStep_of_not h)⟩
  have hparts := (stepParts_of_rest (settle_rest (timebaseStep u))).trans (timebaseStep_stepParts hq hphase hrun hdefer)
  simp only [stepParts, Prod.mk.injEq] at hparts
  obtain ⟨hclk, hframe, hqueue⟩ := hparts
  have hnext : (settle (timebaseStep u)).frame.nextTick = firstMultiple p (stretchedEnd u theta) := congrArg FrameSt.nextTick hframe
  have htb : steppedTb u theta = tb' := steppedTb_eq u theta
  have hleast : stretchedEnd u theta = least := by rw [stretchedEnd, htb, tbUnit]
  obtain ⟨hmul, hlow, hhigh⟩ := firstMultiple_spec (periodNs_pos u.frame.mode) (stretchedEnd u theta)
  refine ⟨(congrArg Clock.tb hclk).trans htb, congrArg Clock.slewLeft hclk, congrArg (·.status.stretch) hframe, hqueue,
    (congrArg FrameSt.index hframe :), (congrArg FrameSt.mode hframe :), ?_, ?_, ?_⟩
  · rw [hnext]
    exact hmul
  · rw [hnext, ← hleast]
    exact hlow
  · rw [hnext, ← hleast]
    exact hhigh

end Sys2Proof.Machine
end

section
/-! PROPERTY. MODE.SET (01 R37, R38; 02 R72; 17 R448). -/

namespace Sys2Proof.Machine

open Sys2Proof.Safety

/-- A refused immediate command: the refusal has left, and nothing outside the mailboxes has changed. -/
theorem refused_of_refuse {c : Instr} {s u : State} {m word : Nat} {r : Request} {q : List Request} {f : Request → State → Reply} {e : Err}
    (hc : exec c s = .next (settle (runImmediate word f m u))) (h : Turn u m word r q) (hf : f r u = .refuse e) : Refused c s u r e := by
  refine ⟨_, hc, ?_, ?_⟩
  · rw [settle_out, runImmediate_refuse h hf]
    refine (serve_sends (r := { r with answer := some (respond r [] (some e)) }) (q := q) ?_ ?_ rfl h.hold).1
    · exact (setBox_length _ _ _).symm ▸ h.box
    · exact answerTurn_queue _ h.box h.queue h.waiting
  · rw [settle_quiet, runImmediate_refuse h hf, serve_quiet, answerTurn_quiet]

/-- The change tick is the first multiple of 40 ms at least 40 ms after the arrival (01 R37). -/
theorem changeTickNs_spec (t : Nat) : changeTickNs t % 40000000 = 0 ∧ t + 40000000 ≤ changeTickNs t ∧ changeTickNs t < t + 80000000 := by
  unfold changeTickNs
  omega

/-- A state whose MODE_PENDING says whether a change is pending, as a request that names no mode leaves it. -/
def pendingNoted (u : State) : State :=
  { u with frame := { u.frame with status := { u.frame.status with modePending := u.frame.pendingMode.isSome } } }

theorem cmdModeSet_off_duty {r : Request} {u : State} (h : onDuty u.st = false) : cmdModeSet r u = .refuse (errState u) := by
  simp only [cmdModeSet, h, if_true]

section
variable {r : Request} {u : State} (hduty : onDuty u.st = true)
include hduty

/-- A request that names a permitted mode while a change is pending, and asks nothing of the DP state. -/
theorem cmdModeSet_busy (hdp : byteAt r.payload 0 = 0) (hfm : byteAt r.payload 1 ≤ 3)
    (hallowed : u.cfg.img.frame.modesAllowed.testBit (byteAt r.payload 1) = true) (hpend : u.frame.pendingMode.isSome = true) :
    cmdModeSet r u = .refuse errBusy := by
  have hne : byteAt r.payload 1 ≠ 0xFF := by omega
  have hle : ¬3 < byteAt r.payload 1 := by omega
  simp [cmdModeSet, hduty, hdp, hle, hne, hallowed, hpend]

/-- A request for another permitted mode, and for nothing of the DP state, with no change pending. -/
theorem cmdModeSet_mode (hdp : byteAt r.payload 0 = 0) (hfm : byteAt r.payload 1 ≤ 3)
    (hallowed : u.cfg.img.frame.modesAllowed.testBit (byteAt r.payload 1) = true) (hother : byteAt r.payload 1 ≠ u.frame.mode)
    (hpend : u.frame.pendingMode = none) : ∃ p, cmdModeSet r u = .ok
      { u with frame := { u.frame with
          pendingMode := some (byteAt r.payload 1, changeTickNs r.stamp), status := { u.frame.status with modePending := true } } } p := by
  have hne : byteAt r.payload 1 ≠ 0xFF := by omega
  have hle : ¬3 < byteAt r.payload 1 := by omega
  simp [cmdModeSet, hduty, hdp, hle, hne, hallowed, hpend, hother]

/-- A request for READY that names no mode. -/
theorem cmdModeSet_ready (hdp : byteAt r.payload 0 = 2) (hfm : byteAt r.payload 1 = 0xFF) :
    ∃ p, cmdModeSet r u = .ok (requestDp (applyTick u r.stamp) false (pendingNoted u)) p := by
  simp [cmdModeSet, pendingNoted, hduty, hdp, hfm]

/-- Without a DP request the frame in progress is READY. -/
theorem decideState_ready (hdp : u.mb.dpReq = false) : (decideState u).st = .ready := by
  unfold decideState
  rw [if_pos hduty]
  dsimp only
  split
  · simp
  · simp [hdp]

end

/-- What MODE.SET writes of the frame and of the DP request. -/
abbrev dpParts (s : State) : FrameSt × Option (Nat × Bool) × Bool := (s.frame, s.mb.dpNext, s.mb.dpReq)

theorem dpParts_eq_iff {s : State} {f : FrameSt} {n : Option (Nat × Bool)} {v : Bool} :
    dpParts s = (f, n, v) ↔ s.frame = f ∧ s.mb.dpNext = n ∧ s.mb.dpReq = v := by
  simp only [dpParts, Prod.mk.injEq]

theorem dpParts_ite {p : Prop} [Decidable p] {s t : State} {x : FrameSt × Option (Nat × Bool) × Bool} (hs : dpParts s = x)
    (ht : dpParts t = x) : dpParts (if p then s else t) = x := by
  split
  · exact hs
  · exact ht

/-- Deciding a frame's state leaves what is pending, and a DP request that does not stand. -/
theorem decideState_dpParts {u : State} (hdp : u.mb.dpReq = false) : dpParts (decideState u) = dpParts u := by
  have hst : ∀ v x, dpParts v = dpParts u → dpParts { v with st := x } = dpParts u := fun _ _ h => h
  have hdiscard : ∀ v, dpParts v = dpParts u → dpParts (spDiscard v) = dpParts u := fun _ h => h
  have hwithdrawn : dpParts { u with mb := { u.mb with dpReq := false } } = dpParts u := by simp only [dpParts, hdp]
  have hreq := dpParts_ite (p := u.frame.sf2At = true) hwithdrawn rfl
  exact dpParts_ite (hst _ _ (dpParts_ite (hdiscard _ hreq) hreq)) rfl

/-- A request for READY whose frame has yet to begin waits for its tick. -/
theorem requestDp_later {u : State} {k : Nat} (v : Bool) (h : u.frame.tic < k) :
    dpParts (requestDp k v u) = (u.frame, some (k, v), u.mb.dpReq) ∧ (requestDp k v u).st = u.st := by
  rw [requestDp, if_pos h]
  exact ⟨rfl, rfl⟩

/-- A request for READY in the frame in progress withdraws the DP request at once, in P0 with the state READY. -/
theorem requestDp_now {u : State} {k : Nat} (hduty : onDuty u.st = true) (h : k ≤ u.frame.tic) :
    dpParts (requestDp k false u) = (u.frame, none, false) ∧ (u.frame.phase = 0 → (requestDp k false u).st = .ready) := by
  unfold requestDp
  rw [if_neg (by omega)]
  dsimp only
  split
  · exact ⟨decideState_dpParts rfl, fun _ => decideState_ready hduty rfl⟩
  · rename_i hphase
    exact ⟨rfl, fun hp => absurd hp hphase⟩

/-- The parts of MODE.SET's effect are no mailbox contents. -/
theorem dpParts_of_quiet {s t : State} (h : quiet t = quiet s) : dpParts t = dpParts s ∧ t.st = s.st :=
  have hp : dpParts (quiet t) = dpParts (quiet s) := congrArg dpParts h
  have hst : (quiet t).st = (quiet s).st := congrArg State.st h
  ⟨hp, hst⟩

/-- Settles O13: MODE.SET's answers by the cases of Table 2-4, and the DP request in the frame of its effect. -/
theorem modeSetChangesModeAndDp : Obligations.ModeSetChangesModeAndDp := by
  intro dt m s r q u dp fm ct ok hturn
  have hc : exec (.modeSet dt m) s = .next (settle (runImmediate wModeSet cmdModeSet m u)) := rfl
  refine ⟨fun hduty hdp ⟨hfm, hallowed⟩ hother hpend => ?_, fun hduty hdp hfm => ?_, fun hduty hdp ⟨hfm, hallowed⟩ hpend => ?_, fun hst => ?_⟩
  · obtain ⟨hgrid, hlow, hhigh⟩ := changeTickNs_spec r.stamp
    obtain ⟨p, hok⟩ := cmdModeSet_mode hduty hdp hfm hallowed hother hpend
    exact ⟨hgrid, hlow, hhigh, _, hc, (settle_quiet _).trans (runImmediate_quiet hturn hok)⟩
  · intro k
    obtain ⟨p, hok⟩ := cmdModeSet_ready hduty hdp hfm
    obtain ⟨hparts, hst⟩ := dpParts_of_quiet ((settle_quiet _).trans (runImmediate_quiet hturn hok))
    refine ⟨_, hc, ?_⟩
    by_cases hk : u.frame.tic < k
    · obtain ⟨hlater, hsame⟩ := requestDp_later (u := pendingNoted u) false hk
      obtain ⟨hframe, hnext, hreq⟩ := dpParts_eq_iff.mp (hparts.trans hlater)
      exact ⟨(congrArg FrameSt.pendingMode hframe :), fun _ => ⟨hnext, hreq, hst.trans hsame⟩, fun h => absurd hk (Nat.not_lt.mpr h)⟩
    · obtain ⟨hnow, hready⟩ := requestDp_now (u := pendingNoted u) hduty (Nat.le_of_not_lt hk)
      obtain ⟨hframe, hnext, hreq⟩ := dpParts_eq_iff.mp (hparts.trans hnow)
      exact ⟨(congrArg FrameSt.pendingMode hframe :), fun h => absurd h hk, fun _ => ⟨hnext, hreq, fun hphase => hst.trans (hready hphase)⟩⟩
  · exact refused_of_refuse hc hturn (cmdModeSet_busy hduty hdp hfm hallowed hpend)
  · refine refused_of_refuse hc hturn (cmdModeSet_off_duty ?_)
    obtain h | h := hst
    · rw [h]; rfl
    · rw [h]; rfl

end Sys2Proof.Machine
end

section
/-! SUPPORT. The tick and P0 keep the frame's own bookkeeping, the captured views and the snapshot (01 R16 to R31; 02 R66 to R70). -/

namespace Sys2Proof.Safety

open Sys2Proof.Machine

/-- What a tick and P0 leave of the frame: all of it but whether it still emits, the captured views and the snapshot. -/
abbrev tickParts (s : State) : FrameSt × Option View × Option View × Table Slot :=
  ({ s.frame with emitSuppressed := false }, s.view, s.viewNext, s.snap)

/-- Those parts of a state are `fr`. -/
def TickIs (fr : FrameSt × Option View × Option View × Table Slot) (s : State) : Prop := tickParts s = fr

/-- Those parts of what a frame-bound command leaves are `fr`. -/
def TickIsReply (fr : FrameSt × Option View × Option View × Table Slot) : Reply → Prop
  | .ok t _ => TickIs fr t
  | .fail t _ => TickIs fr t
  | .refuse _ => True

variable {fr : FrameSt × Option View × Option View × Table Slot} {s t : State}

theorem TickIs.of_parts (h : TickIs fr s) (e : tickParts t = tickParts s) : TickIs fr t := e.trans h

/-- What recording an event or raising a fault may touch is none of these parts. -/
theorem TickIs.of_rest (h : TickIs fr s) (e : rest t = rest s) : TickIs fr t :=
  have he : tickParts (rest t) = tickParts (rest s) := congrArg tickParts e
  h.of_parts he

theorem tickIs_ite {p : Prop} [Decidable p] (hs : TickIs fr s) (ht : TickIs fr t) : TickIs fr (if p then s else t) := by
  split
  · exact hs
  · exact ht

theorem tickIs_when {p : Prop} [Decidable p] (h : TickIs fr s) (ht : TickIs fr s → TickIs fr t) : TickIs fr (if p then t else s) :=
  tickIs_ite (ht h) h

theorem tickIs_unless {p : Prop} [Decidable p] (h : TickIs fr s) (ht : TickIs fr s → TickIs fr t) : TickIs fr (if p then s else t) :=
  tickIs_ite h (ht h)

theorem tickIs_foldl {α : Type} {f : State → α → State} {xs : List α} (hf : ∀ t a, TickIs fr t → TickIs fr (f t a)) (h : TickIs fr s) :
    TickIs fr (xs.foldl f s) := by
  induction xs generalizing s with
  | nil => exact h
  | cons a r ih => exact ih (hf s a h)

theorem tickIsReply_ite {p : Prop} [Decidable p] {a b : Reply} (ha : TickIsReply fr a) (hb : TickIsReply fr b) :
    TickIsReply fr (if p then a else b) := by
  split
  · exact ha
  · exact hb

theorem tickIsReply_guard {p : Prop} [Decidable p] {e : Err} {b : Reply} (hb : TickIsReply fr b) : TickIsReply fr (if p then .refuse e else b) :=
  tickIsReply_ite trivial hb

end Sys2Proof.Safety

namespace Sys2Proof.Machine

open Sys2Proof.Safety

variable {fr : FrameSt × Option View × Option View × Table Slot} {s : State}

theorem tickIs_setLock {f : LockSt → LockSt} (h : TickIs fr s) : TickIs fr (setLock f s) := h.of_parts rfl

theorem tickIs_renew (h : TickIs fr s) : TickIs fr (renew s) := tickIs_ite (tickIs_setLock h) h

theorem tickIs_emitAll {os : List Out} (h : TickIs fr s) : TickIs fr (emitAll os s) := h.of_parts rfl

theorem tickIs_sendRaf {type frame : Nat} {body : Bytes} (h : TickIs fr s) : TickIs fr (sendRaf type frame body s) :=
  tickIs_emitAll (h.of_parts rfl)

theorem tickIs_sendBeat {prepare : Bool} (h : TickIs fr s) : TickIs fr (sendBeat prepare s) := tickIs_sendRaf h

theorem tickIs_tickBeat (h : TickIs fr s) : TickIs fr (tickBeat s) :=
  tickIs_ite (tickIs_unless (tickIs_ite h (tickIs_renew h)) tickIs_sendBeat) h

theorem tickIs_closeIntake (h : TickIs fr s) : TickIs fr (closeIntake s) := h.of_parts rfl

theorem tickIs_setChan {c : Nat} {f : AnaChanSt → AnaChanSt} (h : TickIs fr s) : TickIs fr (setChan c f s) := h.of_parts rfl

theorem tickIs_commitSlot {dest : Nat} {v : Int} {stamp q : Nat} (h : TickIs fr s) : TickIs fr (commitSlot dest v stamp q s) :=
  h.of_parts rfl

theorem tickIs_commitNative {e : Image.Entry} {v : Int} {stamp q : Nat} (h : TickIs fr s) : TickIs fr (commitNative e v stamp q s) := by
  dsimp only [commitNative]
  split
  · split
    · exact tickIs_commitSlot h
    · exact h
  · exact h

theorem tickIs_serveChannel {c : Nat} (h : TickIs fr s) : TickIs fr (serveChannel c s) :=
  tickIs_when (tickIs_setChan h) fun h1 => tickIs_foldl (fun _ _ h2 => tickIs_foldl (fun _ _ h3 => tickIs_commitNative h3) h2) h1

theorem tickIs_serveAnalog (h : TickIs fr s) : TickIs fr (serveAnalog s) := tickIs_foldl (fun _ _ h1 => tickIs_serveChannel h1) h

theorem tickIs_serveUnit {u : Nat} (h : TickIs fr s) : TickIs fr (serveUnit u s) :=
  tickIs_when (h.of_parts rfl) fun h1 => tickIs_foldl (fun _ _ h2 => tickIs_foldl (fun _ _ h3 => tickIs_commitNative h3) h2) h1

theorem tickIs_serveCaptures (h : TickIs fr s) : TickIs fr (serveCaptures s) := tickIs_foldl (fun _ _ h1 => tickIs_serveUnit h1) h

theorem tickIs_setIntakePort {p : Nat} {f : PortSt → PortSt} (h : TickIs fr s) : TickIs fr (setIntakePort p f s) := h.of_parts rfl

theorem tickIs_count {p : Nat} {f : Counters → Counters} (h : TickIs fr s) : TickIs fr (count p f s) := tickIs_setIntakePort h

theorem tickIs_applyFate {p stamp : Nat} {e : Image.Entry} {f : Fate} (h : TickIs fr s) : TickIs fr (applyFate p stamp e f s) := by
  dsimp only [applyFate]
  split
  · exact tickIs_commitSlot h
  · exact tickIs_count h
  · exact h

theorem tickIs_commitMessage {p stamp : Nat} {es : List Image.Entry} {read : Image.Entry → Raw} (h : TickIs fr s) :
    TickIs fr (commitMessage p stamp es read s) :=
  tickIs_foldl (fun _ _ h1 => tickIs_applyFate h1) <| tickIs_when (tickIs_ite (tickIs_count h) h) tickIs_count

theorem tickIs_sentence450 {p h' arr stamp : Nat} {line : Bytes} (h : TickIs fr s) : TickIs fr (sentence450 p h' arr stamp line s) := by
  refine tickIs_unless (tickIs_count h) fun h1 => ?_
  split
  · exact h1
  · exact tickIs_ite (tickIs_count h) <| tickIs_ite h1 <| tickIs_ite (tickIs_count h) (tickIs_commitMessage <| tickIs_ite
      (h.of_parts rfl) h)

theorem tickIs_serve450 {p h' : Nat} {d : Pend} (h : TickIs fr s) : TickIs fr (serve450 p h' d s) :=
  tickIs_ite (tickIs_foldl (fun _ _ h1 => tickIs_sentence450 h1) h) (tickIs_count h)

theorem tickIs_noteUdp {h' arr : Nat} {bs : Bytes} {e : Image.Entry} (h : TickIs fr s) : TickIs fr (noteUdp h' arr bs e s) :=
  tickIs_ite (h.of_parts rfl) h

theorem tickIs_serveUdp {p h' : Nat} {d : Pend} (h : TickIs fr s) : TickIs fr (serveUdp p h' d s) :=
  tickIs_unless (tickIs_ite (tickIs_count h) h) fun h1 => tickIs_foldl (fun _ _ h2 => tickIs_noteUdp h2) (tickIs_commitMessage h1)

theorem tickIs_servePend {p : Nat} {d : Pend} (h : TickIs fr s) : TickIs fr (servePend p d s) := by
  dsimp only [servePend]
  split
  · exact tickIs_serve450 h
  · exact tickIs_serveUdp h
  · exact tickIs_commitMessage h

theorem tickIs_serveIntake (h : TickIs fr s) : TickIs fr (serveIntake s) :=
  tickIs_when (tickIs_foldl (fun _ _ h1 => tickIs_setIntakePort h1) h) fun h1 => tickIs_foldl (fun _ _ h2 => tickIs_servePend h2) h1

theorem tickIs_serveAll (h : TickIs fr s) : TickIs fr (serveAll s) := tickIs_serveAnalog (tickIs_serveCaptures (tickIs_serveIntake h))

theorem tickIs_setGroup {g : Nat} {f : AnaGroupSt → AnaGroupSt} (h : TickIs fr s) : TickIs fr (setGroup g f s) := h.of_parts rfl

theorem tickIs_groupTick {g : Nat} (h : TickIs fr s) : TickIs fr (groupTick s g) := tickIs_ite (tickIs_setGroup h) h

theorem tickIs_analogTick (h : TickIs fr s) : TickIs fr (analogTick s) := tickIs_foldl (fun _ _ h1 => tickIs_groupTick h1) h

theorem tickIs_faultSet {code : Nat} {on : Bool} {blks : List Block} (h : TickIs fr s) : TickIs fr (faultSet code on blks s) :=
  h.of_rest (faultSet_rest s code on blks)

theorem tickIs_faultCond {code : Nat} {on : Bool} (h : TickIs fr s) : TickIs fr (faultCond code on s) := h.of_rest (faultCond_rest s code on)

theorem tickIs_endCond {code : Nat} {on : Bool} (h : TickIs fr s) : TickIs fr (endCond code on s) := tickIs_ite h (tickIs_faultCond h)

theorem tickIs_floodTick (h : TickIs fr s) : TickIs fr (floodTick s) := tickIs_endCond (h.of_parts rfl)

theorem tickIs_setGnss {f : GnssSt → GnssSt} (h : TickIs fr s) : TickIs fr (setGnss f s) := h.of_parts rfl

theorem tickIs_nextFree (h : TickIs fr s) : TickIs fr (nextFree s) := h.of_parts rfl

theorem tickIs_gnssStart (h : TickIs fr s) : TickIs fr (gnssStart s) := by
  unfold gnssStart
  exact tickIs_setGnss (tickIs_nextFree h)

theorem tickIs_event {code : Nat} {data : Bytes} (h : TickIs fr s) : TickIs fr (event code data s) := h.of_rest (event_rest s code data)

theorem tickIs_gnssRegime (h : TickIs fr s) : TickIs fr (gnssRegime s) :=
  tickIs_ite h <| tickIs_when (tickIs_setGnss h) fun h1 => tickIs_event (tickIs_gnssStart h1)

theorem tickIs_setCh {f : ChandlerSt → ChandlerSt} (h : TickIs fr s) : TickIs fr (setCh f s) := h.of_parts rfl

theorem tickIs_sbPowerOn (h : TickIs fr s) : TickIs fr (sbPowerOn s) := tickIs_ite h (tickIs_setCh h)

theorem tickIs_sbPowerOff (h : TickIs fr s) : TickIs fr (sbPowerOff s) := tickIs_setCh h

theorem tickIs_chTick (h : TickIs fr s) : TickIs fr (chTick s) :=
  tickIs_endCond (tickIs_setCh <| tickIs_ite (tickIs_sbPowerOn (tickIs_setCh h)) (tickIs_sbPowerOff (tickIs_setCh h)))

theorem tickIs_fusionStart (h : TickIs fr s) : TickIs fr (fusionStart s) := h.of_parts rfl

theorem tickIs_setCan {c : Nat} {f : CanSt → CanSt} (h : TickIs fr s) : TickIs fr (setCan c f s) := h.of_parts rfl

theorem tickIs_setSafe {c : Nat} {f : SlotMsg → SlotMsg} (h : TickIs fr s) : TickIs fr (setSafe c f s) := tickIs_setCan h

theorem tickIs_safetyOff (h : TickIs fr s) : TickIs fr (safetyOff s) :=
  tickIs_faultCond (tickIs_faultCond (tickIs_faultCond <| tickIs_foldl (fun _ _ h1 => tickIs_setSafe h1) (h.of_parts rfl)))

theorem tickIs_supplyFaults (h : TickIs fr s) : TickIs fr (supplyFaults s) := tickIs_faultCond (tickIs_faultCond (tickIs_faultCond h))

theorem tickIs_ioOff (h : TickIs fr s) : TickIs fr (ioOff s) :=
  tickIs_faultCond (tickIs_faultCond (tickIs_supplyFaults (h.of_parts rfl)))

theorem tickIs_gnssOff (h : TickIs fr s) : TickIs fr (gnssOff s) :=
  tickIs_faultSet (tickIs_faultSet (tickIs_faultSet (tickIs_setGnss h)))

theorem tickIs_dutyPowerOffKeep (h : TickIs fr s) : TickIs fr (dutyPowerOffKeep s) :=
  tickIs_ioOff <| tickIs_when (tickIs_safetyOff h) tickIs_gnssOff

theorem tickIs_endChanFaults (h : TickIs fr s) : TickIs fr (endChanFaults s) := tickIs_endCond (tickIs_endCond (tickIs_endCond h))

theorem tickIs_stopGroup {g : Nat} (h : TickIs fr s) : TickIs fr (stopGroup g s) := by
  unfold stopGroup
  exact tickIs_endChanFaults <| tickIs_foldl (fun _ _ h1 => tickIs_setChan h1) (tickIs_setGroup h)

theorem tickIs_analogOff (h : TickIs fr s) : TickIs fr (analogOff s) := by
  have hoff : ∀ u a, TickIs fr u → TickIs fr { u with analog := a } := fun _ _ hu => hu.of_parts rfl
  exact hoff _ _ (tickIs_foldl (fun _ _ ht => tickIs_stopGroup ht) h)

theorem tickIs_dutyPowerOff (h : TickIs fr s) : TickIs fr (dutyPowerOff s) := by
  unfold dutyPowerOff
  exact tickIs_dutyPowerOffKeep (tickIs_analogOff h)

theorem tickIs_dropPrepare (h : TickIs fr s) : TickIs fr (dropPrepare s) := by
  dsimp only [dropPrepare]
  split
  · exact tickIs_ite (tickIs_dutyPowerOff (tickIs_setLock h)) h
  · exact h

theorem tickIs_setPeer {slot : Nat} {f : Peer → Peer} (h : TickIs fr s) : TickIs fr (setPeer slot f s) := tickIs_setLock h

theorem tickIs_linkFaults (h : TickIs fr s) : TickIs fr (linkFaults s) := tickIs_faultCond (tickIs_faultCond (tickIs_faultCond h))

theorem tickIs_lockTick (h : TickIs fr s) : TickIs fr (lockTick s) :=
  tickIs_ite (tickIs_linkFaults <| tickIs_foldl (fun _ _ h1 => tickIs_setPeer h1) h) h

theorem tickIs_tickWork (h : TickIs fr s) : TickIs fr (tickWork s) :=
  tickIs_endCond (tickIs_dropPrepare (tickIs_lockTick <| tickIs_when (tickIs_when (tickIs_analogTick (tickIs_floodTick
    (tickIs_closeIntake (tickIs_serveAll h)))) fun h1 => tickIs_gnssRegime (tickIs_chTick h1)) tickIs_fusionStart))

theorem tickIs_setSp {f : SpSt → SpSt} (h : TickIs fr s) : TickIs fr (setSp f s) := h.of_parts rfl

theorem tickIs_spDiscard (h : TickIs fr s) : TickIs fr (spDiscard s) := tickIs_setSp h

theorem tickIs_decideState (h : TickIs fr s) : TickIs fr (decideState s) := by
  have hst : ∀ u m, TickIs fr u → TickIs fr { u with st := m } := fun _ _ hu => hu.of_parts rfl
  exact tickIs_ite (hst _ _ <| tickIs_when (tickIs_ite (h.of_parts rfl) h) tickIs_spDiscard) h

theorem tickIs_tickState (h : TickIs fr s) : TickIs fr (tickState s) :=
  tickIs_ite (tickIs_decideState (by split; exacts [tickIs_ite (h.of_parts rfl) h, h])) h

theorem tickIs_rebase {d e : Int} (h : TickIs fr s) : TickIs fr (rebase d e s) := tickIs_ite h (h.of_parts rfl)

theorem tickIs_endShots (h : TickIs fr s) : TickIs fr (endShots s) := h.of_parts rfl

theorem tickIs_faultShot {code : Nat} {blks : List Block} (h : TickIs fr s) : TickIs fr (faultShot code blks s) := h.of_rest (faultShot_rest s code blks)

theorem tickIs_settle (h : TickIs fr s) : TickIs fr (settle s) := h.of_rest (settle_rest s)

theorem tickIs_mokAtTick (h : TickIs fr s) : TickIs fr (mokAtTick s) := h.of_parts rfl

theorem tickIs_latchFaults (h : TickIs fr s) : TickIs fr (latchFaults s) := tickIs_faultCond (tickIs_faultCond h)

theorem tickIs_setDo {c : Nat} {f : DoSt → DoSt} (h : TickIs fr s) : TickIs fr (setDo c f s) := h.of_parts rfl

theorem tickIs_applyDo {c : Nat} (h : TickIs fr s) : TickIs fr (applyDo c s) :=
  tickIs_ite (tickIs_ite (tickIs_setDo h) (tickIs_event (tickIs_setDo h))) (tickIs_setDo h)

theorem tickIs_applyOutputs (h : TickIs fr s) : TickIs fr (applyOutputs s) :=
  tickIs_ite (tickIs_latchFaults <| tickIs_foldl (fun _ _ h1 => tickIs_applyDo h1) h) h

theorem tickIs_announcePulse (h : TickIs fr s) : TickIs fr (announcePulse s) := tickIs_ite (tickIs_emitAll (h.of_parts rfl)) h

theorem tickIs_setConn {n : Nat} {f : OscConn → OscConn} (h : TickIs fr s) : TickIs fr (setConn n f s) := h.of_parts rfl

theorem tickIs_placeTelegram {n type : Nat} {data : Bytes} (h : TickIs fr s) : TickIs fr (placeTelegram n type data s).1 := tickIs_setConn h

theorem tickIs_placeCommand {n : Nat} (h : TickIs fr s) : TickIs fr (placeCommand n s).1 := tickIs_placeTelegram h

theorem tickIs_setSlot {e : Nat} {f : SlotMsg → SlotMsg} (h : TickIs fr s) : TickIs fr (setSlot e f s) := h.of_parts rfl

theorem tickIs_placeKind1 {unplaced : List Nat} (h : TickIs fr s) : TickIs fr (placeKind1 unplaced s) :=
  tickIs_ite (tickIs_foldl (fun _ _ h1 => tickIs_ite (tickIs_setSlot (tickIs_placeCommand h1)) h1) h) h

theorem tickIs_beginMove {m : Move} {t : Nat} (h : TickIs fr s) : TickIs fr (beginMove m t s) := tickIs_event (tickIs_setSp h)

theorem tickIsReply_cmdTargetSet {r : Request} (h : TickIs fr s) : TickIsReply fr (cmdTargetSet r s) := by
  refine tickIsReply_guard (tickIsReply_guard (tickIsReply_guard ?_))
  split
  · exact tickIsReply_ite (tickIs_ite (tickIs_event h) h) <| tickIs_when (tickIs_beginMove h) tickIs_event
  · exact tickIs_when (tickIs_event (tickIs_setSp h)) tickIs_event

theorem tickIsReply_cmdPushSet {r : Request} (h : TickIs fr s) : TickIsReply fr (cmdPushSet r s) :=
  tickIsReply_guard <| tickIsReply_ite (tickIs_ite (tickIs_event h) h) <| tickIs_when (tickIs_setSp h) tickIs_event

theorem tickIsReply_cmdTargetStop {x : Request} (h : TickIs fr s) : TickIsReply fr (cmdTargetStop x s) := by
  dsimp only [cmdTargetStop]
  split
  · exact tickIs_event (tickIs_setSp h)
  · exact tickIs_event (tickIs_setSp h)

theorem tickIsReply_cmdLockChange {r : Request} (h : TickIs fr s) : TickIsReply fr (cmdLockChange r s) := by
  unfold cmdLockChange
  dsimp only
  refine tickIsReply_guard ?_
  split
  · exact trivial
  · exact tickIsReply_guard (tickIsReply_guard (tickIsReply_guard (tickIs_event (tickIs_setLock h))))

theorem tickIsReply_boundEffect {r : Request} (h : TickIs fr s) : TickIsReply fr (boundEffect r s) :=
  tickIsReply_ite (tickIsReply_ite (tickIsReply_cmdTargetSet h) trivial) <| tickIsReply_ite (tickIsReply_ite
    (tickIsReply_cmdPushSet h) trivial) <| tickIsReply_ite (tickIsReply_cmdTargetStop h) (tickIsReply_cmdLockChange h)

theorem tickIs_setBox {m : Nat} {b : Mbox} (h : TickIs fr s) : TickIs fr (setBox m b s) := h.of_parts rfl

theorem tickIs_storeAnswer {r : Request} {msg : Bytes} (h : TickIs fr s) : TickIs fr (storeAnswer r msg s) := tickIs_setBox h

theorem tickIs_applyRequest {r : Request} (h : TickIs fr s) : TickIs fr (applyRequest r s) := by
  have he : TickIsReply fr (boundEffect r s) := tickIsReply_boundEffect h
  unfold applyRequest
  split
  · rename_i hok
    rw [hok] at he
    exact tickIs_storeAnswer he
  · exact tickIs_storeAnswer h
  · rename_i hfail
    rw [hfail] at he
    exact tickIs_storeAnswer he

theorem tickIs_applyAll (h : TickIs fr s) : TickIs fr (applyAll s) := tickIs_foldl (fun _ _ h1 => tickIs_applyRequest h1) h

end Sys2Proof.Machine
end

section
/-! PROPERTY. FRAME_TICK and PHASE_BOUNDARY (01 R16, R17, R21, R22, R27, Table 1-5; 02 R66). -/

namespace Sys2Proof.Machine

open Sys2Proof.Safety

variable {s : State}

/-! ### FRAME_TICK -/

/-- The frame as it closes: its history, its late runs and its DP condition are judged (01 R29 to R31; 13 R368). -/
def closedFrame (stopped : List Engine) (s : State) : FrameSt :=
  { s.frame with
    emitSuppressed := false
    history := if decide (s.frame.ticEl ≠ 0) then
        ((frameIndex s, statusWord { s.frame.status with overrun := !stopped.isEmpty }) :: s.frame.history).take 64
      else s.frame.history
    lateRun := lateRuns s
    dpOk := onDuty s.st && s.bring.complete && s.bring.obsAtTick && decide (s.solver.primResult ≤ 1) }

/-- What reads return from the tick on: what P6 captured, where it did (02 R66). -/
def publishedView (s : State) : Option View :=
  match s.viewNext with
  | some v => some v
  | none => s.view

/-- As the frame in progress closes, what P6 captured is published. -/
theorem tickIs_closeFrame (stopped : List Engine) (s : State) :
    TickIs (closedFrame stopped s, publishedView s, none, s.snap) (closeFrame stopped s) := by
  have hjudged : ∀ u, TickIs (closedFrame stopped s, publishedView s, none, s.snap) u →
      TickIs (closedFrame stopped s, publishedView s, none, s.snap) (endShots (endCond 0x0118 (lateRun3 u) u)) :=
    fun _ h => tickIs_endShots (tickIs_endCond h)
  refine tickIs_ite (hjudged _ ?_) (tickIs_faultShot ((hjudged _ ?_).of_parts rfl))
  · rfl
  · rfl

/-- A frame opens at its tick: FRAME_INDEX from T_IC, the next tick a period later, P0 in progress (01 R16, R17). -/
def OpensAt (tick mode : Nat) (f : FrameSt) : Prop :=
  f.tic = tick ∧ f.index = tick / periodNs mode ∧ f.nextTick = tick + periodNs mode ∧ f.phase = 0 ∧ f.mode = mode ∧ f.running = true

/-- What the frame that opens takes over from the one that closed. -/
theorem openFrame_of_tickIs {f : FrameSt} {v w : Option View} {x : Table Slot} (h : TickIs (f, v, w, x) s) (hrun : f.running = true) :
    OpensAt f.nextTick f.mode (openFrame s).frame ∧ (openFrame s).view = v ∧ (openFrame s).viewNext = w := by
  simp only [TickIs, tickParts, Prod.mk.injEq] at h
  obtain ⟨rfl, rfl, rfl, rfl⟩ := h
  have hsame : ∀ d e, TickIs (tickParts s) (rebase d e s) := fun _ _ => tickIs_rebase rfl
  refine ⟨⟨rfl, rfl, rfl, rfl, ?_, ?_⟩, ?_, ?_⟩
  · exact (congrArg (fun p => p.1.mode) (hsame _ _) :)
  · exact ((congrArg (fun p => p.1.running) (hsame _ _)).trans hrun :)
  · exact (congrArg (fun p => p.2.1) (hsame _ _) :)
  · exact (congrArg (fun p => p.2.2.1) (hsame _ _) :)

/-- The rest of a tick's work keeps what the opened frame and the views are. -/
theorem tickIs_frameTick {stopped : List Engine} (hrun : s.frame.running = true) (hdue : s.frame.nextTick ≤ nowNs s) :
    TickIs (tickParts (openFrame (closeFrame stopped s))) (frameTick stopped s) := by
  rw [frameTick, if_pos ⟨hrun, hdue⟩]
  exact tickIs_mokAtTick (tickIs_tickBeat (tickIs_tickWork (tickIs_tickState rfl)))

theorem OpensAt.of_frame {tick mode : Nat} {f g : FrameSt} (h : OpensAt tick mode f)
    (e : { g with emitSuppressed := false } = { f with emitSuppressed := false }) : OpensAt tick mode g := by
  have h' : OpensAt tick mode { g with emitSuppressed := false } := e ▸ h
  exact h'

/-- Settles O15: the frame closes, the next opens, and what else the tick does keeps the opened frame. -/
theorem frameTickBeginsTheNextFrame : Obligations.FrameTickBeginsTheNextFrame := by
  intro dt stopped s u
  refine ⟨fun hrun hdue => ⟨settle (frameTick stopped u), rfl, ?_⟩, fun hnot => gives_of_settle rfl (if_neg ?_)⟩
  · obtain ⟨hopen, hview, hnext⟩ := openFrame_of_tickIs (tickIs_closeFrame stopped u) hrun
    have hkept := tickIs_settle (tickIs_frameTick (stopped := stopped) hrun hdue)
    simp only [TickIs, tickParts, Prod.mk.injEq] at hkept
    obtain ⟨hframe, hv, hn, -⟩ := hkept
    obtain ⟨htic, hindex, htick, hphase, hmode, hrunning⟩ := hopen.of_frame hframe
    refine ⟨htic, hindex, htick, hphase, hmode, hrunning, hn.trans hnext, fun v hcap => ?_⟩
    rw [hv, hview, publishedView, hcap]
  · rintro ⟨hrun, hdue⟩
    exact hnot.elim (fun h => Bool.false_ne_true (h.symm.trans hrun)) hdue.not_gt

/-! ### PHASE_BOUNDARY -/

/-- The start of P5 places, sends and drives; the phase in progress and the snapshot stay. -/
theorem p5Begin_keeps (r : PhaseIn) (s : State) : (p5Begin r s).frame.phase = s.frame.phase ∧ (p5Begin r s).snap = s.snap := by
  have hkept : TickIs (tickParts s) (placeKind1 r.unplaced (announcePulse (applyOutputs s))) :=
    tickIs_placeKind1 (tickIs_announcePulse (tickIs_applyOutputs rfl))
  unfold p5Begin
  split
  · exact ⟨(congrArg (fun p => p.1.phase) hkept :), (congrArg (fun p => p.2.2.2) hkept :)⟩
  · exact ⟨rfl, rfl⟩

/-- The phase that begins is the one in progress; none takes a snapshot as it begins. -/
theorem phaseBegin_keeps (p : Nat) (r : PhaseIn) (s : State) : (phaseBegin p r s).frame.phase = p ∧ (phaseBegin p r s).snap = s.snap := by
  unfold phaseBegin
  dsimp only
  split
  · exact p5Begin_keeps r _
  · split
    · exact ⟨rfl, rfl⟩
    · exact ⟨rfl, rfl⟩

/-- As P6 ends, what reads will return is captured (02 R66). -/
theorem phaseBegin_viewNext {p : Nat} (r : PhaseIn) (s : State) (hp : p = 7) : (phaseBegin p r s).viewNext.isSome = true := by
  subst hp
  rfl

/-- A late phase's stamp and fault leave the snapshot. -/
theorem notePhase_snap (p : Nat) (late : Bool) (margin : Nat) (s : State) : (notePhase p late margin s).snap = s.snap := by
  unfold notePhase
  split
  · have h := congrArg State.snap (faultOnce_rest (stampPhase p late margin s) (0x0110 + p))
    exact h
  · rfl

/-- A late P0 takes no snapshot; its frame-bound commands are applied all the same (01 Table 1-5). -/
theorem p0End_late_snap (s : State) : (p0End true s).snap = s.snap := by
  have hserved : ∀ v, v.snap = s.snap → (serveAll v).snap = s.snap := fun v hv => (congrArg (·.2.2.2) (tickIs_serveAll (s := v) rfl)).trans hv
  have happlied : ∀ v, v.snap = s.snap → (applyAll v).snap = s.snap := fun v hv => (congrArg (·.2.2.2) (tickIs_applyAll (s := v) rfl)).trans hv
  unfold p0End
  dsimp only
  split
  · refine happlied _ (hserved _ ?_)
    rfl
  · refine hserved _ ?_
    rfl

/-- On duty P0 works in every frame, so that it is late when its engine says so. -/
theorem phaseLate_p0 {r : PhaseIn} (hduty : onDuty s.st = true) : phaseLate s 0 r = r.late := by
  simp [phaseLate, phaseWorks, hduty]

theorem phaseBoundary_of_due {r : PhaseIn} (hrun : s.frame.running = true) (hp : s.frame.phase < 7)
    (hdue : boundaryNs s s.frame.phase ≤ nowNs s) :
    phaseBoundary r s = phaseBegin (s.frame.phase + 1) r
      (notePhase s.frame.phase (phaseLate s s.frame.phase r) r.marginUs (phaseEnd s.frame.phase (phaseLate s s.frame.phase r) r s)) :=
  if_pos ⟨hrun, hp, hdue⟩

/-- Settles O16: at its boundary a phase ends and the next begins; a late P0 takes no snapshot. -/
theorem phasesBeginAtTheirBoundaries : Obligations.PhasesBeginAtTheirBoundaries := by
  intro dt r s u p due
  refine ⟨fun hrun hp hdue => ⟨settle (phaseBoundary r u), rfl, ?_⟩, fun hnot => gives_of_settle rfl (if_neg ?_)⟩
  · have heq := phaseBoundary_of_due (r := r) hrun hp hdue
    refine ⟨?_, fun h6 => ?_, fun h0 hduty hlate => ?_⟩
    · rw [settle_frame, heq]
      exact (phaseBegin_keeps _ r _).1
    · rw [settle_viewNext, heq]
      exact phaseBegin_viewNext r _ (congrArg (· + 1) h6)
    · rw [settle_snap, heq, (phaseBegin_keeps _ r _).2, notePhase_snap, show u.frame.phase = 0 from h0, phaseLate_p0 hduty, hlate]
      exact p0End_late_snap u
  · rintro ⟨hrun, hp, hdue⟩
    exact hnot.elim (fun h => Bool.false_ne_true (h.symm.trans hrun)) (·.elim hp.not_ge hdue.not_gt)

end Sys2Proof.Machine
end

section
/-! SUPPORT. What serving a mailbox leaves of every mailbox, and the refusal of an immediate command that the module counts (02_mailbox R53, R55, R66). -/

namespace Sys2Proof.Machine

open Sys2Proof.Safety

/-- The terms of a mailbox: all but its requests and its cached responses, which are what turns and responses change. Its session, subscription,
Ledger window and count of refusals stay. -/
def boxTerms (b : Mbox) : Mbox := { b with queue := [], cache := [] }

/-- A mailbox written with its own terms leaves the terms of every mailbox. -/
theorem boxTerms_setBox {m : Nat} {b : Mbox} {s : State} (h : boxTerms b = boxTerms (boxOf s m)) (k : Nat) :
    boxTerms (boxOf (setBox m b s) k) = boxTerms (boxOf s k) := by
  by_cases hmk : m = k
  · subst hmk
    by_cases hm : m < s.mb.boxes.length
    · rw [boxOf_setBox _ hm, h]
    · rw [boxOf, setBox_mb, upd_ge _ _ _ (Nat.le_of_not_lt hm)]
      rfl
  · rw [boxOf_setBox_other _ hmk]

theorem boxTerms_pump (k : Nat) : ∀ (n m : Nat) (s : State), boxTerms (boxOf (pump n m s) k) = boxTerms (boxOf s k)
  | 0, _, _ => rfl
  | n + 1, m, s => by
    unfold pump
    dsimp only
    split
    · rfl
    · split
      · rfl
      · refine (boxTerms_pump k n m _).trans (boxTerms_setBox ?_ k)
        rfl

theorem boxTerms_cacheAdd (b : Mbox) (done : List Request) :
    boxTerms (done.foldl (fun x r => cacheAdd r (r.answer.getD []) x) b) = boxTerms b := by
  induction done generalizing b with
  | nil => rfl
  | cons r q ih => exact ih _

theorem mb_sends (done : List Request) (s : State) : (done.foldl (fun t r => sendTo r (r.answer.getD []) t) s).mb = s.mb := by
  induction done generalizing s with
  | nil => rfl
  | cons r q ih => exact ih _

theorem boxTerms_flushBox (m k : Nat) (s : State) : boxTerms (boxOf (flushBox m s) k) = boxTerms (boxOf s k) := by
  unfold flushBox
  dsimp only
  rw [boxOf, mb_sends]
  refine boxTerms_setBox ?_ k
  rw [boxTerms_cacheAdd]
  rfl

/-- Serving a mailbox leaves the terms of every mailbox. -/
theorem boxTerms_serve (m k : Nat) (s : State) : boxTerms (boxOf (serve m s) k) = boxTerms (boxOf s k) :=
  (boxTerms_flushBox m k _).trans (boxTerms_pump k 6 m s)

theorem boxTerms_answerTurn (m k : Nat) (x : Bytes) (s : State) : boxTerms (boxOf (answerTurn m x s) k) = boxTerms (boxOf s k) := by
  refine boxTerms_setBox ?_ k
  rfl

/-- An accepted immediate command leaves the mailboxes' terms as its own effect leaves them. -/
theorem runImmediate_boxTerms {u t : State} {m word : Nat} {r : Request} {q : List Request} {f : Request → State → Reply} {p : Bytes}
    (h : Turn u m word r q) (hf : f r u = .ok t p) (k : Nat) : boxTerms (boxOf (runImmediate word f m u) k) = boxTerms (boxOf t k) := by
  rw [runImmediate_ok h hf, boxTerms_serve, boxTerms_answerTurn]

/-- An immediate command whose refusal changes the module leaves, outside the mailboxes, what that refusal leaves. -/
theorem runImmediate_fail_quiet {u t : State} {m word : Nat} {r : Request} {q : List Request} {f : Request → State → Reply} {e : Err}
    (h : Turn u m word r q) (hf : f r u = .fail t e) : quiet (runImmediate word f m u) = quiet t := by
  have ht : turnRequest u m word = some r := by
    unfold turnRequest
    simp [h.queue, h.waiting, h.cmd]
  unfold runImmediate
  simp only [ht, h.header, h.command, hf, h.inTime, judgeReply, serve_quiet, answerTurn_quiet]

end Sys2Proof.Machine
end

section
/-! PROPERTY. The reading commands STATE.READ, TARGET.READ and FRAME.READ (02_mailbox R66, R71, R73; 08 R234). -/

namespace Sys2Proof.Machine

open Sys2Proof.Safety

theorem cmdStateRead_view {u : State} {v : View} (r : Request) (h : u.view = some v) : cmdStateRead r u = .ok u v.stateRead := by
  simp only [cmdStateRead, h]

theorem cmdTargetRead_view {u : State} {v : View} (r : Request) (h : u.view = some v) : cmdTargetRead r u = .ok u v.targetRead := by
  simp only [cmdTargetRead, h]

/-- Settles O5: both commands answer the captured payload and leave the state. -/
theorem readsAnswerTheLastFrame : Obligations.ReadsAnswerTheLastFrame := by
  intro dt m s r q v hview
  exact ⟨fun h => answered_of_ok rfl h (cmdStateRead_view r hview) h.box h.queue,
    fun h => answered_of_ok rfl h (cmdTargetRead_view r hview) h.box h.queue⟩

theorem cmdFrameRead_inRange {r : Request} {u : State} (h1 : 1 ≤ byteAt r.payload 0) (h64 : byteAt r.payload 0 ≤ 64) :
    cmdFrameRead r u = .ok u (u8 (Nat.min (byteAt r.payload 0) u.frame.history.length) ++ zeros 3 ++
      (u.frame.history.take (byteAt r.payload 0)).flatMap (fun p => u64 p.1 ++ u32 p.2 ++ u32 0)) := by
  have hin : ¬(byteAt r.payload 0 = 0 ∨ 64 < byteAt r.payload 0) := by omega
  simp only [cmdFrameRead, if_neg hin, List.length_take]

theorem cmdFrameRead_outOfRange {r : Request} {u : State} (h : byteAt r.payload 0 = 0 ∨ 64 < byteAt r.payload 0) :
    cmdFrameRead r u = .refuse (errRange 0) := by
  simp only [cmdFrameRead, if_pos h]

/-- Settles O6: by COUNT in its range and out of it. -/
theorem frameReadNewestFirst : Obligations.FrameReadNewestFirst := by
  intro dt m s r q hturn n h
  refine ⟨fun h1 h64 => ?_, fun hout => ?_⟩
  · exact answered_of_ok rfl hturn (cmdFrameRead_inRange h1 h64) hturn.box hturn.queue
  · exact refused_of_refuse rfl hturn (cmdFrameRead_outOfRange hout)

end Sys2Proof.Machine
end

section
/-! PROPERTY. FRAME.SUBSCRIBE (02_mailbox R74, Table 2-14). -/

namespace Sys2Proof.Machine

open Sys2Proof.Safety

/-- The subscription that a request names, reporting to where it came from. -/
def namedSub (r : Request) : Sub :=
  { decimate := byteAt r.payload 0, portSel := byteAt r.payload 1, sections := fld r.payload 4 4, src := r.src, port := r.port }

/-- A mailbox may subscribe when it has a subscription, or fewer than four mailboxes have one (R74). -/
def subRoom (u : State) (m : Nat) : Prop := (boxOf u m).sub.isSome = true ∨ (u.mb.boxes.filter (fun b => b.sub.isSome)).length < 4

/-- The model's test for BUSY is that there is no room. -/
theorem not_subRoom_iff (u : State) (m : Nat) :
    (boxOf u m).sub.isNone = true ∧ 4 ≤ (u.mb.boxes.filter (fun b => b.sub.isSome)).length ↔ ¬subRoom u m := by
  simp [subRoom]

/-- A state whose mailbox holds another subscription, or none. -/
def withSub (m : Nat) (x : Option Sub) (u : State) : State := setBox m { boxOf u m with sub := x } u

section
variable {r : Request} {u : State} (hsel : 1 ≤ byteAt r.payload 1 ∧ byteAt r.payload 1 ≤ 3)
include hsel

theorem cmdFrameSubscribe_cancel (hdec : byteAt r.payload 0 = 0) : cmdFrameSubscribe r u = .ok (withSub r.mbox none u) [] := by
  have hin : ¬(byteAt r.payload 1 = 0 ∨ 3 < byteAt r.payload 1) := by omega
  simp only [cmdFrameSubscribe, if_neg hin, if_pos hdec, withSub]

theorem cmdFrameSubscribe_room (hdec : byteAt r.payload 0 ≠ 0) (hroom : subRoom u r.mbox) :
    cmdFrameSubscribe r u = .ok (withSub r.mbox (some (namedSub r)) u) [] := by
  have hin : ¬(byteAt r.payload 1 = 0 ∨ 3 < byteAt r.payload 1) := by omega
  have hfree := mt (not_subRoom_iff u r.mbox).mp (not_not_intro hroom)
  simp only [cmdFrameSubscribe, if_neg hin, if_neg hdec, if_neg hfree, withSub, namedSub]

theorem cmdFrameSubscribe_full (hdec : byteAt r.payload 0 ≠ 0) (hroom : ¬subRoom u r.mbox) : cmdFrameSubscribe r u = .refuse errBusy := by
  have hin : ¬(byteAt r.payload 1 = 0 ∨ 3 < byteAt r.payload 1) := by omega
  simp only [cmdFrameSubscribe, if_neg hin, if_neg hdec, if_pos ((not_subRoom_iff u r.mbox).mpr hroom)]

end

/-- An immediate command that writes its mailbox's subscription leaves it there, and changes mailbox contents alone. -/
theorem sub_of_ok {c : Instr} {s u : State} {m word : Nat} {r : Request} {q : List Request} {f : Request → State → Reply} {p : Bytes}
    {x : Option Sub} (hc : exec c s = .next (settle (runImmediate word f m u))) (h : Turn u m word r q) (hf : f r u = .ok (withSub m x u) p) :
    ∃ t, exec c s = .next t ∧ quiet t = quiet u ∧ (boxOf t m).sub = x := by
  refine ⟨_, hc, (settle_quiet _).trans ((runImmediate_quiet h hf).trans (setBox_quiet _ _ _)), ?_⟩
  have hterms := runImmediate_boxTerms h hf m
  rw [withSub, boxOf_setBox _ h.box] at hterms
  rw [boxOf_settle]
  exact (congrArg Mbox.sub hterms :)

/-- Settles O8: cancelled, taken or BUSY, by DECIMATE and by the room. -/
theorem frameSubscribeKeepsOnePerMailbox : Obligations.FrameSubscribeKeepsOnePerMailbox := by
  intro dt m s r q hturn hbox u dec sel room hlow hhigh
  subst hbox
  refine ⟨fun hdec => ?_, fun hdec hroom => ?_, fun hdec hroom => ?_⟩
  · obtain ⟨t, ht, hquiet, hsub⟩ := sub_of_ok (c := .frameSubscribe dt r.mbox) rfl hturn (cmdFrameSubscribe_cancel ⟨hlow, hhigh⟩ hdec)
    exact ⟨t, ht, hsub, hquiet⟩
  · exact sub_of_ok rfl hturn (cmdFrameSubscribe_room ⟨hlow, hhigh⟩ hdec hroom)
  · exact refused_of_refuse rfl hturn (cmdFrameSubscribe_full ⟨hlow, hhigh⟩ hdec hroom)

end Sys2Proof.Machine
end

section
/-! PROPERTY. Service access: SERVICE.CHALLENGE, SERVICE.RESPOND and SERVICE.LOCK (02_mailbox R76 to R78; notes/assumptions/4.md). -/

namespace Sys2Proof.Machine

open Sys2Proof.Safety

/-- The nonce that the next challenge draws. -/
def drawnNonce (u : State) : Bytes := (List.range 32).map (Config.nonceByte u.nFree)

/-- The module after a challenge: the nonce drawn stands, with its level and the instant of its issue. -/
def challenged (u : State) (lvl : Nat) : State :=
  { u with nFree := u.nFree + 1, mb := { u.mb with nonce := some (drawnNonce u, lvl, elNs u) } }

theorem cmdServiceChallenge_inRange {r : Request} {u : State} (h1 : 1 ≤ byteAt r.payload 0) (h3 : byteAt r.payload 0 ≤ 3) :
    cmdServiceChallenge r u = .ok (challenged u (byteAt r.payload 0))
      (drawnNonce u ++ padTo 12 u.unit.serial ++ u8 u.unit.serviceKeySlot ++ u8 (byteAt r.payload 0) ++ u16 0) := by
  have hin : ¬(byteAt r.payload 0 = 0 ∨ 3 < byteAt r.payload 0) := by omega
  simp only [cmdServiceChallenge, if_neg hin]
  rfl

theorem cmdServiceChallenge_outOfRange {r : Request} {u : State} (h : byteAt r.payload 0 = 0 ∨ 3 < byteAt r.payload 0) :
    cmdServiceChallenge r u = .refuse (errRange 0) := by
  simp only [cmdServiceChallenge, if_pos h]

/-- Settles O9: by the level asked; SERVICE.LOCK refuses nothing. -/
theorem serviceChallengeAndLock : Obligations.ServiceChallengeAndLock := by
  intro dt m s r q u lvl nonce
  refine ⟨fun hturn h1 h3 => ?_, fun hturn hout => ?_, fun hturn => ?_⟩
  · exact answered_of_ok rfl hturn (cmdServiceChallenge_inRange h1 h3) hturn.box hturn.queue
  · exact refused_of_refuse rfl hturn (cmdServiceChallenge_outOfRange hout)
  · exact answered_of_ok (f := cmdServiceLock) rfl hturn rfl hturn.box hturn.queue

/-- The registers that an answer to a challenge writes. -/
abbrev serviceParts (s : State) : Option (Bytes × Nat × Nat) × Nat × Nat × Nat × Option Nat :=
  (s.mb.nonce, s.mb.unlock, s.mb.failRun, s.mb.serviceFails, s.mb.lockoutUntil)

theorem serviceParts_of_quiet {s t : State} (h : quiet t = quiet s) : serviceParts t = serviceParts s :=
  have he : serviceParts (quiet t) = serviceParts (quiet s) := congrArg serviceParts h
  he

/-- A failed answer spends the nonce and is counted; the third in a row begins the lockout (R77). -/
theorem respondFail_serviceParts (u : State) : ∃ t e, respondFail u = .fail t e ∧ serviceParts t =
    (none, u.mb.unlock, if u.mb.failRun + 1 < 3 then u.mb.failRun + 1 else 0, Nat.min 0xFFFF (u.mb.serviceFails + 1),
      if u.mb.failRun + 1 < 3 then u.mb.lockoutUntil else some (elNs u + 60000000000)) := by
  refine ⟨_, _, rfl, ?_⟩
  split
  · rfl
  · simp only [serviceParts, event_mb]

/-- An answer is good when it comes within 30 s of the nonce's issue and its signature is valid (R77). -/
def answerGood (u : State) (nonce : Bytes) (lvl at_ : Nat) (sig : Bytes) : Bool :=
  decide (elNs u ≤ at_ + 30000000000) && Config.sigValid 4 (challengeDigest u nonce lvl) sig

theorem cmdServiceRespond_outstanding {r : Request} {u : State} {nonce : Bytes} {lvl at_ : Nat} (hnonce : u.mb.nonce = some (nonce, lvl, at_))
    (hlock : u.mb.lockoutUntil = none) : cmdServiceRespond r u = if answerGood u nonce lvl at_ r.payload = true then
      .ok { u with mb := { u.mb with nonce := none, unlock := lvl, failRun := 0 } } (u8 lvl ++ zeros 3) else respondFail u := by
  simp only [cmdServiceRespond, hnonce, hlock, answerGood, Bool.and_eq_true, decide_eq_true_eq, Bool.false_eq_true, if_false]

/-- Settles O10: by whether the answer is good. -/
theorem serviceRespondUsesTheNonceOnce : Obligations.ServiceRespondUsesTheNonceOnce := by
  intro dt m s r q nonce lvl at_ u hturn hnonce hlock good
  have hreply : cmdServiceRespond r u = if good = true then _ else respondFail u := cmdServiceRespond_outstanding hnonce hlock
  refine ⟨_, rfl, ?_⟩
  cases hgood : good with
  | true =>
    rw [if_pos hgood] at hreply
    have hparts := serviceParts_of_quiet ((settle_quiet _).trans (runImmediate_quiet hturn hreply))
    simp only [serviceParts, Prod.mk.injEq] at hparts
    simpa [hlock] using hparts
  | false =>
    rw [if_neg (by simp [hgood])] at hreply
    obtain ⟨t, e, hfail, hspent⟩ := respondFail_serviceParts u
    have hparts := (serviceParts_of_quiet ((settle_quiet _).trans (runImmediate_fail_quiet hturn (hreply.trans hfail)))).trans hspent
    simp only [serviceParts, Prod.mk.injEq, hlock] at hparts
    obtain ⟨hn, hunlock, hrun, hfails, huntil⟩ := hparts
    refine ⟨hn, hunlock, hrun, hfails, huntil.trans ?_⟩
    by_cases h : u.mb.failRun + 1 < 3
    · rw [if_pos h, if_neg (by omega)]
    · rw [if_neg h, if_pos ⟨rfl, by omega⟩]

end Sys2Proof.Machine
end

section
/-! PROPERTY. The firmware bank: FW.STAGE and FW.ACTIVATE (02_mailbox R79 to R81; notes/assumptions/4.md, 33.md). -/

namespace Sys2Proof.Machine

open Sys2Proof.Safety

/-- The module after its staged bank was written. -/
def staged (bank : List Host.Cell) (u : State) : State := { u with mb := { u.mb with fwBank := bank } }

/-- FW.STAGE within the bank is judged by its read-back. -/
theorem cmdFwStage_inBank {r : Request} {u : State} (readBackOk : Bool) (halign : fld r.payload 0 4 % 4 = 0) (hofs : fld r.payload 0 4 < fwSize)
    (hend : fld r.payload 0 4 + (r.payload.drop 4).length ≤ fwSize) : cmdFwStage readBackOk r u =
      if readBackOk = false then .refuse { code := 0x0011 }
      else .ok (staged (fwWriteAll u.mb.fwBank (fld r.payload 0 4) (r.payload.drop 4)) u) [] := by
  have hin : ¬(fld r.payload 0 4 % 4 ≠ 0 ∨ fwSize ≤ fld r.payload 0 4 ∨ fwSize < fld r.payload 0 4 + (r.payload.drop 4).length) := by omega
  simp only [cmdFwStage, if_neg hin, staged]

/-- The firmware registers. -/
abbrev fwParts (s : State) : List Host.Cell × Nat × Nat := (s.mb.fwBank, s.mb.fwActive, s.mb.fwNext)

theorem fwParts_of_quiet {s t : State} (h : quiet t = quiet s) : fwParts t = fwParts s :=
  have he : fwParts (quiet t) = fwParts (quiet s) := congrArg fwParts h
  he

/-- A state that is a staged one but for mailbox contents, what was sent and the pins is the unstaged one but for these and the bank. -/
theorem quiet_staged {t u : State} {bank : List Host.Cell} (h : quiet t = quiet (staged bank u)) :
    quiet { t with mb := { t.mb with fwBank := [] } } = quiet { u with mb := { u.mb with fwBank := [] } } :=
  (congrArg (staged []) h :)

section
variable {r : Request} {u : State} (hlen : fld r.payload 0 4 ≤ fwSize) (hst : u.st = .held ∨ u.st = .standby)
include hlen hst

/-- FW.ACTIVATE in HELD or STANDBY is judged by the staged image's signature. -/
theorem cmdFwActivate_judged : cmdFwActivate r u = if Config.fwValid (fld r.payload 0 4) u.mb.fwBank = true then
      .ok { u with mb := { u.mb with fwNext := 1 - u.mb.fwActive, fwFails := 0 } } []
    else .fail { u with mb := { u.mb with fwFails := u.mb.fwFails + 1 } } { code := 0x000E, detail := u.mb.fwFails + 1 } := by
  have hidle : ¬(u.st ≠ .held ∧ u.st ≠ .standby) := by rwa [not_and_or, not_not, not_not]
  simp only [cmdFwActivate, if_neg (Nat.not_lt.mpr hlen), if_neg hidle]

/-- What FW.ACTIVATE leaves of the firmware registers. -/
theorem runFwActivate_fwParts {m : Nat} {q : List Request} (hturn : Turn u m wFwActivate r q) :
    fwParts (runImmediate wFwActivate cmdFwActivate m u) = (u.mb.fwBank, u.mb.fwActive,
      if Config.fwValid (fld r.payload 0 4) u.mb.fwBank = true then 1 - u.mb.fwActive else u.mb.fwNext) := by
  have hreply := cmdFwActivate_judged hlen hst
  split at hreply
  · rename_i hvalid
    rw [if_pos hvalid]
    exact (fwParts_of_quiet (runImmediate_quiet hturn hreply) :)
  · rename_i hvalid
    rw [if_neg hvalid]
    exact (fwParts_of_quiet (runImmediate_fail_quiet hturn hreply) :)

end

/-- Settles O12: a staged stretch reads back and keeps the bank's form; the mark follows the signature. -/
theorem fwStageWritesTheInactiveBank : Obligations.FwStageWritesTheInactiveBank := by
  intro dt m s r q u
  refine ⟨fun hturn hwf halign hofs hend => ⟨?_, ?_⟩, fun hturn hlen hst => ?_⟩
  · obtain ⟨t, ht, hsent, hquiet⟩ := answered_of_ok (c := .fwStage dt m true) (s := s) rfl hturn (cmdFwStage_inBank true halign hofs hend)
      hturn.box hturn.queue
    have hbank : t.mb.fwBank = fwWriteAll u.mb.fwBank (fld r.payload 0 4) (r.payload.drop 4) := congrArg Prod.fst (fwParts_of_quiet hquiet)
    refine ⟨t, ht, hsent, fun a => ?_, ?_, quiet_staged hquiet⟩
    · rw [hbank, fwRead_writeAll a _ _ hwf]
    · rw [hbank]
      exact fwWriteAll_wf _ _ hwf
  · exact refused_of_refuse rfl hturn (cmdFwStage_inBank false halign hofs hend)
  · have hparts := runFwActivate_fwParts hlen hst hturn
    simp only [fwParts, Prod.mk.injEq] at hparts
    obtain ⟨hbank, hactive, hnext⟩ := hparts
    refine ⟨_, rfl, ?_, ?_, ?_⟩
    · rw [settle_mb, hactive]
    · rw [settle_mb, hbank]
    · rw [settle_mb, hnext]

end Sys2Proof.Machine
end

section
/-! PROPERTY. OXMP_REQUEST_ARRIVAL: dropped, repeated from the cache, or waiting for its turn (02_mailbox R45, R48, R52, R55, R56, R66). -/

namespace Sys2Proof.Machine

open Sys2Proof.Safety

/-! ### What a message is -/

theorem arrive_closed {u : State} {port : HostPort} {src : Src} {dst : IpDst} {m : Bytes}
    (h : ¬(portOpen u port = true ∧ forMailbox u port dst = true)) : arrive port src dst m u = u := if_neg h

section
variable {u : State} {port : HostPort} {src : Src} {dst : IpDst} {m : Bytes} (hopen : portOpen u port = true ∧ forMailbox u port dst = true)
include hopen

theorem arrive_format (hp : parseMessage port src (nowNs u) (elNs u) m = .format) : arrive port src dst m u =
    { u with mb := { u.mb with formatDrops := Nat.min 0xFFFFFFFF (u.mb.formatDrops + 1) } } := by
  simp only [arrive, if_pos hopen, hp]

theorem arrive_crc (hp : parseMessage port src (nowNs u) (elNs u) m = .crc) : arrive port src dst m u =
    { u with mb := { u.mb with crcDrops := Nat.min 0xFFFFFFFF (u.mb.crcDrops + 1) } } := by
  simp only [arrive, if_pos hopen, hp]

end

/-- The state in which a request is taken: one on the service mailbox shows that USB is attached and restarts its time (R62, R78). -/
def noted (port : HostPort) (r : Request) (u : State) : State :=
  if r.mbox = 0 ∧ port = .x5 then { u with mb := { u.mb with lastServiceEl := elNs u, usbAttached := true } } else u

theorem arrive_req {u : State} {port : HostPort} {src : Src} {dst : IpDst} {m : Bytes} {r : Request}
    (hopen : portOpen u port = true ∧ forMailbox u port dst = true) (hp : parseMessage port src (nowNs u) (elNs u) m = .req r) :
    arrive port src dst m u = acceptRequest r (noted port r u) := by
  simp only [arrive, if_pos hopen, hp, noted]

/-- A request keeps where it came from, and waits for its turn. -/
theorem parseMessage_req {port : HostPort} {src : Src} {stamp stampEl : Nat} {m : Bytes} {r : Request}
    (h : parseMessage port src stamp stampEl m = .req r) : r.port = port ∧ r.src = src ∧ r.answer = none ∧ r.applyTic = none := by
  unfold parseMessage at h
  repeat' split at h
  case isFalse.isFalse.isFalse.isFalse =>
    cases h
    exact ⟨rfl, rfl, rfl, rfl⟩
  all_goals cases h

theorem noted_out (port : HostPort) (r : Request) (u : State) : (noted port r u).out = u.out := by unfold noted; split <;> rfl
theorem noted_boxes (port : HostPort) (r : Request) (u : State) : (noted port r u).mb.boxes = u.mb.boxes := by unfold noted; split <;> rfl
theorem noted_elNs (port : HostPort) (r : Request) (u : State) : elNs (noted port r u) = elNs u := by unfold noted; split <;> rfl

theorem boxOf_noted (port : HostPort) (r : Request) (u : State) (k : Nat) : boxOf (noted port r u) k = boxOf u k := by
  rw [boxOf, noted_boxes]
  rfl

/-! ### The checks of Table 2-4 -/

/-- What steps 1 to 10 of Table 2-4 read of a state for a mailbox. -/
abbrev checkParts (m : Nat) (s : State) : Nat × Nat × Nat × Nat × CfgSt :=
  (sessionOf s m, s.ledger.boot, s.mb.unlock, lockoutLeft s, s.cfg)

section
variable {s t : State} {r : Request} (h : checkParts r.mbox t = checkParts r.mbox s)
include h

theorem headerCheck_of_checkParts : headerCheck t r = headerCheck s r := by
  simp only [checkParts, Prod.mk.injEq] at h
  obtain ⟨hsession, hboot, -, -, -⟩ := h
  simp only [headerCheck, hsession, hboot]

theorem classCheck_of_checkParts (c : CmdInfo) : classCheck t r.mbox c = classCheck s r.mbox c := by
  simp only [checkParts, Prod.mk.injEq] at h
  obtain ⟨-, -, hunlock, hlockout, hcfg⟩ := h
  unfold classCheck controlHeld
  rw [hunlock, hlockout, hcfg]

theorem commandCheck_of_checkParts : commandCheck t r = commandCheck s r := by
  have hsession : sessionOf t r.mbox = sessionOf s r.mbox := congrArg Prod.fst h
  simp only [commandCheck, classCheck_of_checkParts h, hsession]

end

/-- A mailbox written with its own terms changes nothing that the checks read. -/
theorem checkParts_setBox {m : Nat} {b : Mbox} {s : State} (h : boxTerms b = boxTerms (boxOf s m)) (k : Nat) :
    checkParts k (setBox m b s) = checkParts k s := by
  have hsession : sessionOf (setBox m b s) k = sessionOf s k := congrArg (fun x => x.session.getD 0) (boxTerms_setBox h k)
  simp only [checkParts, hsession]
  rfl

theorem checkParts_noted (port : HostPort) (r : Request) (u : State) (k : Nat) : checkParts k (noted port r u) = checkParts k u := by
  unfold noted
  split <;> rfl

theorem portCheck_of_headerCheck {s : State} {r : Request} (h : headerCheck s r = none) : portCheck r = none := by
  cases hp : portCheck r with
  | none => rfl
  | some e => simp [headerCheck, hp] at h

/-- A request of no frame-bound command that passes steps 1 to 10 keeps its turn and waits for its command. -/
theorem turn_immediate {s : State} {r : Request} (hh : headerCheck s r = none) (hc : commandCheck s r = none)
    (hb : ∀ c, cmdInfo r.cmd = some c → c.bound = false) : turn s r = (r, false) := by
  simp only [turn, hh, hc]
  cases hi : cmdInfo r.cmd with
  | none => rfl
  | some c => simp [hb c hi]

/-! ### Taking a request -/

/-- The state in which a request meets its mailbox: the cached responses that are older than 2 s have left (R55). -/
def aged (m : Nat) (s : State) : State := setBox m (cacheAge (elNs s) (boxOf s m)) s

theorem boxOf_aged {s : State} {m : Nat} (h : m < s.mb.boxes.length) : boxOf (aged m s) m = cacheAge (elNs s) (boxOf s m) := boxOf_setBox _ h

theorem checkParts_aged (m : Nat) (s : State) (k : Nat) : checkParts k (aged m s) = checkParts k s := by
  refine checkParts_setBox ?_ k
  rfl

/-- A response with the tag and the CRC of a request, which is the only one of its tag, is the one that the cache finds. -/
theorem find_cached {l : List CacheEntry} {r : Request} {e : CacheEntry} (he : e ∈ l) (htag : e.tag = r.tag) (hcrc : e.crc = r.crc)
    (honly : ∀ f ∈ l, f.tag = r.tag → f = e) : l.find? (fun c => c.tag == r.tag && c.crc == r.crc) = some e := by
  cases hf : l.find? (fun c => c.tag == r.tag && c.crc == r.crc) with
  | none => simpa [htag, hcrc] using List.find?_eq_none.mp hf e he
  | some f =>
    have hmatch := List.find?_some hf
    simp only [Bool.and_eq_true, beq_iff_eq] at hmatch
    rw [honly f (List.mem_of_find?_eq_some hf) hmatch.1]

/-- A repeated request is answered from the cache (R56). -/
theorem acceptRequest_repeat {s : State} {r : Request} {e : CacheEntry} (hm : r.mbox < s.mb.boxes.length)
    (he : e ∈ (boxOf s r.mbox).cache) (htag : e.tag = r.tag) (hcrc : e.crc = r.crc) (htime : elNs s ≤ e.stampEl + 2000000000)
    (honly : ∀ f ∈ (boxOf s r.mbox).cache, f.tag = r.tag → f = e) : acceptRequest r s = sendTo r e.resp (aged r.mbox s) := by
  have hfind : (boxOf (aged r.mbox s) r.mbox).cache.find? (fun c => c.tag == r.tag && c.crc == r.crc) = some e := by
    rw [boxOf_aged hm]
    exact find_cached (List.mem_filter.mpr ⟨he, decide_eq_true htime⟩) htag hcrc (fun f hf => honly f (List.mem_filter.mp hf).1)
  rw [boxOf_aged hm] at hfind
  simp only [acceptRequest, boxOf_setBox _ hm, hfind, aged]

/-- A mailbox with one request that waits for its command is served to no effect. -/
theorem serve_waits {s : State} {m : Nat} {r : Request} (hm : m < s.mb.boxes.length) (hq : (boxOf s m).queue = [r]) (hw : r.waiting = true)
    (ha : r.answer = none) (ht : turn s r = (r, false)) : (serve m s).out = s.out ∧ (boxOf (serve m s) m).queue = [r] := by
  have hpump : pump 6 m s = s := by simp [pump, hq, hw, ht]
  have hflush : flushQueue [r] = ([], [r]) := by simp [flushQueue, ha]
  unfold serve flushBox
  simp only [hpump, hq, hflush, List.foldl_nil, setBox_out, boxOf_setBox _ hm, and_self]

/-- The mailbox of a first request. -/
def opened (r : Request) (s : State) : State := setBox r.mbox { boxOf s r.mbox with queue := [r] } s

theorem checkParts_opened (r : Request) (s : State) (k : Nat) : checkParts k (opened r s) = checkParts k s := by
  refine checkParts_setBox ?_ k
  rfl

/-- A request in an empty mailbox takes its place there and is served (R55, R65, R66). -/
theorem acceptRequest_first {s : State} {r : Request} (hm : r.mbox < s.mb.boxes.length) (hcache : (boxOf s r.mbox).cache = [])
    (hqueue : (boxOf s r.mbox).queue = []) (hport : portCheck r = none) :
    acceptRequest r s = serve r.mbox (opened r (aged r.mbox s)) := by
  have hfresh : cacheAge (elNs s) (boxOf s r.mbox) = boxOf s r.mbox := by
    rw [cacheAge, hcache, List.filter_nil, ← hcache]
  have hcap : ¬boxCap r.mbox ≤ 0 := by
    unfold boxCap
    split <;> omega
  simp [acceptRequest, boxOf_setBox _ hm, hfresh, hcache, hqueue, hport, hcap, opened, aged]

/-- A first request of no frame-bound command that passes steps 1 to 10 waits in its mailbox, and nothing is sent (R55, R66). -/
theorem acceptRequest_waits {s : State} {r : Request} (hm : r.mbox < s.mb.boxes.length) (hcache : (boxOf s r.mbox).cache = [])
    (hqueue : (boxOf s r.mbox).queue = []) (hh : headerCheck s r = none) (hc : commandCheck s r = none)
    (hb : ∀ c, cmdInfo r.cmd = some c → c.bound = false) (ha : r.answer = none) (ht : r.applyTic = none) :
    (acceptRequest r s).out = s.out ∧ (boxOf (acceptRequest r s) r.mbox).queue = [r] := by
  have hparts : checkParts r.mbox (opened r (aged r.mbox s)) = checkParts r.mbox s :=
    (checkParts_opened r _ _).trans (checkParts_aged _ _ _)
  have hm' : r.mbox < (aged r.mbox s).mb.boxes.length := by rwa [aged, setBox_length]
  have hwaiting : r.waiting = true := by simp [Request.waiting, ha, ht]
  rw [acceptRequest_first hm hcache hqueue (portCheck_of_headerCheck hh)]
  refine serve_waits (s := opened r (aged r.mbox s)) (by rwa [opened, setBox_length]) ?_ hwaiting ha ?_
  · rw [opened, boxOf_setBox _ hm']
  · rw [← headerCheck_of_checkParts hparts] at hh
    rw [← commandCheck_of_checkParts hparts] at hc
    exact turn_immediate hh hc hb

/-- Settles O14: by whether the port is open, what the message is, and what stands in the mailbox. -/
theorem arrivalDropsCountsAndQueues : Obligations.ArrivalDropsCountsAndQueues := by
  intro dt port src dst msg s u p isOpen
  refine ⟨fun hclosed => gives_of_settle rfl (arrive_closed hclosed), fun hopen hp => gives_of_settle rfl (arrive_format hopen hp),
    fun hopen hp => gives_of_settle rfl (arrive_crc hopen hp), fun r hopen hp hm => ?_⟩
  have hexec : exec (.oxmpRequestArrival dt port src ⟨dst, msg⟩) s = .next (settle (acceptRequest r (noted port r u))) := by
    rw [← arrive_req hopen hp]
    rfl
  obtain ⟨hport, hsrc, hanswer, happly⟩ := parseMessage_req hp
  have hm' : r.mbox < (noted port r u).mb.boxes.length := by rwa [noted_boxes]
  refine ⟨fun e he htag hcrc htime honly => ⟨_, hexec, ?_⟩, fun hcache hqueue hh hc hb => ⟨_, hexec, ?_⟩⟩
  · rw [acceptRequest_repeat hm' (by rwa [boxOf_noted]) htag hcrc (by rwa [noted_elNs]) (by rwa [boxOf_noted])]
    refine ⟨?_, ?_⟩
    · rw [settle_out, sendTo, emit_out, aged, setBox_out, noted_out, hport, hsrc]
      rfl
    · have hbox := congrArg Mbox.queue (boxOf_aged hm')
      rw [boxOf_noted] at hbox
      rw [boxOf_settle]
      exact hbox
  · have hparts := checkParts_noted port r u r.mbox
    obtain ⟨hout, hwaits⟩ := acceptRequest_waits hm' (by rwa [boxOf_noted]) (by rwa [boxOf_noted]) (by rwa [headerCheck_of_checkParts hparts])
      (by rwa [commandCheck_of_checkParts hparts]) hb hanswer happly
    refine ⟨?_, ?_⟩
    · rw [settle_out, hout, noted_out]
      rfl
    · rw [boxOf_settle, hwaits]

end Sys2Proof.Machine
end

section
/-! PROPERTY. DATAGRAM_450_RECEIVE and UDP_BINARY_RECEIVE: the intake queue of a host port (04_intake R110, R114, R125, R126; 14_timebase_rtc
Table 14-4; notes/assumptions/4.md, 16.md). -/

namespace Sys2Proof.Machine

open Sys2Proof.Safety

/-! ### Writing one port -/

theorem upd_upd {α : Type} (f g : α → α) : ∀ (l : List α) (i : Nat), upd f (upd g l i) i = upd (fun x => f (g x)) l i
  | [], _ => rfl
  | _ :: _, 0 => rfl
  | x :: r, i + 1 => congrArg (x :: ·) (upd_upd f g r i)

theorem upd_same {α : Type} {f : α → α} (h : ∀ x, f x = x) : ∀ (l : List α) (i : Nat), upd f l i = l
  | [], _ => rfl
  | x :: r, 0 => congrArg (· :: r) (h x)
  | x :: r, i + 1 => congrArg (x :: ·) (upd_same h r i)

theorem setIntakePort_setIntakePort (p : Nat) (f g : PortSt → PortSt) (s : State) :
    setIntakePort p f (setIntakePort p g s) = setIntakePort p (fun x => f (g x)) s := by
  simp only [setIntakePort, upd_upd]

/-- What waits on a port. -/
def waitingOn (s : State) (p : Nat) : List Pend := (nth {} s.intake.ports p).waiting

/-- Counting on a port leaves what waits there. -/
theorem waitingOn_count (p : Nat) (f : Counters → Counters) (s : State) : waitingOn (count p f s) p = waitingOn s p := by
  simp only [waitingOn, count, setIntakePort_intake]
  by_cases hp : p < s.intake.ports.length
  · rw [nth_upd _ _ _ _ hp]
  · rw [upd_ge _ _ _ (Nat.le_of_not_lt hp)]

/-! ### Messages whose service has ended -/

theorem dropServed_port {s t : State} {i : Nat} (h : servedOf s i = []) :
    setIntakePort i (fun x => { x with waiting := x.waiting.drop (servedOf s i).length }) t = t := by
  rw [setIntakePort, upd_same (fun _ => by rw [h]; rfl)]

theorem dropServed_none {s : State} : ∀ (ps : List Nat), (∀ i ∈ ps, servedOf s i = []) →
    ps.foldl (fun t p => setIntakePort p (fun x => { x with waiting := x.waiting.drop (servedOf s p).length }) t) s = s := by
  intro ps h
  induction ps with
  | nil => rfl
  | cons i ps ih =>
    obtain ⟨hi, hps⟩ := List.forall_mem_cons.mp h
    rw [List.foldl_cons, dropServed_port hi]
    exact ih hps

/-- With no message whose service has ended nothing is served. -/
theorem serveIntake_none {s : State} (h : ∀ i ∈ queuePorts, servedOf s i = []) : serveIntake s = s := by
  have hdone : queuePorts.flatMap (servedOf s) = [] := List.flatMap_eq_nil_iff.mpr h
  simp only [serveIntake, dropServed_none _ h, hdone, sortBy, List.foldl_nil, ite_self]

/-! ### A message arrives -/

/-- The messages that an arrival counts in RX_MESSAGES: the sentences of a 61162-450 datagram, else one. -/
def received (d : Pend) : Nat :=
  match d.kind with
  | .nmea => if d.data.take 6 = head450 then (lines450 (d.data.drop 6)).length else 1
  | _ => 1

/-- A message as it waits: when it arrived, and when its service ends, after that of the message before it (R125). -/
def inService (s : State) (before : Nat) (d : Pend) : Pend :=
  { d with arrEl := elNs s, doneEl := Nat.min (Nat.max (elNs s) before + serviceNs) (elNs s + 100000) }

/-- End of service of the last message that waits, 0 with none. -/
def lastDone (w : List Pend) : Nat := (w.getLast?.map (·.doneEl)).getD 0

/-- A message takes its place behind those that wait; at a full queue the oldest is displaced and counted (R125, R126). -/
def enqueued (p : Nat) (d : Pend) (s : State) : State :=
  let w := waitingOn s p
  if queueLen p ≤ w.length then
    count p cntFlood (setIntakePort p (fun x => { x with waiting := w.drop 1 ++ [inService s (lastDone w) d] }) s)
  else setIntakePort p (fun x => { x with waiting := w ++ [inService s (lastDone w) d] }) s

theorem queueMessage_eq (p : Nat) (d : Pend) (s : State) :
    queueMessage p d s = enqueued p d (count p (cntRxs (received d)) (serveIntake s)) := rfl

/-- A port with what waits there, after `n` messages were received and, where `drops` is not 0, one was displaced. -/
def queued (p : Nat) (l : List Pend) (n drops : Nat) (s : State) : State :=
  setIntakePort p (fun y => { y with
    waiting := l
    cnt := { y.cnt with rx := Nat.min 0xFFFFFFFF (y.cnt.rx + n)
                        floodDrops := if drops = 0 then y.cnt.floodDrops else Nat.min 0xFFFFFFFF (y.cnt.floodDrops + 1) } }) s

theorem queueLen_host {p : Nat} (h : p = 9 ∨ p = 10) : queueLen p = 256 := if_pos (by omega)

section
variable {s : State} {p : Nat} {d : Pend} (hp : p = 9 ∨ p = 10) (hserved : ∀ i ∈ queuePorts, servedOf s i = [])
include hp hserved

theorem queueMessage_first (hw : waitingOn s p = []) : queueMessage p d s = queued p [inService s 0 d] (received d) 0 s := by
  rw [queueMessage_eq, serveIntake_none hserved, enqueued, waitingOn_count, hw, queueLen_host hp, if_neg (by simp), count,
    setIntakePort_setIntakePort]
  rfl

theorem queueMessage_displaces {l : Pend} (hw : (waitingOn s p).length = 256) (hl : (waitingOn s p).getLast? = some l) :
    queueMessage p d s = queued p ((waitingOn s p).drop 1 ++ [inService s l.doneEl d]) (received d) 1 s := by
  have hlast : lastDone (waitingOn s p) = l.doneEl := by rw [lastDone, hl]; rfl
  rw [queueMessage_eq, serveIntake_none hserved, enqueued, waitingOn_count, hw, hlast, queueLen_host hp, if_pos (Nat.le_refl _), count,
    count, setIntakePort_setIntakePort, setIntakePort_setIntakePort]
  rfl

end

/-! ### The commands -/

/-- A 61162-450 datagram as it is taken in, with the corrected stamp of its arrival (14 Table 14-4). -/
def pend450 (s : State) (p : Nat) (data : Bytes) : Pend := { kind := .nmea, stamp := ingressStamp s (p - 9), data := data }

/-- An integrator datagram as it is taken in. -/
def pendUdp (s : State) (p : Nat) (dst : IpDst) (data : Bytes) : Pend :=
  { kind := .udp, key := dst.port, stamp := ingressStamp s (p - 9), data := data }

/-- An integrator datagram, whole and for a port that is neither the mailboxes' nor PTP's (02 R45; 04 R114). -/
abbrev forIntake (dst : IpDst) : Prop := notIntake dst.port = false ∧ dst.fragment = false

theorem exec450_taken {dt p : Nat} {dst : IpDst} {data : Bytes} {s v : State} (hduty : onDuty (advance s dt).st = true)
    (hacc : accepts450 (advance s dt) p dst = true) (hv : queueMessage p (pend450 (advance s dt) p data) (advance s dt) = v) :
    Gives (.datagram450Receive dt p ⟨dst, data⟩) s v := gives_of_settle rfl ((if_pos ⟨hduty, hacc⟩).trans hv)

theorem execUdp_taken {dt p : Nat} {dst : IpDst} {src : Src} {data : Bytes} {s v : State} (hduty : onDuty (advance s dt).st = true)
    (hmine : forIntake dst) (hv : queueMessage p (pendUdp (advance s dt) p dst data) (advance s dt) = v) :
    Gives (.udpBinaryReceive dt p dst src data) s v := gives_of_settle rfl ((if_pos ⟨hduty, hmine⟩).trans hv)

theorem exec450_not {dt p : Nat} {dst : IpDst} {data : Bytes} {s : State}
    (h : onDuty (advance s dt).st = false ∨ accepts450 (advance s dt) p dst = false) :
    Gives (.datagram450Receive dt p ⟨dst, data⟩) s (advance s dt) := by
  refine gives_of_settle rfl (if_neg ?_)
  rintro ⟨hduty, hacc⟩
  exact h.elim (fun e => Bool.false_ne_true (e.symm.trans hduty)) (fun e => Bool.false_ne_true (e.symm.trans hacc))

theorem execUdp_not {dt p : Nat} {dst : IpDst} {src : Src} {data : Bytes} {s : State}
    (h : onDuty (advance s dt).st = false ∨ ¬forIntake dst) : Gives (.udpBinaryReceive dt p dst src data) s (advance s dt) := by
  refine gives_of_settle rfl (if_neg ?_)
  rintro ⟨hduty, hmine⟩
  exact h.elim (fun e => Bool.false_ne_true (e.symm.trans hduty)) (fun e => e hmine)

theorem accepts450_fragment {s : State} {p : Nat} {dst : IpDst} (h : dst.fragment = true) : accepts450 s p dst = false := by
  simp [accepts450, h]

/-- Settles O35: taken in on duty, at the queue's end or in the oldest message's place, else not at all. -/
theorem datagramsWaitInTheirQueue : Obligations.DatagramsWaitInTheirQueue := by
  refine ⟨Nat.min_le_left _ _, ?_⟩
  intro dt p dst src data s u w stamp lines served nmea udp put mine hp hserved
  refine ⟨fun hduty hw => ⟨fun hacc => ?_, fun hmine => ?_⟩, fun l hduty hw hl => ⟨fun hacc => ?_, fun hmine => ?_⟩,
    exec450_not, accepts450_fragment, execUdp_not⟩
  · exact exec450_taken hduty hacc (queueMessage_first hp hserved hw)
  · exact execUdp_taken hduty hmine (queueMessage_first hp hserved hw)
  · exact exec450_taken hduty hacc (queueMessage_displaces hp hserved hw hl)
  · exact execUdp_taken hduty hmine (queueMessage_displaces hp hserved hw hl)

end Sys2Proof.Machine
end

section
/-! PROPERTY. SENTENCE_RECEIVE and SERIAL_UNLOCK: one message of a serial port, and the port's rate (04_intake R107 to R109, R119, R126, R543;
03_configuration R102; notes/assumptions/16.md). -/

namespace Sys2Proof.Machine

open Sys2Proof.Safety

/-! ### Characters -/

theorem messagesOf_noStart : ∀ {chars : Bytes}, (∀ y ∈ chars, y ≠ 0x24 ∧ y ≠ 0x21) → messagesOf chars none = ([], none)
  | [], _ => rfl
  | c :: r, h => by
    obtain ⟨⟨hdollar, hbang⟩, hr⟩ := List.forall_mem_cons.mp h
    have hstart : ¬(c = bDollar ∨ c = bBang) := fun hc => hc.elim hdollar hbang
    simp only [messagesOf, if_neg hstart]
    exact messagesOf_noStart hr

section
variable {dt p baud : Nat} {chars m : Bytes} {ending : MsgEnd} {s : State}

/-- Off duty, and with no start character, nothing is taken in (R543; notes/assumptions/16.md). -/
theorem execSentence_nothing (h : onDuty (advance s dt).st = false ∨ ∀ y ∈ chars, y ≠ 0x24 ∧ y ≠ 0x21) :
    Gives (.sentenceReceive dt p baud chars ending) s (advance s dt) := by
  refine gives_of_settle rfl ?_
  obtain hoff | hstart := h
  · exact if_neg (by simpa using hoff)
  · simp only [sentenceReceive, messagesOf_noStart hstart, List.append_nil, List.foldl_nil, ite_self]

theorem execSentence_onDuty (hduty : onDuty (advance s dt).st = true) :
    exec (.sentenceReceive dt p baud chars ending) s = .next (settle (sentenceReceive p baud chars ending (advance s dt))) :=
  congrArg (Host.Outcome.next ∘ settle) (if_pos hduty)

/-- On duty a message that ends among the characters is received. -/
theorem execSentence_ended {b : Bool} (hduty : onDuty (advance s dt).st = true) (hm : messagesOf chars none = ([(m, b)], none)) :
    exec (.sentenceReceive dt p baud chars ending) s = .next (settle (serialMessage p baud (m, b) (advance s dt))) := by
  simp only [execSentence_onDuty hduty, sentenceReceive, hm, List.append_nil, List.foldl_cons, List.foldl_nil]

/-- On duty a message in progress ends with the characters, and not at its LF (R543). -/
theorem execSentence_unended (hduty : onDuty (advance s dt).st = true) (hm : messagesOf chars none = ([], some m)) :
    exec (.sentenceReceive dt p baud chars ending) s = .next (settle (serialMessage p baud (m.reverse, false) (advance s dt))) := by
  simp only [execSentence_onDuty hduty, sentenceReceive, hm, List.nil_append, List.foldl_cons, List.foldl_nil]

end

/-! ### One message -/

/-- The sentence that a message is: ended at its LF, at a rate that the port takes, and well formed but for its checksum (R107, R108). -/
def recognised (q : PortSt) (baud : Nat) (m : Bytes × Bool) : Option Sentence :=
  if m.2 && (q.baud == 0 || q.baud == baud) then parseSentence m.1 else none

theorem recognised_unended (q : PortSt) (baud : Nat) (m : Bytes) : recognised q baud (m, false) = none := rfl

theorem recognised_fits {q : PortSt} {baud : Nat} (m : Bytes) (h : q.baud = 0 ∨ q.baud = baud) : recognised q baud (m, true) = parseSentence m :=
  if_pos (by simpa using h)

theorem recognised_none {q : PortSt} {baud : Nat} {m : Bytes} (h : ¬(q.baud = 0 ∨ q.baud = baud) ∨ parseSentence m = none) :
    recognised q baud (m, true) = none := by
  by_cases hfit : q.baud = 0 ∨ q.baud = baud
  · rw [recognised_fits m hfit]
    exact h.resolve_left (not_not_intro hfit)
  · exact if_neg (by simpa using hfit)

/-- A port's counters after one message in RX_MESSAGES and what `f` counts of it. -/
def messageCounted (p : Nat) (f : Counters → Counters) (s : State) : State :=
  setIntakePort p (fun y => { y with cnt := f { y.cnt with rx := inc y.cnt.rx } }) s

theorem count_cntRx (p : Nat) (f : Counters → Counters) (s : State) : count p f (count p cntRx s) = messageCounted p f s :=
  setIntakePort_setIntakePort p _ _ s

section
variable {p baud : Nat} {m : Bytes × Bool} {x : Sentence} {s : State}

theorem serialMessage_malformed (h : recognised (nth {} s.intake.ports p) baud m = none) :
    serialMessage p baud m s = messageCounted p cntMalformed s := by
  unfold recognised at h
  simp only [serialMessage, h, count_cntRx]

theorem serialMessage_cksum (h : recognised (nth {} s.intake.ports p) baud m = some x) (hck : x.hasCk = true) (hok : x.ckOk = false) :
    serialMessage p baud m s = messageCounted p cntCksum s := by
  unfold recognised at h
  simp only [serialMessage, h, hck, hok, and_self, if_true, count_cntRx]

/-- A well-formed sentence whose checksum is met commits, and ends 0x0412 where no port is left unlocked (R107, R119; Table 4-4). -/
theorem serialMessage_good (h : recognised (nth {} s.intake.ports p) baud m = some x) (hck : x.hasCk = true) (hok : x.ckOk = true) :
    serialMessage p baud m s = endCond 0x0412 (unlockedCond (lockSerial p baud (count p cntRx s)))
      (commitMessage p (nowNs s) (serialEntries s p x) (sentenceRaw x) (lockSerial p baud (count p cntRx s))) := by
  unfold recognised at h
  simp only [serialMessage, h, hck, hok, Bool.true_eq_false, and_false, if_false]

end

/-! ### The entries of a message -/

theorem commitMessage_nil (p stamp : Nat) (read : Image.Entry → Raw) (s : State) :
    commitMessage p stamp [] read s = count p cntUnmatched s := rfl

theorem commitMessage_commit {p stamp q : Nat} {w : Int} {e : Image.Entry} {read : Image.Entry → Raw} {s : State}
    (h : fate s.cfg.img.map read e = .commit w q) : commitMessage p stamp [e] read s = commitSlot e.dest w stamp q s := by
  simp [commitMessage, h, applyFate]

/-- A slot of the store after a commit (03 R102). -/
theorem commitSlot_slot (dest : Nat) (v : Int) (stamp q : Nat) (s : State) (d : Nat) : Table.get {} (commitSlot dest v stamp q s).store d =
    if dest = d then (Table.get {} s.store dest).take v stamp q else Table.get {} s.store d := Table.get_set _ _ _ _ _

/-! ### What a sentence leaves of store and ports -/

/-- The store, the ports and the image: none of them is what recording an event or raising a fault may touch. -/
abbrev portParts (s : State) : Table Slot × IntakeSt × CfgSt := (s.store, s.intake, s.cfg)

theorem portParts_of_rest {s t : State} (e : rest t = rest s) : portParts t = portParts s :=
  have he : portParts (rest t) = portParts (rest s) := congrArg portParts e
  he

theorem endCond_rest (code : Nat) (on : Bool) (s : State) : rest (endCond code on s) = rest s := by
  unfold endCond
  split
  · rfl
  · exact faultCond_rest s code false

/-- A port locked to a rate by the sentence that has just ended. -/
def lockedPort (baud el : Nat) (q : PortSt) : PortSt := { q with baud := baud, goodEl := el }

theorem lockSerial_rest (p baud : Nat) (s : State) : rest (lockSerial p baud s) = rest (setIntakePort p (lockedPort baud (elNs s)) s) := by
  unfold lockSerial
  dsimp only
  split
  · exact event_rest _ _ _
  · rfl

/-- The port of a message that was received and locked it. -/
def lockedBy (p baud : Nat) (s : State) : State :=
  setIntakePort p (fun y => lockedPort baud (elNs s) { y with cnt := cntRx y.cnt }) s

theorem lockSerial_portParts (p baud : Nat) (s : State) : portParts (lockSerial p baud (count p cntRx s)) = portParts (lockedBy p baud s) :=
  (portParts_of_rest (lockSerial_rest p baud _)).trans (congrArg portParts (setIntakePort_setIntakePort p _ _ s))

theorem lockedBy_port {p : Nat} (baud : Nat) {s : State} (hp : p < s.intake.ports.length) : nth {} (lockedBy p baud s).intake.ports p =
    lockedPort baud (elNs s) { nth {} s.intake.ports p with cnt := cntRx (nth {} s.intake.ports p).cnt } := nth_upd _ _ _ _ hp

section
variable {dt p baud q : Nat} {w : Int} {m : Bytes} {ending : MsgEnd} {chars : Bytes} {x : Sentence} {e : Image.Entry} {s : State}

/-- What an accepted sentence leaves of store, ports and image is what its entries leave of them. -/
theorem execSentence_good (hduty : onDuty (advance s dt).st = true) (hm : messagesOf chars none = ([(m, true)], none))
    (hx : recognised (nth {} (advance s dt).intake.ports p) baud (m, true) = some x) (hck : x.hasCk = true) (hok : x.ckOk = true) :
    ∃ t, exec (.sentenceReceive dt p baud chars ending) s = .next t ∧ portParts t = portParts (commitMessage p (nowNs (advance s dt))
      (serialEntries (advance s dt) p x) (sentenceRaw x) (lockSerial p baud (count p cntRx (advance s dt)))) := by
  refine ⟨_, execSentence_ended hduty hm, ?_⟩
  rw [portParts_of_rest (settle_rest _), serialMessage_good hx hck hok, portParts_of_rest (endCond_rest _ _ _)]

/-- The entry that reads an accepted sentence takes its value; every other slot stays, and the port is locked. -/
theorem execSentence_commits (hduty : onDuty (advance s dt).st = true) (hm : messagesOf chars none = ([(m, true)], none))
    (hx : recognised (nth {} (advance s dt).intake.ports p) baud (m, true) = some x) (hck : x.hasCk = true) (hok : x.ckOk = true)
    (hp : p < (advance s dt).intake.ports.length) (he : serialEntries (advance s dt) p x = [e])
    (hf : fate (advance s dt).cfg.img.map (sentenceRaw x) e = .commit w q) :
    ∃ t, exec (.sentenceReceive dt p baud chars ending) s = .next t ∧
      (∀ d, Table.get {} t.store d = if e.dest = d then (Table.get {} (advance s dt).store e.dest).take w (nowNs (advance s dt)) q
        else Table.get {} (advance s dt).store d) ∧
      (nth {} t.intake.ports p).baud = baud ∧ (nth {} t.intake.ports p).goodEl = elNs (advance s dt) := by
  obtain ⟨t, ht, hparts⟩ := execSentence_good hduty hm hx hck hok
  have hlocked := lockSerial_portParts p baud (advance s dt)
  simp only [portParts, Prod.mk.injEq] at hlocked
  obtain ⟨hstore, hintake, hcfg⟩ := hlocked
  rw [he, commitMessage_commit (by rw [hcfg]; exact hf)] at hparts
  simp only [portParts, Prod.mk.injEq] at hparts
  obtain ⟨hstore', hintake', -⟩ := hparts
  have hport : t.intake = (lockedBy p baud (advance s dt)).intake := hintake'.trans hintake
  refine ⟨t, ht, fun d => ?_, ?_, ?_⟩
  · rw [hstore', commitSlot_slot, hstore]
    rfl
  · rw [hport, lockedBy_port baud hp]
    rfl
  · rw [hport, lockedBy_port baud hp]
    rfl

/-- An accepted sentence that no entry reads is counted in UNMATCHED and commits nothing; the port is locked. -/
theorem execSentence_unmatched (hduty : onDuty (advance s dt).st = true) (hm : messagesOf chars none = ([(m, true)], none))
    (hx : recognised (nth {} (advance s dt).intake.ports p) baud (m, true) = some x) (hck : x.hasCk = true) (hok : x.ckOk = true)
    (hp : p < (advance s dt).intake.ports.length) (he : serialEntries (advance s dt) p x = []) :
    ∃ t, exec (.sentenceReceive dt p baud chars ending) s = .next t ∧ t.store = (advance s dt).store ∧
      (nth {} t.intake.ports p).baud = baud ∧
      (nth {} t.intake.ports p).cnt.unmatched = inc (nth {} (advance s dt).intake.ports p).cnt.unmatched := by
  obtain ⟨t, ht, hparts⟩ := execSentence_good hduty hm hx hck hok
  have hlocked := lockSerial_portParts p baud (advance s dt)
  simp only [portParts, Prod.mk.injEq] at hlocked
  obtain ⟨hstore, hintake, -⟩ := hlocked
  rw [he, commitMessage_nil] at hparts
  simp only [portParts, Prod.mk.injEq] at hparts
  obtain ⟨hstore', hintake', -⟩ := hparts
  have hlen : p < (lockedBy p baud (advance s dt)).intake.ports.length := (upd_length _ _ _).symm ▸ hp
  have hport : nth {} t.intake.ports p = { lockedPort baud (elNs (advance s dt)) { nth {} (advance s dt).intake.ports p with
      cnt := cntRx (nth {} (advance s dt).intake.ports p).cnt } with
      cnt := cntUnmatched (cntRx (nth {} (advance s dt).intake.ports p).cnt) } := by
    rw [hintake', count, setIntakePort_intake, hintake, nth_upd _ _ _ _ hlen, lockedBy_port baud hp]
    rfl
  refine ⟨t, ht, hstore'.trans hstore, ?_, ?_⟩
  · rw [hport]
    rfl
  · rw [hport]
    rfl

end

/-! ### Two seconds of silence -/

theorem serialUnlock_rest {p : Nat} {s : State} (hon : s.st ≠ .off) (hlocked : (nth {} s.intake.ports p).baud ≠ 0)
    (hsilent : (nth {} s.intake.ports p).goodEl + 2000000000 ≤ elNs s) :
    rest (serialUnlock p s) = rest (setIntakePort p (fun y => { y with baud := 0, unlockEl := elNs s }) s) :=
  (congrArg rest (if_pos ⟨hon, hlocked, hsilent⟩)).trans (event_rest _ _ _)

theorem serialUnlock_not {p : Nat} {s : State}
    (h : s.st = .off ∨ (nth {} s.intake.ports p).baud = 0 ∨ elNs s < (nth {} s.intake.ports p).goodEl + 2000000000) : serialUnlock p s = s := by
  refine if_neg ?_
  rintro ⟨hon, hlocked, hsilent⟩
  exact h.elim hon (·.elim hlocked (Nat.not_lt.mpr hsilent))

/-- A command that settles the result of its effect gives any state that the result is but for what a raise may touch. -/
theorem givesRest_of_settle {c : Instr} {s t v : State} (h : exec c s = .next (settle t)) (hv : rest t = rest v) : GivesRest c s v :=
  ⟨settle t, h, by rw [settle_rest, hv]⟩

/-- Settles O34: by what the characters hold, and for one message by what is recognised in it. -/
theorem sentencesCommitOrAreCounted : Obligations.SentencesCommitOrAreCounted := by
  intro dt p baud q w chars m ending e x s u pt msg whole rateOk put
  refine ⟨execSentence_nothing, fun hduty => ⟨?malformed, ?cksum, ?good⟩, fun hon hlocked hsilent => ?unlock,
    fun hnot => gives_of_settle rfl (serialUnlock_not hnot)⟩
  case malformed =>
    rintro (hm | hm | ⟨hm, hbad⟩)
    · exact gives_of_settle (execSentence_unended hduty hm) (serialMessage_malformed (recognised_unended _ _ _))
    · exact gives_of_settle (execSentence_ended hduty hm) (serialMessage_malformed (recognised_unended _ _ _))
    · exact gives_of_settle (execSentence_ended hduty hm) (serialMessage_malformed (recognised_none hbad))
  case cksum =>
    intro hm hrate hx hck hok
    exact gives_of_settle (execSentence_ended hduty hm) (serialMessage_cksum ((recognised_fits m hrate).trans hx) hck hok)
  case good =>
    intro hm hrate hx hck hok hp
    have hrec := (recognised_fits m hrate).trans hx
    refine ⟨fun he hf => ?_, execSentence_unmatched hduty hm hrec hck hok hp⟩
    obtain ⟨t, ht, hstore, hport⟩ := execSentence_commits (ending := ending) hduty hm hrec hck hok hp he hf
    exact ⟨t, ht, (hstore e.dest).trans (if_pos rfl), fun d hd => (hstore d).trans (if_neg hd.symm), hport⟩
  case unlock => exact givesRest_of_settle rfl (serialUnlock_rest hon hlocked hsilent)

end Sys2Proof.Machine
end

section
/-! PROPERTY. CONFIG.STAGE, STAGING_GRANT_EXPIRY, CONFIG.COMMIT, CONFIG.ABORT and CONFIG.READ (03_configuration R92 to R97, R104;
notes/assumptions/10.md, 31.md). -/

namespace Sys2Proof.Machine

open Sys2Proof.Safety

/-! ### Banks and the grant -/

@[simp] theorem setBank_mb (b : Nat) (k : Bank) (s : State) : (setBank b k s).mb = s.mb := by unfold setBank; split <;> rfl
@[simp] theorem setBank_st (b : Nat) (k : Bank) (s : State) : (setBank b k s).st = s.st := by unfold setBank; split <;> rfl
@[simp] theorem setBank_active (b : Nat) (k : Bank) (s : State) : (setBank b k s).cfg.active = s.cfg.active := by unfold setBank; split <;> rfl
@[simp] theorem setBank_img (b : Nat) (k : Bank) (s : State) : (setBank b k s).cfg.img = s.cfg.img := by unfold setBank; split <;> rfl
@[simp] theorem noteGrant_mb (s : State) : (noteGrant s).mb = s.mb := by unfold noteGrant; split <;> rfl
@[simp] theorem noteGrant_st (s : State) : (noteGrant s).st = s.st := by unfold noteGrant; split <;> rfl

theorem bankOf_setBank (b : Nat) (k : Bank) (s : State) : bankOf (setBank b k s) b = k := by
  unfold bankOf setBank
  split <;> rfl

/-- Of the two banks, 0 and the other, the one that is not written stays. -/
theorem bankOf_setBank_other {b c : Nat} (k : Bank) (s : State) (h : b = 0 ↔ c ≠ 0) : bankOf (setBank b k s) c = bankOf s c := by
  unfold bankOf setBank
  by_cases hb : b = 0
  · rw [if_pos hb, if_neg (h.mp hb), if_neg (h.mp hb)]
    rfl
  · have hc : c = 0 := by omega
    rw [if_neg hb, if_pos hc, if_pos hc]
    rfl

/-- The inactive bank is bank 0 exactly when the active one is not. -/
theorem inactiveNo_eq_zero_iff (s : State) : inactiveNo s = 0 ↔ s.cfg.active ≠ 0 := by
  unfold inactiveNo
  omega

/-- Settings and banks are nothing that recording an event or raising a fault may touch. -/
theorem rest_setCfg (f : CfgSt → CfgSt) (s : State) : rest (setCfg f s) = setCfg f (rest s) := rfl

theorem rest_setBank (b : Nat) (k : Bank) (s : State) : rest (setBank b k s) = setBank b k (rest s) := by
  unfold setBank
  split <;> rfl

theorem rest_noteGrant (s : State) : rest (noteGrant s) = noteGrant (rest s) := by
  by_cases h : s.st = .standby
  · rw [noteGrant, noteGrant, if_pos h, if_pos (show (rest s).st = .standby from h)]
    rfl
  · rw [noteGrant, noteGrant, if_neg h, if_neg (show (rest s).st ≠ .standby from h)]

/-- An accepted immediate command that records an event and leaves the mailboxes: its response has left, and the module is as its effect leaves it. -/
theorem answeredRest_of_ok {c : Instr} {s u t v : State} {m word : Nat} {r : Request} {q : List Request} {f : Request → State → Reply} {p : Bytes}
    (hc : exec c s = .next (settle (runImmediate word f m u))) (h : Turn u m word r q) (hf : f r u = .ok t p) (hmb : t.mb = u.mb)
    (hrest : rest t = rest v) : AnsweredRest c s r p v := by
  have hbox : boxOf t m = boxOf u m := by rw [boxOf, boxOf, hmb]
  obtain ⟨t', hexec, hsent, hquiet⟩ := answered_of_ok hc h hf (hmb ▸ h.box) (hbox ▸ h.queue)
  refine ⟨t', hexec, hsent, ?_⟩
  calc quiet (rest t') = quiet (rest (quiet t')) := rfl
    _ = quiet (rest (quiet t)) := by rw [hquiet]
    _ = quiet (rest t) := rfl
    _ = quiet (rest v) := by rw [hrest]

/-- An accepted immediate command that leaves the mailboxes. -/
theorem answered_of_mb {c : Instr} {s u t : State} {m word : Nat} {r : Request} {q : List Request} {f : Request → State → Reply} {p : Bytes}
    (hc : exec c s = .next (settle (runImmediate word f m u))) (h : Turn u m word r q) (hf : f r u = .ok t p) (hmb : t.mb = u.mb) :
    Answered c s r p t :=
  have hbox : boxOf t m = boxOf u m := by rw [boxOf, boxOf, hmb]
  answered_of_ok hc h hf (hmb ▸ h.box) (hbox ▸ h.queue)

/-! ### CONFIG.STAGE -/

/-- OFFSET, TOTAL_LEN and DATA of CONFIG.STAGE (Table 3-10). -/
def stageOfs (r : Request) : Nat := fld r.payload 0 4
def stageTotal (r : Request) : Nat := fld r.payload 4 4
def stageData (r : Request) : Bytes := r.payload.drop 8

/-- The part is the image's last. -/
def stageDone (r : Request) : Bool := decide (stageOfs r + (stageData r).length = stageTotal r)

/-- The bounds on TOTAL_LEN and on the part. -/
def StageShape (r : Request) : Prop :=
  stageTotal r % 4 = 0 ∧ 512 ≤ stageTotal r ∧ stageTotal r ≤ 8388608 ∧ stageOfs r + (stageData r).length ≤ stageTotal r

/-- The inactive bank is open for a mailbox's staging, empty and of the length announced. -/
def stageOpened (r : Request) (u : State) : State :=
  setCfg (fun c => { c with owner := some r.mbox, verifying := none }) (setBank (inactiveNo u) { state := 1, totalLen := stageTotal r } u)

/-- The part is appended; the last one starts verification. -/
def stageAppended (r : Request) (u : State) : State :=
  setCfg (fun c => { c with
      nextOffset := stageOfs r + (stageData r).length, verifying := if stageDone r then some (inactiveNo u) else none })
    (setBank (inactiveNo u) { inactiveBank u with
      bytes := (inactiveBank u).bytes ++ stageData r, state := if stageDone r then 2 else 1 } u)

/-- The staging is another mailbox's, whose owner has not lost it. -/
def stagedByOther (r : Request) (u : State) : Bool :=
  stagingOpen u && decide (u.cfg.owner ≠ some r.mbox) && !(u.cfg.owner.isNone && stageOfs r == 0)

section
variable {r : Request} {u : State}

theorem stagedByOther_owner (h : u.cfg.owner = some r.mbox) : stagedByOther r u = false := by simp [stagedByOther, h]

/-- A first part meets no staging that is another mailbox's where none is open, or the owner is lost or the sender. -/
theorem stagedByOther_first (hofs : stageOfs r = 0) (h : stagingOpen u = false ∨ u.cfg.owner = none ∨ u.cfg.owner = some r.mbox) :
    stagedByOther r u = false := by
  obtain h | h | h := h
  · simp [stagedByOther, h]
  · simp [stagedByOther, h, hofs]
  · exact stagedByOther_owner h

theorem stagedByOther_other {g : Nat} (hopen : stagingOpen u = true) (howner : u.cfg.owner = some g) (hg : g ≠ r.mbox) :
    stagedByOther r u = true := by simp [stagedByOther, hopen, howner, hg]

theorem cmdStage_misplaced (hofs : stageOfs r ≠ 0) (h : (inactiveBank u).state ≠ 1 ∨ stageOfs r ≠ u.cfg.nextOffset) :
    cmdStage r u = .refuse (errRange 0) := if_pos ⟨hofs, h⟩

/-- A part in its place and of a permitted shape is judged by whose staging is open. -/
theorem cmdStage_placed (hplace : stageOfs r ≠ 0 → (inactiveBank u).state = 1 ∧ stageOfs r = u.cfg.nextOffset ∧ stageTotal r = (inactiveBank u).totalLen)
    (hshape : StageShape r) : cmdStage r u = if stagedByOther r u = true then .refuse errBusy else
      .ok (noteGrant (stageAppended r (if stageOfs r = 0 then event 0x0302 [] (stageOpened r u) else u)))
        (u32 (stageOfs r + (stageData r).length) ++ u8 (if stageDone r then 2 else 1) ++ zeros 3) := by
  obtain ⟨h4, hlow, hhigh, hend⟩ := hshape
  have hofs : ¬(stageOfs r ≠ 0 ∧ ((inactiveBank u).state ≠ 1 ∨ stageOfs r ≠ u.cfg.nextOffset)) := by tauto
  have htotal : ¬(stageTotal r % 4 ≠ 0 ∨ stageTotal r < 512 ∨ 8388608 < stageTotal r ∨
      (stageOfs r ≠ 0 ∧ stageTotal r ≠ (inactiveBank u).totalLen)) := by
    rintro (h | h | h | ⟨h, hne⟩)
    · exact h h4
    · omega
    · omega
    · exact hne (hplace h).2.2
  exact (if_neg hofs).trans ((if_neg htotal).trans (if_neg (Nat.not_lt.mpr hend)))

/-- The first part opens the staging of its mailbox and fills the bank with its bytes. -/
theorem stageAppended_opened (hofs : stageOfs r = 0) : rest (noteGrant (stageAppended r (event 0x0302 [] (stageOpened r u)))) =
    rest (noteGrant (setBank (inactiveNo u) { state := if stageDone r then 2 else 1, totalLen := stageTotal r, bytes := stageData r }
      { u with cfg := { u.cfg with
          owner := some r.mbox, nextOffset := (stageData r).length, verifying := if stageDone r then some (inactiveNo u) else none } })) := by
  have hno : inactiveNo (event 0x0302 [] (stageOpened r u)) = inactiveNo u := by
    rw [inactiveNo, event_cfg, stageOpened, setCfg_cfg, setBank_active, inactiveNo]
  have hbank : inactiveBank (event 0x0302 [] (stageOpened r u)) = { state := 1, totalLen := stageTotal r } := by
    rw [inactiveBank, hno, bankOf, event_cfg]
    exact bankOf_setBank (inactiveNo u) _ u
  rw [stageAppended, hno, hbank]
  simp only [hofs, Nat.zero_add, List.nil_append, rest_noteGrant, rest_setCfg, rest_setBank, event_rest, stageOpened]
  by_cases hno : inactiveNo u = 0
  · simp only [setBank, if_pos hno]
    rfl
  · simp only [setBank, if_neg hno]
    rfl

/-- A later part is appended to the owner's staging. -/
theorem stageAppended_next : stageAppended r u = setBank (inactiveNo u) { inactiveBank u with
      state := if stageDone r then 2 else 1, bytes := (inactiveBank u).bytes ++ stageData r }
    { u with cfg := { u.cfg with
        owner := u.cfg.owner, nextOffset := stageOfs r + (stageData r).length, verifying := if stageDone r then some (inactiveNo u) else none } } := by
  unfold stageAppended
  by_cases hno : inactiveNo u = 0
  · simp only [setBank, if_pos hno]
    rfl
  · simp only [setBank, if_neg hno]
    rfl

theorem stageAppended_mb : (stageAppended r u).mb = u.mb := by rw [stageAppended, setCfg_mb, setBank_mb]

theorem stageOpened_mb : (stageOpened r u).mb = u.mb := by rw [stageOpened, setCfg_mb, setBank_mb]

end

/-! ### STAGING_GRANT_EXPIRY -/

theorem grantExpiry_over {s : State} {g : Nat} (hg : s.cfg.grantUntil = some g) (hover : g ≤ elNs s) (hno : stagingOpen s = false) :
    grantExpiry s = { s with cfg := { s.cfg with grantUntil := none } } := by
  simp only [grantExpiry, hg]
  exact if_pos ⟨hover, hno⟩

theorem grantExpiry_not {s : State} {g : Nat}
    (h : s.cfg.grantUntil = none ∨ stagingOpen s = true ∨ (s.cfg.grantUntil = some g ∧ elNs s < g)) : grantExpiry s = s := by
  unfold grantExpiry
  split
  · rename_i t ht
    refine if_neg ?_
    rintro ⟨hover, hno⟩
    obtain hnone | hopen | ⟨hg, hbefore⟩ := h
    · exact Option.some_ne_none t (ht.symm.trans hnone)
    · exact Bool.false_ne_true (hno.symm.trans hopen)
    · obtain rfl : t = g := Option.some.inj (ht.symm.trans hg)
      exact Nat.not_lt.mpr hover hbefore
  · rfl

/-! ### The commit record (R92) -/

/-- Settings without the grant of STANDBY. -/
def grantless (c : CfgSt) : CfgSt := { c with grantUntil := none }

theorem noteGrant_grantless (s : State) : grantless (noteGrant s).cfg = grantless s.cfg := by unfold noteGrant; split <;> rfl

/-- The commit record and the banks are settings, and not of the grant. -/
theorem commitRecord_of_grantless {s t : State} (h : grantless t.cfg = grantless s.cfg) : commitRecord t = commitRecord s := by
  have h0 : t.cfg.copy0 = s.cfg.copy0 := (congrArg CfgSt.copy0 h :)
  have h1 : t.cfg.copy1 = s.cfg.copy1 := (congrArg CfgSt.copy1 h :)
  simp only [commitRecord, h0, h1]

theorem bankOf_of_grantless {s t : State} (h : grantless t.cfg = grantless s.cfg) (b : Nat) : bankOf t b = bankOf s b := by
  have h0 : t.cfg.bank0 = s.cfg.bank0 := (congrArg CfgSt.bank0 h :)
  have h1 : t.cfg.bank1 = s.cfg.bank1 := (congrArg CfgSt.bank1 h :)
  simp only [bankOf, h0, h1]

theorem commitRecord_setBank (b : Nat) (k : Bank) (s : State) : commitRecord (setBank b k s) = commitRecord s := by
  unfold setBank
  split <;> rfl

theorem sealedCopy_valid (seq bank : Nat) (digest : Bytes) : (sealedCopy seq bank digest).isValid = true := by
  have hreserved : (sealedCopy seq bank digest).reserved.length = 3 := rfl
  have hdigest : (sealedCopy seq bank digest).digest.length = 32 := Laws.padTo_length 32 digest
  have hcrc : (sealedCopy seq bank digest).crc = crc32 (sealedCopy seq bank digest).body := rfl
  simp only [CommitCopy.isValid, hreserved, hdigest, hcrc, beq_self_eq_true, Bool.and_self]

/-- A valid copy above the record that stands becomes the record, whichever copy it overwrites. -/
theorem commitRecord_putCopy {c : CommitCopy} {s : State} (hc : c.isValid = true) (h : ∀ d, commitRecord s = some d → d.seq < c.seq) :
    commitRecord (putCopy c s) = some c := by
  by_cases hw : writesSecond s = true
  · have hput : putCopy c s = setCfg (fun x => { x with copy1 := c }) s := if_pos hw
    simp only [writesSecond, Bool.and_eq_true, Bool.or_eq_true, Bool.not_eq_true', decide_eq_true_eq] at hw
    obtain ⟨h0, h1⟩ := hw
    have hfirst : commitRecord s = some s.cfg.copy0 := by
      obtain h1 | h1 := h1
      · simp [commitRecord, h0, h1]
      · simp [commitRecord, h0, Nat.not_lt.mpr h1]
    simp [commitRecord, hput, h0, hc, h _ hfirst]
  · have hput : putCopy c s = setCfg (fun x => { x with copy0 := c }) s := if_neg hw
    cases h1 : s.cfg.copy1.isValid with
    | false => simp [commitRecord, hput, h1, hc]
    | true =>
      have hsecond : commitRecord s = some s.cfg.copy1 := by
        cases h0 : s.cfg.copy0.isValid with
        | false => simp [commitRecord, h0, h1]
        | true =>
          have hlt : s.cfg.copy0.seq < s.cfg.copy1.seq := by simpa [writesSecond, h0, h1] using hw
          simp [commitRecord, h0, h1, hlt]
      simp [commitRecord, hput, h1, hc, Nat.not_lt.mpr (Nat.le_of_lt (h _ hsecond))]

/-- SEQ of the next commit: one above the record's, 1 with none (notes/assumptions/10.md). -/
def nextSeq (s : State) : Nat := match commitRecord s with | some c => c.seq + 1 | none => 1

/-- Below the end of SEQ's range a commit raises the record to the bank named and its digest. -/
theorem commitRecord_writeCommit {s : State} (bank : Nat) (digest : Bytes) (h : ∀ c, commitRecord s = some c → c.seq + 1 < 2 ^ 32) :
    commitRecord (writeCommit bank digest s) = some (sealedCopy (nextSeq s) bank digest) := by
  have hmod : nextSeq s % 2 ^ 32 = nextSeq s := by
    refine Nat.mod_eq_of_lt ?_
    unfold nextSeq
    split
    · rename_i c hc
      exact h c hc
    · decide
  have hput : writeCommit bank digest s = setCfg (fun x => { x with active := bank }) (putCopy (sealedCopy (nextSeq s) bank digest) s) := by
    rw [← hmod]
    rfl
  rw [hput]
  refine commitRecord_putCopy (s := s) (sealedCopy_valid _ _ _) fun d hd => ?_
  show d.seq < nextSeq s
  simp only [nextSeq, hd]
  exact Nat.lt_succ_self _

/-- Writing the commit record names the active bank and leaves banks, mailboxes, image and state. -/
theorem writeCommit_keeps (bank : Nat) (digest : Bytes) (s : State) :
    (writeCommit bank digest s).cfg.active = bank ∧ (∀ b, bankOf (writeCommit bank digest s) b = bankOf s b) ∧
      (writeCommit bank digest s).cfg.img = s.cfg.img ∧ (writeCommit bank digest s).mb = s.mb ∧ (writeCommit bank digest s).st = s.st := by
  unfold writeCommit putCopy
  dsimp only
  split
  · exact ⟨rfl, fun _ => rfl, rfl, rfl, rfl⟩
  · exact ⟨rfl, fun _ => rfl, rfl, rfl, rfl⟩

/-! ### CONFIG.COMMIT -/

/-- States and mailboxes that may commit (R95). -/
def CommitMay (r : Request) (u : State) : Prop := u.st = .held ∨ u.st = .standby ∨ (u.st = .ready ∧ r.mbox ≠ 0)

/-- EXPECT names the digest of the inactive bank. -/
abbrev ExpectNames (r : Request) (u : State) : Prop := r.payload.take 8 = (imageDigest (inactiveBank u).bytes).take 8

/-- A commit that changes nothing is answered with a verdict. -/
def commitKept (v : Nat) (u : State) : Reply := .ok (noteGrant u) (u16 v ++ u8 u.cfg.active ++ zeros 5 ++ u64 0)

/-- What a former active bank becomes (Table 3-7; notes/assumptions/31.md). -/
def formerBank (k : Bank) : Bank := { k with state := if k.bytes.isEmpty then 0 else if k.verdict = 0 then 3 else 4 }

/-- The other bank is named, with the tick of its effect. -/
def committed (r : Request) (u : State) : State :=
  setCfg (fun c => { c with owner := none, effect := some (effectTick u r.mbox) })
    (writeCommit (inactiveNo u) (imageDigest (inactiveBank u).bytes)
      (setBank (inactiveNo u) { inactiveBank u with state := 5 } (setBank u.cfg.active (formerBank (activeBank u)) u)))

section
variable {r : Request} {u : State} {ok : Bool}

theorem commitMay_iff : (decide (u.st = .held) || decide (u.st = .standby) || (decide (u.st = .ready) && r.mbox != 0)) = true ↔ CommitMay r u := by
  simp [CommitMay, or_assoc]

theorem cmdCommit_not (h : ¬CommitMay r u) : cmdCommit ok r u = .refuse (errState u) :=
  if_pos (by simpa using mt commitMay_iff.mp h)

section
variable (hmay : CommitMay r u)
include hmay

/-- Where it may commit, CONFIG.COMMIT is judged by the state of the inactive bank. -/
theorem cmdCommit_may : cmdCommit ok r u =
    if (inactiveBank u).state = 2 ∨ ((inactiveBank u).state = 1 ∧ u.cfg.owner ≠ some r.mbox) then .refuse errBusy
    else if (inactiveBank u).state = 0 ∨ (inactiveBank u).state = 1 then commitKept 0x0004 u
    else if (inactiveBank u).state = 4 then commitKept (inactiveBank u).verdict u
    else if ¬ExpectNames r u then .refuse (errRange 0)
    else if ok = false then .refuse { code := 0x0011 }
    else .ok (noteGrant (event 0x0303 [] (committed r u))) (u16 0 ++ u8 (inactiveNo u) ++ zeros 5 ++ u64 (frameAt u (effectTick u r.mbox))) :=
  if_neg (Bool.not_eq_false _ ▸ commitMay_iff.mpr hmay)

theorem cmdCommit_busy (h : (inactiveBank u).state = 2 ∨ ((inactiveBank u).state = 1 ∧ u.cfg.owner ≠ some r.mbox)) :
    cmdCommit ok r u = .refuse errBusy := by
  rw [cmdCommit_may hmay, if_pos h]

theorem cmdCommit_unstaged (h : (inactiveBank u).state = 0 ∨ ((inactiveBank u).state = 1 ∧ u.cfg.owner = some r.mbox)) :
    cmdCommit ok r u = commitKept 0x0004 u := by
  rw [cmdCommit_may hmay, if_neg, if_pos (h.imp_right And.left)]
  rintro (h2 | ⟨h1, hown⟩)
  · omega
  · exact h.elim (fun h0 => by omega) (fun h => hown h.2)

theorem cmdCommit_failed (h : (inactiveBank u).state = 4) : cmdCommit ok r u = commitKept (inactiveBank u).verdict u := by
  rw [cmdCommit_may hmay, if_neg (by omega), if_neg (by omega), if_pos h]

/-- A VERIFIED bank is committed when EXPECT names it and its record can be written. -/
theorem cmdCommit_verified (h : (inactiveBank u).state = 3) : cmdCommit ok r u =
    if ¬ExpectNames r u then .refuse (errRange 0)
    else if ok = false then .refuse { code := 0x0011 }
    else .ok (noteGrant (event 0x0303 [] (committed r u))) (u16 0 ++ u8 (inactiveNo u) ++ zeros 5 ++ u64 (frameAt u (effectTick u r.mbox))) := by
  rw [cmdCommit_may hmay, if_neg (by omega), if_neg (by omega), if_neg (by omega)]

end

/-- What a commit leaves: settings, banks, record and state. -/
theorem committed_parts : (committed r u).cfg.active = inactiveNo u ∧ (committed r u).cfg.effect = some (effectTick u r.mbox) ∧
    (committed r u).cfg.owner = none ∧ (committed r u).cfg.img = u.cfg.img ∧ (committed r u).st = u.st ∧ (committed r u).mb = u.mb := by
  obtain ⟨hactive, -, himg, hmb, hst⟩ := writeCommit_keeps (inactiveNo u) (imageDigest (inactiveBank u).bytes)
    (setBank (inactiveNo u) { inactiveBank u with state := 5 } (setBank u.cfg.active (formerBank (activeBank u)) u))
  simp only [setBank_img, setBank_mb, setBank_st] at himg hmb hst
  exact ⟨hactive, rfl, rfl, himg, hst, hmb⟩

theorem bankOf_committed (b : Nat) : bankOf (committed r u) b =
    bankOf (setBank (inactiveNo u) { inactiveBank u with state := 5 } (setBank u.cfg.active (formerBank (activeBank u)) u)) b :=
  (writeCommit_keeps _ _ _).2.1 b

theorem bankOf_committed_new : bankOf (committed r u) (inactiveNo u) = { inactiveBank u with state := 5 } := by
  rw [bankOf_committed, bankOf_setBank]

theorem bankOf_committed_former : bankOf (committed r u) u.cfg.active = formerBank (activeBank u) := by
  rw [bankOf_committed, bankOf_setBank_other _ _ (inactiveNo_eq_zero_iff u), bankOf_setBank]

theorem commitRecord_committed (h : ∀ c, commitRecord u = some c → c.seq + 1 < 2 ^ 32) :
    commitRecord (committed r u) = some (sealedCopy (nextSeq u) (inactiveNo u) (imageDigest (inactiveBank u).bytes)) := by
  have hsame : commitRecord (setBank (inactiveNo u) { inactiveBank u with state := 5 } (setBank u.cfg.active (formerBank (activeBank u)) u)) =
      commitRecord u := by rw [commitRecord_setBank, commitRecord_setBank]
  have hrecord := commitRecord_writeCommit (inactiveNo u) (imageDigest (inactiveBank u).bytes) (hsame ▸ h)
  rw [nextSeq, hsame] at hrecord
  exact hrecord

end

/-- A committed bank on its turn: the response names it, and what the commit leaves stands but for the grant of STANDBY. -/
theorem execCommit_commits {dt m : Nat} {r : Request} {q : List Request} {s : State} (h : Turn (advance s dt) m wConfigCommit r q)
    (hmay : CommitMay r (advance s dt)) (hbank : (inactiveBank (advance s dt)).state = 3) (hexpect : ExpectNames r (advance s dt)) :
    ∃ t, exec (.configCommit dt m true) s = .next t ∧
      Out.msg r.port r.src (respond r (u16 0 ++ u8 (inactiveNo (advance s dt)) ++ zeros 5 ++
        u64 (frameAt (advance s dt) (effectTick (advance s dt) r.mbox))) none) ∈ t.out ∧
      grantless t.cfg = grantless (committed r (advance s dt)).cfg ∧ t.st = (advance s dt).st := by
  have hreply := cmdCommit_verified (ok := true) hmay hbank
  rw [if_neg (not_not_intro hexpect), if_neg (by decide)] at hreply
  obtain ⟨-, -, -, -, hst, hmb⟩ := committed_parts (r := r) (u := advance s dt)
  obtain ⟨t, ht, hsent, hquiet⟩ := answered_of_mb (c := .configCommit dt m true) (s := s) rfl h hreply
    (by rw [noteGrant_mb, event_mb, hmb])
  refine ⟨t, ht, hsent, ?_, ?_⟩
  · have hcfg : t.cfg = (noteGrant (event 0x0303 [] (committed r (advance s dt)))).cfg := (congrArg State.cfg hquiet :)
    rw [hcfg, noteGrant_grantless, event_cfg]
  · have hst' : t.st = (noteGrant (event 0x0303 [] (committed r (advance s dt)))).st := (congrArg State.st hquiet :)
    rw [hst', noteGrant_st, event_st, hst]

/-! ### CONFIG.ABORT -/

section
variable {r : Request} {u : State}

theorem cmdAbort_other {g : Nat} (howner : u.cfg.owner = some g) (hg : g ≠ r.mbox) : cmdAbort r u = .refuse errBusy := by
  simp only [cmdAbort, howner]
  exact if_pos hg

/-- A staging that is open, or whose bank failed, is emptied by its owner. -/
theorem cmdAbort_owner (howner : u.cfg.owner = some r.mbox)
    (hbank : (inactiveBank u).state = 1 ∨ (inactiveBank u).state = 2 ∨ (inactiveBank u).state = 4) :
    cmdAbort r u = .ok (noteGrant (event 0x0304 []
      (setCfg (fun c => { c with owner := none, verifying := none, nextOffset := 0 }) (setBank (inactiveNo u) {} u)))) [] := by
  simp only [cmdAbort, howner, ne_eq, not_true_eq_false, if_false]
  exact if_pos hbank

theorem cmdAbort_nothing (h : u.cfg.owner = none ∨ (u.cfg.owner = some r.mbox ∧ (inactiveBank u).state = 3)) :
    cmdAbort r u = .ok (noteGrant u) [] := by
  obtain howner | ⟨howner, hbank⟩ := h
  · simp only [cmdAbort, howner]
  · simp [cmdAbort, howner, hbank]

/-- The owner's staging is gone, with its bank empty. -/
theorem aborted_rest : rest (noteGrant (event 0x0304 []
      (setCfg (fun c => { c with owner := none, verifying := none, nextOffset := 0 }) (setBank (inactiveNo u) {} u)))) =
    rest (noteGrant (setBank (inactiveNo u) {} { u with cfg := { u.cfg with owner := none, verifying := none, nextOffset := 0 } })) := by
  simp only [rest_noteGrant, event_rest, rest_setCfg, rest_setBank]
  by_cases hno : inactiveNo u = 0
  · simp only [setBank, if_pos hno]
    rfl
  · simp only [setBank, if_neg hno]
    rfl

end

/-! ### CONFIG.READ -/

/-- SELECT, COUNT and INDEX of CONFIG.READ (Table 3-18). -/
def readSel (r : Request) : Nat := byteAt r.payload 0
def readCount (r : Request) : Nat := fld r.payload 2 2
def readIndex (r : Request) : Nat := fld r.payload 4 4

/-- The COUNT and INDEX that every version of a message may ask of a SELECT. -/
def ReadFits (sel count index : Nat) : Prop :=
  (sel = 0 ∧ count = 0) ∨ (sel = 2 ∧ 1 ≤ count ∧ count ≤ 32) ∨ (sel = 3 ∧ 1 ≤ count ∧ count ≤ 16) ∨
    (sel = 1 ∧ count % 4 = 0 ∧ 4 ≤ count ∧ count ≤ 1016 ∧ index % 4 = 0)

/-- The test of COUNT by SELECT and by the longest payload of the message's version. -/
def readCountOk (r : Request) : Bool :=
  if readSel r = 0 then decide (readCount r = 0)
  else if readSel r = 1 then decide (readCount r % 4 = 0) && within 4 (if r.version = 1 then 1016 else 1024) (readCount r)
  else if readSel r = 2 then within 1 32 (readCount r)
  else within 1 16 (readCount r)

theorem readCountOk_of_fits {r : Request} (h : ReadFits (readSel r) (readCount r) (readIndex r)) : readCountOk r = true := by
  obtain ⟨hsel, hcount⟩ | ⟨hsel, hlow, hhigh⟩ | ⟨hsel, hlow, hhigh⟩ | ⟨hsel, h4, hlow, hhigh, -⟩ := h
  · simp [readCountOk, hsel, hcount]
  · simp [readCountOk, hsel, within, hlow, hhigh]
  · simp [readCountOk, hsel, within, hlow, hhigh]
  · have hmax : readCount r ≤ if r.version = 1 then 1016 else 1024 := by split <;> omega
    simp [readCountOk, hsel, within, h4, hlow, hmax]

section
variable {r : Request} {u : State}

theorem cmdConfigRead_select (h : 3 < readSel r) : cmdConfigRead r u = .refuse (errRange 0) := if_pos h

theorem cmdConfigRead_count (hsel : readSel r = 2) (h : readCount r = 0 ∨ 32 < readCount r) : cmdConfigRead r u = .refuse (errRange 2) := by
  have hin : ¬3 < readSel r := by omega
  have hout : readCountOk r = false := by
    simp [readCountOk, hsel, within]
    omega
  exact (if_neg hin).trans (if_pos hout)

theorem cmdConfigRead_fits (h : ReadFits (readSel r) (readCount r) (readIndex r)) : cmdConfigRead r u = .ok (noteGrant u)
    (u8 (readSel r) ++ zeros 1 ++ u16 (readItems u (readSel r) (readCount r) (readIndex r)).1 ++ u32 (readIndex r) ++
      (readItems u (readSel r) (readCount r) (readIndex r)).2) := by
  have hsel : ¬3 < readSel r := by
    unfold ReadFits at h
    omega
  have hcount : ¬readCountOk r = false := by simp [readCountOk_of_fits h]
  have hindex : ¬(readSel r = 1 ∧ readIndex r % 4 ≠ 0) := by
    unfold ReadFits at h
    omega
  exact (if_neg hsel).trans ((if_neg hcount).trans (if_neg hindex))

end

/-! ### The commands -/

section
variable {dt m : Nat} {r : Request} {q : List Request} {s : State}

/-- The first part of a staging on its turn: the bank is opened, filled and answered (Table 3-11). -/
theorem execStage_opens (h : Turn (advance s dt) m wConfigStage r q) (hofs : stageOfs r = 0) (hshape : StageShape r)
    (hfree : stagingOpen (advance s dt) = false ∨ (advance s dt).cfg.owner = none ∨ (advance s dt).cfg.owner = some r.mbox) :
    AnsweredRest (.configStage dt m) s r (u32 (stageOfs r + (stageData r).length) ++ u8 (if stageDone r then 2 else 1) ++ zeros 3)
      (noteGrant (setBank (inactiveNo (advance s dt))
        { state := if stageDone r then 2 else 1, totalLen := stageTotal r, bytes := stageData r }
        { advance s dt with cfg := { (advance s dt).cfg with
          owner := some r.mbox, nextOffset := (stageData r).length
          verifying := if stageDone r then some (inactiveNo (advance s dt)) else none } })) := by
  have hreply := cmdStage_placed (u := advance s dt) (fun hne => absurd hofs hne) hshape
  rw [stagedByOther_first hofs hfree, if_neg Bool.false_ne_true, if_pos hofs] at hreply
  exact answeredRest_of_ok rfl h hreply (by rw [noteGrant_mb, stageAppended_mb, event_mb, stageOpened_mb]) (stageAppended_opened hofs)

theorem execStage_appends (h : Turn (advance s dt) m wConfigStage r q) (hofs : stageOfs r ≠ 0) (hbank : (inactiveBank (advance s dt)).state = 1)
    (hnext : stageOfs r = (advance s dt).cfg.nextOffset) (hshape : StageShape r) (htotal : stageTotal r = (inactiveBank (advance s dt)).totalLen)
    (howner : (advance s dt).cfg.owner = some r.mbox) :
    Answered (.configStage dt m) s r (u32 (stageOfs r + (stageData r).length) ++ u8 (if stageDone r then 2 else 1) ++ zeros 3)
      (noteGrant (stageAppended r (advance s dt))) := by
  have hreply := cmdStage_placed (u := advance s dt) (fun _ => ⟨hbank, hnext, htotal⟩) hshape
  rw [stagedByOther_owner howner, if_neg Bool.false_ne_true, if_neg hofs] at hreply
  exact answered_of_mb rfl h hreply (by rw [noteGrant_mb, stageAppended_mb])

theorem execStage_busy {g : Nat} (h : Turn (advance s dt) m wConfigStage r q) (hofs : stageOfs r = 0) (hshape : StageShape r)
    (hopen : stagingOpen (advance s dt) = true) (howner : (advance s dt).cfg.owner = some g) (hg : g ≠ r.mbox) :
    Refused (.configStage dt m) s (advance s dt) r errBusy := by
  have hreply := cmdStage_placed (u := advance s dt) (fun hne => absurd hofs hne) hshape
  rw [stagedByOther_other hopen howner hg, if_pos rfl] at hreply
  exact refused_of_refuse rfl h hreply

end

/-- Settles O50: each command by the cases of its own reply, and the grant by its instant. -/
theorem configurationIsStagedCommittedAndRead : Obligations.ConfigurationIsStagedCommittedAndRead := by
  intro dt m g ok r q s u ofs total data n bk done reply shape staged opened may f old nextSeq' sel count index
  refine ⟨fun hturn => ⟨fun hofs hshape hfree => ?first, fun hofs hbank hnext hshape htotal howner => ?next, fun hofs hplace => ?place,
      fun hofs hshape hopen howner hg => execStage_busy hturn hofs hshape hopen howner hg⟩,
    fun hg hover hno => gives_of_settle rfl (grantExpiry_over hg hover hno), fun hnot => gives_of_settle rfl (grantExpiry_not hnot),
    fun hturn => ⟨fun hnot => ?not, fun hmay hbusy => ?busy, fun hmay hbank => ?unstaged, fun hmay hbank => ?failed,
      fun hmay hbank hne => ?unnamed, fun hmay hbank hexpect hok => ?unwritten, fun hmay hbank hexpect hok => ?commits⟩,
    fun hturn => ⟨fun howner hg => ?other, fun howner hbank => ?abort, fun hnone => ?nothing⟩,
    fun hturn => ⟨fun hsel => ?select, fun hfits => ?fits, fun hsel hcount => ?count⟩⟩
  case first => exact execStage_opens hturn hofs hshape hfree
  case next =>
    have happended := execStage_appends hturn hofs hbank hnext hshape htotal howner
    rw [stageAppended_next] at happended
    exact happended
  case place => exact refused_of_refuse rfl hturn (cmdStage_misplaced hofs hplace)
  case not => exact refused_of_refuse rfl hturn (cmdCommit_not hnot)
  case busy => exact refused_of_refuse rfl hturn (cmdCommit_busy hmay hbusy)
  case unstaged => exact answered_of_mb rfl hturn (cmdCommit_unstaged hmay hbank) (noteGrant_mb u)
  case failed => exact answered_of_mb rfl hturn (cmdCommit_failed hmay hbank) (noteGrant_mb u)
  case unnamed => exact refused_of_refuse rfl hturn ((cmdCommit_verified hmay hbank).trans (if_pos hne))
  case unwritten =>
    exact refused_of_refuse rfl hturn ((cmdCommit_verified hmay hbank).trans ((if_neg (not_not_intro hexpect)).trans (if_pos hok)))
  case commits =>
    subst hok
    obtain ⟨t, ht, hsent, hcfg, hst⟩ := execCommit_commits hturn hmay hbank hexpect
    obtain ⟨hactive, heffect, howner, himg, -, -⟩ := committed_parts (r := r) (u := u)
    refine ⟨t, ht, hsent, (congrArg CfgSt.active hcfg :).trans hactive, (congrArg CfgSt.effect hcfg :).trans heffect,
      (congrArg CfgSt.owner hcfg :).trans howner, (congrArg CfgSt.img hcfg :).trans himg, hst, ?_, ?_, fun hseq => ?_⟩
    · exact (bankOf_of_grantless hcfg n).trans bankOf_committed_new
    · exact (bankOf_of_grantless hcfg _).trans bankOf_committed_former
    · exact (commitRecord_of_grantless hcfg).trans (commitRecord_committed hseq)
  case other => exact refused_of_refuse rfl hturn (cmdAbort_other howner hg)
  case abort =>
    exact answeredRest_of_ok rfl hturn (cmdAbort_owner howner hbank) (by rw [noteGrant_mb, event_mb, setCfg_mb, setBank_mb]) aborted_rest
  case nothing => exact answered_of_mb rfl hturn (cmdAbort_nothing hnone) (noteGrant_mb u)
  case select => exact refused_of_refuse rfl hturn (cmdConfigRead_select hsel)
  case fits => exact answered_of_mb rfl hturn (cmdConfigRead_fits hfits) (noteGrant_mb u)
  case count => exact refused_of_refuse rfl hturn (cmdConfigRead_count hsel hcount)

end Sys2Proof.Machine
end

section
/-! SUPPORT. The lease is surrendered as events are recorded and faults are raised, and never taken (12 R336; 19 R494). -/

namespace Sys2Proof.Machine

variable {s : State}

theorem recordRaw_lock (r : Rec) (s : State) : (recordRaw r s).lock = s.lock := by unfold recordRaw; split <;> rfl

theorem evRaw_lock (c : Nat) (d : Bytes) (s : State) : (evRaw c d s).lock = s.lock := recordRaw_lock _ s

theorem assertFlt_lock (c : Nat) (s : State) : (assertFlt c s).lock = s.lock := by unfold assertFlt; split <;> rfl

theorem releaseBetweenTicks_held (h : (releaseBetweenTicks s).lock.held = true) : s.lock.held = true := by
  unfold releaseBetweenTicks at h
  split at h
  · assumption
  · exact h

theorem surrender_held (h : (surrender s).lock.held = true) : s.lock.held = true := by
  have hbefore : (if s.lock.held then evRaw 0x0C03 (u8 0) s else s).lock = s.lock := by
    split
    · exact evRaw_lock _ _ s
    · rfl
  rw [← hbefore]
  exact releaseBetweenTicks_held h

theorem resetAtRaise_held {c : Nat} {b : Block} (h : (resetAtRaise c b s).lock.held = true) : s.lock.held = true := by
  unfold resetAtRaise at h
  split at h
  · exact surrender_held h
  · exact h

theorem foldl_held {α : Type} {f : State → α → State} (hf : ∀ t a, (f t a).lock.held = true → t.lock.held = true) {xs : List α}
    (h : (xs.foldl f s).lock.held = true) : s.lock.held = true := by
  induction xs generalizing s with
  | nil => exact h
  | cons a r ih => exact hf s a (ih h)

theorem directReact_held {c : Nat} {bs : List Block} (h : (directReact c bs s).lock.held = true) : s.lock.held = true := by
  unfold directReact at h
  split at h
  · exact foldl_held (fun _ _ => resetAtRaise_held) h
  · split at h
    · exact surrender_held h
    · exact h

theorem raiseCore_held {c : Nat} {o : Bool} {bs : List Block} (h : (raiseCore c o bs s).lock.held = true) : s.lock.held = true := by
  unfold raiseCore at h
  split at h
  · exact h
  · have hrecorded := directReact_held h
    rw [assertFlt_lock] at hrecorded
    rw [← recordRaw_lock (raiseRec s c) s]
    split at hrecorded
    · rwa [← evRaw_lock]
    · exact hrecorded

theorem lossCheck_held {n : Nat} (h : (lossCheck n s).lock.held = true) : s.lock.held = true := by
  unfold lossCheck at h
  split at h
  · exact raiseCore_held h
  · exact h

theorem event_held {c : Nat} {d : Bytes} (h : (event c d s).lock.held = true) : s.lock.held = true :=
  evRaw_lock c d s ▸ lossCheck_held h

theorem faultSet_held {c : Nat} {on : Bool} {bs : List Block} (h : (faultSet c on bs s).lock.held = true) : s.lock.held = true := by
  unfold faultSet at h
  split at h
  · split at h
    · exact h
    · exact raiseCore_held (lossCheck_held h)
  · split at h
    · exact h
    · exact h

theorem faultShot_held {c : Nat} {bs : List Block} (h : (faultShot c bs s).lock.held = true) : s.lock.held = true := by
  unfold faultShot at h
  split at h
  · exact h
  · exact raiseCore_held (lossCheck_held h)

end Sys2Proof.Machine
end

section
/-! SUPPORT. What starting, leaving duty and an image's effect decide of a module, and what their stages leave of it (12 R326, R328, R336;
13 R358, R359, R365; 17 R453). -/

namespace Sys2Proof.Safety

open Sys2Proof.Machine

/-- What the end of verification and the effect of an image decide: the module's state, its configuration, slot, discovery, claim and checkpoint,
the step of bring-up, the running of frames and their mode, the safety functions. -/
structure Station where
  st : ModState
  unit : UnitId
  el : Nat
  cfg : CfgSt
  slot : Nat
  discStart : Option Nat
  claim : Option (Nat × Nat)
  cpGood : Bool
  step : Nat
  complete : Bool
  running : Bool
  mode : Nat
  funcs : List FuncSt

/-- The station of a module. -/
def stationOf (s : State) : Station :=
  { st := s.st, unit := s.unit, el := elNs s, cfg := s.cfg, slot := s.lock.slot, discStart := s.lock.discStart, claim := s.lock.claim
    cpGood := s.lock.cpGood, step := s.bring.step, complete := s.bring.complete, running := s.frame.running, mode := s.frame.mode
    funcs := s.safety.funcs }

/-- The station of a module is `x`, and it holds the lease only where `l` says that it may. -/
structure StationIs (x : Station) (l : Bool) (s : State) : Prop where
  parts : stationOf s = x
  lease : s.lock.held = true → l = true

variable {x : Station} {l : Bool} {s t : State}

theorem stationIs_self (s : State) : StationIs (stationOf s) true s := ⟨rfl, fun _ => rfl⟩

theorem StationIs.of_parts (h : StationIs x l s) (e : stationOf t = stationOf s) (el : t.lock.held = s.lock.held) : StationIs x l t :=
  ⟨e.trans h.parts, fun hl => h.lease (el ▸ hl)⟩

/-- What recording an event or raising a fault may touch is no part of a station; the lease it can only surrender. -/
theorem StationIs.of_rest (h : StationIs x l s) (e : rest t = rest s) (hl : t.lock.held = true → s.lock.held = true) : StationIs x l t :=
  have he : stationOf (rest t) = stationOf (rest s) := congrArg stationOf e
  ⟨Eq.trans he h.parts, fun ht => h.lease (hl ht)⟩

/-- Mailbox contents, what was sent and the pins are no part of a station. -/
theorem StationIs.of_quiet (h : StationIs x l s) (e : quiet t = quiet s) : StationIs x l t :=
  have he : stationOf (quiet t) = stationOf (quiet s) := congrArg stationOf e
  have hl : (quiet t).lock.held = (quiet s).lock.held := congrArg (·.lock.held) e
  h.of_parts he hl

theorem stationIs_ite {p : Prop} [Decidable p] (hs : StationIs x l s) (ht : StationIs x l t) : StationIs x l (if p then s else t) := by
  split
  · exact hs
  · exact ht

theorem stationIs_when {p : Prop} [Decidable p] (h : StationIs x l s) (ht : StationIs x l s → StationIs x l t) :
    StationIs x l (if p then t else s) := stationIs_ite (ht h) h

theorem stationIs_foldl {α : Type} {f : State → α → State} {xs : List α} (hf : ∀ t a, StationIs x l t → StationIs x l (f t a))
    (h : StationIs x l s) : StationIs x l (xs.foldl f s) := by
  induction xs generalizing s with
  | nil => exact h
  | cons a r ih => exact ih (hf s a h)

end Sys2Proof.Safety

namespace Sys2Proof.Machine

open Sys2Proof.Safety

variable {x : Station} {l : Bool} {s : State}

/-! ### Events, faults, pins -/

theorem stationIs_event {c : Nat} {d : Bytes} (h : StationIs x l s) : StationIs x l (event c d s) := h.of_rest (event_rest s c d) event_held

theorem stationIs_faultSet {c : Nat} {on : Bool} {bs : List Block} (h : StationIs x l s) : StationIs x l (faultSet c on bs s) :=
  h.of_rest (faultSet_rest s c on bs) faultSet_held

theorem stationIs_faultCond {c : Nat} {on : Bool} (h : StationIs x l s) : StationIs x l (faultCond c on s) := stationIs_faultSet h

theorem stationIs_endCond {c : Nat} {on : Bool} (h : StationIs x l s) : StationIs x l (endCond c on s) := stationIs_ite h (stationIs_faultCond h)

theorem stationIs_faultOnce {c : Nat} (h : StationIs x l s) : StationIs x l (faultOnce c s) := h.of_rest (faultOnce_rest s c) faultShot_held

theorem stationIs_settle (h : StationIs x l s) : StationIs x l (settle s) :=
  h.of_rest (settle_rest s) fun hl => (congrArg LockSt.held (settle_lock s)).symm.trans hl

/-! ### The timebase -/

theorem stationIs_timeFaults (h : StationIs x l s) : StationIs x l (timeFaults s) :=
  stationIs_when (stationIs_faultCond (stationIs_faultCond (stationIs_faultCond h))) stationIs_faultCond

theorem stationIs_setTb {t : TbState} (h : StationIs x l s) : StationIs x l (setTb t s) :=
  stationIs_ite h (stationIs_timeFaults (stationIs_event (h.of_parts rfl rfl)))

theorem stationIs_setAddend {a : Int} (h : StationIs x l s) : StationIs x l (setAddend a s) := h.of_parts rfl rfl

theorem stationIs_hold {e : Nat} {g : Bool} (h : StationIs x l s) : StationIs x l (loseSources.hold e g s) := by
  unfold loseSources.hold
  refine stationIs_timeFaults (stationIs_setTb ?_)
  split
  · exact h.of_parts rfl rfl
  · exact stationIs_setAddend (h.of_parts rfl rfl)

theorem stationIs_loseSources (h : StationIs x l s) : StationIs x l (loseSources s) := by
  dsimp only [loseSources]
  split
  · exact stationIs_hold (h.of_parts rfl rfl)
  · exact stationIs_ite (stationIs_hold (h.of_parts rfl rfl)) (stationIs_timeFaults (stationIs_setTb (h.of_parts rfl rfl)))
  · exact stationIs_timeFaults (h.of_parts rfl rfl)

theorem stationIs_reselect (h : StationIs x l s) : StationIs x l (reselect s) := by
  refine stationIs_ite h ?_
  split
  · exact stationIs_loseSources h
  · exact stationIs_ite (stationIs_event (h.of_parts rfl rfl)) (stationIs_setTb (h.of_parts rfl rfl))

theorem stationIs_timeFromRtc (h : StationIs x l s) : StationIs x l (timeFromRtc s) :=
  stationIs_ite (stationIs_setTb (h.of_parts rfl rfl)) h

/-! ### Field, controllers, connections -/

theorem stationIs_supplyFaults (h : StationIs x l s) : StationIs x l (supplyFaults s) :=
  stationIs_faultCond (stationIs_faultCond (stationIs_faultCond h))

theorem stationIs_groupRelease {g : Nat} (h : StationIs x l s) : StationIs x l (groupRelease g s) :=
  stationIs_supplyFaults (stationIs_event (h.of_parts rfl rfl))

theorem stationIs_latchFaults (h : StationIs x l s) : StationIs x l (latchFaults s) := stationIs_faultCond (stationIs_faultCond h)

theorem stationIs_setDo {c : Nat} {f : DoSt → DoSt} (h : StationIs x l s) : StationIs x l (setDo c f s) := h.of_parts rfl rfl

theorem stationIs_fieldImage (h : StationIs x l s) : StationIs x l (fieldImage s) :=
  stationIs_latchFaults <| stationIs_foldl (fun _ _ h1 => stationIs_ite (stationIs_event (stationIs_setDo h1)) h1) <|
    stationIs_when (stationIs_when h stationIs_groupRelease) stationIs_groupRelease

theorem stationIs_ioOff (h : StationIs x l s) : StationIs x l (ioOff s) :=
  stationIs_faultCond (stationIs_faultCond (stationIs_supplyFaults (h.of_parts rfl rfl)))

theorem stationIs_gnssOff (h : StationIs x l s) : StationIs x l (gnssOff s) :=
  stationIs_faultSet (stationIs_faultSet (stationIs_faultSet (h.of_parts rfl rfl)))

theorem stationIs_setCan {c : Nat} {f : CanSt → CanSt} (h : StationIs x l s) : StationIs x l (setCan c f s) := h.of_parts rfl rfl

theorem stationIs_setSafe {c : Nat} {f : SlotMsg → SlotMsg} (h : StationIs x l s) : StationIs x l (setSafe c f s) := stationIs_setCan h

theorem stationIs_canStart {c : Nat} (h : StationIs x l s) : StationIs x l (canStart c s) :=
  stationIs_faultSet (stationIs_faultSet (stationIs_setCan h))

theorem stationIs_canStartAll (h : StationIs x l s) : StationIs x l (canStartAll s) :=
  stationIs_faultSet (stationIs_faultSet <| stationIs_foldl (fun _ _ h1 => stationIs_canStart h1) (h.of_parts rfl rfl))

theorem stationIs_safetyOff (h : StationIs x l s) : StationIs x l (safetyOff s) :=
  stationIs_faultCond (stationIs_faultCond (stationIs_faultCond <|
    stationIs_foldl (fun _ _ h1 => stationIs_setSafe h1) (h.of_parts rfl rfl)))

theorem stationIs_connEvent {n : Nat} {opened : Bool} {ver : Nat} (h : StationIs x l s) : StationIs x l (connEvent n opened ver s) :=
  stationIs_event h

theorem stationIs_setConn {n : Nat} {f : OscConn → OscConn} (h : StationIs x l s) : StationIs x l (setConn n f s) := h.of_parts rfl rfl

theorem stationIs_closeConn {n : Nat} (h : StationIs x l s) : StationIs x l (closeConn n s) :=
  stationIs_ite (stationIs_connEvent (stationIs_setConn h)) <| stationIs_when (stationIs_setConn h) stationIs_connEvent

theorem stationIs_closeAll (h : StationIs x l s) : StationIs x l (closeAll s) :=
  (stationIs_foldl (fun _ _ h1 => stationIs_closeConn h1) h).of_parts rfl rfl

/-! ### Stages of the frame -/

theorem stationIs_with_solver {v : SolverSt} (h : StationIs x l s) : StationIs x l { s with solver := v } := h.of_parts rfl rfl

theorem stationIs_solverStart (h : StationIs x l s) : StationIs x l (solverStart s) := stationIs_with_solver h

theorem stationIs_allocStart (h : StationIs x l s) : StationIs x l (allocStart s) := h.of_parts rfl rfl

theorem stationIs_obsReset (h : StationIs x l s) : StationIs x l (obsReset s) := h.of_parts rfl rfl

theorem stationIs_imageStages (h : StationIs x l s) : StationIs x l (imageStages s) := by
  have hobs : ∀ u o, StationIs x l u → StationIs x l { u with obs := o } := fun _ _ hu => hu.of_parts rfl rfl
  have hosc : ∀ u o, StationIs x l u → StationIs x l { u with osc := o } := fun _ _ hu => hu.of_parts rfl rfl
  unfold imageStages
  exact stationIs_reselect <| stationIs_canStartAll <| hosc _ _ <| stationIs_solverStart <| stationIs_allocStart <| hobs _ _ <|
    stationIs_fieldImage (h.of_parts rfl rfl)

theorem stationIs_stagesStart (h : StationIs x l s) : StationIs x l (stagesStart s) :=
  stationIs_solverStart <| stationIs_allocStart <| stationIs_obsReset (h.of_parts rfl rfl)

theorem stationIs_fusionStop (h : StationIs x l s) : StationIs x l (fusionStop s) :=
  stationIs_foldl (fun _ _ h1 => stationIs_faultCond h1) (h.of_parts rfl rfl)

theorem stationIs_chStop (h : StationIs x l s) : StationIs x l (chStop s) :=
  stationIs_faultCond (stationIs_faultCond (h.of_parts rfl rfl))

theorem stationIs_solverStop (h : StationIs x l s) : StationIs x l (solverStop s) :=
  stationIs_foldl (fun _ _ h1 => stationIs_faultCond h1) (h.of_parts rfl rfl)

theorem stationIs_refuseBound (h : StationIs x l s) : StationIs x l (refuseBound s) :=
  stationIs_foldl (fun t m h1 => h1.of_quiet ((serve_quiet m _).trans (setBox_quiet m _ t))) h

theorem stationIs_dutyPowerOffKeep (h : StationIs x l s) : StationIs x l (dutyPowerOffKeep s) :=
  stationIs_ioOff <| stationIs_when (stationIs_safetyOff h) stationIs_gnssOff

/-! ### Analog channels off duty -/

theorem stationIs_endChanFaults (h : StationIs x l s) : StationIs x l (endChanFaults s) :=
  stationIs_endCond (stationIs_endCond (stationIs_endCond h))

theorem stationIs_setChan {c : Nat} {f : AnaChanSt → AnaChanSt} (h : StationIs x l s) : StationIs x l (setChan c f s) := h.of_parts rfl rfl

theorem stationIs_stopGroup {g : Nat} (h : StationIs x l s) : StationIs x l (stopGroup g s) := by
  unfold stopGroup
  exact stationIs_endChanFaults <| stationIs_foldl (fun _ _ h1 => stationIs_setChan h1) (h.of_parts rfl rfl)

theorem stationIs_with_analog {a : AnalogSt} (h : StationIs x l s) : StationIs x l { s with analog := a } := h.of_parts rfl rfl

theorem stationIs_analogOff (h : StationIs x l s) : StationIs x l (analogOff s) :=
  stationIs_with_analog (stationIs_foldl (fun _ _ h1 => stationIs_stopGroup h1) h)

theorem stationIs_groupTick {g : Nat} (h : StationIs x l s) : StationIs x l (groupTick s g) := stationIs_ite (h.of_parts rfl rfl) h

theorem stationIs_note7 (h : StationIs x l s) : StationIs x l (note7 s) := stationIs_ite (stationIs_event (h.of_parts rfl rfl)) h

section
variable (hoff : onDuty x.st = false)
include hoff

/-- Off duty the end of step 7 is noted, and no step of the holder's ends (R358, R359). -/
theorem stationIs_bringProgress (h : StationIs x l s) : StationIs x l (bringProgress s) := by
  have h7 := stationIs_note7 h
  have hst : onDuty (note7 s).st = false := (congrArg (fun y => onDuty y.st) h7.parts).trans hoff
  have heq : bringProgress s = note7 s := if_neg (by simp [hst])
  rwa [heq]

theorem stationIs_noteSettled (h : StationIs x l s) : StationIs x l (noteSettled s) :=
  stationIs_when h fun h1 => stationIs_bringProgress hoff (h1.of_parts rfl rfl)

theorem stationIs_analogOn (h : StationIs x l s) : StationIs x l (analogOn s) :=
  stationIs_ite h <| stationIs_ite (stationIs_noteSettled hoff h) (stationIs_with_analog (stationIs_analogOff h))

theorem stationIs_analogImage {old : Image.Analog} (h : StationIs x l s) : StationIs x l (analogImage old s) := by
  have hstopped : ∀ gs : List Nat, StationIs x l (gs.foldl (fun t g => stopGroup g t) s) := fun _ =>
    stationIs_foldl (fun _ _ h1 => stationIs_stopGroup h1) h
  unfold analogImage
  exact stationIs_ite (stationIs_analogOff (hstopped _)) <| stationIs_ite (stationIs_foldl (fun _ _ h1 => stationIs_groupTick h1) (hstopped _))
    (stationIs_analogOn hoff (hstopped _))

end

/-! ### What is decided -/

theorem stationIs_with_st {m : ModState} (h : StationIs x l s) : StationIs { x with st := m } l { s with st := m } := by
  obtain ⟨rfl, hl⟩ := h
  exact ⟨rfl, hl⟩

theorem stationIs_setCfg {f : CfgSt → CfgSt} (h : StationIs x l s) : StationIs { x with cfg := f x.cfg } l (setCfg f s) := by
  obtain ⟨rfl, hl⟩ := h
  exact ⟨rfl, hl⟩

theorem stationIs_endStep {n : Nat} (h : StationIs x l s) : StationIs { x with step := n + 1 } l (endStep n s) := by
  obtain ⟨rfl, hl⟩ := h
  exact stationIs_event ⟨rfl, hl⟩

theorem stationIs_startFrames {m : Nat} (h : StationIs x l s) : StationIs { x with running := true, mode := m } l (startFrames m s) := by
  obtain ⟨rfl, hl⟩ := h
  exact ⟨rfl, hl⟩

theorem stationIs_startDiscovery (h : StationIs x l s) : StationIs { x with discStart := some x.el } l (startDiscovery s) := by
  obtain ⟨rfl, hl⟩ := h
  exact ⟨rfl, hl⟩

theorem stationIs_noteStandby (h : StationIs x l s) : StationIs x l (noteStandby s) := h.of_parts rfl rfl

theorem stationIs_noteAnalog (h : StationIs x l s) : StationIs x l (noteAnalog s) := h.of_parts rfl rfl

theorem stationIs_noteForeign (h : StationIs x l s) : StationIs x l (noteForeign s) := stationIs_faultCond (h.of_parts rfl rfl)

/-- The configuration with an image in force. -/
def inForce (img : Image.Img) (c : CfgSt) : CfgSt := { c with img := img, heldReason := 0, heldDetail := 0 }

theorem stationIs_adoptImage {img : Image.Img} (h : StationIs x l s) :
    StationIs { x with cfg := inForce img x.cfg, slot := slotOf x.unit.serial img } l (adoptImage img s) := by
  obtain ⟨rfl, hl⟩ := h
  exact ⟨rfl, hl⟩

/-- Every safety function is tripped. -/
def AllTripped (fs : List FuncSt) : Prop := ∀ f ∈ fs, f.st = 2

theorem upd_forall {α : Type} {p : α → Prop} {g : α → α} (hg : ∀ a, p (g a)) :
    ∀ (l : List α) (i : Nat), (∀ a ∈ l, p a) → ∀ a ∈ upd g l i, p a
  | [], _, h => h
  | y :: _, 0, h => List.forall_mem_cons.mpr ⟨hg y, (List.forall_mem_cons.mp h).2⟩
  | _ :: r, i + 1, h => List.forall_mem_cons.mpr ⟨(List.forall_mem_cons.mp h).1, upd_forall hg r i (List.forall_mem_cons.mp h).2⟩

/-- The station of a module is `x` but for its safety functions, which are all tripped. -/
def TrippedIs (x : Station) (l : Bool) (s : State) : Prop := ∃ fs, AllTripped fs ∧ StationIs { x with funcs := fs } l s

theorem stationIs_setFunc {f : Nat} {g : FuncSt → FuncSt} (h : StationIs x l s) :
    StationIs { x with funcs := upd g x.funcs f } l (setFunc f g s) := by
  obtain ⟨rfl, hl⟩ := h
  exact ⟨rfl, hl⟩

/-- A function that a start trips. -/
def quietTrip (q : FuncSt) : FuncSt := { q with st := 2, edmUntil := none }

theorem trippedIs_tripQuiet {f cause : Nat} (h : TrippedIs x l s) : TrippedIs x l (tripQuiet f cause s) := by
  obtain ⟨fs, hfs, hx⟩ := h
  exact ⟨upd quietTrip fs f, upd_forall (p := fun q : FuncSt => q.st = 2) (g := quietTrip) (fun _ => rfl) fs f hfs, stationIs_event (stationIs_setFunc (g := quietTrip) hx)⟩

/-- The functions as a start trips them, before the trips are recorded. -/
def startFuncs (s : State) : List FuncSt :=
  (enumFrom 0 s.cfg.img.safety.funcs).map (fun p => { st := 2, lastTripOp := (nth {} s.safety.funcs p.1).lastTripOp })

theorem allTripped_startFuncs (s : State) : AllTripped (startFuncs s) := by
  intro f hf
  obtain ⟨p, -, rfl⟩ := List.mem_map.mp hf
  rfl

/-- Every function is tripped at a start (17 R453). -/
theorem trippedIs_startTrips (h : StationIs x l s) : TrippedIs x l (startTrips s) := by
  have hbegun : TrippedIs x l { s with safety := { s.safety with
      funcs := startFuncs s, so := s.safety.so.map (fun c => { c with on := false }) } } := by
    obtain ⟨rfl, hl⟩ := h
    exact ⟨startFuncs s, allTripped_startFuncs s, rfl, hl⟩
  have hfold : ∀ (fs : List Nat) (t : State), TrippedIs x l t → TrippedIs x l (fs.foldl (fun t f => tripQuiet f 0 t) t) := by
    intro fs
    induction fs with
    | nil => exact fun _ ht => ht
    | cons f fs ih => exact fun t ht => ih _ (trippedIs_tripQuiet ht)
  exact hfold _ _ hbegun

/-! ### Duty ends -/

theorem stationIs_releaseAtTick (h : StationIs x l s) : StationIs x l (releaseAtTick s) := by
  have hreleased : stationOf (releaseAtTick s) = stationOf s := by
    unfold releaseAtTick
    split <;> rfl
  refine ⟨hreleased.trans h.parts, fun hl => ?_⟩
  unfold releaseAtTick at hl
  split at hl
  · exact absurd hl Bool.false_ne_true
  · exact h.lease hl

/-- The station of a module that has left duty: in STANDBY, not good, its bring-up incomplete. -/
def offDuty (x : Station) : Station := { x with st := .standby, cpGood := false, claim := none, complete := false }

/-- Duty ends without the lease (R336, R346). -/
theorem stationIs_leaveDuty (h : StationIs x l s) : StationIs (offDuty x) false (leaveDutyWith dutyPowerOffKeep s) := by
  have hleft : StationIs (offDuty x) false { s with
      st := .standby, obs := {}, sp := {}, osc := List.replicate s.cfg.img.osc.conns.length {}
      lock := { s.lock with held := false, change := none, claim := none, claimOk := false, prepared := none, yielding := false
                            cpGood := false, cpLoaded := none, firstDuty := none }
      mb := { s.mb with dpReq := false, dpNext := none }
      frame := { s.frame with emitSuppressed := false }
      bring := { s.bring with complete := false, obsAtTick := false } } := by
    obtain ⟨rfl, -⟩ := h
    exact ⟨rfl, fun hl => hl⟩
  unfold leaveDutyWith
  exact stationIs_noteStandby <| stationIs_faultCond <| stationIs_faultCond <| stationIs_faultCond <| stationIs_canStartAll <|
    stationIs_dutyPowerOffKeep <| stationIs_solverStop <| stationIs_chStop <| stationIs_fusionStop <| stationIs_refuseBound hleft

/-! ### Verification ends -/

/-- An image in force at the end of SELFTEST: STANDBY, discovery begun, frames in START_MODE, every function tripped (R358, R359; 17 R453). -/
def started (img : Image.Img) (x : Station) : Station :=
  { x with st := .standby, cfg := inForce img x.cfg, slot := slotOf x.unit.serial img, discStart := some x.el, step := 3
           running := true, mode := img.frame.startMode }

theorem trippedIs_startStation {img : Image.Img} (h : StationIs x l s) : TrippedIs (started img x) l (startStation img s) := by
  obtain ⟨fs, hfs, htripped⟩ := trippedIs_startTrips (stationIs_startFrames (m := img.frame.startMode)
    (stationIs_with_st (m := .standby) (stationIs_timeFromRtc (stationIs_endStep (n := 2) (stationIs_adoptImage (img := img) h)))))
  exact ⟨fs, hfs, stationIs_noteStandby <| stationIs_noteAnalog <| stationIs_analogOn rfl <| stationIs_startDiscovery <|
    stationIs_stagesStart <| stationIs_imageStages htripped⟩

/-- An image refused at the end of SELFTEST: HELD with the verdict, in frames of some mode (03 R89). -/
def heldWith (v : Verdict) (m : Nat) (x : Station) : Station :=
  { x with st := .held, cfg := { x.cfg with heldReason := v.1, heldDetail := v.2 }, step := 0, running := true, mode := m }

theorem stationIs_startHeld {v : Verdict} (h : StationIs x l s) : ∃ m, StationIs (heldWith v m x) l (startHeld v s) := by
  have hheld : StationIs { x with st := .held, step := 0 } l { s with st := .held, bring := { s.bring with step := 0 } } := by
    obtain ⟨rfl, hl⟩ := h
    exact ⟨rfl, hl⟩
  exact ⟨_, stationIs_startFrames (stationIs_event (stationIs_setCfg
    (f := fun c => { c with heldReason := v.1, heldDetail := v.2 }) (stationIs_timeFromRtc hheld)))⟩

/-! ### An image takes effect -/

/-- The station with a committed image in force and its effect spent (R96). -/
def effected (img : Image.Img) (x : Station) : Station :=
  { x with cfg := inForce img { x.cfg with effect := none }, slot := slotOf x.unit.serial img }

/-- A module whose bring-up is put back to discovery, not good (R365). -/
def putBack (s : State) : State :=
  { s with
    st := .standby
    bring := { s.bring with step := 3, stepEl := elNs s, analogDone := analogSettled s, done7 := false, complete := false, timeDone := false
                            oscDone := false, boundFrom := elNs s }
    lock := { s.lock with aborted := false, cpGood := false } }

theorem restartBringup_eq (old : Image.Analog) (s : State) : restartBringup old s =
    startDiscovery (putBack (analogImage old (safetyOff (startTrips (stagesStart (imageStages s)))))) := rfl

theorem stationIs_putBack (h : StationIs x l s) :
    StationIs { x with st := .standby, step := 3, complete := false, cpGood := false } l (putBack s) := by
  obtain ⟨rfl, hl⟩ := h
  exact ⟨rfl, hl⟩

/-- Bring-up begins again at discovery, with every function tripped (R365; 17 R453). -/
def rediscovered (x : Station) : Station := { x with st := .standby, step := 3, complete := false, cpGood := false, discStart := some x.el }

theorem trippedIs_restartBringup {old : Image.Analog} (hoff : onDuty x.st = false) (h : StationIs x l s) :
    TrippedIs (rediscovered x) l (restartBringup old s) := by
  obtain ⟨fs, hfs, htripped⟩ := trippedIs_startTrips (stationIs_stagesStart (stationIs_imageStages h))
  refine ⟨fs, hfs, ?_⟩
  rw [restartBringup_eq]
  exact stationIs_startDiscovery (stationIs_putBack (stationIs_analogImage (x := { x with funcs := fs }) hoff (stationIs_safetyOff htripped)))

end Sys2Proof.Machine
end

section
/-! PROPERTY. IMAGE_VERIFICATION_COMPLETE and IMAGE_EFFECT (03_configuration R87, R89, R94, R96; 12_lock_group R326; 13_bringup R359, R365;
17_safety R453; notes/assumptions/31.md). -/

namespace Sys2Proof.Machine

open Sys2Proof.Safety

variable {u : State}

/-! ### IMAGE_VERIFICATION_COMPLETE -/

/-- SELFTEST with its active bank judged: an uncorrectable MRAM word is a fault, and a verdict on a bank that stands is noted (19 R504). -/
def judgedActive (bankErr : Bool) (u : State) : State :=
  let v := activeVerdict u bankErr
  let s1 := if bankErr then faultOnce 0x1315 u else u
  if v.1 = 0x0001 then s1 else noteVerdict u.cfg.active 5 v s1

theorem verificationComplete_selftest (bankErr : Bool) (hst : u.st = .selftest) (hstep : u.bring.step = 2) :
    verificationComplete bankErr u = if (activeVerdict u bankErr).1 = 0
      then startStation (readImage (activeBank u).bytes) (judgedActive bankErr u)
      else startHeld (activeVerdict u bankErr) (judgedActive bankErr u) :=
  (if_pos hst).trans (if_pos hstep)

/-- Noting a verdict writes banks and addresses: no image, and nothing but the configuration. -/
theorem noteVerdict_writes (b st : Nat) (v : Verdict) (s : State) : (noteVerdict b st v s).cfg.img = s.cfg.img ∧
    noteVerdict b st v s = setCfg (fun _ => (noteVerdict b st v s).cfg) s := by
  unfold noteVerdict setBank
  dsimp only
  split
  · split
    · exact ⟨rfl, rfl⟩
    · exact ⟨rfl, rfl⟩
  · split
    · exact ⟨rfl, rfl⟩
    · exact ⟨rfl, rfl⟩

theorem stationIs_noteVerdict {x : Station} {l : Bool} {s : State} {b st : Nat} {v : Verdict} (h : StationIs x l s) :
    StationIs { x with cfg := (noteVerdict b st v s).cfg } l (noteVerdict b st v s) := by
  obtain ⟨-, heq⟩ := noteVerdict_writes b st v s
  have hset := stationIs_setCfg (f := fun _ => (noteVerdict b st v s).cfg) h
  rwa [← heq] at hset

theorem stationIs_judgedActive (bankErr : Bool) (u : State) :
    ∃ c, c.img = u.cfg.img ∧ StationIs { stationOf u with cfg := c } true (judgedActive bankErr u) := by
  have hfault : StationIs (stationOf u) true (if bankErr then faultOnce 0x1315 u else u) :=
    stationIs_when (stationIs_self u) stationIs_faultOnce
  have hcfg : (if bankErr then faultOnce 0x1315 u else u).cfg = u.cfg := congrArg Station.cfg hfault.parts
  unfold judgedActive
  dsimp only
  split
  · exact ⟨u.cfg, rfl, hfault⟩
  · exact ⟨_, (noteVerdict_writes _ _ _ _).1.trans (congrArg CfgSt.img hcfg), stationIs_noteVerdict hfault⟩

section
variable {bankErr : Bool} (hst : u.st = .selftest) (hstep : u.bring.step = 2)
include hst hstep

/-- An active image that passes is in force (R358, R359; 12 R326; 17 R453). -/
theorem verified_inForce (hv : (activeVerdict u bankErr).1 = 0) :
    let t := settle (verificationComplete bankErr u)
    let img := readImage (activeBank u).bytes
    t.st = .standby ∧ t.bring.step = 3 ∧ t.cfg.img = img ∧ t.lock.slot = slotOf u.unit.serial img ∧ t.lock.discStart = some (elNs u) ∧
      t.frame.running = true ∧ t.frame.mode = img.frame.startMode ∧ t.lock.cpGood = u.lock.cpGood ∧ AllTripped t.safety.funcs := by
  obtain ⟨c, -, hjudged⟩ := stationIs_judgedActive bankErr u
  obtain ⟨fs, hfs, hstation⟩ := trippedIs_startStation (img := readImage (activeBank u).bytes) hjudged
  rw [verificationComplete_selftest bankErr hst hstep, if_pos hv]
  obtain ⟨hx, -⟩ := stationIs_settle hstation
  simp only [stationOf, started, inForce, Station.mk.injEq] at hx
  obtain ⟨hst', -, -, hcfg, hslot, hdisc, -, hgood, hstep', -, hrun, hmode, hfuncs⟩ := hx
  rw [← hfuncs] at hfs
  exact ⟨hst', hstep', (congrArg CfgSt.img hcfg :), hslot, hdisc, hrun, hmode, hgood, hfs⟩

/-- One that does not leaves the module HELD (R89). -/
theorem refused_held (hv : (activeVerdict u bankErr).1 ≠ 0) :
    let t := settle (verificationComplete bankErr u)
    t.st = .held ∧ t.bring.step = 0 ∧ t.cfg.heldReason = (activeVerdict u bankErr).1 ∧ t.cfg.heldDetail = (activeVerdict u bankErr).2 ∧
      t.cfg.img = u.cfg.img ∧ t.frame.running = true := by
  obtain ⟨c, himg, hjudged⟩ := stationIs_judgedActive bankErr u
  obtain ⟨m, hstation⟩ := stationIs_startHeld (v := activeVerdict u bankErr) hjudged
  rw [verificationComplete_selftest bankErr hst hstep, if_neg hv]
  obtain ⟨hx, -⟩ := stationIs_settle hstation
  simp only [stationOf, heldWith, Station.mk.injEq] at hx
  obtain ⟨hst', -, -, hcfg, -, -, -, -, hstep', -, hrun, -, -⟩ := hx
  exact ⟨hst', hstep', (congrArg CfgSt.heldReason hcfg :), (congrArg CfgSt.heldDetail hcfg :), (congrArg CfgSt.img hcfg :).trans himg, hrun⟩

end

theorem verificationComplete_not {bankErr : Bool}
    (h : u.st = .off ∨ (u.st = .selftest ∧ u.bring.step ≠ 2) ∨ (u.st ≠ .selftest ∧ u.cfg.verifying = none)) : verificationComplete bankErr u = u := by
  obtain hoff | ⟨hst, hstep⟩ | ⟨hst, hver⟩ := h
  · simp [verificationComplete, hoff]
  · exact (if_pos hst).trans (if_neg hstep)
  · simp [verificationComplete, hst, hver]

/-- A verdict is noted apart from what raising a fault may touch. -/
theorem rest_noteVerdict (b st : Nat) (v : Verdict) (s : State) : rest (noteVerdict b st v s) = noteVerdict b st v (rest s) := by
  unfold noteVerdict
  dsimp only
  split
  · exact (congrArg (noteVerified _) (rest_setBank b _ s) :)
  · exact rest_setBank b _ s

/-- A staged bank is judged, whatever the fault of its words (03 R94; 19 R504). -/
theorem verificationComplete_staged {bankErr : Bool} {b : Nat} (hon : u.st ≠ .off) (hst : u.st ≠ .selftest) (hver : u.cfg.verifying = some b) :
    rest (verificationComplete bankErr u) = rest (noteVerdict b (if (verifyBytes u bankErr (bankOf u b).bytes).1 = 0 then 3 else 4)
      (verifyBytes u bankErr (bankOf u b).bytes) (setCfg (fun c => { c with verifying := none }) u)) := by
  have hfault : rest (if bankErr then faultOnce 0x1315 u else u) = rest u := by
    split
    · exact faultOnce_rest u _
    · rfl
  simp only [verificationComplete, if_neg hst, if_neg hon, hver, rest_noteVerdict, rest_setCfg, hfault]

/-! ### IMAGE_EFFECT -/

theorem imageEffect_not {f : Nat} (h : u.cfg.effect = none ∨ atTick u = false ∨ (u.cfg.effect = some f ∧ u.frame.tic < f)) :
    imageEffect u = u := by
  unfold imageEffect
  split
  · rfl
  · rename_i g hg
    refine if_neg ?_
    rintro ⟨hat, hdue⟩
    obtain hnone | hnot | ⟨heff, hlater⟩ := h
    · exact Option.some_ne_none g (hg.symm.trans hnone)
    · exact Bool.false_ne_true (hnot.symm.trans hat)
    · obtain rfl : g = f := Option.some.inj (hg.symm.trans heff)
      exact Nat.not_lt.mpr hdue hlater

section
variable {x : Station} {l : Bool} {f : Nat} (h : StationIs x l u) (heff : u.cfg.effect = some f) (hat : atTick u = true) (hf : f ≤ u.frame.tic)
include h heff hat hf

/-- A standby stays where its bring-up stands. -/
theorem stationIs_imageEffect_standby (hst : u.st = .standby) (hoff : onDuty x.st = false) :
    StationIs (effected (readImage (activeBank u).bytes) x) l (imageEffect u) := by
  have hspent : StationIs { x with cfg := { x.cfg with effect := none } } l (setCfg (fun c => { c with effect := none }) u) :=
    stationIs_setCfg (f := fun c => { c with effect := none }) h
  have hoff' : onDuty (effected (readImage (activeBank u).bytes) x).st = false := hoff
  have hstages : StationIs (effected (readImage (activeBank u).bytes) x) l _ :=
    stationIs_imageStages (stationIs_adoptImage (img := readImage (activeBank u).bytes) hspent)
  unfold imageEffect
  rw [heff]
  dsimp only
  rw [if_pos ⟨hat, hf⟩, if_pos hst]
  refine stationIs_noteForeign (stationIs_ite ?_ hstages)
  exact stationIs_analogImage hoff' hstages

/-- Any other module gives up a lease it holds, ends its duty and goes back to discovery. -/
theorem trippedIs_imageEffect (hst : u.st ≠ .standby) :
    TrippedIs (rediscovered (effected (readImage (activeBank u).bytes) (offDuty x))) false (imageEffect u) := by
  have hspent : StationIs { x with cfg := { x.cfg with effect := none } } l (setCfg (fun c => { c with effect := none }) u) :=
    stationIs_setCfg (f := fun c => { c with effect := none }) h
  have hreleased := stationIs_when (p := (setCfg (fun c => { c with effect := none }) u).lock.held = true) hspent
    fun h1 => stationIs_releaseAtTick (stationIs_event (c := 0x0C03) (d := u8 0) h1)
  have hleft := stationIs_leaveDuty (stationIs_closeAll hreleased)
  unfold imageEffect
  rw [heff]
  dsimp only
  rw [if_pos ⟨hat, hf⟩, if_neg hst]
  have hoff : onDuty (effected (readImage (activeBank u).bytes) (offDuty x)).st = false := rfl
  obtain ⟨fs, hfs, hstation⟩ := trippedIs_restartBringup (old := u.cfg.img.analog) hoff
    (stationIs_adoptImage (img := readImage (activeBank u).bytes) (stationIs_with_solver hleft))
  exact ⟨fs, hfs, stationIs_noteForeign hstation⟩

end

section
variable {f : Nat} (heff : u.cfg.effect = some f) (hat : atTick u = true) (hf : f ≤ u.frame.tic)
include heff hat hf

/-- Where the effect finds a standby, its bring-up and its claim stay. -/
theorem imageEffect_stays (hst : u.st = .standby) :
    let t := settle (imageEffect u)
    (t.cfg.img = readImage (activeBank u).bytes ∧ t.cfg.effect = none ∧ t.lock.slot = slotOf u.unit.serial (readImage (activeBank u).bytes) ∧
      t.st = .standby) ∧ t.bring.step = u.bring.step ∧ t.lock.claim = u.lock.claim := by
  obtain ⟨hx, -⟩ := stationIs_settle (stationIs_imageEffect_standby (stationIs_self u) heff hat hf hst (congrArg onDuty hst))
  simp only [stationOf, effected, inForce, Station.mk.injEq] at hx
  obtain ⟨hst', -, -, hcfg, hslot, -, hclaim, -, hstep, -, -, -, -⟩ := hx
  exact ⟨⟨(congrArg CfgSt.img hcfg :), (congrArg CfgSt.effect hcfg :), hslot, hst'.trans hst⟩, hstep, hclaim⟩

/-- Any other module it leaves at discovery, without the lease. -/
theorem imageEffect_discovers (hst : u.st ≠ .standby) :
    let t := settle (imageEffect u)
    (t.cfg.img = readImage (activeBank u).bytes ∧ t.cfg.effect = none ∧ t.lock.slot = slotOf u.unit.serial (readImage (activeBank u).bytes) ∧
      t.st = .standby) ∧ t.bring.step = 3 ∧ t.lock.held = false ∧ t.lock.discStart = some (elNs u) ∧ t.lock.cpGood = false ∧
      t.bring.complete = false := by
  obtain ⟨fs, -, hstation⟩ := trippedIs_imageEffect (stationIs_self u) heff hat hf hst
  obtain ⟨hx, hlease⟩ := stationIs_settle hstation
  simp only [stationOf, rediscovered, offDuty, effected, inForce, Station.mk.injEq] at hx
  obtain ⟨hst', -, -, hcfg, hslot, hdisc, -, hgood, hstep, hcomplete, -, -, -⟩ := hx
  have hfree : (settle (imageEffect u)).lock.held = false := Bool.eq_false_iff.mpr fun h => Bool.false_ne_true (hlease h)
  exact ⟨⟨(congrArg CfgSt.img hcfg :), (congrArg CfgSt.effect hcfg :), hslot, hst'⟩, hstep, hfree, hdisc, hgood, hcomplete⟩

end

/-- Settles O51: each row by where the module stands, and by the station it leaves the module at. -/
theorem anImageIsVerifiedAndTakesEffect : Obligations.AnImageIsVerifiedAndTakesEffect := by
  intro dt b f e s u v img w judged
  refine ⟨fun hst hstep => ⟨settle (verificationComplete e u), rfl, fun hv => verified_inForce hst hstep hv, fun hv => refused_held hst hstep hv⟩,
    fun hnot => gives_of_settle rfl (verificationComplete_not hnot),
    fun hon hst hver => givesRest_of_settle rfl (verificationComplete_staged hon hst hver),
    fun heff hat hf => ⟨settle (imageEffect u), rfl, ?effect⟩, fun hnot => gives_of_settle rfl (imageEffect_not hnot)⟩
  by_cases hst : u.st = .standby
  · obtain ⟨⟨himg, hspent, hslot, hstandby⟩, hstays⟩ := imageEffect_stays heff hat hf hst
    exact ⟨himg, hspent, hslot, hstandby, fun _ => hstays, fun h => absurd hst h⟩
  · obtain ⟨⟨himg, hspent, hslot, hstandby⟩, hback⟩ := imageEffect_discovers heff hat hf hst
    exact ⟨himg, hspent, hslot, hstandby, fun h => absurd h hst, fun _ => hback⟩

end Sys2Proof.Machine
end

section
/-! PROPERTY. CAN_FRAME_RECEIVE: counted by its controller, taken in on duty, and committed as its service ends (04_intake R115, R119, R125;
16_can R423, R424, R435, R438; notes/assumptions/4.md, 16.md, 21.md). -/

namespace Sys2Proof.Machine

open Sys2Proof.Safety

/-! ### A good frame on an error active controller -/

theorem canOf_setCan {s : State} {c : Nat} (f : CanSt → CanSt) (h : c < s.can.length) : canOf (setCan c f s) c = f (canOf s c) :=
  nth_upd _ _ _ _ h

theorem setCan_setCan (c : Nat) (f g : CanSt → CanSt) (s : State) : setCan c f (setCan c g s) = setCan c (fun x => f (g x)) s := by
  simp only [setCan, upd_upd]

/-- A controller of the module takes part in bus traffic, and its counters keep it error active before and after a good frame. -/
structure ReceivesActive (s : State) (c : Nat) : Prop where
  live : canLive s c = true
  has : c < s.can.length
  rxErrors : (canOf s c).rec_ ≤ 127
  active : (canOf s c).st = .active
  txErrors : (canOf s c).tec ≤ 127

theorem stateFor_active {tec rec : Nat} (ht : tec ≤ 127) (hr : rec ≤ 127) : stateFor tec rec = .active :=
  (if_neg (by omega)).trans (if_neg (by omega))

/-- Error counters that keep a controller error active change it alone: no event, no slot cancelled, no fault. -/
theorem setErr_active {s : State} {c tec rec : Nat} (h : (canOf s c).st = .active) (ht : tec ≤ 127) (hr : rec ≤ 127) :
    setErr c tec rec s = setCan c (fun x => { x with tec := tec, rec_ := rec, st := .active, recovering := false }) s := by
  simp [setErr, stateFor_active ht hr, h]

/-- A controller as CAN_FRAME_RECEIVE counts a frame on it (R438). -/
def frameCounted (c : Nat) (s : State) : State :=
  setCan c (fun q => { q with withdrawn := false, cnt := { q.cnt with rxOk := inc q.cnt.rxOk } }) s

/-- A controller after a good frame: counted, and one taken off its receive error counter. -/
def frameReceived (c : Nat) (s : State) : State :=
  setCan c (fun x => { x with tec := (canOf s c).tec, rec_ := (canOf s c).rec_ - 1, st := .active, recovering := false }) (frameCounted c s)

section
variable {s : State} {c id : Nat} {data : Bytes} (h : ReceivesActive s c)
include h

theorem rxGood_frameCounted : rxGood c (frameCounted c s) = frameReceived c s := by
  have hctrl : canOf (frameCounted c s) c = { canOf s c with
      withdrawn := false, cnt := { (canOf s c).cnt with rxOk := inc (canOf s c).cnt.rxOk } } := canOf_setCan _ h.has
  have hrec := h.rxErrors
  have hkept : ¬127 < (canOf s c).rec_ := Nat.not_lt.mpr hrec
  simp only [rxGood, hctrl, if_neg hkept]
  exact setErr_active ((congrArg CanSt.st hctrl).trans h.active) h.txErrors (by omega)

theorem frameReceived_ctrl : (canOf (frameReceived c s) c).cnt.rxOk = inc (canOf s c).cnt.rxOk ∧
    (canOf (frameReceived c s) c).rec_ = (canOf s c).rec_ - 1 := by
  rw [frameReceived, frameCounted, setCan_setCan, canOf_setCan _ h.has]
  exact ⟨rfl, rfl⟩

/-- Off duty, and with a remote frame, a controller counts and nothing is taken in (R423; notes/assumptions/16.md). -/
theorem canFrame_countsOnly {remote : Bool} (hnot : onDuty s.st = false ∨ remote = true) : canFrame c id remote data s = frameReceived c s := by
  have hskip : ¬(onDuty s.st = true ∧ remote = false) := by
    rintro ⟨hduty, hremote⟩
    exact hnot.elim (fun e => Bool.false_ne_true (e.symm.trans hduty)) (fun e => Bool.false_ne_true (hremote.symm.trans e))
  exact (if_pos h.live).trans ((if_neg hskip).trans (rxGood_frameCounted h))

/-- On duty a data frame on no connection's identity reaches intake through the filters (R435). -/
theorem canFrame_filtered (hduty : onDuty s.st = true) (hconn : rxConn s c id = none) : canFrame c id false data s =
    if filterPass (ctrlCfg s c) id then canIntake c id data (frameReceived c s) else frameReceived c s := by
  rw [← rxGood_frameCounted h]
  simp only [canFrame, frameCounted, h.live, hduty, hconn, and_self, if_true]

end

theorem canFrame_silent {s : State} {c id : Nat} {remote : Bool} {data : Bytes} (h : canLive s c = false) : canFrame c id remote data s = s :=
  if_neg (Bool.eq_false_iff.mp h)

/-! ### A frame waits -/

theorem queueLen_pos (p : Nat) : 0 < queueLen p := by
  unfold queueLen
  split
  · decide
  · decide

/-- With nothing waiting, a message is served next: at most 50 µs after its arrival (R125). -/
theorem inService_first (s : State) (d : Pend) : inService s 0 d = { d with arrEl := elNs s, doneEl := elNs s + serviceNs } := by
  have hle : serviceNs ≤ 50000 := Nat.min_le_left _ _
  have hfree : Nat.max (elNs s) 0 = elNs s := Nat.max_zero _
  have hdone : Nat.min (Nat.max (elNs s) 0 + serviceNs) (elNs s + 100000) = elNs s + serviceNs := by
    rw [hfree]
    exact Nat.min_eq_left (by omega)
  rw [inService, hdone]

/-- The first message of an empty intake queue, on a host port or a controller. -/
theorem queueMessage_alone {s : State} {p : Nat} {d : Pend} (hserved : ∀ i ∈ queuePorts, servedOf s i = []) (hw : waitingOn s p = []) :
    queueMessage p d s = queued p [{ d with arrEl := elNs s, doneEl := elNs s + serviceNs }] (received d) 0 s := by
  have hroom : ¬queueLen p ≤ ([] : List Pend).length := Nat.not_le.mpr (queueLen_pos p)
  rw [← inService_first, queueMessage_eq, serveIntake_none hserved, enqueued, waitingOn_count, hw, if_neg hroom, count,
    setIntakePort_setIntakePort]
  rfl

theorem waitingOn_queued {s : State} {p n drops : Nat} {l : List Pend} (hp : p < s.intake.ports.length) : waitingOn (queued p l n drops s) p = l :=
  congrArg PortSt.waiting (nth_upd _ _ _ _ hp)

/-- A frame as it waits, with its arrival stamp. -/
def frameWaiting (s : State) (id : Nat) (data : Bytes) : Pend :=
  { kind := .can, key := id, stamp := nowNs s, arrEl := elNs s, doneEl := elNs s + serviceNs, data := data }

theorem canIntake_first {s : State} {c id : Nat} {data : Bytes} (hserved : ∀ i ∈ queuePorts, servedOf s i = [])
    (hw : waitingOn s (11 + c) = []) : canIntake c id data s = queued (11 + c) [frameWaiting s id data] 1 0 s :=
  queueMessage_alone hserved hw

/-- What CAN_FRAME_RECEIVE leaves of a controller, the store and the intake queue of the controller. -/
theorem canFrame_onDuty {s : State} {c id : Nat} {data : Bytes} (h : ReceivesActive s c) (hport : 11 + c < s.intake.ports.length)
    (hduty : onDuty s.st = true) (hserved : ∀ i ∈ queuePorts, servedOf s i = []) (hw : waitingOn s (11 + c) = [])
    (hconn : rxConn s c id = none) : let t := canFrame c id false data s
    canOf t c = canOf (frameReceived c s) c ∧ t.store = s.store ∧
      waitingOn t (11 + c) = if filterPass (ctrlCfg s c) id then [frameWaiting s id data] else [] := by
  dsimp only
  rw [canFrame_filtered h hduty hconn]
  split
  · rw [canIntake_first (s := frameReceived c s) hserved hw]
    exact ⟨rfl, rfl, waitingOn_queued hport⟩
  · exact ⟨rfl, rfl, hw⟩

/-! ### A frame is served -/

/-- Where one member of a list alone gives something, the list gives that. -/
theorem flatMap_only {α β : Type} {f : α → List β} {a : α} : ∀ {l : List α}, l.Nodup → a ∈ l → (∀ i ∈ l, i ≠ a → f i = []) → l.flatMap f = f a
  | [], _, ha, _ => absurd ha (List.not_mem_nil)
  | b :: l, hnd, ha, hothers => by
    obtain ⟨hb, hl⟩ := List.nodup_cons.mp hnd
    obtain ⟨hhead, htail⟩ := List.forall_mem_cons.mp hothers
    rw [List.flatMap_cons]
    by_cases hab : b = a
    · subst hab
      have hnone : l.flatMap f = [] := List.flatMap_eq_nil_iff.mpr fun i hi => htail i hi fun e => hb (e ▸ hi)
      rw [hnone, List.append_nil]
    · rw [hhead hab, List.nil_append]
      exact flatMap_only hl ((List.mem_cons.mp ha).resolve_left (Ne.symm hab)) htail

/-- The intake queues without the messages whose service has ended. -/
def unqueued (s : State) : State :=
  queuePorts.foldl (fun t p => setIntakePort p (fun x => { x with waiting := x.waiting.drop (servedOf s p).length }) t) s

theorem unqueued_store (s : State) : (unqueued s).store = s.store := by
  simp only [unqueued, queuePorts, List.foldl_cons, List.foldl_nil, setIntakePort_store]

theorem unqueued_cfg (s : State) : (unqueued s).cfg = s.cfg := by
  simp only [unqueued, queuePorts, List.foldl_cons, List.foldl_nil, setIntakePort_cfg]

section
variable {s : State} {p : Nat} {d : Pend} (hduty : onDuty s.st = true) (hp : p ∈ queuePorts) (hone : servedOf s p = [(p, d)])
  (hothers : ∀ i ∈ queuePorts, i ≠ p → servedOf s i = [])
include hduty hp hone hothers

/-- On duty the one message whose service has ended is served. -/
theorem serveIntake_one : serveIntake s = servePend p d (unqueued s) := by
  have hdone : queuePorts.flatMap (servedOf s) = [(p, d)] := (flatMap_only (by decide) hp hothers).trans hone
  simp only [serveIntake, unqueued, hdone, hduty, if_true, sortBy, insertBy, List.foldl_cons, List.foldl_nil]

/-- A frame of one entry puts its value into that entry's slot and into no other (R115, R119). -/
theorem serveIntake_can {e : Image.Entry} {w : Int} {q : Nat} (hkind : d.kind = .can) (he : canEntries s (p - 11) d.key = [e])
    (hf : fate s.cfg.img.map (payloadRaw d.data) e = .commit w q) (j : Nat) : Table.get {} (serveIntake s).store j =
      if e.dest = j then (Table.get {} s.store e.dest).take w d.stamp q else Table.get {} s.store j := by
  have hentries : canEntries (unqueued s) (p - 11) d.key = [e] := by simpa only [canEntries, unqueued_cfg] using he
  have hfate : fate (unqueued s).cfg.img.map (payloadRaw d.data) e = .commit w q := by rwa [unqueued_cfg]
  rw [serveIntake_one hduty hp hone hothers]
  simp only [servePend, hkind, hentries, commitMessage_commit hfate]
  rw [commitSlot_slot, unqueued_store]

end

theorem canPort_mem_queuePorts {k : Nat} (h : k < 4) : 11 + k ∈ queuePorts := by
  simp only [queuePorts, List.mem_cons]
  omega

@[simp] theorem canOf_settle (s : State) (c : Nat) : canOf (settle s) c = canOf s c := by
  simp only [canOf, settle_can]

/-- Settles O36: by what the controller lets through, and for a served frame by the one entry that reads it. -/
theorem canFramesReachTheirEntry : Obligations.CanFramesReachTheirEntry := by
  intro dt c id q w remote data e d s u k rxOk frame item
  refine ⟨fun hsilent => gives_of_settle rfl (canFrame_silent hsilent),
    fun hlive hhas hport hrec hactive htec => ?_, fun hduty hk hone hothers hkind he hf => ?_⟩
  · have h : ReceivesActive u k := ⟨hlive, hhas, hrec, hactive, htec⟩
    obtain ⟨hrx, hdec⟩ := frameReceived_ctrl h
    refine ⟨fun hduty hserved hw hconn => ?_, fun hnot => ?_⟩
    · obtain ⟨hctrl, hstore, hqueue⟩ := canFrame_onDuty (data := data) h hport hduty hserved hw hconn
      refine ⟨settle (canFrame k id false data u), rfl, ?_, ?_, (settle_store _).trans hstore, ?_⟩
      · rw [canOf_settle, hctrl, hrx]
        rfl
      · rw [canOf_settle, hctrl, hdec]
      · rw [settle_intake]
        exact hqueue
    · have hcounts : canFrame k id remote data u = frameReceived k u := canFrame_countsOnly h hnot
      refine ⟨settle (canFrame k id remote data u), rfl, ?_⟩
      rw [hcounts, canOf_settle, settle_store, settle_intake]
      exact ⟨hrx, hdec, rfl, rfl⟩
  · have hslot := serveIntake_can hduty (canPort_mem_queuePorts hk) hone hothers hkind ((Nat.add_sub_cancel_left (n := 11) (m := k)).symm ▸ he) hf
    exact ⟨(hslot e.dest).trans (if_pos rfl), fun j hj => (hslot j).trans (if_neg hj.symm)⟩

end Sys2Proof.Machine
end

section
/-! PROPERTY. CAPTURE_EDGE and INTAKE_COUNTER_SECOND: the edges that a capture unit holds, and the counters of a second (04_intake R120, R126,
R127, Table 4-4; 14_timebase_rtc R382; 18_field_io R474; notes/assumptions/4.md). -/

namespace Sys2Proof.Machine

open Sys2Proof.Safety

/-! ### Edges -/

theorem upd_nth {α : Type} (d : α) : ∀ (l : List α) (i : Nat), upd (fun _ => nth d l i) l i = l
  | [], _ => rfl
  | _ :: _, 0 => rfl
  | x :: r, i + 1 => congrArg (x :: ·) (upd_nth d r i)

theorem takeWhile_due {α : Type} {now : Nat} {due : α → Nat} : ∀ {l : List α}, (∀ x ∈ l, now < due x) →
    l.takeWhile (fun x => decide (due x ≤ now)) = []
  | [], _ => rfl
  | x :: _, h => List.takeWhile_cons_of_neg (by simpa using h x List.mem_cons_self)

/-- The stamp of an edge: an input's less the 1.6 µs of its front end (18 R474). -/
def edgeStamp (n : Nat) (s : State) : Nat := if n = 0 then nowNs s else nowNs s - 1600

/-- An edge of PPS_IN sets the offset reported (14 R382). -/
def edgeReported (n : Nat) (s : State) : State :=
  if n = 0 then { s with time := { s.time with ppsInOfs := some (secondOfs (edgeStamp n s), elNs s) } } else s

/-- A unit with one edge more. -/
def edgeHeld (n stamp : Nat) (s : State) : State :=
  { s with time := { s.time with captures := upd (fun l => l ++ [(stamp, elNs s + captureNs)]) s.time.captures n } }

/-- A ninth edge is counted and held nowhere. -/
def edgeDropped (s : State) : State := { s with time := { s.time with capDrops := inc s.time.capDrops } }

section
variable {s : State} {n : Nat} {rising : Bool}

/-- Where no edge's service has ended nothing is served. -/
theorem serveUnit_none (h : ∀ x ∈ nth [] s.time.captures n, elNs s < x.2) : serveUnit n s = s := by
  simp only [serveUnit, takeWhile_due h, List.length_nil, List.drop_zero, upd_nth, List.foldl_nil, ite_self]

/-- Reporting an edge writes the offset alone. -/
theorem edgeReported_keeps (n : Nat) (s : State) : (edgeReported n s).time.captures = s.time.captures ∧
    (edgeReported n s).time.capDrops = s.time.capDrops ∧ (edgeReported n s).store = s.store ∧ (edgeReported n s).st = s.st ∧
    elNs (edgeReported n s) = elNs s := by
  unfold edgeReported
  split
  · exact ⟨rfl, rfl, rfl, rfl, rfl⟩
  · exact ⟨rfl, rfl, rfl, rfl, rfl⟩

section
variable (hwait : ∀ x ∈ nth [] s.time.captures n, elNs s < x.2)
include hwait

theorem captureEdge_not (h : capTakes s n rising = false) : captureEdge n rising s = s := by
  simp [captureEdge, serveUnit_none hwait, h]

theorem captureEdge_taken (h : capTakes s n rising = true) : captureEdge n rising s =
    if 8 ≤ (nth [] s.time.captures n).length then faultOnce 0x0E14 (edgeDropped (edgeReported n s))
    else edgeHeld n (edgeStamp n s) (edgeReported n s) := by
  simp only [captureEdge, serveUnit_none hwait, h, if_true]
  by_cases hn : n = 0
  · simp only [edgeReported, edgeStamp, if_pos hn]
    rfl
  · simp only [edgeReported, edgeStamp, if_neg hn]
    rfl

/-- A unit with room takes the edge, and counts none dropped. -/
theorem captureEdge_held (h : capTakes s n rising = true) (hroom : (nth [] s.time.captures n).length < 8) (hn : n < s.time.captures.length) :
    let t := captureEdge n rising s
    nth [] t.time.captures n = nth [] s.time.captures n ++ [(edgeStamp n s, elNs s + captureNs)] ∧ t.time.capDrops = s.time.capDrops ∧
      (n = 0 → t.time.ppsInOfs = some (secondOfs (nowNs s), elNs s)) ∧ t.store = s.store := by
  obtain ⟨hcaps, hdrops, hstore, -, hel⟩ := edgeReported_keeps n s
  dsimp only
  rw [captureEdge_taken hwait h, if_neg (Nat.not_le.mpr hroom)]
  refine ⟨?_, hdrops, ?_, hstore⟩
  · simp only [edgeHeld, hcaps, hel, nth_upd _ _ _ _ hn]
  · rintro rfl
    rfl

/-- A ninth edge is dropped, counted and a fault. -/
theorem captureEdge_ninth (h : capTakes s n rising = true) (hfull : (nth [] s.time.captures n).length = 8) (hon : s.st ≠ .off) :
    let t := captureEdge n rising s
    t.time.captures = s.time.captures ∧ t.time.capDrops = inc s.time.capDrops ∧ faultActive t 0x0E14 = true := by
  obtain ⟨hcaps, hdrops, -, hst, -⟩ := edgeReported_keeps n s
  have hon' : (edgeDropped (edgeReported n s)).st ≠ .off := fun e => hon (hst.symm.trans e)
  dsimp only
  rw [captureEdge_taken hwait h, if_pos hfull.ge, faultOnce_time]
  exact ⟨hcaps, congrArg inc hdrops, faultOnce_active _ _ hon'⟩

end

theorem execCaptureEdge_on (dt : Nat) (hon : s.st ≠ .off) :
    execCaptureEdge dt n rising s = .next (settle (captureEdge n rising (advance s dt))) := by
  simp only [execCaptureEdge]

end

/-! ### The counters of a second -/

theorem forall_nth {α : Type} {P : α → Prop} {d : α} (hd : P d) : ∀ {l : List α} (i : Nat), (∀ x ∈ l, P x) → P (nth d l i)
  | [], _, _ => hd
  | _ :: _, 0, h => h _ List.mem_cons_self
  | _ :: _, i + 1, h => forall_nth hd i fun x hx => h x (List.mem_cons_of_mem _ hx)

theorem servedOf_empty {s : State} {i : Nat} (h : waitingOn s i = []) : servedOf s i = [] := by
  unfold waitingOn at h
  simp only [servedOf, h, List.takeWhile_nil, List.map_nil]

/-- The ports as a second ends: the counters noted, the rate judged. -/
def secondNoted (s : State) : State :=
  { s with intake := { s.intake with ports := s.intake.ports.map (fun q => { q with rateBad := badRate q, last := q.cnt }) } }

theorem rest_secondNoted (s : State) : rest (secondNoted s) = secondNoted (rest s) := rfl

/-- With nothing waiting, a second's end notes the counters; the rest is what an event and a fault may touch. -/
theorem counterSecond_rest {s : State} (h : ∀ p ∈ s.intake.ports, p.waiting = []) : rest (counterSecond s) = rest (secondNoted s) := by
  have hserved : ∀ i ∈ queuePorts, servedOf s i = [] := fun i _ => servedOf_empty (forall_nth (P := fun p : PortSt => p.waiting = []) rfl i h)
  have hevents : ∀ xs : List (Nat × PortSt),
      rest (xs.foldl (fun t x => event 0x0401 (u8 x.1 ++ counterBytes x.2.cnt) t) s) = rest s := foldl_rest s _ fun t _ => event_rest t _ _
  simp only [counterSecond, serveIntake_none hserved, endCond_rest]
  rw [rest_secondNoted, ← hevents, ← rest_secondNoted]
  rfl

theorem execIntakeCounterSecond_on {dt : Nat} {s : State} (hon : s.st ≠ .off) :
    execIntakeCounterSecond dt s = .next (settle (counterSecond (advance s dt))) := by
  simp only [execIntakeCounterSecond]

/-- Settles O37: by what the unit takes and holds, and by what the end of a second notes. -/
theorem capturesAndCountersOfIntake : Obligations.CapturesAndCountersOfIntake := by
  refine ⟨Nat.min_le_left _ _, ?_⟩
  intro dt n rising s u l stamp waiting hon
  refine ⟨fun hwait htake hroom hn => ?_, fun hwait htake hfull => ?_,
    fun hwait hnot => gives_of_settle (execCaptureEdge_on dt hon) (captureEdge_not hwait hnot),
    fun hempty => givesRest_of_settle (execIntakeCounterSecond_on hon) (counterSecond_rest hempty)⟩
  · refine ⟨_, execCaptureEdge_on dt hon, ?_⟩
    rw [settle_time, settle_store]
    exact captureEdge_held hwait htake hroom hn
  · obtain ⟨hheld, hdrops, hfault⟩ := captureEdge_ninth hwait htake hfull hon
    refine ⟨_, execCaptureEdge_on dt hon, ?_, ?_, (settle_active _ _).trans hfault⟩
    · rw [settle_time, hheld]
    · rw [settle_time, hdrops]
      rfl

end Sys2Proof.Machine
end

section
/-! SUPPORT. Bring-up's progress, and what one channel or group written leaves of the others (05_analog_chain R136, R144; 13_bringup R358). -/

namespace Sys2Proof.Machine

open Sys2Proof.Safety

variable {s : State}

/-! ### Steps of bring-up leave everything else -/

/-- A state but for what an event or a raise may touch, and for its bring-up. -/
def restNoBring (s : State) : State := { rest s with bring := {} }

theorem restNoBring_of_rest {t : State} (h : rest t = rest s) : restNoBring t = restNoBring s :=
  congrArg (fun x : State => { x with bring := {} }) h

theorem analog_of_restNoBring {t : State} (h : restNoBring t = restNoBring s) : t.analog = s.analog := by
  have ha := congrArg State.analog h
  exact ha

theorem store_of_restNoBring {t : State} (h : restNoBring t = restNoBring s) : t.store = s.store := by
  have hs := congrArg State.store h
  exact hs

theorem event_restNoBring (c : Nat) (d : Bytes) (b : BringSt) : restNoBring (event c d { s with bring := b }) = restNoBring s := by
  have h := restNoBring_of_rest (event_rest { s with bring := b } c d)
  exact h

theorem endStep_restNoBring (n : Nat) : restNoBring (endStep n s) = restNoBring s := event_restNoBring _ _ _

theorem note7_restNoBring : restNoBring (note7 s) = restNoBring s := by
  unfold note7
  split
  · exact event_restNoBring _ _ _
  · rfl

theorem lockFault_restNoBring : restNoBring (lockFault s) = restNoBring s := by
  unfold lockFault
  split
  · exact restNoBring_of_rest (faultCond_rest _ _ _)
  · rfl

theorem advance5_restNoBring : restNoBring (advance5 s) = restNoBring s := by
  unfold advance5
  split
  · exact endStep_restNoBring 5
  · rfl

theorem advance6_restNoBring : restNoBring (advance6 s) = restNoBring s := by
  unfold advance6
  split
  · exact endStep_restNoBring 6
  · rfl

theorem advance7_restNoBring : restNoBring (advance7 s) = restNoBring s := by
  unfold advance7
  split <;> rfl

/-- Steps 5 to 7 write bring-up alone, but for their events and the end of fault 0x0D11. -/
theorem bringProgress_restNoBring : restNoBring (bringProgress s) = restNoBring s := by
  dsimp only [bringProgress]
  split
  · rw [advance7_restNoBring, advance6_restNoBring, advance5_restNoBring, lockFault_restNoBring, note7_restNoBring]
  · exact note7_restNoBring

theorem noteSettled_restNoBring : restNoBring (noteSettled s) = restNoBring s := by
  unfold noteSettled
  split
  · exact bringProgress_restNoBring
  · rfl

theorem endChanFaults_rest (s : State) : rest (endChanFaults s) = rest s := by
  simp only [endChanFaults, endCond_rest]

/-! ### One channel, one group -/

theorem upd_fixed {α : Type} {f : α → α} {d : α} : ∀ {l : List α} {i : Nat}, f (nth d l i) = nth d l i → upd f l i = l
  | [], _, _ => rfl
  | _ :: r, 0, h => congrArg (· :: r) h
  | x :: _, _ + 1, h => congrArg (x :: ·) (upd_fixed (d := d) h)

theorem setChan_fixed {c : Nat} {f : AnaChanSt → AnaChanSt} (h : f (chanSt s c) = chanSt s c) : setChan c f s = s := by
  rw [setChan, upd_fixed h]

theorem chanSt_setChan {c : Nat} (f : AnaChanSt → AnaChanSt) (hc : c - 1 < s.analog.chans.length) :
    chanSt (setChan c f s) c = f (chanSt s c) := nth_upd _ _ _ _ hc

theorem groupSt_setGroup {g : Nat} (f : AnaGroupSt → AnaGroupSt) (hg : g - 1 < s.analog.groups.length) :
    groupSt (setGroup g f s) g = f (groupSt s g) := nth_upd _ _ _ _ hg

theorem setChan_foldl_groups (q : AnaChanSt) : ∀ (cs : List Nat) (s : State),
    (cs.foldl (fun u c => setChan c (fun _ => q) u) s).analog.groups = s.analog.groups
  | [], _ => rfl
  | c :: cs, s => setChan_foldl_groups q cs (setChan c (fun _ => q) s)

/-- Channels set to one state in turn all stand in it, and so does any that stood in it before. -/
theorem setChan_foldl_chanSt {q : AnaChanSt} {i : Nat} : ∀ {cs : List Nat} {s : State}, i - 1 < s.analog.chans.length →
    i ∈ cs ∨ chanSt s i = q → chanSt (cs.foldl (fun u c => setChan c (fun _ => q) u) s) i = q
  | [], _, _, h => h.resolve_left List.not_mem_nil
  | c :: cs, s, hi, h => by
    refine setChan_foldl_chanSt (cs := cs) (by rwa [setChan_analog, upd_length]) ?_
    by_cases hci : c - 1 = i - 1
    · right
      rw [chanSt, ← hci]
      exact chanSt_setChan _ (hci ▸ hi)
    · have hkeep : chanSt (setChan c (fun _ => q) s) i = chanSt s i := nth_upd_other _ _ _ _ _ hci
      rw [hkeep]
      exact h.imp_left fun hmem => (List.mem_cons.mp hmem).resolve_left fun e => hci (by rw [e])

end Sys2Proof.Machine
end

section
/-! PROPERTY. SLOT_RUN_FAULT and ANALOG_CHANNEL_FAULT (05_analog_chain Table 5-5; 16_can R439, Table 16-6; 19_faults R490). -/

namespace Sys2Proof.Machine

open Sys2Proof.Safety

/-! ### Condition sources with blocks of their own -/

/-- A condition source with its blocks is raised where a condition holds. -/
def raisedIf (code : Nat) (bs : List Block) (p : Prop) [Decidable p] (s : State) : State := if p then faultSet code true bs s else s

variable {s : State} {code : Nat} {bs : List Block} {p : Prop} [Decidable p]

theorem raisedIf_rest : rest (raisedIf code bs p s) = rest s := by
  unfold raisedIf
  split
  · exact faultSet_rest _ _ _ _
  · rfl

theorem raisedIf_st : (raisedIf code bs p s).st = s.st := by
  have h := congrArg State.st (raisedIf_rest (s := s) (code := code) (bs := bs) (p := p))
  exact h

theorem raisedIf_on (hs : s.st ≠ .off) : (raisedIf code bs p s).st ≠ .off := raisedIf_st.trans_ne hs

theorem raisedIf_active (hp : p) (hs : s.st ≠ .off) : faultActive (raisedIf code bs p s) code = true := by
  rw [raisedIf, if_pos hp]
  exact faultSet_active s code bs hs

/-- A raise ends no other source's condition. -/
theorem faultSet_keeps_active {c : Nat} (hs : s.st ≠ .off) (h : faultActive s c = true) : faultActive (faultSet code true bs s) c = true := by
  by_cases hi : faultIndex c = faultIndex code
  · have := faultSet_active s code bs hs
    unfold faultActive srcOf at this ⊢
    rwa [hi]
  · unfold faultSet
    rw [if_pos rfl]
    split
    · exact h
    · apply lossCheck_active
      obtain ⟨f, -, -, -, hf⟩ := raiseCore_src s code false bs hs
      unfold faultActive srcOf at h ⊢
      rwa [hf, Table.get_set, if_neg (Ne.symm hi)]

theorem raisedIf_keeps_active {c : Nat} (hs : s.st ≠ .off) (h : faultActive s c = true) : faultActive (raisedIf code bs p s) c = true := by
  unfold raisedIf
  split
  · exact faultSet_keeps_active hs h
  · exact h

/-- A row that raises a source where its condition holds and only lets time pass elsewhere. -/
theorem raises_raisedIf {c : Instr} {u : State} (hc : exec c s = .next (settle (raisedIf code bs p u))) (hu : u.st ≠ .off) :
    (p → Raises c s code u) ∧ (¬p → Gives c s u) :=
  ⟨fun hp => ⟨_, hc, (settle_active _ _).trans (raisedIf_active hp hu), (settle_rest _).trans raisedIf_rest⟩,
    fun hp => gives_of_settle hc (if_neg hp)⟩

/-! ### The channel's conditions of 1 s -/

theorem for1s_iff {o : Option Nat} : for1s s o = true ↔ ∃ t0, o = some t0 ∧ t0 + 1000000000 ≤ elNs s := by
  cases o with
  | none => simp [for1s]
  | some t => simp [for1s]

/-- The row's effect: its three sources, each by its own condition. -/
theorem analogChannelFault_eq (c : Nat) (s : State) : analogChannelFault c s =
    raisedIf 0x0512 [.analog (groupOf c - 1)] (for1s s (chanSt s c).highEl = true)
      (raisedIf 0x0511 [.analog (groupOf c - 1)] (for1s s (chanSt s c).lowEl = true)
        (raisedIf 0x0510 [.analog (groupOf c - 1)] (for1s s (chanSt s c).ovlEl = true) s)) := rfl

theorem analogChannelFault_rest (c : Nat) (s : State) : rest (analogChannelFault c s) = rest s := by
  rw [analogChannelFault_eq, raisedIf_rest, raisedIf_rest, raisedIf_rest]

theorem analogChannelFault_active {c : Nat} (hs : s.st ≠ .off) :
    (for1s s (chanSt s c).ovlEl = true → faultActive (analogChannelFault c s) 0x0510 = true) ∧
    (for1s s (chanSt s c).lowEl = true → faultActive (analogChannelFault c s) 0x0511 = true) ∧
    (for1s s (chanSt s c).highEl = true → faultActive (analogChannelFault c s) 0x0512 = true) := by
  rw [analogChannelFault_eq]
  refine ⟨fun h => ?_, fun h => ?_, fun h => ?_⟩
  · exact raisedIf_keeps_active (raisedIf_on (raisedIf_on hs)) (raisedIf_keeps_active (raisedIf_on hs) (raisedIf_active h hs))
  · exact raisedIf_keeps_active (raisedIf_on (raisedIf_on hs)) (raisedIf_active h (raisedIf_on hs))
  · exact raisedIf_active h (raisedIf_on (raisedIf_on hs))

theorem analogChannelFault_not {c : Nat} (hovl : for1s s (chanSt s c).ovlEl ≠ true) (hlow : for1s s (chanSt s c).lowEl ≠ true)
    (hhigh : for1s s (chanSt s c).highEl ≠ true) : analogChannelFault c s = s := by
  rw [analogChannelFault_eq]
  simp only [raisedIf, if_neg hovl, if_neg hlow, if_neg hhigh]

/-- Settles O25: both rows raise condition sources, of which a later raise ends none. -/
theorem canAndAnalogConditionsRaise : Obligations.CanAndAnalogConditionsRaise := by
  intro dt c e s u q run safe stood hs _
  have hu : u.st ≠ .off := hs
  obtain ⟨hrun, hrun'⟩ := raises_raisedIf (c := .slotRunFault dt c (some e)) (s := s) (code := 0x1012) (bs := [.can (c - 1)]) (p := run) rfl hu
  obtain ⟨hsafe, hsafe'⟩ := raises_raisedIf (c := .slotRunFault dt c none) (s := s) (code := 0x1013) (bs := [.can (c - 1)]) (p := safe) rfl hu
  obtain ⟨hovl, hlow, hhigh⟩ := analogChannelFault_active (c := c) hu
  have hstood : ∀ {x : Option Nat}, for1s u x = true ↔ stood x := for1s_iff
  refine ⟨hrun, hrun', hsafe, hsafe', fun _ => ⟨_, rfl, (settle_rest _).trans (analogChannelFault_rest c u), ?_⟩, fun h1 h2 h3 => ?_⟩
  · simp only [settle_active]
    exact ⟨fun h => hovl (hstood.mpr h), fun h => hlow (hstood.mpr h), fun h => hhigh (hstood.mpr h)⟩
  · exact gives_of_settle rfl (analogChannelFault_not (mt hstood.mp h1) (mt hstood.mp h2) (mt hstood.mp h3))

end Sys2Proof.Machine
end

section
/-! PROPERTY. GROUP_START, ANALOG_SAMPLE, MODULATOR_OVERLOAD and MODULATOR_RESTART (05_analog_chain R130, R137 to R141;
notes/assumptions/4.md, 17.md). -/

namespace Sys2Proof.Machine

open Sys2Proof.Image (AnaGroup AnaChan)
open Sys2Proof.Safety

variable {s : State}

/-! ### GROUP_START -/

/-- A group running from now, its channels with its settling count to go (R137, R138). -/
def groupStarted (g : Nat) (s : State) : State :=
  (chansOf g).foldl (fun u c => setChan c (fun _ => { left := settleCount (anaGroup s g) }) u)
    (setGroup g (fun _ => { running := true, startEl := elNs s }) s)

section
variable {g t0 : Nat} (hat : (groupSt s g).startAt = some t0)
include hat

theorem groupStart_due (hpow : s.analog.powered = true) (ht : t0 ≤ nowNs s) : (groupStart g s).analog = (groupStarted g s).analog := by
  have hdue : s.analog.powered = true ∧ t0 ≤ nowNs s := ⟨hpow, ht⟩
  simp only [groupStart, hat, if_pos hdue, event_analog]
  rfl

theorem groupStart_early (ht : nowNs s < t0) : groupStart g s = s := by
  simp only [groupStart, hat, Nat.not_le.mpr ht, and_false, if_false]

end

theorem groupSt_groupStarted {g : Nat} (hg : g - 1 < s.analog.groups.length) :
    groupSt (groupStarted g s) g = { running := true, startEl := elNs s } := by
  rw [groupSt, groupStarted, setChan_foldl_groups]
  exact groupSt_setGroup _ hg

theorem chanSt_groupStarted {g i : Nat} (hi : i ∈ chansOf g) (hlen : i - 1 < s.analog.chans.length) :
    chanSt (groupStarted g s) i = { left := settleCount (anaGroup s g) } :=
  setChan_foldl_chanSt hlen (Or.inl hi)

/-! ### What a sample is judged -/

/-- A sample is MASKED: an overload in its interval, or a value outside the valid band (R140). -/
def maskedBy (range : Nat) (ovl : Bool) (x : Int) : Bool := ovl || decide (x < (bandOf range).1) || decide ((bandOf range).2 < x)

theorem sampleQuality_eq (range : Nat) (ovl : Bool) (x : Int) (left : Nat) :
    sampleQuality range ovl x left = if maskedBy range ovl x then 3 else if 0 < left then 1 else 0 := by
  simp only [sampleQuality, maskedBy, Bool.or_eq_true, decide_eq_true_eq, or_assoc]

/-- A sample is VALID where it is not MASKED and its channel has settled. -/
theorem sampleQuality_valid (range : Nat) (ovl : Bool) (x : Int) (left : Nat) :
    (sampleQuality range ovl x left == 0) = (!maskedBy range ovl x && left == 0) := by
  rw [sampleQuality_eq]
  cases maskedBy range ovl x with
  | true => rfl
  | false => cases left <;> rfl

section
variable (b : AnaGroup) (cb : AnaChan) (x : Int) (q : AnaChanSt)

theorem judgeSample_quality : (judgeSample s b cb x q).1 = sampleQuality cb.range q.ovl x q.left := rfl

theorem judgeSample_value (h : cb.dcbEn = 0) : (judgeSample s b cb x q).2.1 = delivered cb.range q.ovl q.ovlHigh x := by
  simp [judgeSample, h]

theorem judgeSample_ovl : (judgeSample s b cb x q).2.2.ovl = false := rfl

/-- A MASKED sample starts the settling count again; any other is one less to settle. -/
theorem judgeSample_left : (judgeSample s b cb x q).2.2.left = if maskedBy cb.range q.ovl x then settleCount b else q.left - 1 := by
  have hleft : (judgeSample s b cb x q).2.2.left = if sampleQuality cb.range q.ovl x q.left = 3 then settleCount b
      else q.left - (if sampleQuality cb.range q.ovl x q.left = 1 then 1 else 0) := rfl
  rw [hleft, sampleQuality_eq]
  cases maskedBy cb.range q.ovl x with
  | true => rfl
  | false => cases q.left <;> rfl

end

/-! ### ANALOG_SAMPLE -/

/-- The chain's output for a window, and what its filters then hold; sample 0 finds them cleared (R131, R137). -/
def chainOut (b : AnaGroup) (mods : List Bool) (q : AnaChanSt) : Int × List Int × List (List Int) :=
  if q.n = 0 then (0, [], []) else chainRun b (mods.take (sampleCycles b)) q

theorem chainOut_value (b : AnaGroup) (mods : List Bool) (q : AnaChanSt) :
    (chainOut b mods q).1 = if q.n = 0 then 0 else (chainRun b (mods.take (sampleCycles b)) q).1 := by
  unfold chainOut
  split <;> rfl

/-- The native value of a channel's sample (R129). -/
def sampleInput (c : Nat) (mods : List Bool) (s : State) : Int :=
  nativeValue c (anaChan s c) (chainOut (anaGroup s (groupOf c)) mods (chanSt s c)).1 s.nFree

/-- A channel's sample judged. -/
def sampleJudged (c : Nat) (mods : List Bool) (s : State) : Nat × Int × AnaChanSt :=
  judgeSample s (anaGroup s (groupOf c)) (anaChan s c) (sampleInput c mods s) (chanSt s c)

/-- A channel's sample as it waits for its commit (R139). -/
def sampleWaiting (c : Nat) (mods : List Bool) (s : State) : AnaSample :=
  { v := (sampleJudged c mods s).2.1, stamp := nowNs s - groupDelayNs (anaGroup s (groupOf c)), quality := (sampleJudged c mods s).1
    doneEl := elNs s + analogCommitNs }

/-- A channel after its sample. -/
def sampleChan (c : Nat) (mods : List Bool) (s : State) : AnaChanSt :=
  let out := chainOut (anaGroup s (groupOf c)) mods (chanSt s c)
  { (sampleJudged c mods s).2.2 with
    n := (chanSt s c).n + 1, mods := out.2.1, stages := out.2.2, waiting := (chanSt s c).waiting ++ [sampleWaiting c mods s] }

/-- Channel and group with the sample taken. -/
def sampleTaken (c : Nat) (mods : List Bool) (s : State) : State :=
  setChan c (fun _ => sampleChan c mods s)
    (setGroup (groupOf c) (fun z => { z with firstValid := z.firstValid || ((sampleJudged c mods s).1 == 0) }) (nextFree s))

/-- A channel's next sample is due. -/
def DueSample (s : State) (c : Nat) : Prop :=
  s.analog.powered = true ∧ (groupSt s (groupOf c)).running = true ∧ (anaChan s c).enable = 1 ∧ groupHeld s (groupOf c) = false ∧
    sampleDue s (groupOf c) (chanSt s c).n = true

theorem analogSample_due {c : Nat} {mods : List Bool} (h : DueSample s c) : analogSample c mods s =
    endChanFaults (if (sampleJudged c mods s).1 = 0 then noteSettled (serveChannel c (sampleTaken c mods s))
      else serveChannel c (sampleTaken c mods s)) := if_pos h

theorem analogSample_not {c : Nat} {mods : List Bool} (h : ¬DueSample s c) : analogSample c mods s = s := if_neg h

/-- Before the commit of what waits on a channel is due nothing is served. -/
theorem serveChannel_none {c : Nat} (h : ∀ x ∈ (chanSt s c).waiting, elNs s < x.doneEl) : serveChannel c s = s := by
  have hfix : setChan c (fun x => { x with waiting := (chanSt s c).waiting }) s = s := setChan_fixed rfl
  simp only [serveChannel, takeWhile_due h, List.length_nil, List.drop_zero, List.foldl_nil, hfix, ite_self]

theorem analogCommitNs_bounds : 2000 ≤ analogCommitNs ∧ analogCommitNs ≤ 20000 := by
  unfold analogCommitNs
  omega

section
variable {c : Nat} {mods : List Bool} (hc : c - 1 < s.analog.chans.length)
include hc

theorem chanSt_sampleTaken : chanSt (sampleTaken c mods s) c = sampleChan c mods s := chanSt_setChan _ hc

/-- A sample that waits alone waits at least 2 µs, so none is served with it. -/
theorem serveChannel_sampleTaken (hw : (chanSt s c).waiting = []) : serveChannel c (sampleTaken c mods s) = sampleTaken c mods s := by
  refine serveChannel_none ?_
  rw [chanSt_sampleTaken hc]
  simp only [sampleChan, hw, List.nil_append, List.forall_mem_singleton]
  have hlater : elNs s < elNs s + analogCommitNs := by have := analogCommitNs_bounds; omega
  exact hlater

/-- A due sample is taken; beyond that only bring-up, events and the ends of faults follow. -/
theorem analogSample_restNoBring (h : DueSample s c) (hw : (chanSt s c).waiting = []) :
    restNoBring (analogSample c mods s) = restNoBring (sampleTaken c mods s) := by
  rw [analogSample_due h, restNoBring_of_rest (endChanFaults_rest _), serveChannel_sampleTaken hc hw]
  split
  · exact noteSettled_restNoBring
  · rfl

end

/-! ### Overload and restart of a modulator -/

theorem beyondSpan_iff (cb : AnaChan) (input : Int) :
    beyondSpan cb input = true ↔ cb.inputSel = 0 ∧ (input < (spanOf cb.range).1 ∨ (spanOf cb.range).2 < input) := by
  simp [beyondSpan]

/-- A modulator overloaded now: held in reset, its interval marked (R130). -/
def overloaded (c : Nat) (input : Int) (s : State) : State :=
  setChan c (fun q => { q with ovl := true, ovlHigh := decide (0 < input), inReset := true, resetEl := elNs s
                               ovlEl := some (q.ovlEl.getD (elNs s)) }) s

theorem modulatorOverload_eq (c : Nat) (input : Int) (s : State) : modulatorOverload c input s =
    if s.analog.powered = true ∧ (anaChan s c).enable = 1 ∧ beyondSpan (anaChan s c) input = true ∧ (chanSt s c).inReset = false then
      overloaded c input s else s := rfl

theorem modulatorRestart_rest {c : Nat} (hreset : (chanSt s c).inReset = true) (hcyc : 96 * (chanSt s c).resetEl + 1000000 ≤ 96 * elNs s) :
    rest (modulatorRestart c s) = rest (setChan c (fun x => { x with inReset := false }) s) :=
  (congrArg rest (if_pos ⟨hreset, hcyc⟩)).trans (event_rest _ _ _)

theorem modulatorRestart_not {c : Nat} (h : (chanSt s c).inReset = false ∨ ¬96 * (chanSt s c).resetEl + 1000000 ≤ 96 * elNs s) :
    modulatorRestart c s = s := by
  refine if_neg ?_
  rintro ⟨hreset, hcyc⟩
  exact h.elim (by simp [hreset]) (· hcyc)

/-! ### The commands -/

section
variable {dt : Nat}

theorem execGroupStart_due {g t0 : Nat} (hg : 1 ≤ g) (hg4 : g ≤ 4) (hgroups : s.analog.groups.length = 4) (hchans : s.analog.chans.length = 16)
    (hat : (groupSt (advance s dt) g).startAt = some t0) (hpow : s.analog.powered = true) (ht : t0 ≤ nowNs (advance s dt)) :
    ∃ t, exec (.groupStart dt g) s = .next t ∧ groupSt t g = { running := true, startEl := elNs (advance s dt) } ∧
      ∀ i ∈ chansOf g, chanSt t i = { left := settleCount (anaGroup (advance s dt) g) } := by
  have hana : (settle (groupStart g (advance s dt))).analog = (groupStarted g (advance s dt)).analog :=
    (settle_analog _).trans (groupStart_due hat hpow ht)
  refine ⟨_, rfl, ?_, fun i hi => ?_⟩
  · rw [groupSt, hana]
    exact groupSt_groupStarted (by rw [advance_analog]; omega)
  · rw [chanSt, hana]
    refine chanSt_groupStarted hi ?_
    have : i ≤ 16 := by
      simp only [chansOf, List.mem_cons, List.not_mem_nil, or_false] at hi
      omega
    rw [advance_analog]
    omega

/-- A due sample's channel, group and store, in a command's next state. -/
theorem execAnalogSample_due {c : Nat} {mods : List Bool} (hc : 1 ≤ c) (hc16 : c ≤ 16) (hgroups : s.analog.groups.length = 4)
    (hchans : s.analog.chans.length = 16) (h : DueSample (advance s dt) c) (hw : (chanSt (advance s dt) c).waiting = []) :
    ∃ t, exec (.analogSample dt c mods) s = .next t ∧ chanSt t c = sampleChan c mods (advance s dt) ∧
      (groupSt t (groupOf c)).firstValid =
        ((groupSt (advance s dt) (groupOf c)).firstValid || ((sampleJudged c mods (advance s dt)).1 == 0)) ∧
      t.store = (advance s dt).store := by
  have hlen : c - 1 < (advance s dt).analog.chans.length := by rw [advance_analog]; omega
  have hglen : groupOf c - 1 < (advance s dt).analog.groups.length := by
    rw [advance_analog, groupOf]
    omega
  have heq := (restNoBring_of_rest (settle_rest _)).trans (analogSample_restNoBring (mods := mods) hlen h hw)
  have hana := analog_of_restNoBring heq
  have hstore := store_of_restNoBring heq
  refine ⟨_, rfl, ?_, ?_, hstore⟩
  · rw [chanSt, hana]
    exact chanSt_sampleTaken hlen
  · rw [groupSt, hana]
    exact congrArg AnaGroupSt.firstValid (groupSt_setGroup (s := nextFree (advance s dt)) _ hglen)

end

/-- Settles O38: each row by what is due; a sample by what its channel and group are after it is taken. -/
theorem analogGroupsStartAndDeliver : Obligations.AnalogGroupsStartAndDeliver := by
  refine ⟨analogCommitNs_bounds, ?_⟩
  intro dt g c t0 mods input s u b k h bc kc cb q x0 masked ql due smp beyond_ cycles
  have hbeyond : beyondSpan cb input = true ↔ beyond_ := beyondSpan_iff cb input
  have hdue : DueSample u c ↔ due := by simp only [DueSample, sampleDue, decide_eq_true_eq]; rfl
  have hx0 : sampleInput c mods u = x0 := congrArg (fun x => nativeValue c cb x u.nFree) (chainOut_value bc mods q)
  refine ⟨fun hg hg4 hgroups hchans hat hpow => ⟨execGroupStart_due hg hg4 hgroups hchans hat hpow,
    fun ht => gives_of_settle rfl (groupStart_early hat ht)⟩, fun hc hc16 hgroups hchans hd hw => ?sample,
    fun hd => gives_of_settle rfl (analogSample_not (mt hdue.mp hd)), fun hpow hen hb hr => ?held, fun hnot => ?free,
    fun hr hcyc => givesRest_of_settle rfl (modulatorRestart_rest hr hcyc), fun hnot => gives_of_settle rfl (modulatorRestart_not hnot)⟩
  case sample =>
    obtain ⟨t, ht, hchan, hgroup, hstore⟩ := execAnalogSample_due (s := s) (dt := dt) (mods := mods) hc hc16 hgroups hchans (hdue.mpr hd) hw
    have hjudged : sampleJudged c mods u = judgeSample u bc cb x0 q := by rw [sampleJudged, hx0]
    have hquality : (sampleJudged c mods u).1 = ql := by rw [hjudged, judgeSample_quality, sampleQuality_eq]; rfl
    refine ⟨t, ht, ?_, ?_, ?_, ?_, hstore, fun hdcb => ?_⟩
    · rw [hchan]; rfl
    · rw [hchan]; rfl
    · rw [hchan, sampleChan, hjudged]
      exact judgeSample_left (s := u) bc cb x0 q
    · rw [hgroup, hjudged]
      exact congrArg _ (sampleQuality_valid cb.range q.ovl x0 q.left)
    · rw [hchan, sampleChan, hw, List.nil_append, sampleWaiting, hquality, hjudged, judgeSample_value bc cb x0 q hdcb]
  case held => exact gives_of_settle rfl ((modulatorOverload_eq c input u).trans (if_pos ⟨hpow, hen, hbeyond.mpr hb, hr⟩))
  case free =>
    refine gives_of_settle rfl ((modulatorOverload_eq c input u).trans (if_neg ?_))
    rintro ⟨hpow, hen, hb, hr⟩
    rcases hnot with h1 | h2 | h3 | h4
    · exact Bool.false_ne_true (h1.symm.trans hpow)
    · exact h2 hen
    · exact h3 (hbeyond.mp hb)
    · exact Bool.false_ne_true (hr.symm.trans h4)

end Sys2Proof.Machine
end

section
/-! PROPERTY. DR_LIMIT, KIND_NOT_VALID_FAULT and CONTROL_PERSIST_FAULT (06_fusion R176, R177, Table 6-13; 07_observer_control R213; 19_faults R490). -/

namespace Sys2Proof.Machine

open Sys2Proof.Safety

variable {s : State}

/-! ### Dead reckoning beyond its limit -/

/-- DR_LIMIT is set in the flags of an output. -/
def Fused.withDrLimit (f : Fused) : Fused := { f with flags := { f.flags with drLimit := true } }

/-- DR_LIMIT is set in heading or in position. -/
def markDrLimit (heading : Bool) (s : State) : State :=
  { s with fusion := if heading then { s.fusion with heading := s.fusion.heading.withDrLimit }
                     else { s.fusion with position := s.fusion.position.withDrLimit } }

theorem markDrLimit_rest (b : Bool) {t : State} (h : rest t = rest s) : rest (markDrLimit b t) = rest (markDrLimit b s) := by
  have hcomm : ∀ x : State, rest (markDrLimit b x) = markDrLimit b (rest x) := fun _ => rfl
  rw [hcomm, hcomm, h]

/-- The row's effect: the fault first, then the flag in that output. -/
theorem drLimit_eq (b : Bool) (s : State) : drLimit b s =
    if s.fusion.running = true ∧ (if b then s.fusion.heading else s.fusion.position).flags.valid = false ∧
        (if b then s.cfg.img.fusion.hdgDrLimitS else s.cfg.img.fusion.drLimitS) * 1000000000 <
          drNs (if b then s.fusion.heading else s.fusion.position) s.fusion.tov then
      markDrLimit b (faultCond (if b then 0x0611 else 0x0610) true s)
    else s := by
  cases b <;> rfl

/-- The dead-reckoning time of an output that is not VALID counts from the frame that last left it VALID (R176). -/
theorem drNs_of_lastValid {f : Fused} {tov v : Nat} (hinvalid : f.flags.valid = false) (hv : f.lastValidTic = some v) : drNs f tov = tov - v := by
  simp [drNs, hinvalid, hv]

/-- A raise followed by DR_LIMIT in the flags. -/
theorem raises_markDrLimit {c : Instr} {t u : State} {code : Nat} {b : Bool} (hc : exec c s = .next (settle t))
    (ht : t = markDrLimit b (faultCond code true u)) (hu : u.st ≠ .off) : Raises c s code (markDrLimit b u) := by
  subst ht
  exact ⟨_, hc, (settle_active _ _).trans (faultCond_active u code hu), (settle_rest _).trans (markDrLimit_rest b (faultCond_rest u code true))⟩

/-! ### A kind not VALID for 1 s -/

theorem map_snd_enumFrom {α : Type} : ∀ (k : Nat) (l : List α), (enumFrom k l).map Prod.snd = l
  | _, [] => rfl
  | k, x :: r => congrArg (x :: ·) (map_snd_enumFrom (k + 1) r)

theorem map_snd_refsOf (k : Nat) : (refsOf s k).map Prod.snd = s.cfg.img.fusion.refs.filter (fun r => r.kind == k) := by
  conv_rhs => rw [← map_snd_enumFrom 0 s.cfg.img.fusion.refs, List.filter_map]
  rfl

/-- A kind has references when one that is configured is of that kind. -/
theorem refsOf_nonempty_iff {k : Nat} : (refsOf s k).isEmpty = false ↔ ∃ r ∈ s.cfg.img.fusion.refs, r.kind = k := by
  rw [← List.isEmpty_map (f := Prod.snd), map_snd_refsOf, List.isEmpty_eq_false_iff_exists_mem]
  simp only [List.mem_filter, beq_iff_eq]

/-- The condition of the row, in the words of Table 6-13. -/
theorem kindNotValid_iff {k : Nat} {f : Fused} :
    (s.fusion.running = true ∧ (!(refsOf s k).isEmpty) = true ∧ (!f.flags.valid) = true ∧ for1s s f.sinceEl = true) ↔
      s.fusion.running = true ∧ (∃ r ∈ s.cfg.img.fusion.refs, r.kind = k) ∧ f.flags.valid = false ∧
        ∃ t0, f.sinceEl = some t0 ∧ t0 + 1000000000 ≤ elNs s := by
  rw [Bool.not_eq_true', Bool.not_eq_true', refsOf_nonempty_iff, for1s_iff]

/-- Settles O23: each row is a condition source; the first also marks its output, which no raise touches. -/
theorem fusionAndControlConditionsRaise : Obligations.FusionAndControlConditionsRaise := by
  intro dt b s u f lim k mark marked lost stands hs
  have hu : u.st ≠ .off := hs
  have hdr := drLimit_eq b u
  obtain ⟨hlost, hlost'⟩ := raises_iff (c := .kindNotValidFault dt b) (s := s) (u := u) rfl hu (kindNotValid_iff (s := u) (f := k))
  obtain ⟨hstands, hstands'⟩ := raises_iff (c := .controlPersistFault dt b) (s := s) (u := u) rfl hu for1s_iff
  refine ⟨fun v hv => ⟨fun hrun hinvalid hlim => ?beyond, fun hlim => ?within⟩, fun hnot => ?valid, hlost, hlost', hstands, hstands'⟩
  case beyond =>
    have hns : lim < drNs f u.fusion.tov := by rw [drNs_of_lastValid hinvalid hv]; omega
    exact raises_markDrLimit rfl (hdr.trans (if_pos ⟨hrun, hinvalid, hns⟩)) hu
  case within =>
    refine gives_of_settle rfl (hdr.trans (if_neg ?_))
    rintro ⟨-, hinvalid, hns⟩
    rw [drNs_of_lastValid hinvalid hv] at hns
    change lim < _ at hns
    omega
  case valid =>
    refine gives_of_settle rfl (hdr.trans (if_neg ?_))
    rintro ⟨hrun, hinvalid, -⟩
    rcases hnot with h | h
    · exact Bool.false_ne_true (h.symm.trans hrun)
    · exact Bool.false_ne_true (hinvalid.symm.trans h)

end Sys2Proof.Machine
end

section
/-! PROPERTY. SKEW_RELEARN, AWAIT_TIMEOUT, BLEND_END, MOVE_AT_REST and PUSH_RAMP_END (06_fusion R172, R180; 07_observer_control R208;
08_setpoints R216, R223, R231; notes/assumptions/25.md). -/

namespace Sys2Proof.Machine

open Sys2Proof.Safety

variable {s : State}

/-! ### References and blends -/

theorem skewRelearn_rest {i : Nat} (h : s.fusion.running = true ∧ i < s.fusion.refs.length ∧ (nth {} s.fusion.refs i).skew = true ∧
      (nth {} s.fusion.refs i).skewEl + 60000000000 ≤ elNs s) :
    rest (skewRelearn i s) = rest { s with fusion := { s.fusion with refs := upd forgetSkew s.fusion.refs i } } := by
  rw [skewRelearn, if_pos h, event_rest, event_rest]

/-- After the last frame of a blend its target is the current region (07 R208). -/
theorem blendEnd_of_done {tgt n : Nat} (htov : s.obs.tov ≤ s.frame.tic) (hblend : s.obs.blend = some (tgt, n)) (hn : s.cfg.img.gains.blendFrames ≤ n) :
    blendEnd s = { s with obs := { s.obs with region := tgt, blend := none } } := by
  simp only [blendEnd, if_pos htov, endBlend, hblend, if_pos hn]
  rfl

theorem blendEnd_not (h : ¬(s.obs.tov ≤ s.frame.tic ∧ ∃ g j, s.obs.blend = some (g, j) ∧ s.cfg.img.gains.blendFrames ≤ j)) : blendEnd s = s := by
  unfold blendEnd
  split
  case isFalse => rfl
  case isTrue htov =>
    unfold endBlend
    split
    case h_1 g j hblend => exact if_neg fun hj => h ⟨htov, g, j, hblend, hj⟩
    case h_2 => rfl

/-! ### P2 of an ACTIVE or TRIPPED frame -/

theorem dpRuns_not_ready_iff : (dpRuns s = true ∧ s.st ≠ .ready) ↔ (s.st = .active ∨ s.st = .tripped) ∧ s.fusion.running = true := by
  cases hst : s.st <;> simp [dpRuns, onDuty, hst]

/-- Steps that the frame has committed do not run again (07 R186). -/
theorem p2Upto_committed {n : Nat} (h : n ≤ s.obs.steps) : p2Upto n s = s :=
  List.foldl_fixed' (fun k => if_neg (fun hk : s.obs.steps < k ∧ k ≤ n => by omega)) _

/-! ### A move at rest -/

/-- The set-point where a move stands at an instant, without the move and the pending target. -/
def restSp (m : Move) (t : Nat) (s : State) : SpSt :=
  { s.sp with n := (moveAt m t s.nFree).1, e := (moveAt m t s.nFree).2.1, psi := (moveAt m t s.nFree).2.2.1, move := none, pending := none }

/-- The move from where `m` stands at an instant to a target. -/
def moveOn (m : Move) (tg : Target) (t : Nat) (s : State) : Move :=
  planMove s (moveAt m t s.nFree).1 (moveAt m t s.nFree).2.1 (moveAt m t s.nFree).2.2.1 tg t

/-- A move planned reads the configuration alone. -/
theorem planMove_congr {u : State} (h : u.cfg = s.cfg) (pn pe : Int) (psi : Nat) (tg : Target) (t : Nat) :
    planMove u pn pe psi tg t = planMove s pn pe psi tg t := by
  have hblocks : reqBlocks u tg = reqBlocks s tg := by simp only [reqBlocks, h]
  simp only [planMove, hblocks]

/-- A profile that has ended stands exactly on its target in each part that ran to its own end (08 R219). -/
theorem restSp_on_target {m : Move} {t : Nat} (h : restAt m t = true) :
    (m.trans.kind = 1 → (restSp m t s).n = m.tgtN * 65536 ∧ (restSp m t s).e = m.tgtE * 65536) ∧
      (m.head.kind = 1 → (restSp m t s).psi = m.tgtHdg) := by
  obtain ⟨htrans, hhead⟩ : (profAt m.trans t).ended = true ∧ (profAt m.head t).ended = true := by
    simpa only [restAt, Bool.and_eq_true] using h
  constructor <;> intro hk <;> simp [restSp, moveAt, hk, htrans, hhead]

section
variable {m : Move} {tg : Target} {t : Nat} (hmove : s.sp.move = some m) (hrest : restAt m t = true)
include hmove hrest

theorem moveRest_obs : (moveRest t s).obs = s.obs := by
  simp only [moveRest, hmove, hrest, if_true]
  split
  · simp
  · split <;> simp [beginMove]

/-- Without a pending target the set-point stays where the move has ended. -/
theorem moveRest_sp (hpend : s.sp.pending = none) : (moveRest t s).sp = restSp m t s := by
  simp [moveRest, hmove, hrest, hpend, restSp]

/-- A pending target starts from where the move has ended, unless nothing of it moves (08 R223). -/
theorem moveRest_sp_pending (hpend : s.sp.pending = some tg) :
    (moveRest t s).sp = { restSp m t s with move := if (moveOn m tg t s).absent then none else some (moveOn m tg t s) } := by
  have hplan : ∀ {u : State}, u.cfg = s.cfg → planMove u (moveAt m t s.nFree).1 (moveAt m t s.nFree).2.1 (moveAt m t s.nFree).2.2.1 tg t =
      moveOn m tg t s := fun h => planMove_congr h _ _ _ _ _
  simp only [moveRest, hmove, hrest, hpend, if_true]
  rw [hplan (by simp)]
  split <;> simp [beginMove, restSp]

end

/-- MOVE_AT_REST acts in P2 while step 4 stands out and the move is at rest (notes/assumptions/25.md). -/
theorem moveAtRest_eq_moveRest {m : Move} (hphase : s.frame.phase = 2) (hruns : dpRuns s = true ∧ s.st ≠ .ready) (hsteps : s.obs.steps = 3)
    (hmove : s.sp.move = some m) (hrest : restAt m s.frame.nextTick = true) : moveAtRest s = moveRest s.frame.nextTick s := by
  have hp2 : s.frame.phase = 2 ∧ dpRuns s = true ∧ s.st ≠ .ready ∧ s.obs.steps < 4 := ⟨hphase, hruns.1, hruns.2, by omega⟩
  rw [moveAtRest, if_pos hp2, p2Upto_committed hsteps.ge]
  simp only [hmove, hrest, if_true]

theorem moveAtRest_not (h : ¬((s.frame.phase = 2 ∧ (s.st = .active ∨ s.st = .tripped) ∧ s.fusion.running = true ∧ s.obs.steps < 4) ∧
    ∃ x, s.sp.move = some x ∧ restAt x s.frame.nextTick = true)) : moveAtRest s = s := by
  unfold moveAtRest
  split
  case isFalse => rfl
  case isTrue hp2 =>
    obtain ⟨hphase, hdp, hready, hsteps⟩ := hp2
    obtain ⟨hst, hrun⟩ := dpRuns_not_ready_iff.mp ⟨hdp, hready⟩
    split
    case h_1 m hmove => exact if_neg fun hrest => h ⟨⟨hphase, hst, hrun, hsteps⟩, m, hmove, hrest⟩
    case h_2 => rfl

/-! ### The end of a push ramp -/

/-- A push whose newly FREE axes hold the bias of the state in Z (08 R230). -/
def latchedPush (s : State) : Push :=
  { s.sp.push with
    z := (List.range 3).map (fun j => if nth false s.sp.push.latch j then nth 0 (bodyBias s) j else nth 0 s.sp.push.z j)
    latch := [false, false, false], announce := false }

/-- Latching writes the push alone, but for its event. -/
theorem pushLatch_rest (s : State) : rest (pushLatch s) = rest { s with sp := { s.sp with push := latchedPush s } } := by
  dsimp only [pushLatch]
  split
  · exact event_rest _ _ _
  · rfl

theorem pushLatch_sp (s : State) : (pushLatch s).sp = { s.sp with push := latchedPush s } := congrArg State.sp (pushLatch_rest s)

theorem pushLatch_obs (s : State) : (pushLatch s).obs = s.obs := by
  have h := congrArg State.obs (pushLatch_rest s)
  exact h

theorem pushRampEnd_obs (t : Nat) (s : State) : (pushRampEnd t s).obs = s.obs := by
  dsimp only [pushRampEnd]
  split <;> rfl

theorem pushRampEnd_move (t : Nat) (s : State) : (pushRampEnd t s).sp.move = s.sp.move := by
  dsimp only [pushRampEnd]
  split <;> rfl

/-- The ramp's end: a release ends the push, else the bits to be cleared drop (08 R231). -/
theorem pushRampEnd_push {t : Nat} (hramp : s.sp.push.ramping = true) (ht : s.sp.push.t1 ≤ t) : (pushRampEnd t s).sp.push =
    if s.sp.push.release then {} else { s.sp.push with
      ramping := false, free := List.zipWith (fun f c => f && !c) s.sp.push.free s.sp.push.clearing, clearing := [false, false, false] } := by
  simp only [pushRampEnd, if_pos (And.intro hramp ht)]
  rfl

/-- PUSH_RAMP_END acts in P2 while step 4 stands out and the ramp is over (notes/assumptions/25.md). -/
theorem pushRampRow_eq (hphase : s.frame.phase = 2) (hruns : dpRuns s = true ∧ s.st ≠ .ready) (hsteps : s.obs.steps = 3)
    (hramp : s.sp.push.ramping = true) (ht : s.sp.push.t1 ≤ s.frame.nextTick) :
    pushRampRow s = pushRampEnd s.frame.nextTick (pushLatch s) := by
  rw [pushRampRow, if_pos ⟨hphase, hruns.1, hruns.2, by omega, hramp, ht⟩, p2Upto_committed hsteps.ge]

theorem pushRampRow_not (h : ¬((s.frame.phase = 2 ∧ (s.st = .active ∨ s.st = .tripped) ∧ s.fusion.running = true ∧ s.obs.steps < 4) ∧
    s.sp.push.ramping = true ∧ s.sp.push.t1 ≤ s.frame.nextTick)) : pushRampRow s = s := by
  refine if_neg ?_
  rintro ⟨hphase, hdp, hready, hsteps, hramp⟩
  obtain ⟨hst, hrun⟩ := dpRuns_not_ready_iff.mp ⟨hdp, hready⟩
  exact h ⟨⟨hphase, hst, hrun, hsteps⟩, hramp⟩

/-- Settles O42: each row acts where its condition holds and else lets time pass; the last two act on what stands after step 3. -/
theorem stagesEndWhatHasRunOut : Obligations.StagesEndWhatHasRunOut := by
  intro dt i tgt n m tg s u f te p relearn waited blended p2 resting ramped onTarget next
  refine ⟨fun h => givesRest_of_settle rfl (skewRelearn_rest h), fun h => gives_of_settle rfl (if_neg h),
    fun h => gives_of_settle rfl (if_pos h), fun h => gives_of_settle rfl (if_neg h), fun h hblend => gives_of_settle rfl ?blend,
    fun h => gives_of_settle rfl (blendEnd_not h), fun h hsteps hmove => ?move, fun h => gives_of_settle rfl (moveAtRest_not h),
    fun h hsteps => ?ramp, fun h => gives_of_settle rfl (pushRampRow_not h)⟩
  case blend =>
    obtain ⟨htov, g, j, hgj, hj⟩ := h
    obtain ⟨rfl, rfl⟩ := Prod.mk.inj (Option.some.inj (hgj.symm.trans hblend))
    exact blendEnd_of_done htov hblend hj
  case move =>
    obtain ⟨⟨hphase, hst, hrun, -⟩, x, hx, hrest⟩ := h
    obtain rfl : x = m := Option.some.inj (hx.symm.trans hmove)
    have hrow : moveAtRest u = moveRest te u := moveAtRest_eq_moveRest hphase (dpRuns_not_ready_iff.mpr ⟨hst, hrun⟩) hsteps hmove hrest
    refine ⟨fun hpend => ⟨settle (moveAtRest u), rfl, ?_⟩, fun hpend => ⟨settle (moveAtRest u), rfl, ?_⟩⟩
    · simp only [onTarget, settle_sp, settle_obs, hrow, moveRest_obs hmove hrest, moveRest_sp hmove hrest hpend]
      exact ⟨rfl, rfl, restSp_on_target hrest, rfl, trivial⟩
    · simp only [onTarget, settle_sp, hrow, moveRest_sp_pending hmove hrest hpend]
      exact ⟨rfl, restSp_on_target hrest, rfl⟩
  case ramp =>
    obtain ⟨⟨hphase, hst, hrun, -⟩, hramp, ht1⟩ := h
    have hrow : pushRampRow u = pushRampEnd te (pushLatch u) := pushRampRow_eq hphase (dpRuns_not_ready_iff.mpr ⟨hst, hrun⟩) hsteps hramp ht1
    have hpush : (pushRampEnd te (pushLatch u)).sp.push = if p.release then {} else { latchedPush u with
        ramping := false, free := List.zipWith (fun f c => f && !c) p.free p.clearing, clearing := [false, false, false] } := by
      rw [pushRampEnd_push (by rw [pushLatch_sp]; exact hramp) (by rw [pushLatch_sp]; exact ht1), pushLatch_sp]
      rfl
    refine ⟨_, rfl, ?_⟩
    rw [settle_obs, settle_sp, hrow, pushRampEnd_move, pushRampEnd_obs, pushLatch_sp, pushLatch_obs, hpush]
    exact ⟨rfl, rfl, fun hrel => by simp [hrel], fun hrel => by simp [hrel, latchedPush, p]⟩

end Sys2Proof.Machine
end

section
/-! PROPERTY. A frame-bound command on its turn: the request applied in P0, its response held for P5, and the effect that stands after it
(02_mailbox R67, R68). -/

namespace Sys2Proof.Machine

open Sys2Proof.Safety

/-! ### The due requests -/

theorem mem_insertBy {α : Type} {lt : α → α → Bool} {x y : α} {ys : List α} : x ∈ insertBy lt y ys ↔ x = y ∨ x ∈ ys := by
  induction ys with
  | nil => simp [insertBy]
  | cons z zs ih =>
    unfold insertBy
    split
    · exact List.mem_cons
    · simp only [List.mem_cons, ih]
      exact or_left_comm

theorem mem_sortBy {α : Type} {lt : α → α → Bool} {x : α} {xs : List α} : x ∈ sortBy lt xs ↔ x ∈ xs := by
  induction xs with
  | nil => rfl
  | cons y ys ih => rw [sortBy, mem_insertBy, ih, List.mem_cons]

section
variable {u v t : State} {m word : Nat} {r : Request} {q : List Request} {c : Instr} {s : State} {p : Bytes}

/-- A due request has been accepted for a frame and waits for its answer (R67). -/
theorem accepted_of_mem_due (h : r ∈ dueRequests u) : r.answer.isNone = true ∧ r.applyTic.isSome = true := by
  obtain ⟨k, -, hk⟩ := List.mem_flatMap.mp (mem_sortBy.mp h)
  obtain ⟨hopen, htic⟩ : r.answer.isNone = true ∧ _ := by simpa only [Bool.and_eq_true] using (List.mem_filter.mp hk).2
  refine ⟨hopen, ?_⟩
  cases happly : r.applyTic with
  | none => rw [happly] at htic; cases htic
  | some x => rfl

/-- On its turn in P0 the row applies its request (R68). -/
theorem boundRow_turn (h : BoundTurn u m word r q) : boundRow word m u = applyRequest r u := by
  simp only [boundRow, h.phase, h.due]
  exact if_pos ⟨h.cmd, h.mbox, h.duty⟩

/-! ### The response held -/

/-- Answering the first of the requests that pass a test answers one of them, if any passes. -/
theorem exists_answered {f : Request → Bool} {msg : Bytes} (hr : f r = true) : ∀ {xs : List Request}, r ∈ xs →
    ∃ x ∈ answerFirst f (fun y => { y with answer := some msg }) xs, x.answer = some msg
  | y :: ys, hmem => by
    unfold answerFirst
    split
    case isTrue => exact ⟨_, List.mem_cons_self, rfl⟩
    case isFalse hy =>
      obtain rfl | hys := List.mem_cons.mp hmem
      · exact absurd hr hy
      · obtain ⟨x, hx, hans⟩ := exists_answered hr hys
        exact ⟨x, List.mem_cons_of_mem _ hx, hans⟩

/-- An effect that leaves the mailboxes alone leaves the applied request in its queue, where it takes the response (R67). -/
theorem storeAnswer_holds (h : BoundTurn u m word r q) (hmb : t.mb = u.mb) (msg : Bytes) :
    ∃ x ∈ (boxOf (storeAnswer r msg t) m).queue, x.answer = some msg := by
  obtain ⟨hopen, htic⟩ := accepted_of_mem_due (h.due ▸ List.mem_cons_self : r ∈ dueRequests u)
  have hbox : boxOf t r.mbox = boxOf u m := by rw [boxOf, boxOf, hmb, h.mbox]
  have hlen : m < t.mb.boxes.length := hmb ▸ h.box
  rw [storeAnswer, h.mbox, boxOf_setBox _ hlen, ← h.mbox, hbox]
  exact exists_answered (by simp [hopen, htic]) h.queued

/-! ### Accepted and refused -/

/-- A reply accepts: it gives the payload and a state that is `v` but for what recording an event may touch. -/
def Accepts (reply : Reply) (v : State) (p : Bytes) : Prop := ∃ t, reply = .ok t p ∧ rest t = rest v

/-- A frame-bound command whose effect is accepted is applied, and its mailbox holds the response map (R67). -/
theorem held_of_accepts {reply : Reply} (hc : exec c s = .next (settle (boundRow word m u))) (h : BoundTurn u m word r q) (heff : boundEffect r u = reply)
    (hreply : Accepts reply v p) (hmb : v.mb = u.mb) : ∃ t, exec c s = .next t ∧ quiet (rest t) = quiet (rest v) ∧
      ∃ x ∈ (boxOf t m).queue, x.answer = some (respond r p none) := by
  obtain ⟨t, rfl, hrest⟩ := hreply
  have hmb' : t.mb = u.mb := (congrArg State.mb hrest :).trans hmb
  have hrow : boundRow word m u = storeAnswer r (respond r p none) t := by rw [boundRow_turn h, applyRequest, heff]
  refine ⟨_, hc, ?_, ?_⟩
  · rw [settle_rest, hrow]
    exact (congrArg quiet hrest :)
  · rw [boxOf_settle, hrow]
    exact storeAnswer_holds h hmb' _

theorem applied_of_accepts {reply : Reply} (hc : exec c s = .next (settle (boundRow word m u))) (h : BoundTurn u m word r q)
    (heff : boundEffect r u = reply) (hreply : Accepts reply v p) (hmb : v.mb = u.mb) : Applied c s m (respond r p none) v := by
  obtain ⟨t, ht, hstate, hheld⟩ := held_of_accepts hc h heff hreply hmb
  exact ⟨t, ht, hheld, hstate⟩

/-- … and leaves the set-point that the effect left. -/
theorem sp_of_accepts {reply : Reply} (hc : exec c s = .next (settle (boundRow word m u))) (h : BoundTurn u m word r q) (heff : boundEffect r u = reply)
    (hreply : Accepts reply v p) (hmb : v.mb = u.mb) : ∃ t, exec c s = .next t ∧ t.sp = v.sp := by
  obtain ⟨t, ht, hstate, -⟩ := held_of_accepts hc h heff hreply hmb
  exact ⟨t, ht, (congrArg State.sp hstate :)⟩

/-- A frame-bound command whose effect is refused is applied with the refusal and changes nothing else (R53). -/
theorem applied_of_refuses (hc : exec c s = .next (settle (boundRow word m u))) (h : BoundTurn u m word r q) {e : Err}
    (heff : boundEffect r u = .refuse e) : Applied c s m (respond r [] (some e)) u := by
  have hrow : boundRow word m u = storeAnswer r (respond r [] (some e)) u := by rw [boundRow_turn h, applyRequest, heff]
  refine ⟨_, hc, ?_, ?_⟩
  · rw [boxOf_settle, hrow]
    exact storeAnswer_holds h rfl _
  · rw [settle_rest, hrow]
    rfl

end

end Sys2Proof.Machine
end

section
/-! PROPERTY. TARGET.SET, TARGET.STOP and PUSH.SET (08_setpoints R215, R220 to R231; notes/assumptions/25.md). -/

namespace Sys2Proof.Machine

open Sys2Proof.Safety

variable {u : State} {r : Request}

/-- Event 0x0803 of a limited request, where it is one, is recorded beside the effect (R224, R229). -/
theorem limitEvent_rest (l : Bool) (s : State) : rest (if l = true then event 0x0803 [] s else s) = rest s := by
  split
  · exact event_rest _ _ _
  · rfl

/-! ### Which command acts -/

section
variable (hrun : u.st = .active ∨ u.st = .tripped)
include hrun

theorem boundEffect_targetSet (hcmd : r.cmd = wTargetSet) : boundEffect r u = cmdTargetSet r u := by
  simp only [boundEffect, if_pos hcmd, decide_eq_true hrun, if_true]

theorem boundEffect_pushSet (hcmd : r.cmd = wPushSet) : boundEffect r u = cmdPushSet r u := by
  have hset : r.cmd ≠ wTargetSet := hcmd ▸ by decide
  simp only [boundEffect, if_neg hset, if_pos hcmd, decide_eq_true hrun, if_true]

end

/-- READY takes neither target nor push (R215). -/
theorem boundEffect_ready (hcmd : r.cmd = wTargetSet ∨ r.cmd = wPushSet) (hst : u.st = .ready) :
    boundEffect r u = .refuse { code := 0x0008, detail := 4 } := by
  rcases hcmd with hcmd | hcmd <;> simp [boundEffect, hcmd, hst, errState, stateCode]

theorem boundEffect_targetStop (hcmd : r.cmd = wTargetStop) : boundEffect r u = cmdTargetStop r u := by
  have hset : r.cmd ≠ wTargetSet := hcmd ▸ by decide
  have hpush : r.cmd ≠ wPushSet := hcmd ▸ by decide
  simp only [boundEffect, if_neg hset, if_neg hpush, if_pos hcmd]

/-! ### TARGET.SET -/

/-- A target beyond MAX_MOVE_MM of the set-point last evaluated (R227). -/
def TooFar (u : State) (tg : Target) : Prop :=
  tg.tflags.testBit 1 = false ∧ ((u.cfg.img.profile.maxMoveMm * 65536 : Nat) : Int) ^ 2 <
    (tg.n * 65536 - u.sp.n) * (tg.n * 65536 - u.sp.n) + (tg.e * 65536 - u.sp.e) * (tg.e * 65536 - u.sp.e)

/-- The model squares the limit as a natural number. -/
theorem tooFar_iff (u : State) (tg : Target) : TooFar u tg ↔ tg.tflags.testBit 1 = false ∧
    ((u.cfg.img.profile.maxMoveMm * 65536 * (u.cfg.img.profile.maxMoveMm * 65536) : Nat) : Int) <
      (tg.n * 65536 - u.sp.n) * (tg.n * 65536 - u.sp.n) + (tg.e * 65536 - u.sp.e) * (tg.e * 65536 - u.sp.e) := by
  rw [TooFar, sq, ← Nat.cast_mul]

theorem cmdTargetSet_far (h : TooFar u (targetOf r.payload)) : cmdTargetSet r u = .refuse (errRange 0) :=
  if_pos ((tooFar_iff u _).mp h)

/-- A move as a waiting target makes it go on: braking, unless it brakes or stops already (R221). -/
def brakedMove (old : Move) (t : Nat) : Move :=
  if old.stopping = true ∨ old.braking = true then old
  else { old with trans := brakeProfile t old.trans, head := brakeProfile t old.head, braking := true }

/-- D_B of R222 as BRAKE_MM gives it: what the translation still runs from an instant. -/
def brakeMm (m : Move) (t : Nat) : Nat := mmOf (Frac.max Frac.zero (Frac.sub (endDist m.trans) (profAt m.trans t).s))

section
variable (hnear : ¬TooFar u (targetOf r.payload)) (hsel : (targetOf r.payload).sel < u.cfg.img.profile.sets.length)
include hnear hsel

theorem cmdTargetSet_push (hpush : u.sp.push.inForce = true) : cmdTargetSet r u = .refuse errBusy := by
  simp only [cmdTargetSet, if_neg (mt (tooFar_iff u _).mpr hnear), if_neg (Nat.not_le.mpr hsel), if_pos hpush]

variable (hpush : u.sp.push.inForce = false)
include hpush

/-- At rest, a target that moves nothing has DISPOSITION 3 (R220). -/
theorem cmdTargetSet_absent (hmove : u.sp.move = none)
    (habs : (planMove u u.sp.n u.sp.e u.sp.psi (targetOf r.payload) u.frame.nextTick).absent = true) :
    Accepts (cmdTargetSet r u) u (targetSetResp u 3 (reqBlocks u (targetOf r.payload)).2.2 0 0) := by
  simp only [cmdTargetSet, if_neg (mt (tooFar_iff u _).mpr hnear), if_neg (Nat.not_le.mpr hsel), hpush, Bool.false_eq_true, if_false, hmove, habs,
    if_true]
  exact ⟨_, rfl, limitEvent_rest _ _⟩

/-- At rest, a target that moves something starts its move (R220). -/
theorem cmdTargetSet_starts {mv : Move} (hmove : u.sp.move = none)
    (hmv : planMove u u.sp.n u.sp.e u.sp.psi (targetOf r.payload) u.frame.nextTick = mv) (habs : mv.absent = false) :
    Accepts (cmdTargetSet r u) { u with sp := { u.sp with move := some mv } }
      (targetSetResp u 0 (reqBlocks u (targetOf r.payload)).2.2 0 (msOf (moveLeft mv u.frame.nextTick))) := by
  simp only [cmdTargetSet, if_neg (mt (tooFar_iff u _).mpr hnear), if_neg (Nat.not_le.mpr hsel), hpush, Bool.false_eq_true, if_false, hmove, hmv, habs]
  exact ⟨_, rfl, (limitEvent_rest _ _).trans (event_rest _ _ _)⟩

/-- While a move runs the target waits, and the move brakes (R220, R221). -/
theorem cmdTargetSet_waits {old : Move} (hmove : u.sp.move = some old) :
    Accepts (cmdTargetSet r u) { u with sp := { u.sp with move := some (brakedMove old u.frame.nextTick), pending := some (targetOf r.payload) } }
      (targetSetResp u (if u.sp.pending.isSome = true then 2 else 1) (reqBlocks u (targetOf r.payload)).2.2
        (brakeMm (brakedMove old u.frame.nextTick) u.frame.nextTick)
        (pendingEta u (brakedMove old u.frame.nextTick) (targetOf r.payload) u.frame.nextTick)) := by
  simp only [cmdTargetSet, if_neg (mt (tooFar_iff u _).mpr hnear), if_neg (Nat.not_le.mpr hsel), hpush, Bool.false_eq_true, if_false, hmove]
  exact ⟨_, rfl, (limitEvent_rest _ _).trans (event_rest _ _ _)⟩

end

/-- Settles O18: refused in READY, beyond the limit and under a push; else by whether a move runs and whether the target moves anything. -/
theorem targetSetStartsOrWaits : Obligations.TargetSetStartsOrWaits := by
  intro dt m s r q u tg te dn de far mv lim hturn
  refine ⟨fun hst => applied_of_refuses rfl hturn (boundEffect_ready (.inl hturn.cmd) hst), fun hrun => ?_⟩
  have heff : boundEffect r u = cmdTargetSet r u := boundEffect_targetSet hrun hturn.cmd
  refine ⟨fun hfar => applied_of_refuses rfl hturn (heff.trans (cmdTargetSet_far hfar)),
    fun hnear hsel hpush => applied_of_refuses rfl hturn (heff.trans (cmdTargetSet_push hnear hsel hpush)),
    fun hnear hsel hpush hrest => ⟨fun habs => ?_, fun hmoves => ?_⟩, fun old hnear hsel hpush hmove => ?_⟩
  · exact held_of_accepts rfl hturn heff (cmdTargetSet_absent hnear hsel hpush hrest habs) rfl
  · exact held_of_accepts rfl hturn heff (cmdTargetSet_starts hnear hsel hpush hrest rfl hmoves) rfl
  · exact held_of_accepts rfl hturn heff (cmdTargetSet_waits hnear hsel hpush hmove) rfl

/-! ### TARGET.STOP -/

/-- A profile that runs or brakes decelerates at STOP_DEC from where it stands (R225). -/
theorem stopProfile_running {t : Nat} {p : ProfRun} (hkind : p.kind = 1 ∨ p.kind = 2) (hon : (profAt p t).ended = false) :
    stopProfile t p = { p with kind := 3, s0 := (profAt p t).s, v0 := (profAt p t).v, tBrake := t } := by
  refine if_neg ?_
  rintro (h | h | h)
  · omega
  · omega
  · exact Bool.false_ne_true (hon.symm.trans h)

/-- One absent, stopping or ended stays as it is (R225). -/
theorem stopProfile_idle {t : Nat} {p : ProfRun} (h : p.kind = 0 ∨ p.kind = 3 ∨ (profAt p t).ended = true) : stopProfile t p = p := if_pos h

/-- A move whose two profiles stop. -/
def stoppedMove (old : Move) (t : Nat) : Move :=
  { old with trans := stopProfile t old.trans, head := stopProfile t old.head, stopping := true }

theorem cmdTargetStop_rest (hmove : u.sp.move = none) :
    Accepts (cmdTargetStop r u) { u with sp := { u.sp with pending := none } } (u64 u.frame.index ++ u32 0 ++ u32 0) := by
  simp only [cmdTargetStop, hmove]
  exact ⟨_, rfl, (event_rest _ _ _).trans (by simp only [setSp, hmove])⟩

theorem cmdTargetStop_move {old : Move} (hmove : u.sp.move = some old) :
    Accepts (cmdTargetStop r u) { u with sp := { u.sp with move := some (stoppedMove old u.frame.nextTick), pending := none } }
      (u64 u.frame.index ++ u32 (mmOf (Frac.div (sqF (profAt old.trans u.frame.nextTick).v) (Frac.ofNat (2 * old.trans.blk.stopDec)))) ++
        u32 (msOf (moveLeft (stoppedMove old u.frame.nextTick) u.frame.nextTick))) := by
  simp only [cmdTargetStop, hmove]
  exact ⟨_, rfl, event_rest _ _ _⟩

/-- Settles O19: by whether there is a move, and for each of its profiles by what it does at the evaluation instant. -/
theorem targetStopBrakesBothProfiles : Obligations.TargetStopBrakesBothProfiles := by
  intro dt m s r q u te stopped hturn
  have heff : boundEffect r u = cmdTargetStop r u := boundEffect_targetStop hturn.cmd
  have hstopped : ∀ p, stopped p (stopProfile te p) := fun _ => ⟨stopProfile_running, stopProfile_idle⟩
  refine ⟨fun hmove => ?_, fun old hmove => ?_⟩
  · exact held_of_accepts rfl hturn heff (cmdTargetStop_rest hmove) rfl
  · obtain ⟨t, ht, hstate, hheld⟩ := held_of_accepts (c := .targetStop dt m) rfl hturn heff (cmdTargetStop_move hmove) rfl
    exact ⟨t, stoppedMove old te, ht, hstate, hstopped _, hstopped _, rfl, rfl, rfl, rfl, hheld⟩

/-! ### PUSH.SET -/

/-- The forces that a request asks for, and its FREE bits. -/
def askedForces (r : Request) : List Int := [fldI r.payload 0 4, fldI r.payload 4 4, fldI r.payload 8 4]
def askedFree (r : Request) : List Bool := [(byteAt r.payload 12).testBit 0, (byteAt r.payload 12).testBit 1, (byteAt r.payload 12).testBit 2]

/-- A request of zeros alone, which releases the push (R231). -/
def asksRelease (r : Request) : Bool := decide (byteAt r.payload 12 = 0) && (askedForces r).all (· == 0)

theorem asksRelease_iff (r : Request) : asksRelease r = true ↔ byteAt r.payload 12 = 0 ∧ askedForces r = [0, 0, 0] := by
  simp [asksRelease, askedForces]

/-- The ramp asked for in ms: PUSH_RAMP_MS for 0, at least PUSH_RAMP_MIN_MS (R229). -/
theorem rampOf_eq (s : State) (n : Nat) : rampOf s n =
    (if n = 0 then s.cfg.img.profile.pushRampMs else Nat.max n s.cfg.img.profile.pushRampMinMs,
      decide (n ≠ 0) && decide (n < s.cfg.img.profile.pushRampMinMs)) := by
  dsimp only [rampOf]
  split
  case isTrue h => simp [h]
  case isFalse h =>
    split
    case isTrue hlow => simp [h, hlow, Nat.max_eq_right hlow.le]
    case isFalse hhigh => simp [h, hhigh, Nat.max_eq_left (Nat.not_lt.mp hhigh)]

/-- The push of an accepted request: a ramp from the present value, counted from the evaluation instant (R229 to R231). -/
def askedPush (u : State) (r : Request) : Push :=
  let old := u.sp.push
  { inForce := true
    from_ := if old.inForce then pushLin old u.frame.nextTick else [Frac.zero, Frac.zero, Frac.zero]
    to_ := askedForces r, t0 := u.frame.nextTick, t1 := u.frame.nextTick + (rampOf u (fld r.payload 14 2)).1 * 1000000
    free := List.zipWith (· || ·) old.free (askedFree r), clearing := List.zipWith (fun f x => f && !x) old.free (askedFree r)
    latch := List.zipWith (fun (x : Bool × Bool) k => k || (x.2 && !x.1)) (List.zip old.free (askedFree r)) old.latch, z := old.z
    release := asksRelease r, ramping := true, limit := (rampOf u (fld r.payload 14 2)).2, announce := true }

theorem askedPush_from_fresh (hpush : u.sp.push.inForce = false) : (askedPush u r).from_ = [Frac.zero, Frac.zero, Frac.zero] := by
  simp [askedPush, hpush]

theorem askedPush_free_fresh (hfree : u.sp.push.free = [false, false, false]) : (askedPush u r).free = askedFree r := by
  simp [askedPush, askedFree, hfree]

/-- FREE bits that a release clears stay set until its ramp ends (R231). -/
theorem askedPush_free_release (hask : asksRelease r = true) (hlen : u.sp.push.free.length = 3) : (askedPush u r).free = u.sp.push.free := by
  obtain ⟨a, b, c, habc⟩ := List.length_eq_three.mp hlen
  simp [askedPush, askedFree, ((asksRelease_iff r).mp hask).1, habc]

/-- The response map of PUSH.SET. -/
def pushResp (u : State) (r : Request) : Bytes := u64 u.frame.index ++ flag (rampOf u (fld r.payload 14 2)).2 ++ zeros 3

/-- PUSH.SET is refused, has no effect, or ramps. -/
theorem cmdPushSet_eq (r : Request) (u : State) : cmdPushSet r u =
    if (!asksRelease r) = true ∧ (u.sp.move.isSome = true ∨ u.sp.pending.isSome = true) then .refuse errBusy
    else
      let noted := fun (s : State) => if (rampOf u (fld r.payload 14 2)).2 = true then event 0x0803 [] s else s
      if asksRelease r = true ∧ u.sp.push.inForce = false then .ok (noted u) (pushResp u r)
      else .ok (noted (setSp (fun x => { x with push := askedPush u r }) u)) (pushResp u r) := rfl

theorem cmdPushSet_busy (hask : asksRelease r = false) (hmoves : u.sp.move.isSome = true ∨ u.sp.pending.isSome = true) :
    cmdPushSet r u = .refuse errBusy := by
  rw [cmdPushSet_eq, if_pos ⟨by simp [hask], hmoves⟩]

/-- A release with no push in force changes nothing (notes/assumptions/25.md). -/
theorem cmdPushSet_nothing (hask : asksRelease r = true) (hpush : u.sp.push.inForce = false) : Accepts (cmdPushSet r u) u (pushResp u r) := by
  rw [cmdPushSet_eq, if_neg (by simp [hask]), if_pos ⟨hask, hpush⟩]
  exact ⟨_, rfl, limitEvent_rest _ _⟩

/-- What is neither refused nor without effect ramps (R229, R231). -/
theorem cmdPushSet_ramps (hrest : asksRelease r = false → u.sp.move = none ∧ u.sp.pending = none)
    (hpush : asksRelease r = true → u.sp.push.inForce = true) :
    Accepts (cmdPushSet r u) { u with sp := { u.sp with push := askedPush u r } } (pushResp u r) := by
  rw [cmdPushSet_eq, if_neg, if_neg]
  · exact ⟨_, rfl, limitEvent_rest _ _⟩
  · rintro ⟨hask, hnone⟩
    exact Bool.false_ne_true (hnone.symm.trans (hpush hask))
  · rintro ⟨hask, hmoves⟩
    obtain ⟨hmove, hpend⟩ := hrest (by simpa using hask)
    simp [hmove, hpend] at hmoves

/-- Settles O20: by whether the request releases, and by what stands of move, target and push. -/
theorem pushSetRampsOrIsRefused : Obligations.PushSetRampsOrIsRefused := by
  intro dt m s r q u te f b req ms lim zero hturn
  refine ⟨fun hst => applied_of_refuses rfl hturn (boundEffect_ready (.inr hturn.cmd) hst), fun hrun => ?_⟩
  have heff : boundEffect r u = cmdPushSet r u := boundEffect_pushSet hrun hturn.cmd
  have hramp : rampOf u req = (ms, lim) := rampOf_eq u req
  have hend : (askedPush u r).t1 = te + ms * 1000000 := by
    rw [askedPush, show fld r.payload 14 2 = req from rfl, hramp]
  have hresp : pushResp u r = u64 u.frame.index ++ flag lim ++ zeros 3 := by rw [pushResp, hramp]
  have hzero : asksRelease r = true ↔ zero := asksRelease_iff r
  have hnonzero : ¬zero → asksRelease r = false := fun h => Bool.eq_false_iff.mpr (mt hzero.mp h)
  refine ⟨fun hask hmoves => ?_, fun hask hnone => ?_, fun hask hmove hpend hnone hfree => ?_, fun hask hforce => ?_⟩
  · exact applied_of_refuses rfl hturn (heff.trans (cmdPushSet_busy (hnonzero hask) hmoves))
  · exact hresp ▸ applied_of_accepts rfl hturn heff (cmdPushSet_nothing (hzero.mpr hask) hnone) rfl
  · obtain ⟨t, ht, hsp⟩ := sp_of_accepts (c := .pushSet dt m) rfl hturn heff
      (cmdPushSet_ramps (fun _ => ⟨hmove, hpend⟩) fun h => absurd (hzero.mp h) hask) rfl
    refine ⟨t, ht, ?_⟩
    rw [hsp]
    exact ⟨rfl, rfl, askedPush_from_fresh hnone, rfl, hend, askedPush_free_fresh hfree, hnonzero hask, rfl, rfl, rfl⟩
  · have hrel := hzero.mpr hask
    obtain ⟨t, ht, hsp⟩ := sp_of_accepts (c := .pushSet dt m) rfl hturn heff
      (cmdPushSet_ramps (fun h => absurd hrel (Bool.eq_false_iff.mp h)) fun _ => hforce) rfl
    refine ⟨t, ht, ?_⟩
    rw [hsp]
    exact ⟨rfl, hrel, hask.2, askedPush_free_release hrel, hend⟩

end Sys2Proof.Machine
end

section
/-! PROPERTY. SLACK_FAULT, EXCEED_FAULT, HOLD_SHIFT_FAULT, SOLVER_RUN_FAULT, CONSEQ_FAULT, COVER_AGE_FAULT and SHADOW_CUT_FAULT
(09_allocation R252, R262; 10_solver R285, R294, Table 10-8; 11_power_budget Table 11-5; 19_faults R490). -/

namespace Sys2Proof.Machine

open Sys2Proof.Safety

variable {s : State}

/-- A row whose effect is, where a condition has stood since an instant that `p` finds long enough ago, to raise its source. -/
theorem raises_since {c : Instr} {t u : State} {code : Nat} {since : Option Nat} {p : Nat → Prop} [DecidablePred p]
    (hc : exec c s = .next (settle t)) (ht : t = since.elim u fun t0 => if p t0 then faultCond code true u else u) (hu : u.st ≠ .off) :
    ((∃ t0, since = some t0 ∧ p t0) → Raises c s code u) ∧ (¬(∃ t0, since = some t0 ∧ p t0) → Gives c s u) := by
  subst ht
  cases since with
  | none => exact ⟨fun h => by simp at h, fun _ => gives_of_settle hc rfl⟩
  | some t0 => exact raises_iff (p := p t0) hc hu (by simp)

theorem slackFault_eq : slackFault s =
    s.alloc.slackEl.elim s fun t0 => if t0 + s.cfg.img.alloc.slackFaultMs * 1000000 < elNs s then faultCond 0x0910 true s else s := by
  unfold slackFault
  split
  next hsince => rw [hsince, Option.elim_some]
  next hsince => rw [hsince, Option.elim_none]

theorem conseqFault_eq : conseqFault s =
    s.solver.conseqEl.elim s fun t0 => if t0 + s.cfg.img.solver.conseqMs * 1000000 < elNs s then faultCond 0x0A12 true s else s := by
  unfold conseqFault
  split
  next hsince => rw [hsince, Option.elim_some]
  next hsince => rw [hsince, Option.elim_none]

theorem shadowCutFault_eq : shadowCutFault s =
    s.chandler.shadowCutEl.elim s fun t0 => if t0 + 10000000000 ≤ elNs s then faultCond 0x0B12 true s else s := by
  unfold shadowCutFault
  split
  next hsince => rw [hsince, Option.elim_some]
  next hsince => rw [hsince, Option.elim_none]

/-- The stages run on duty once fusion does, and a cover is too old when COVER_AGE_MS is set and passed (R294). -/
theorem coverTooOld_iff (u : State) :
    (dpRuns u = true ∧ u.cfg.img.solver.coverAgeMs ≠ 0 ∧ u.cfg.img.solver.coverAgeMs * 1000 < oldestAge u) ↔
      onDuty u.st = true ∧ u.fusion.running = true ∧ u.cfg.img.solver.coverAgeMs ≠ 0 ∧ u.cfg.img.solver.coverAgeMs * 1000 < oldestAge u := by
  rw [dpRuns, Bool.and_eq_true, and_assoc]

/-- Settles O24: each row is a condition source; three of them wait on a condition that has stood since an instant, four on what the last
frames left. -/
theorem allocationAndSolverConditionsRaise : Obligations.AllocationAndSolverConditionsRaise := by
  intro dt b s u slack exceed conseq cover cut hs
  have hu : u.st ≠ .off := hs
  obtain ⟨hslack, hslack'⟩ := raises_since (c := .slackFault dt) (s := s) rfl slackFault_eq hu
  obtain ⟨hexceed, hexceed'⟩ := raises_iff_cond (c := .exceedFault dt b) (s := s) (p := exceed) rfl hu
  obtain ⟨hhold, hhold'⟩ := raises_iff_cond (c := .holdShiftFault dt) (s := s) (p := 3 ≤ u.solver.holdRun) rfl hu
  obtain ⟨hacc, hacc'⟩ := raises_iff_cond (c := .solverRunFault dt false) (s := s) (p := 20 ≤ u.solver.accRun) rfl hu
  obtain ⟨heps, heps'⟩ := raises_iff_cond (c := .solverRunFault dt true) (s := s) (p := 20 ≤ u.solver.epsRun) rfl hu
  obtain ⟨hconseq, hconseq'⟩ := raises_since (c := .conseqFault dt) (s := s) rfl conseqFault_eq hu
  obtain ⟨hcover, hcover'⟩ := raises_iff (c := .coverAgeFault dt) (s := s) rfl hu (coverTooOld_iff u)
  obtain ⟨hcut, hcut'⟩ := raises_since (c := .shadowCutFault dt) (s := s) rfl shadowCutFault_eq hu
  exact ⟨hslack, hslack', hexceed, hexceed', hhold, fun h => hhold' (Nat.not_le_of_lt h), hacc, fun h => hacc' (Nat.not_le_of_lt h),
    heps, fun h => heps' (Nat.not_le_of_lt h), hconseq, hconseq', hcover, hcover', hcut, hcut'⟩

end Sys2Proof.Machine
end

section
/-! PROPERTY. SOLVE_COMPLETE: iterations to the end of a solve, the outcome that stands, and the array it leaves (10_solver R270, R281, R282;
notes/assumptions/4.md, 28.md). -/

namespace Sys2Proof.Machine

open Sys2Proof.Safety

variable {s : State} {a : Arr} {v : Solve} {cfg : Image.Solver}

/-! ### Iterations: each is counted, kept or discarded, and the solve stays that of its problem -/

@[simp] theorem iterate_prob (n : Nat) : (iterate cfg n v).prob = v.prob := by
  unfold iterate
  dsimp only
  split <;> rfl

@[simp] theorem iterate_iters (n : Nat) : (iterate cfg n v).iters = v.iters + 1 := by
  unfold iterate
  dsimp only
  split <;> rfl

theorem solveEnded_of_converged (h : v.cur.resid ≤ cfg.tolPrimary) : solveEnded cfg v = true := by simp [solveEnded, h]

theorem iters_lt_iterCap_of_not_solveEnded (h : solveEnded cfg v = false) : v.iters < cfg.iterCap := by
  simp only [solveEnded, Bool.or_eq_false_iff, decide_eq_false_iff_not, not_le] at h
  exact h.2

/-- A solve that has ended stands as it is. -/
theorem runSolve_of_solveEnded (h : solveEnded cfg v = true) (k n : Nat) : runSolve cfg k n v = v := by
  cases k with
  | zero => rfl
  | succ k => rw [runSolve, if_pos h]

theorem runSolve_succ_of_not_solveEnded (h : solveEnded cfg v = false) (k n : Nat) :
    runSolve cfg (k + 1) n v = runSolve cfg k (n + 1) (iterate cfg n v) := by
  rw [runSolve, if_neg (Bool.eq_false_iff.mp h)]

/-- What holds of a solve, and of each iterate of one that has not ended, holds where its iterations stop. -/
theorem runSolve_induction {p : Solve → Prop} (hstep : ∀ n v, p v → solveEnded cfg v = false → p (iterate cfg n v)) (k n : Nat) (hv : p v) :
    p (runSolve cfg k n v) := by
  induction k generalizing n v with
  | zero => exact hv
  | succ k ih =>
    cases hend : solveEnded cfg v with
    | true => exact (runSolve_of_solveEnded hend (k + 1) n).symm ▸ hv
    | false => exact (runSolve_succ_of_not_solveEnded hend k n).symm ▸ ih _ (hstep n v hv hend)

theorem runSolve_prob (k n : Nat) : (runSolve cfg k n v).prob = v.prob :=
  runSolve_induction (p := fun w => w.prob = v.prob) (fun _ _ hw _ => (iterate_prob _).trans hw) k n rfl

theorem iters_le_runSolve (k n : Nat) : v.iters ≤ (runSolve cfg k n v).iters :=
  runSolve_induction (p := fun w => v.iters ≤ w.iters) (fun _ _ hw _ => iterate_iters (cfg := cfg) _ ▸ Nat.le_succ_of_le hw) k n le_rfl

/-- Only a solve below ITER_CAP iterates (R282). -/
theorem runSolve_iters_le (k n : Nat) : (runSolve cfg k n v).iters ≤ Nat.max v.iters cfg.iterCap :=
  runSolve_induction (p := fun w => w.iters ≤ Nat.max v.iters cfg.iterCap)
    (fun n w _ hend => iterate_iters (cfg := cfg) (v := w) n ▸ (iters_lt_iterCap_of_not_solveEnded hend).trans_le (Nat.le_max_right _ _)) k n
    (Nat.le_max_left _ _)

/-! ### The outcome of a primary -/

theorem outcome_of_converged (h : v.cur.resid ≤ cfg.tolPrimary) : outcome cfg v = (some v.cur, 0) := if_pos h

/-- A solve is converged with its present iterate, accepted with its best, or has none. -/
theorem outcome_cases (cfg : Image.Solver) (v : Solve) :
    (outcome cfg v = (some v.cur, 0) ∧ v.cur.resid ≤ cfg.tolPrimary) ∨
    (outcome cfg v = (some v.best, 1) ∧ v.best.resid ≤ cfg.tolAccept) ∨ outcome cfg v = (none, 2) := by
  unfold outcome
  split
  case isTrue hconv => exact .inl ⟨rfl, hconv⟩
  case isFalse =>
    split
    case isTrue hacc => exact .inr (.inl ⟨rfl, hacc⟩)
    case isFalse => exact .inr (.inr rfl)

/-- The solver once the result of a primary has been taken. -/
def primaryTaken (cfg : Image.Solver) (v : Solve) (q : SolverSt) : SolverSt :=
  { q with
    epsPeak := Nat.max q.epsPeak v.epsPeak, solvFlags := Nat.lor q.solvFlags v.flags
    primSol := (outcome cfg v).1.map (toSolution v.prob), primResult := (outcome cfg v).2, primIters := v.iters
    primResid := (outcome cfg v).1.elim 0xFFFFFFFF Iter.resid }

/-- What a result tells of its solution and residual (R281, R282): 0 converged, 1 accepted, 2 none. -/
def ResultStands (cfg : Image.Solver) (q : SolverSt) : Prop :=
  q.primResult ≤ 2 ∧
  (q.primResult = 0 → q.primSol.isSome = true ∧ q.primResid ≤ cfg.tolPrimary) ∧
  (q.primResult = 1 → q.primSol.isSome = true ∧ q.primResid ≤ cfg.tolAccept) ∧
  (q.primResult = 2 → q.primSol = none ∧ q.primResid = 0xFFFFFFFF)

theorem primaryTaken_resultStands (q : SolverSt) : ResultStands cfg (primaryTaken cfg v q) := by
  obtain ⟨hout, hconv⟩ | ⟨hout, hacc⟩ | hout := outcome_cases cfg v
  · simpa [ResultStands, primaryTaken, hout] using hconv
  · simpa [ResultStands, primaryTaken, hout] using hacc
  · simp [ResultStands, primaryTaken, hout]

/-- A solve that has converged gives its present iterate (R281). -/
theorem primaryTaken_of_converged (h : v.cur.resid ≤ cfg.tolPrimary) (q : SolverSt) : (primaryTaken cfg v q).primResult = 0 ∧
    (primaryTaken cfg v q).primIters = v.iters ∧ (primaryTaken cfg v q).primResid = v.cur.resid := by
  simp [primaryTaken, outcome_of_converged h]

/-- The events of a solve are recorded; nothing else of the state hears of them. -/
theorem solveEvent_rest (v : Solve) (s : State) : rest (solveEvent v s) = rest s := foldl_rest s _ (fun t _ => event_rest t _ _) v.marks

@[simp] theorem solveEvent_solver (v : Solve) (s : State) : (solveEvent v s).solver = s.solver := by
  have h := congrArg State.solver (solveEvent_rest v s); exact h
@[simp] theorem solveEvent_alloc (v : Solve) (s : State) : (solveEvent v s).alloc = s.alloc := by
  have h := congrArg State.alloc (solveEvent_rest v s); exact h
@[simp] theorem solveEvent_frame_phase (v : Solve) (s : State) : (solveEvent v s).frame.phase = s.frame.phase := by
  have h := congrArg (fun t => t.frame.phase) (solveEvent_rest v s); exact h

theorem takeResult_primary (hgroup : v.prob.group = none) :
    takeResult a false v s = setSol (primaryTaken s.cfg.img.solver v) (solveEvent v s) := by
  simp only [takeResult, hgroup, Bool.false_eq_true, if_false]
  unfold primaryTaken
  obtain ⟨best, res⟩ := outcome s.cfg.img.solver v
  cases best <;> rfl

/-! ### The array and its busy time -/

@[simp] theorem onArr_settle (a : Arr) (s : State) : onArr (settle s) a = onArr s a := by simp only [onArr, settle_solver]
@[simp] theorem onArr_setArr (a : Arr) (w : Option Solve) (s : State) : onArr (setArr a w s) a = w := by cases a <;> rfl
@[simp] theorem setArr_alloc (a : Arr) (w : Option Solve) (s : State) : (setArr a w s).alloc = s.alloc := rfl
@[simp] theorem setArr_frame (a : Arr) (w : Option Solve) (s : State) : (setArr a w s).frame = s.frame := rfl
@[simp] theorem addBusy_alloc (a : Arr) (us : Nat) (s : State) : (addBusy a us s).alloc = s.alloc := rfl
@[simp] theorem addBusy_frame (a : Arr) (us : Nat) (s : State) : (addBusy a us s).frame = s.frame := rfl

theorem setArr_solver (a : Arr) (w : Option Solve) (s : State) : ∃ x y, (setArr a w s).solver = { s.solver with onA := x, onB := y } := by
  cases a
  · exact ⟨w, s.solver.onB, rfl⟩
  · exact ⟨s.solver.onA, w, rfl⟩

theorem addBusy_solver (a : Arr) (us : Nat) (s : State) : ∃ m n, (addBusy a us s).solver = { s.solver with busyA := m, busyB := n } := by
  cases a
  · exact ⟨satU 16 (s.solver.busyA + us), s.solver.busyB, rfl⟩
  · exact ⟨s.solver.busyA, satU 16 (s.solver.busyB + us), rfl⟩

/-- An array for which neither a primary nor a shadow waits is left idle (R270). -/
theorem startNext_idle (hprim : s.solver.primary = none) (hqueue : s.solver.queue = []) : startNext a s = setArr a none s := by
  simp only [startNext, hprim, hqueue, ite_self]

/-! ### The completion -/

/-- In P4 a primary is on the array and neither a primary nor a shadow waits. -/
structure LastPrimary (s : State) (a : Arr) (v : Solve) : Prop where
  phase : s.frame.phase = 4
  onArray : onArr s a = some v
  group : v.prob.group = none
  primary : s.solver.primary = none
  queue : s.solver.queue = []

/-- A solve run to its end, at ITER_CAP at the latest, with the directions that the state's free values give. -/
def solved (s : State) (v : Solve) : Solve := runSolve s.cfg.img.solver s.cfg.img.solver.iterCap s.nFree v

/-- The result of such a primary is taken, and its array is left idle. -/
theorem solveComplete_lastPrimary (h : LastPrimary s a v) (us : Nat) :
    solveComplete a us s = setArr a none (setSol (primaryTaken s.cfg.img.solver (solved s v))
      (solveEvent (solved s v) { addBusy a us s with nFree := s.nFree + 32 })) := by
  have hgroup : (solved s v).prob.group = none := by rw [solved, runSolve_prob, h.group]
  obtain ⟨_, _, hbusy⟩ := addBusy_solver a us s
  rw [solveComplete, if_pos h.phase]
  simp only [h.onArray]
  rw [← solved, takeResult_primary hgroup, startNext_idle]
  · rfl
  · simp [primaryTaken, hbusy, h.primary]
  · simp [primaryTaken, hbusy, h.queue]

/-- Beside the result only what the arrays hold and how long they were busy changes in the solver. -/
theorem solveComplete_solver (h : LastPrimary s a v) (us : Nat) : ∃ x y m n, (solveComplete a us s).solver =
    { primaryTaken s.cfg.img.solver (solved s v) s.solver with onA := x, onB := y, busyA := m, busyB := n } := by
  obtain ⟨m, n, hbusy⟩ := addBusy_solver a us s
  obtain ⟨x, y, harr⟩ := setArr_solver a none (setSol (primaryTaken s.cfg.img.solver (solved s v))
    (solveEvent (solved s v) { addBusy a us s with nFree := s.nFree + 32 }))
  exact ⟨x, y, m, n, by rw [solveComplete_lastPrimary h, harr, setSol_solver, solveEvent_solver, hbusy]; rfl⟩

/-- Outside P4, or with nothing on the array, nothing completes. -/
theorem solveComplete_nothing (h : s.frame.phase ≠ 4 ∨ onArr s a = none) (us : Nat) : solveComplete a us s = s := by
  unfold solveComplete
  split
  case isTrue hphase => rw [h.resolve_left (not_not.mpr hphase)]
  case isFalse => rfl

/-- Settles O43: the solve runs to its end, its outcome is the primary's result, and with nothing waiting its array is left idle. -/
theorem solveCompleteTakesTheResult : Obligations.SolveCompleteTakesTheResult := by
  intro dt us a v s u cfg
  refine ⟨fun hphase hon hgroup hprim hqueue => ?_, fun h => gives_of_settle rfl (solveComplete_nothing h us)⟩
  have hlast : LastPrimary u a v := ⟨hphase, hon, hgroup, hprim, hqueue⟩
  have hdone := solveComplete_lastPrimary hlast us
  obtain ⟨x, y, m, n, hsol⟩ := solveComplete_solver hlast us
  obtain ⟨hle, hconv, hacc, hnone⟩ := primaryTaken_resultStands (cfg := cfg) (v := solved u v) u.solver
  refine ⟨settle (solveComplete a us u), rfl, ?_⟩
  rw [onArr_settle, settle_solver, settle_alloc, settle_frame, hsol]
  refine ⟨?_, hle, hconv, hacc, hnone, iters_le_runSolve _ _, runSolve_iters_le _ _, fun h => ?_, rfl, ?_, ?_⟩
  · rw [hdone, onArr_setArr]
  · have hstands : solved u v = v := runSolve_of_solveEnded (solveEnded_of_converged h) _ _
    rw [hstands]
    exact primaryTaken_of_converged h u.solver
  · simp [hdone]
  · simp [hdone, hphase]

end Sys2Proof.Machine
end

section
/-! SUPPORT. What the stages around a claim, a beat and the ends of duty leave of the lock group: they record events, raise faults and switch domains, and
decide nothing of the link's own state (12_lock_group R322 to R350; 19 R494). -/

namespace Sys2Proof.Safety

open Sys2Proof.Machine

/-- What of a state the lock group decides or goes by: all of the link's state and the frame's but what a raise may touch (`rest`), the module's
state, configuration and clock, the DP request, and whether bring-up is complete and the supply stands. -/
def linkState (s : State) : State :=
  { unit := s.unit, clk := s.clk, st := s.st, cfg := s.cfg
    frame := { s.frame with emitSuppressed := false }
    lock := { s.lock with held := false, expiry := 0, release := false, seqTx := 0 }
    mb := { dpReq := s.mb.dpReq }
    bring := { complete := s.bring.complete, powerFailEl := s.bring.powerFailEl }
    ledger := { opS := s.ledger.opS } }

/-- No fault source is mapped to a direct reaction (19 Table 19-5), so that no raise surrenders the lease. -/
def Calm (s : State) : Prop := ∀ code, cfgReact s code ≤ 2

/-- What only a surrender takes: the lease with its EXPIRY, and emission. -/
def lent (s : State) : Bool × Nat × Bool := (s.lock.held, s.lock.expiry, s.frame.emitSuppressed)

/-- From `s` to `t` the link's state stands: nothing sent is taken back, the lease is not taken, an aborted claim's fault 0x0C15 lasts, and where
no source reacts directly the lease is not surrendered either. -/
structure LinkKept (s t : State) : Prop where
  link : linkState t = linkState s
  sent : s.out ⊆ t.out
  lease : t.lock.held = true → s.lock.held = true
  aborted : faultActive s 0x0C15 = true → faultActive t 0x0C15 = true
  calm : Calm s → lent t = lent s

/-- The parts of a state that `LinkKept` speaks of. -/
abbrev linkParts (s : State) : State × List Out × (Bool × Nat × Bool) × Table FaultSt := (linkState s, s.out, lent s, s.faults.src)

variable {s t v : State}

theorem LinkKept.refl (s : State) : LinkKept s s := ⟨rfl, fun _ h => h, id, id, fun _ => rfl⟩

theorem calm_of_link (e : linkState t = linkState s) (h : Calm s) : Calm t := by
  have hcfg : (linkState t).cfg = (linkState s).cfg := congrArg State.cfg e
  change t.cfg = s.cfg at hcfg
  intro code
  unfold cfgReact mapEntry
  rw [hcfg]
  exact h code

theorem lock_of_link {α : Type} {f : LockSt → α} (h : linkState t = linkState s)
    (hf : ∀ l : LockSt, f { l with held := false, expiry := 0, release := false, seqTx := 0 } = f l) : f t.lock = f s.lock := by
  have hlock : f (linkState t).lock = f (linkState s).lock := congrArg (fun x : State => f x.lock) h
  exact (hf _).symm.trans (hlock.trans (hf _))

theorem st_of_link (h : linkState t = linkState s) : t.st = s.st := by
  have hst := congrArg State.st h
  exact hst

theorem frame_of_link {α : Type} {f : FrameSt → α} (h : linkState t = linkState s) (hf : ∀ x : FrameSt, f { x with emitSuppressed := false } = f x) :
    f t.frame = f s.frame := by
  have hframe : f (linkState t).frame = f (linkState s).frame := congrArg (fun x : State => f x.frame) h
  exact (hf _).symm.trans (hframe.trans (hf _))

theorem supply_of_link (h : linkState t = linkState s) : t.bring.powerFailEl = s.bring.powerFailEl := by
  have hsupply := congrArg (fun x : State => x.bring.powerFailEl) h
  exact hsupply

theorem LinkKept.trans (h : LinkKept s t) (g : LinkKept t v) : LinkKept s v :=
  ⟨g.link.trans h.link, fun _ ho => g.sent (h.sent ho), fun hv => h.lease (g.lease hv), fun hs => g.aborted (h.aborted hs),
    fun hc => (g.calm (calm_of_link h.link hc)).trans (h.calm hc)⟩

theorem LinkKept.of_parts (h : LinkKept s t) (e : linkParts v = linkParts t) : LinkKept s v := by
  simp only [linkParts, Prod.mk.injEq] at e
  obtain ⟨hlink, hout, hlent, hsrc⟩ := e
  refine h.trans ⟨hlink, hout ▸ fun _ ho => ho, fun hv => ?_, fun ht => ?_, fun _ => hlent⟩
  · exact (congrArg Prod.fst hlent).symm.trans hv
  · unfold faultActive srcOf at ht ⊢
    rwa [hsrc]

/-- What is sent after the state `t`. -/
theorem LinkKept.of_sent (h : LinkKept s t) (hout : t.out ⊆ v.out) (e : linkState v = linkState t) (hlent : lent v = lent t)
    (hsrc : v.faults.src = t.faults.src) : LinkKept s v := by
  have hbefore : LinkKept s { v with out := t.out } := h.of_parts (by simp only [linkParts, Prod.mk.injEq]; exact ⟨e, trivial, hlent, hsrc⟩)
  exact hbefore.trans ⟨rfl, hout, id, id, fun _ => rfl⟩

theorem linkKept_ite {p : Prop} [Decidable p] (ht : LinkKept s t) (hv : LinkKept s v) : LinkKept s (if p then t else v) := by
  split
  · exact ht
  · exact hv

theorem linkKept_when {p : Prop} [Decidable p] (h : LinkKept s t) (hv : LinkKept s t → LinkKept s v) : LinkKept s (if p then v else t) :=
  linkKept_ite (hv h) h

theorem linkKept_unless {p : Prop} [Decidable p] (h : LinkKept s t) (hv : LinkKept s t → LinkKept s v) : LinkKept s (if p then t else v) :=
  linkKept_ite h (hv h)

theorem linkKept_foldl {α : Type} {f : State → α → State} {xs : List α} (hf : ∀ t, ∀ a ∈ xs, LinkKept s t → LinkKept s (f t a)) (h : LinkKept s t) :
    LinkKept s (xs.foldl f t) := by
  induction xs generalizing t with
  | nil => exact h
  | cons a r ih => exact ih (fun u b hb => hf u b (List.mem_cons_of_mem a hb)) (hf t a List.mem_cons_self h)

/-- What is decided alike on both sides leaves the link kept: a change of the link's own state that goes by the link's state alone. -/
theorem LinkKept.map {F : State → State} (h : LinkKept s t) (hlink : ∀ x, linkState (F x) = F (linkState x)) (hout : ∀ x, (F x).out = x.out)
    (hlent : ∀ x, lent (F x) = lent x) (hsrc : ∀ x, (F x).faults.src = x.faults.src) (hcfg : ∀ x, (F x).cfg = x.cfg) :
    LinkKept (F s) (F t) := by
  refine ⟨by rw [hlink, hlink, h.link], by rw [hout, hout]; exact h.sent, ?_, ?_, fun hc => ?_⟩
  · rw [show (F t).lock.held = t.lock.held from congrArg Prod.fst (hlent t), show (F s).lock.held = s.lock.held from congrArg Prod.fst (hlent s)]
    exact h.lease
  · unfold faultActive srcOf
    rw [hsrc, hsrc]
    exact h.aborted
  · rw [hlent, hlent]
    refine h.calm fun code => ?_
    have hcode := hc code
    unfold cfgReact mapEntry at hcode ⊢
    rwa [hcfg] at hcode

end Sys2Proof.Safety

namespace Sys2Proof.Machine

open Sys2Proof.Safety

variable {s t : State}

/-! ### Raises: what is sent stays sent -/

theorem recordRaw_out (r : Rec) (s : State) : (recordRaw r s).out = s.out := by unfold recordRaw; split <;> rfl

theorem assertFlt_out (c : Nat) (s : State) : (assertFlt c s).out = s.out := by unfold assertFlt; split <;> rfl

theorem releaseBetweenTicks_sent (s : State) : s.out ⊆ (releaseBetweenTicks s).out := by
  unfold releaseBetweenTicks
  split
  · exact List.subset_append_left _ _
  · exact List.Subset.refl _

theorem surrender_sent (s : State) : s.out ⊆ (surrender s).out := by
  have hbefore : (if s.lock.held then evRaw 0x0C03 (u8 0) s else s).out = s.out := by
    split
    · exact recordRaw_out _ s
    · rfl
  exact hbefore ▸ releaseBetweenTicks_sent _

theorem resetAtRaise_sent (c : Nat) (b : Block) (s : State) : s.out ⊆ (resetAtRaise c b s).out := by
  unfold resetAtRaise
  split
  · exact surrender_sent s
  · exact List.Subset.refl _

theorem foldl_sent {α : Type} {f : State → α → State} (hf : ∀ t a, t.out ⊆ (f t a).out) (xs : List α) (s : State) : s.out ⊆ (xs.foldl f s).out := by
  induction xs generalizing s with
  | nil => exact List.Subset.refl _
  | cons a r ih => exact List.Subset.trans (hf s a) (ih _)

theorem directReact_sent (c : Nat) (bs : List Block) (s : State) : s.out ⊆ (directReact c bs s).out := by
  unfold directReact
  split
  · exact foldl_sent (fun t b => resetAtRaise_sent c b t) bs s
  · split
    · exact surrender_sent s
    · exact List.Subset.refl _

theorem raiseCore_sent (c : Nat) (o : Bool) (bs : List Block) (s : State) : s.out ⊆ (raiseCore c o bs s).out := by
  unfold raiseCore
  split
  · exact List.Subset.refl _
  · refine List.Subset.trans ?_ (directReact_sent _ _ _)
    rw [assertFlt_out]
    have hrecorded : (if escalated s c then evRaw 0x1302 (u16 c ++ u8 (raiseSev s c)) (recordRaw (raiseRec s c) s)
        else recordRaw (raiseRec s c) s).out = s.out := by
      split
      · exact (recordRaw_out _ _).trans (recordRaw_out _ s)
      · exact recordRaw_out _ s
    exact hrecorded.symm ▸ List.Subset.refl _

/-! ### Raises where no source reacts directly -/

theorem directReact_calm {c : Nat} (bs : List Block) (h : cfgReact s c ≤ 2) : directReact c bs s = s := by
  unfold directReact
  rw [if_neg (by omega), if_neg (by omega)]

/-- A state after records and raises that met no reaction: the Ledger, the sources with their classes and the pin FLT_N are others. -/
def raisedBy (l : LedgerSt) (x : Table FaultSt) (y : Table ClassSt) (f : FieldSt) (s : State) : State :=
  { s with ledger := l, faults := { s.faults with src := x, cls := y }, field := f }

/-- `t` is `s` after records and raises that met no reaction. -/
def OnlyRaised (s t : State) : Prop := ∃ l x y f, t = raisedBy l x y f s

theorem OnlyRaised.refl (s : State) : OnlyRaised s s := ⟨s.ledger, s.faults.src, s.faults.cls, s.field, rfl⟩

theorem OnlyRaised.trans {v : State} (h : OnlyRaised s t) (g : OnlyRaised t v) : OnlyRaised s v := by
  obtain ⟨l, x, y, f, rfl⟩ := h
  obtain ⟨m, z, w, e, rfl⟩ := g
  exact ⟨m, z, w, e, rfl⟩

theorem recordRaw_onlyRaised (r : Rec) (s : State) : OnlyRaised s (recordRaw r s) := by
  unfold recordRaw
  split
  · exact .refl s
  · exact ⟨_, s.faults.src, s.faults.cls, s.field, rfl⟩

theorem assertFlt_onlyRaised (c : Nat) (s : State) : OnlyRaised s (assertFlt c s) := by
  unfold assertFlt
  split
  · exact ⟨s.ledger, s.faults.src, s.faults.cls, _, rfl⟩
  · exact .refl s

theorem OnlyRaised.react (h : OnlyRaised s t) (code : Nat) : cfgReact t code = cfgReact s code := by
  obtain ⟨l, x, y, f, rfl⟩ := h
  rfl

theorem OnlyRaised.lent_eq (h : OnlyRaised s t) : lent t = lent s := by
  obtain ⟨l, x, y, f, rfl⟩ := h
  rfl

theorem raiseCore_calm {c : Nat} (o : Bool) (bs : List Block) (h : Calm s) : OnlyRaised s (raiseCore c o bs s) := by
  unfold raiseCore
  split
  · exact .refl s
  · dsimp only
    have hrecorded : OnlyRaised s (if escalated s c then evRaw 0x1302 (u16 c ++ u8 (raiseSev s c)) (recordRaw (raiseRec s c) s)
        else recordRaw (raiseRec s c) s) := by
      split
      · exact (recordRaw_onlyRaised _ s).trans (recordRaw_onlyRaised _ _)
      · exact recordRaw_onlyRaised _ s
    have hraised := (hrecorded.trans (v := touchClass (cfgClass s c) (setSrc c (raisedSrc s c o bs) _)) ⟨_, _, _, _, rfl⟩).trans
      (assertFlt_onlyRaised c _)
    rw [directReact_calm bs (hraised.react c ▸ h c)]
    exact hraised

theorem lossCheck_calm {n : Nat} (h : Calm s) : OnlyRaised s (lossCheck n s) := by
  unfold lossCheck
  split
  · exact raiseCore_calm _ _ h
  · exact .refl s

theorem OnlyRaised.calm (h : OnlyRaised s t) (hc : Calm s) : Calm t := fun code => h.react code ▸ hc code

theorem event_calm {c : Nat} {d : Bytes} (h : Calm s) : OnlyRaised s (event c d s) :=
  have hrecorded : OnlyRaised s (evRaw c d s) := recordRaw_onlyRaised _ s
  hrecorded.trans (lossCheck_calm (hrecorded.calm h))

theorem raise_calm {c n : Nat} {o : Bool} {bs : List Block} (h : Calm s) : OnlyRaised s (lossCheck n (raiseCore c o bs s)) :=
  have hraised := raiseCore_calm o bs h
  hraised.trans (lossCheck_calm (hraised.calm h))

theorem faultSet_calm {c : Nat} {on : Bool} {bs : List Block} (h : Calm s) : OnlyRaised s (faultSet c on bs s) := by
  unfold faultSet
  split
  · split
    · exact .refl s
    · exact raise_calm h
  · split
    · exact ⟨s.ledger, _, s.faults.cls, s.field, rfl⟩
    · exact .refl s

theorem faultShot_calm {c : Nat} {bs : List Block} (h : Calm s) : OnlyRaised s (faultShot c bs s) := by
  unfold faultShot
  split
  · exact .refl s
  · exact raise_calm h

/-! ### Raises end no source, and a source's end no other -/

theorem raiseCore_keeps_active {c code : Nat} {o : Bool} {bs : List Block} (h : faultActive s c = true) : faultActive (raiseCore code o bs s) c = true := by
  by_cases hs : s.st = .off
  · unfold raiseCore
    rwa [hs]
  · obtain ⟨f, hf, -, -, hsrc⟩ := raiseCore_src s code o bs hs
    unfold faultActive srcOf at h ⊢
    rw [hsrc, Table.get_set]
    split
    · exact hf
    · exact h

theorem evRaw_keeps_active {c code : Nat} {d : Bytes} (h : faultActive s c = true) : faultActive (evRaw code d s) c = true := by
  unfold faultActive srcOf evRaw at *
  rwa [recordRaw_faults]

theorem event_keeps_active {c code : Nat} {d : Bytes} (h : faultActive s c = true) : faultActive (event code d s) c = true :=
  lossCheck_active _ _ _ (evRaw_keeps_active h)

theorem faultShot_keeps_active {c code : Nat} {bs : List Block} (h : faultActive s c = true) : faultActive (faultShot code bs s) c = true := by
  unfold faultShot
  split
  · exact h
  · exact lossCheck_active _ _ _ (raiseCore_keeps_active h)

/-- A condition source taking the truth of its condition ends no other source. -/
theorem faultSet_keeps_other {c code : Nat} {on : Bool} {bs : List Block} (hc : faultIndex code ≠ faultIndex c) (h : faultActive s c = true) :
    faultActive (faultSet code on bs s) c = true := by
  unfold faultSet
  split
  · split
    · exact h
    · exact lossCheck_active _ _ _ (raiseCore_keeps_active h)
  · split
    · unfold faultActive srcOf setSrc at *
      rwa [Table.get_set, if_neg hc]
    · exact h

/-! ### Events and faults -/

theorem linkState_of_rest (e : rest t = rest s) : linkState t = linkState s := by
  have h : linkState (rest t) = linkState (rest s) := congrArg linkState e
  exact h

theorem lossCheck_sent (n : Nat) (s : State) : s.out ⊆ (lossCheck n s).out := by
  unfold lossCheck
  split
  · exact raiseCore_sent _ _ _ s
  · exact List.Subset.refl _

theorem linkKept_event {u : State} {c : Nat} {d : Bytes} (h : LinkKept u s) : LinkKept u (event c d s) := by
  refine h.trans ⟨linkState_of_rest (event_rest s c d), ?_, event_held, event_keeps_active, fun hc => (event_calm hc).lent_eq⟩
  exact (recordRaw_out _ s) ▸ lossCheck_sent s.ledger.lost (evRaw c d s)

/-- Every source but 0x0C15 may take the truth of its condition: an aborted claim's fault lasts. -/
theorem linkKept_faultSet {u : State} {c : Nat} {on : Bool} {bs : List Block} (h : LinkKept u s)
    (hc : faultIndex c ≠ faultIndex 0x0C15 := by decide) : LinkKept u (faultSet c on bs s) := by
  refine h.trans ⟨linkState_of_rest (faultSet_rest s c on bs), ?_, faultSet_held, faultSet_keeps_other hc, fun hc => (faultSet_calm hc).lent_eq⟩
  unfold faultSet
  split
  · split
    · exact List.Subset.refl _
    · exact List.Subset.trans (raiseCore_sent _ _ _ s) (lossCheck_sent _ _)
  · split
    · exact List.Subset.refl _
    · exact List.Subset.refl _

theorem linkKept_faultCond {u : State} {c : Nat} {on : Bool} (h : LinkKept u s) (hc : faultIndex c ≠ faultIndex 0x0C15 := by decide) :
    LinkKept u (faultCond c on s) := linkKept_faultSet h hc

theorem linkKept_endCond {u : State} {c : Nat} {on : Bool} (h : LinkKept u s) (hc : faultIndex c ≠ faultIndex 0x0C15 := by decide) :
    LinkKept u (endCond c on s) := linkKept_ite h (linkKept_faultCond h hc)

theorem linkKept_faultOnce {u : State} {c : Nat} (h : LinkKept u s) : LinkKept u (faultOnce c s) := by
  refine h.trans ⟨linkState_of_rest (faultOnce_rest s c), ?_, faultShot_held, faultShot_keeps_active, fun hc => (faultShot_calm hc).lent_eq⟩
  unfold faultOnce faultShot
  split
  · exact List.Subset.refl _
  · exact List.Subset.trans (raiseCore_sent _ _ _ s) (lossCheck_sent _ _)

theorem linkKept_settle {u : State} (h : LinkKept u s) : LinkKept u (settle s) := by
  refine h.of_parts ?_
  simp only [linkParts, settle_out, lent, settle_lock, settle_frame, settle_faults, linkState_of_rest (settle_rest s)]

end Sys2Proof.Machine
end

section
/-! SUPPORT. Each stage that duty, a claim or a beat starts, ends or loads leaves the link's state (05 R142; 06 R172; 07 R196; 09 R246; 11 R313;
12_lock_group R344 to R346; 15 R401; 17 R454). -/

namespace Sys2Proof.Machine

open Sys2Proof.Safety

variable {u v s t : State}

/-! ### Sending -/

/-- A message sent leaves on both L ports (R323). -/
theorem sends_sendRaf (type frame : Nat) (body : Bytes) (s : State) : Sends (sendRaf type frame body s) s type frame body := by
  intro p hp
  simp only [List.mem_cons, List.not_mem_nil, or_false] at hp
  simp only [sendRaf, emitAll_out, List.mem_append, List.mem_cons, List.not_mem_nil, or_false]
  exact .inr (hp.imp (fun h => by rw [h]) fun h => by rw [h])

/-- What is sent stays sent. -/
theorem sends_of_sent {type frame : Nat} {body : Bytes} (h : Sends s v type frame body) (hsent : s.out ⊆ t.out) : Sends t v type frame body :=
  fun p hp => hsent (h p hp)

theorem linkKept_sendRaf {type frame : Nat} {body : Bytes} (h : LinkKept u s) : LinkKept u (sendRaf type frame body s) :=
  h.of_sent (List.subset_append_left _ _) rfl rfl rfl

theorem linkKept_sendBeat {prepare : Bool} (h : LinkKept u s) : LinkKept u (sendBeat prepare s) := linkKept_sendRaf h

theorem linkKept_refuseBound (h : LinkKept u s) : LinkKept u (refuseBound s) := by
  refine linkKept_foldl (fun t m _ ht => ?_) h
  have hquiet := fun q => (serve_quiet m (setBox m q t)).trans (setBox_quiet m q t)
  have hparts : ∀ {a b : State}, quiet a = quiet b → (linkState a, lent a, a.faults.src) = (linkState b, lent b, b.faults.src) := fun e => by
    have he := congrArg (fun x : State => (linkState x, lent x, x.faults.src)) e
    exact he
  obtain ⟨hlink, hrest⟩ := Prod.mk.inj (hparts (hquiet _))
  obtain ⟨hlent, hsrc⟩ := Prod.mk.inj hrest
  refine ht.of_sent ?_ hlink hlent hsrc
  unfold serve flushBox
  dsimp only
  rw [foldl_sends, setBox_out, pump_out]
  exact List.subset_append_left _ _

/-! ### Domains -/

theorem linkKept_setChan {c : Nat} {f : AnaChanSt → AnaChanSt} (h : LinkKept u s) : LinkKept u (setChan c f s) := h.of_parts rfl

theorem linkKept_stopGroup {g : Nat} (h : LinkKept u s) : LinkKept u (stopGroup g s) := by
  unfold stopGroup
  exact linkKept_endCond <| linkKept_endCond <| linkKept_endCond <| linkKept_foldl (fun _ _ _ ht => linkKept_setChan ht) (h.of_parts rfl)

theorem linkKept_with_analog {a : AnalogSt} (h : LinkKept u s) : LinkKept u { s with analog := a } := h.of_parts rfl

theorem linkKept_analogOff (h : LinkKept u s) : LinkKept u (analogOff s) :=
  linkKept_with_analog (linkKept_foldl (fun _ _ _ ht => linkKept_stopGroup ht) h)

theorem linkKept_endStep {n : Nat} (h : LinkKept u s) : LinkKept u (endStep n s) := linkKept_event (h.of_parts rfl)

theorem linkKept_bringProgress (h : LinkKept u s) : LinkKept u (bringProgress s) := by
  have h7 : LinkKept u (note7 s) := linkKept_ite (linkKept_event (h.of_parts rfl)) h
  have hlock : LinkKept u (lockFault (note7 s)) := linkKept_when h7 linkKept_faultCond
  have h5 : LinkKept u (advance5 (lockFault (note7 s))) := linkKept_when hlock linkKept_endStep
  have h6 : LinkKept u (advance6 (advance5 (lockFault (note7 s)))) := linkKept_when h5 linkKept_endStep
  exact linkKept_ite (linkKept_when h6 fun ht => ht.of_parts rfl) h7

theorem linkKept_noteSettled (h : LinkKept u s) : LinkKept u (noteSettled s) := linkKept_when h fun ht => linkKept_bringProgress (ht.of_parts rfl)

theorem linkKept_analogOn (h : LinkKept u s) : LinkKept u (analogOn s) :=
  linkKept_ite h <| linkKept_ite (linkKept_noteSettled h) (linkKept_with_analog (linkKept_analogOff h))

theorem linkKept_setGnss {f : GnssSt → GnssSt} (h : LinkKept u s) : LinkKept u (setGnss f s) := h.of_parts rfl

theorem linkKept_gnssStart (h : LinkKept u s) : LinkKept u (gnssStart s) := by
  unfold gnssStart
  exact linkKept_setGnss (s := nextFree s) (h.of_parts rfl)

theorem linkKept_gnssOff (h : LinkKept u s) : LinkKept u (gnssOff s) :=
  linkKept_faultSet (linkKept_faultSet (linkKept_faultSet (linkKept_setGnss h)))

theorem linkKept_gnssDuty (h : LinkKept u s) : LinkKept u (gnssDuty s) :=
  linkKept_ite (linkKept_unless h linkKept_gnssStart) (linkKept_when h linkKept_gnssOff)

theorem linkKept_safetyOn (h : LinkKept u s) : LinkKept u (safetyOn s) := linkKept_unless h fun ht => ht.of_parts rfl

theorem linkKept_setSafe {c : Nat} {f : SlotMsg → SlotMsg} (h : LinkKept u s) : LinkKept u (setSafe c f s) := h.of_parts rfl

theorem linkKept_safetyOff (h : LinkKept u s) : LinkKept u (safetyOff s) :=
  linkKept_faultCond <| linkKept_faultCond <| linkKept_faultCond <| linkKept_foldl (fun _ _ _ ht => linkKept_setSafe ht) (h.of_parts rfl)

theorem linkKept_ioOff (h : LinkKept u s) : LinkKept u (ioOff s) :=
  linkKept_faultCond <| linkKept_faultCond <| linkKept_faultCond <| linkKept_faultCond <| linkKept_faultCond (h.of_parts rfl)

theorem linkKept_dutyPowerOff (h : LinkKept u s) : LinkKept u (dutyPowerOff s) := by
  unfold dutyPowerOff dutyPowerOffKeep
  exact linkKept_ioOff (linkKept_when (linkKept_safetyOff (linkKept_analogOff h)) linkKept_gnssOff)

theorem linkKept_claimPower (h : LinkKept u s) : LinkKept u (claimPower s) := by
  unfold claimPower
  have hdone : LinkKept u { s with bring := { s.bring with done7 := s.bring.done7 && decide (s.bring.step ≤ 4) } } := h.of_parts rfl
  have hnoted : LinkKept u (noteAnalog _) := (linkKept_analogOn hdone).of_parts rfl
  exact linkKept_when (linkKept_safetyOn hnoted) linkKept_gnssStart

theorem linkKept_setCh {f : ChandlerSt → ChandlerSt} (h : LinkKept u s) : LinkKept u (setCh f s) := h.of_parts rfl

theorem linkKept_degrade {bit : Nat} (h : LinkKept u s) : LinkKept u (degrade bit s) :=
  linkKept_ite (h.of_parts rfl) (linkKept_event (h.of_parts rfl))

theorem linkKept_domainLosses {failed : Nat} (h : LinkKept u s) : LinkKept u (domainLosses failed s) := by
  unfold domainLosses
  exact linkKept_when (linkKept_when (linkKept_when (linkKept_when h fun ht => linkKept_degrade (linkKept_setCh ht)) fun ht =>
    linkKept_degrade (linkKept_setCh ht)) fun ht => linkKept_degrade (linkKept_setGnss ht)) fun ht =>
      linkKept_noteSettled (linkKept_analogOff (linkKept_with_analog ht))

theorem linkKept_sbPowerOn (h : LinkKept u s) : LinkKept u (sbPowerOn s) := linkKept_unless h linkKept_setCh

theorem linkKept_chStart (h : LinkKept u s) : LinkKept u (chStart s) := linkKept_when (linkKept_setCh h) linkKept_sbPowerOn

theorem linkKept_chStop (h : LinkKept u s) : LinkKept u (chStop s) := linkKept_faultCond (linkKept_faultCond (linkKept_setCh h))

theorem linkKept_linkFaults (h : LinkKept u s) : LinkKept u (linkFaults s) := linkKept_faultCond (linkKept_faultCond (linkKept_faultCond h))

/-! ### The domains of duty are off -/

theorem safetyOff_running (s : State) : (safetyOff s).safety.running = false := by
  simp only [safetyOff, faultCond_safety, List.foldl_cons, List.foldl_nil, setSafe, setCan_safety]

theorem safetyOff_analog (s : State) : (safetyOff s).analog = s.analog := by
  simp only [safetyOff, faultCond_analog, List.foldl_cons, List.foldl_nil, setSafe, setCan_analog]

theorem ioOff_domains (s : State) : (ioOff s).safety = s.safety ∧ (ioOff s).analog = s.analog := by
  simp only [ioOff, supplyFaults, faultCond_safety, faultCond_analog]
  exact ⟨rfl, rfl⟩

theorem gnssOff_domains (s : State) : (gnssOff s).safety = s.safety ∧ (gnssOff s).analog = s.analog := by
  simp only [gnssOff, faultSet_safety, faultSet_analog]
  exact ⟨rfl, rfl⟩

/-- The safety pair and PD-AN are off with the domains of duty (Table 11-1). -/
theorem dutyPowerOff_domains (s : State) : (dutyPowerOff s).safety.running = false ∧ (dutyPowerOff s).analog.powered = false := by
  unfold dutyPowerOff dutyPowerOffKeep
  rw [(ioOff_domains _).1, (ioOff_domains _).2]
  split
  · rw [(gnssOff_domains _).1, (gnssOff_domains _).2, safetyOff_running, safetyOff_analog]
    exact ⟨rfl, rfl⟩
  · rw [safetyOff_running, safetyOff_analog]
    exact ⟨rfl, rfl⟩

/-- A beat sent leaves the domains and the sources. -/
theorem sendBeat_domains (prepare : Bool) (s : State) :
    (sendBeat prepare s).safety = s.safety ∧ (sendBeat prepare s).analog = s.analog ∧ (sendBeat prepare s).faults = s.faults := ⟨rfl, rfl, rfl⟩

/-! ### What duty starts and ends -/

theorem linkKept_setCan {c : Nat} {f : CanSt → CanSt} (h : LinkKept u s) : LinkKept u (setCan c f s) := h.of_parts rfl

theorem linkKept_canStart {c : Nat} (h : LinkKept u s) : LinkKept u (canStart c s) :=
  linkKept_faultSet (linkKept_faultSet (linkKept_setCan h))

theorem linkKept_canStartAll (h : LinkKept u s) : LinkKept u (canStartAll s) :=
  linkKept_faultSet <| linkKept_faultSet <| linkKept_foldl (fun _ _ _ ht => linkKept_canStart ht) (h.of_parts rfl)

theorem linkKept_unlockPort {p : Nat} (h : LinkKept u s) : LinkKept u (unlockPort p s) := linkKept_unless h linkKept_event

theorem linkKept_startIntake (h : LinkKept u s) : LinkKept u (startIntake s) := by
  have hreset : ∀ t i, LinkKept u t → LinkKept u (resetStore { t with intake := i }) := fun _ _ ht => ht.of_parts rfl
  unfold startIntake
  exact hreset _ _ (linkKept_foldl (fun _ _ _ ht => linkKept_unlockPort ht) h)

theorem linkKept_dutyStart (h : LinkKept u s) : LinkKept u (dutyStart s) := linkKept_gnssDuty (linkKept_canStartAll (linkKept_startIntake h))

theorem linkKept_fusionStop (h : LinkKept u s) : LinkKept u (fusionStop s) := by
  refine linkKept_foldl (fun _ c hc ht => linkKept_faultCond ht ?_) (h.of_parts rfl)
  revert c
  decide

theorem linkKept_solverStop (h : LinkKept u s) : LinkKept u (solverStop s) := by
  refine linkKept_foldl (fun _ c hc ht => linkKept_faultCond ht ?_) (h.of_parts rfl)
  revert c
  decide

theorem linkKept_stagesStart (h : LinkKept u s) : LinkKept u (stagesStart s) := h.of_parts rfl

/-! ### Loading a checkpoint -/

theorem linkKept_loadConns {c : Checkpoint} (h : LinkKept u s) : LinkKept u (loadConns c s) := h.of_parts rfl

theorem linkKept_loadFuncs {c : Checkpoint} (h : LinkKept u s) : LinkKept u (loadFuncs c s) :=
  linkKept_foldl (fun _ _ _ ht => linkKept_unless ht fun ht => linkKept_event (ht.of_parts rfl)) (h.of_parts rfl)

theorem linkKept_setObs {f : ObsSt → ObsSt} (h : LinkKept u s) : LinkKept u (setObs f s) := h.of_parts rfl

theorem linkKept_advanceObs {n : Nat} (h : LinkKept u s) : LinkKept u (advanceObs n s) :=
  linkKept_ite (linkKept_setObs (linkKept_foldl (fun _ _ _ ht => linkKept_when (linkKept_setObs ht) linkKept_setObs) h)) h

theorem linkKept_spEval {t : Nat} (h : LinkKept u s) : LinkKept u (spEval t s) := by
  unfold spEval
  split
  · exact h.of_parts rfl
  · exact h.of_parts rfl

theorem linkKept_loadParts {c : Checkpoint} (h : LinkKept u s) : LinkKept u (loadParts c s) := linkKept_spEval (linkKept_advanceObs (h.of_parts rfl))

theorem linkKept_claimEvents {reason : Nat} {c : Option Checkpoint} (h : LinkKept u s) : LinkKept u (claimEvents reason c s) := by
  dsimp only [claimEvents]
  split
  · exact linkKept_event (linkKept_event h)
  · exact linkKept_event h

/-- What loading a checkpoint notes of it. -/
def loadNoted (c : Checkpoint) (s : State) : State :=
  { s with mb := { s.mb with dpReq := c.dpReq && !isForeign s c, dpNext := none }, lock := { s.lock with cpLoaded := some c.frame } }

theorem loadCheckpoint_kept (c : Checkpoint) (s : State) : LinkKept (loadNoted c s) (loadCheckpoint c s) := by
  have hloaded : LinkKept s (if isForeign s c then stagesStart (loadConns c (loadFuncs c s)) else loadParts c (loadConns c (loadFuncs c s))) :=
    linkKept_ite (linkKept_stagesStart (linkKept_loadConns (linkKept_loadFuncs (.refl s))))
      (linkKept_loadParts (linkKept_loadConns (linkKept_loadFuncs (.refl s))))
  exact hloaded.map (F := fun x => { x with
      mb := { x.mb with dpReq := c.dpReq && !isForeign s c, dpNext := none }, lock := { x.lock with cpLoaded := some c.frame } })
    (fun _ => rfl) (fun _ => rfl) (fun _ => rfl) (fun _ => rfl) (fun _ => rfl)

end Sys2Proof.Machine
end

section
/-! PROPERTY. DISCOVERY_END, ELECTION_CLAIM, LEASE_CLAIM and TARGET_CLAIM (12_lock_group R328 to R330, R334, R344, R348, Table 12-8). -/

namespace Sys2Proof.Machine

open Sys2Proof.Safety

variable {s t u v : State}

/-! ### DISCOVERY_END -/

/-- The end of discovery is noted (R328). -/
def discoveryNoted (s : State) : State := setLock (fun l => { l with discStart := none, discEnd := some (elNs s) }) s

/-- Discovery is over: every configured slot has been heard, or 2 s have passed. -/
def DiscoveryOver (s : State) (t0 : Nat) : Prop := (otherSlots s).all (fun x => (peerOf s x).heard) = true ∨ t0 + 2000000000 ≤ elNs s

theorem hearsHolder_of_link (h : linkState t = linkState s) : hearsHolder t = hearsHolder s := by
  have hheard := congrArg hearsHolder h
  exact hheard

/-- The slots heard, each with its version, as event 0x0C01 carries them. -/
def discoveryReport (s : State) : Bytes :=
  u8 (maskOf ([1, 2, 3].map (fun x => (otherSlots s).contains x && (peerOf s x).heard))) ++
    ((otherSlots s).filter (fun x => (peerOf s x).heard)).flatMap (fun x => u8 (match (peerOf s x).last with | some b => b.verMax | none => 0))

/-- The end of step 3 (R328, R358). -/
def discoveryEnded (s : State) : State := endStep 3 (event 0x0C01 (discoveryReport s) (discoveryNoted s))

/-- Discovery ends with its event, and for STANDBY where a holder or claimer was heard. -/
theorem discoveryEnd_over {t0 : Nat} (hst : s.st = .standby) (hstep : s.bring.step = 3) (hdisc : s.lock.discStart = some t0)
    (hover : DiscoveryOver s t0) :
    discoveryEnd s = if hearsHolder s = true then decideStandby (discoveryEnded s) else discoveryEnded s := by
  have hheard : hearsHolder (discoveryEnded s) = hearsHolder s :=
    (hearsHolder_of_link (linkKept_endStep (linkKept_event (.refl (discoveryNoted s)))).link).trans rfl
  rw [← hheard]
  simp only [discoveryEnd, hst, hdisc]
  rw [if_pos ⟨hstep, hover⟩]
  rfl

theorem discoveryEnd_not {t0 : Nat} (h : s.st ≠ .standby ∨ s.bring.step ≠ 3 ∨ s.lock.discStart = none ∨
    (s.lock.discStart = some t0 ∧ (otherSlots s).all (fun x => (peerOf s x).heard) = false ∧ elNs s < t0 + 2000000000)) : discoveryEnd s = s := by
  unfold discoveryEnd
  split
  next t1 hst hdisc =>
    refine if_neg ?_
    rintro ⟨hstep, hover⟩
    rcases h with h | h | h | ⟨ht0, hall, htime⟩
    · exact h hst
    · exact h hstep
    · exact Option.some_ne_none t1 (hdisc.symm.trans h)
    · obtain rfl : t1 = t0 := Option.some.inj (hdisc.symm.trans ht0)
      exact hover.elim (fun hheard => Bool.false_ne_true (hall.symm.trans hheard)) (Nat.not_le.mpr htime)
  next => rfl

theorem endStep_rest (n : Nat) (s : State) :
    rest (endStep n s) = rest { s with bring := { s.bring with step := n + 1, stepEl := elNs s } } := event_rest _ _ _

/-- The election step begins where neither holder nor claimer was heard (R330). -/
theorem discoveryEnded_rest (s : State) : rest (discoveryEnded s) =
    rest { discoveryNoted s with bring := { s.bring with step := 4, stepEl := elNs s } } := by
  have hbring : ∀ a b : State, rest a = rest b → rest { a with bring := { a.bring with step := 4, stepEl := elNs a } } =
      rest { b with bring := { b.bring with step := 4, stepEl := elNs b } } := fun a b hab => by
    have hstep := congrArg (fun x : State => { x with bring := { x.bring with step := 4, stepEl := elNs x } }) hab
    exact hstep
  exact (endStep_rest 3 _).trans (hbring _ _ (event_rest _ _ _))

/-- With a holder heard, bring-up ends in STANDBY with the domains of duty off (R330, R359). -/
theorem decideStandby_station (s : State) : StationIs { stationOf s with discStart := none, step := 5 } true
    (settle (decideStandby (discoveryEnded s))) := by
  have hnoted : StationIs { stationOf s with discStart := none } true (discoveryNoted s) := ⟨rfl, fun _ => rfl⟩
  unfold decideStandby dutyPowerOff
  exact stationIs_settle <| stationIs_dutyPowerOffKeep <| stationIs_analogOff <| stationIs_endStep (n := 4) <| stationIs_endStep (n := 3) <|
    stationIs_event hnoted

theorem decided_of_station {x : Station} {l : Bool} (h : StationIs x l t) : t.st = x.st ∧ t.bring.step = x.step ∧ t.lock.discStart = x.discStart := by
  obtain ⟨rfl, -⟩ := h
  exact ⟨rfl, rfl, rfl⟩

/-- What the end of discovery leaves of a module that heard a holder. -/
theorem discoveryEnd_heard {t0 : Nat} (hst : s.st = .standby) (hstep : s.bring.step = 3) (hdisc : s.lock.discStart = some t0)
    (hover : DiscoveryOver s t0) (hheard : hearsHolder s = true) :
    (settle (discoveryEnd s)).st = .standby ∧ (settle (discoveryEnd s)).bring.step = 5 ∧ (settle (discoveryEnd s)).lock.discStart = none ∧
      (settle (discoveryEnd s)).analog.powered = false ∧ (settle (discoveryEnd s)).safety.running = false := by
  rw [discoveryEnd_over hst hstep hdisc hover, if_pos hheard]
  obtain ⟨hstate, hfive, hnone⟩ := decided_of_station (decideStandby_station s)
  obtain ⟨hsafety, hanalog⟩ := dutyPowerOff_domains (endStep 4 (discoveryEnded s))
  refine ⟨hstate.trans hst, hfive, hnone, ?_, ?_⟩
  · rw [settle_analog, decideStandby]
    exact hanalog
  · rw [settle_safety, decideStandby]
    exact hsafety

/-! ### Claims -/

/-- The claim as it begins at its tick (R334): what its beat is composed from. -/
def claimed (kind : Nat) (bad : Bool) (s : State) : State := setLock (fun l => { l with
  claim := some (frameIndex s, kind), claimOk := !bad, expiry := frameIndex s + 1 + s.cfg.img.lock.leaseLen, groupVer := claimVer s, cpLoaded := none
  release := false }) s

/-- A module whose claim's checks failed is noted as one that aborted. -/
def abortNoted (s : State) : State := setLock (fun l => { l with aborted := true }) s

/-- The claim of kind `kind`, whose checks failed where `bad`, stands in `t`, with `loaded` the checkpoint loaded (R334, R344, Table 12-8). -/
structure ClaimStands (u : State) (kind : Nat) (bad : Bool) (loaded : Option Nat) (t : State) : Prop where
  claim : t.lock.claim = some (frameIndex u, kind)
  ok : t.lock.claimOk = (!bad)
  version : t.lock.groupVer = claimVer u
  loaded : t.lock.cpLoaded = loaded
  committed : t.lock.committed = u.lock.committed
  state : t.st = u.st
  aborted : bad = true → t.lock.aborted = true ∧ faultActive t 0x0C15 = true
  beat : u.lock.held = false → Sends t (claimed kind bad u) 1 (frameIndex u) (beatBody (claimed kind bad u) false false true false
    (frameIndex u + 1 + u.cfg.img.lock.leaseLen) (succOrder (claimed kind bad u) false))

/-- What leaves the link's state leaves a claim standing. -/
theorem ClaimStands.kept {kind : Nat} {bad : Bool} {o : Option Nat} (h : ClaimStands u kind bad o s) (hk : LinkKept s t) : ClaimStands u kind bad o t := by
  refine ⟨?_, ?_, ?_, ?_, ?_, (st_of_link hk.link).trans h.state, fun hbad => ⟨?_, hk.aborted (h.aborted hbad).2⟩, fun hheld => sends_of_sent (h.beat hheld) hk.sent⟩
  · exact (lock_of_link (f := LockSt.claim) hk.link fun _ => rfl).trans h.claim
  · exact (lock_of_link (f := LockSt.claimOk) hk.link fun _ => rfl).trans h.ok
  · exact (lock_of_link (f := LockSt.groupVer) hk.link fun _ => rfl).trans h.version
  · exact (lock_of_link (f := LockSt.cpLoaded) hk.link fun _ => rfl).trans h.loaded
  · exact (lock_of_link (f := LockSt.committed) hk.link fun _ => rfl).trans h.committed
  · exact (lock_of_link (f := LockSt.aborted) hk.link fun _ => rfl).trans (h.aborted hbad).1

theorem ClaimStands.loadNoted {kind : Nat} {bad : Bool} {o : Option Nat} (h : ClaimStands u kind bad o s) (c : Checkpoint) :
    ClaimStands u kind bad (some c.frame) (loadNoted c s) :=
  ⟨h.claim, h.ok, h.version, rfl, h.committed, h.state, h.aborted, h.beat⟩

/-- The claim beat of a module without the lease leaves on both L ports (R334). -/
theorem sendBeat_claimed (kind : Nat) (bad : Bool) (hheld : u.lock.held = false) :
    Sends (sendBeat false (claimed kind bad u)) (claimed kind bad u) 1 (frameIndex u) (beatBody (claimed kind bad u) false false true false
      (frameIndex u + 1 + u.cfg.img.lock.leaseLen) (succOrder (claimed kind bad u) false)) := by
  have hflag : (claimed kind bad u).lock.held = false := hheld
  have hbeat : sendBeat false (claimed kind bad u) = sendRaf 1 (frameIndex u) (beatBody (claimed kind bad u) false false true false
      (frameIndex u + 1 + u.cfg.img.lock.leaseLen) (succOrder (claimed kind bad u) false)) (claimed kind bad u) := by
    unfold sendBeat
    simp only [hflag]
    rfl
  exact hbeat ▸ sends_sendRaf _ _ _ _

/-- What a claim does after its beat, up to the abort of one whose checks failed. -/
def claimChecked (kind failed : Nat) (s : State) : State :=
  let s3 := domainLosses failed (event 0x0C06 (u16 (claimDomains s) ++ u16 failed)
    (chStart (claimPower (sendBeat false (claimed kind (claimFails s failed) s)))))
  let s5 := if failed.testBit dGN then faultSet 0x0F12 true [.gnss] s3 else s3
  if failed.testBit dAN then faultCond 0x0D13 true s5 else s5

theorem claimStart_eq (kind f : Nat) (s : State) : claimStart kind f s =
    if claimFails s (Nat.land f (claimDomains s)) = true then faultOnce 0x0C15 (abortNoted (claimChecked kind (Nat.land f (claimDomains s)) s))
    else claimChecked kind (Nat.land f (claimDomains s)) s := rfl

theorem claimChecked_kept (kind failed : Nat) (s : State) :
    LinkKept (sendBeat false (claimed kind (claimFails s failed) s)) (claimChecked kind failed s) :=
  linkKept_when (linkKept_when (linkKept_domainLosses <| linkKept_event <| linkKept_chStart <| linkKept_claimPower (.refl _)) linkKept_faultSet)
    linkKept_faultCond

/-- A claim stands once its checks are made, and one whose checks failed has aborted. -/
theorem claimStands_claimStart (kind : Nat) {f : Nat} (hon : u.st ≠ .off) :
    ClaimStands u kind (claimFails u (Nat.land f (claimDomains u))) none (claimStart kind f u) := by
  have hkept := claimChecked_kept kind (Nat.land f (claimDomains u)) u
  rw [claimStart_eq]
  cases hbad : claimFails u (Nat.land f (claimDomains u)) with
  | false =>
    rw [hbad] at hkept
    have hstands : ClaimStands u kind false none (sendBeat false (claimed kind false u)) :=
      ⟨rfl, rfl, rfl, rfl, rfl, rfl, fun h => absurd h Bool.false_ne_true, sendBeat_claimed kind false⟩
    exact hstands.kept hkept
  | true =>
    rw [hbad] at hkept
    have hnoted : LinkKept (abortNoted (sendBeat false (claimed kind true u))) (faultOnce 0x0C15 (abortNoted (claimChecked kind (Nat.land f (claimDomains u)) u))) :=
      linkKept_faultOnce (hkept.map (F := abortNoted) (fun _ => rfl) (fun _ => rfl) (fun _ => rfl) (fun _ => rfl) (fun _ => rfl))
    have hst : (abortNoted (claimChecked kind (Nat.land f (claimDomains u)) u)).st ≠ .off := by
      have := st_of_link hkept.link
      exact this.trans_ne hon
    rw [if_pos rfl]
    refine ⟨?_, ?_, ?_, ?_, ?_, (st_of_link hnoted.link).trans rfl, fun _ => ⟨?_, faultOnce_active _ _ hst⟩, fun hheld => sends_of_sent (sendBeat_claimed kind true hheld) hnoted.sent⟩
    · exact (lock_of_link (f := LockSt.claim) hnoted.link fun _ => rfl).trans rfl
    · exact (lock_of_link (f := LockSt.claimOk) hnoted.link fun _ => rfl).trans rfl
    · exact (lock_of_link (f := LockSt.groupVer) hnoted.link fun _ => rfl).trans rfl
    · exact (lock_of_link (f := LockSt.cpLoaded) hnoted.link fun _ => rfl).trans rfl
    · exact (lock_of_link (f := LockSt.committed) hnoted.link fun _ => rfl).trans rfl
    · exact (lock_of_link (f := LockSt.aborted) hnoted.link fun _ => rfl).trans rfl

/-! ### The commands of a claim -/

theorem electionClaim_kept (f : Nat) (hdue : electionDue s = true) : LinkKept (claimStart 0 f s) (electionClaim f s) := by
  unfold electionClaim
  rw [if_pos hdue]
  exact linkKept_when (.refl _) fun h => linkKept_claimEvents (linkKept_stagesStart h)

/-- A takeover whose checks passed has loaded its committed checkpoint (R344). -/
theorem leaseClaim_due {f : Nat} {c : Checkpoint} (hdue : claimDue s = true) (hc : s.lock.committed = some c) :
    ((claimStart 1 f s).lock.claimOk = true → LinkKept (loadNoted c (claimStart 1 f s)) (leaseClaim f s)) ∧
    ((claimStart 1 f s).lock.claimOk = false → leaseClaim f s = claimStart 1 f s) := by
  unfold leaseClaim
  rw [if_pos hdue]
  simp only [hc]
  constructor
  · intro hok
    rw [if_pos hok]
    exact linkKept_claimEvents (loadCheckpoint_kept c _)
  · intro hok
    rw [hok]
    rfl

theorem land_land_self (a b : Nat) : Nat.land (Nat.land a b) b = Nat.land a b := by
  have h : (a &&& b) &&& b = a &&& b := by rw [Nat.and_assoc, Nat.and_self]
  exact h

/-- A target whose checks passed claims, and loads the checkpoint of the frame before where it holds it (R348). -/
theorem targetClaim_passes {f : Nat} {c : Checkpoint} (hdue : targetDue s = true) (hc : s.lock.committed = some c)
    (hpass : claimFails s (Nat.land f (claimDomains s)) = false) : targetClaim f s =
      if c.frame + 1 = frameIndex s then targetLoad c (claimStart 2 (Nat.land f (claimDomains s)) s)
      else claimStart 2 (Nat.land f (claimDomains s)) s := by
  unfold targetClaim
  rw [if_pos hdue]
  dsimp only
  rw [hpass, hc]
  rfl

theorem targetClaim_withheld {f : Nat} (hdue : targetDue s = true) (hfail : claimFails s (Nat.land f (claimDomains s)) = true) :
    targetClaim f s = withholdClaim (claimDomains s) (Nat.land f (claimDomains s)) s := by
  unfold targetClaim
  rw [if_pos hdue]
  exact if_pos hfail

theorem targetDue_not (h : s.st ≠ .standby ∨ s.lock.claim ≠ none) : targetDue s = false := by
  unfold targetDue
  split
  · rcases h with h | h <;> simp [h]
  · rfl

/-- A target withholds its claim: it is noted as aborted and its PREPARE is spent (R348, Table 12-8). -/
def withheld (s : State) : State := setLock (fun l => { l with aborted := true, prepared := none }) s

/-- What a withheld claim's checks leave. -/
def withheldChecked (checked failed : Nat) (s : State) : State := withheld (domainLosses failed (event 0x0C06 (u16 checked ++ u16 failed) s))

theorem withholdClaim_eq (checked failed : Nat) (s : State) :
    withholdClaim checked failed s = sendBeat false (dutyPowerOff (faultOnce 0x0C15 (withheldChecked checked failed s))) := rfl

/-- A withheld claim leaves the domains of duty off and fault 0x0C15 active. -/
theorem withholdClaim_effect (checked failed : Nat) (hon : s.st ≠ .off) : LinkKept (withheld s) (withholdClaim checked failed s) ∧
    (withholdClaim checked failed s).safety.running = false ∧ (withholdClaim checked failed s).analog.powered = false ∧
    faultActive (withholdClaim checked failed s) 0x0C15 = true := by
  have hchecked : LinkKept (withheld s) (withheldChecked checked failed s) :=
    (linkKept_domainLosses (linkKept_event (.refl s))).map (F := withheld) (fun _ => rfl) (fun _ => rfl) (fun _ => rfl) (fun _ => rfl) (fun _ => rfl)
  have hst : (withheldChecked checked failed s).st ≠ .off := ((st_of_link hchecked.link).trans rfl).trans_ne hon
  have hoff := linkKept_sendBeat (prepare := false) (linkKept_dutyPowerOff (.refl (faultOnce 0x0C15 (withheldChecked checked failed s))))
  obtain ⟨hsafety, hanalog⟩ := dutyPowerOff_domains (faultOnce 0x0C15 (withheldChecked checked failed s))
  rw [withholdClaim_eq, (sendBeat_domains _ _).1, (sendBeat_domains _ _).2.1]
  exact ⟨(linkKept_faultOnce hchecked).trans hoff, hsafety, hanalog, hoff.aborted (faultOnce_active _ _ hst)⟩

theorem electionDue_not (h : s.st ≠ .standby) : electionDue s = false := by
  unfold electionDue
  split
  · simp [h]
  · rfl

theorem claimDue_not (h : s.st ≠ .standby) : claimDue s = false := by
  unfold claimDue
  split
  · simp [h]
  · rfl

/-- A module whose claim is due has power. -/
theorem on_of_due {p : State → Bool} (hp : ∀ {x : State}, x.st ≠ .standby → p x = false) (hdue : p s = true) : s.st ≠ .off := by
  intro hoff
  exact Bool.false_ne_true ((hp (hoff ▸ ModState.noConfusion)).symm.trans hdue)


/-- What a withheld claim leaves of its target (R348, Table 12-8). -/
theorem targetClaim_fails {f : Nat} (hdue : targetDue s = true) (hfail : claimFails s (Nat.land f (claimDomains s)) = true) :
    (settle (targetClaim f s)).lock.claim = none ∧ (settle (targetClaim f s)).lock.aborted = true ∧ (settle (targetClaim f s)).lock.prepared = none ∧
      (settle (targetClaim f s)).safety.running = false ∧ (settle (targetClaim f s)).analog.powered = false ∧
      faultActive (settle (targetClaim f s)) 0x0C15 = true := by
  have hclaim : s.lock.claim = none := by
    by_contra h
    exact Bool.false_ne_true ((targetDue_not (.inr h)).symm.trans hdue)
  obtain ⟨hkept, hoff⟩ := withholdClaim_effect (claimDomains s) (Nat.land f (claimDomains s))
    (on_of_due (fun h => targetDue_not (.inl h)) hdue)
  rw [targetClaim_withheld hdue hfail, settle_safety, settle_analog, settle_active, settle_lock]
  refine ⟨?_, ?_, ?_, hoff⟩
  · exact (lock_of_link (f := LockSt.claim) hkept.link fun _ => rfl).trans hclaim
  · exact (lock_of_link (f := LockSt.aborted) hkept.link fun _ => rfl).trans rfl
  · exact (lock_of_link (f := LockSt.prepared) hkept.link fun _ => rfl).trans rfl

/-- A target's claim stands, with the checkpoint of the frame before loaded (R348). -/
theorem claimStands_targetClaim {f : Nat} {c : Checkpoint} (hdue : targetDue s = true) (hc : s.lock.committed = some c)
    (hpass : claimFails s (Nat.land f (claimDomains s)) = false) :
    ClaimStands s 2 false (if c.frame + 1 = frameIndex s then some c.frame else none) (targetClaim f s) := by
  have hstands := claimStands_claimStart 2 (f := Nat.land f (claimDomains s)) (on_of_due (fun h => targetDue_not (.inl h)) hdue)
  rw [land_land_self, hpass] at hstands
  rw [targetClaim_passes hdue hc hpass]
  split
  · exact (hstands.loadNoted c).kept (linkKept_claimEvents (loadCheckpoint_kept c _))
  · exact hstands

/-- A takeover's claim stands, with its checkpoint loaded where its checks passed (R344). -/
theorem claimStands_leaseClaim {f : Nat} {c : Checkpoint} (hdue : claimDue s = true) (hc : s.lock.committed = some c) :
    ClaimStands s 1 (claimFails s (Nat.land f (claimDomains s)))
      (if claimFails s (Nat.land f (claimDomains s)) = true then none else some c.frame) (leaseClaim f s) := by
  have hstands := claimStands_claimStart 1 (f := f) (on_of_due claimDue_not hdue)
  obtain ⟨hpass, hfail⟩ := leaseClaim_due (f := f) hdue hc
  cases hbad : claimFails s (Nat.land f (claimDomains s)) with
  | false =>
    rw [hbad] at hstands
    exact (hstands.loadNoted c).kept (hpass hstands.ok)
  | true =>
    rw [hbad] at hstands
    rw [hfail hstands.ok]
    exact hstands

/-- Settles O45: each command either does nothing or ends discovery or begins a claim, which what follows leaves standing. -/
theorem discoveryElectionAndClaims : Obligations.DiscoveryElectionAndClaims := by
  intro dt f t0 c s u k bad cl claims all
  have hclaims : ∀ {t : State} {kind : Nat} {o : Option Nat}, ClaimStands u kind bad o t → claims (settle t) kind ∧ (settle t).lock.cpLoaded = o := fun h =>
    have h' := h.kept (linkKept_settle (.refl _))
    ⟨⟨h'.claim, h'.ok, h'.version, h'.committed, h'.state, h'.aborted, h'.beat⟩, h'.loaded⟩
  refine ⟨fun hst hstep hdisc hover => ⟨fun hheard => ?heard, fun hheard => ?unheard⟩, fun h => gives_of_settle rfl (discoveryEnd_not h),
    fun hdue => ?election, fun h => gives_of_settle rfl (if_neg (ne_true_of_eq_false h)), fun hdue hc => ?takeover,
    fun h => gives_of_settle rfl (if_neg (ne_true_of_eq_false h)), fun hdue hc => ⟨fun hpass => ?target, fun hfail => ?withheld⟩,
    fun h => gives_of_settle rfl (if_neg (ne_true_of_eq_false h))⟩
  case heard => exact ⟨_, rfl, discoveryEnd_heard hst hstep hdisc hover hheard⟩
  case unheard =>
    refine givesRest_of_settle rfl ?_
    rw [discoveryEnd_over hst hstep hdisc hover, if_neg (ne_true_of_eq_false hheard)]
    exact discoveryEnded_rest u
  case election =>
    exact ⟨_, rfl, hclaims ((claimStands_claimStart 0 (on_of_due electionDue_not hdue)).kept (electionClaim_kept f hdue))⟩
  case takeover => exact ⟨_, rfl, hclaims (claimStands_leaseClaim hdue hc)⟩
  case target =>
    have hstands := claimStands_targetClaim hdue hc hpass
    rw [← hpass] at hstands
    exact ⟨_, rfl, hclaims hstands⟩
  case withheld => exact ⟨_, rfl, targetClaim_fails hdue hfail⟩

end Sys2Proof.Machine
end

section
/-! PROPERTY. LEASE_PASS, LEASE_END, LEASE_YIELD (12_lock_group R332, R334, R337, R344, R346, Table 12-8; 01 R33; 18 R484). -/

namespace Sys2Proof.Machine

open Sys2Proof.Safety

variable {s t u v : State}

/-! ### Duty ends -/

/-- Duty ends: in STANDBY, not good, without lease, claim and requests (R332, R336, R346). -/
def dutyEnded (s : State) : State := { s with
  st := .standby, obs := {}, sp := {}, osc := List.replicate s.cfg.img.osc.conns.length {}
  lock := { s.lock with held := false, change := none, claim := none, claimOk := false, prepared := none, yielding := false
                        cpGood := false, cpLoaded := none, firstDuty := none }
  mb := { s.mb with dpReq := false, dpNext := none }
  frame := { s.frame with emitSuppressed := false }
  bring := { s.bring with complete := false, obsAtTick := false } }

/-- What stops with duty. -/
def dutyStopped (s : State) : State := canStartAll (dutyPowerOff (solverStop (chStop (fusionStop (refuseBound (dutyEnded s))))))

theorem leaveDuty_eq (s : State) :
    leaveDuty s = noteStandby (faultCond 0x0D12 false (faultCond 0x0D10 false (faultCond 0x0D11 false (dutyStopped s)))) := rfl

theorem leaveDuty_kept (s : State) : LinkKept (noteStandby (dutyEnded s)) (leaveDuty s) := by
  have hstopped : LinkKept (dutyEnded s) (dutyStopped s) :=
    linkKept_canStartAll <| linkKept_dutyPowerOff <| linkKept_solverStop <| linkKept_chStop <| linkKept_fusionStop <| linkKept_refuseBound (.refl _)
  have hfaults := linkKept_faultCond (c := 0x0D12) (on := false) <| linkKept_faultCond (c := 0x0D10) (on := false) <|
    linkKept_faultCond (c := 0x0D11) (on := false) hstopped
  exact hfaults.map (F := noteStandby) (fun _ => rfl) (fun _ => rfl) (fun _ => rfl) (fun _ => rfl) (fun _ => rfl)

theorem canStartAll_safety (s : State) : (canStartAll s).safety = s.safety := by
  simp only [canStartAll, canStart, canFaults, faultSet_safety, setCan_safety, List.foldl_cons, List.foldl_nil]

/-- The safety pair is off duty (11 Table 11-1). -/
theorem leaveDuty_running (s : State) : (leaveDuty s).safety.running = false := by
  have hnoted : ∀ x, (noteStandby x).safety = x.safety := fun _ => rfl
  rw [leaveDuty_eq, hnoted, faultCond_safety, faultCond_safety, faultCond_safety, dutyStopped, canStartAll_safety]
  exact (dutyPowerOff_domains _).1

theorem linkFaults_safety (s : State) : (linkFaults s).safety = s.safety := by simp only [linkFaults, faultCond_safety]

/-- `t` is `u` with its duty over: in STANDBY without the lease, and not good. -/
structure DutyOver (u t : State) : Prop where
  state : t.st = .standby
  held : t.lock.held = false
  claim : t.lock.claim = none
  change : t.lock.change = none
  yielding : t.lock.yielding = false
  cpGood : t.lock.cpGood = false
  firstDuty : t.lock.firstDuty = none
  dpReq : t.mb.dpReq = false
  complete : t.bring.complete = false
  drill : t.lock.drillOp = some (u.lock.drillOp.getD u.ledger.opS)

/-- Duty is over once it is left, whatever only leaves the link's state before and after. -/
theorem dutyOver_leaveDuty (hbefore : linkState v = linkState u) (hafter : LinkKept (leaveDuty v) t) : DutyOver u t := by
  have hkept := (leaveDuty_kept v).trans hafter
  have hops : v.ledger.opS = u.ledger.opS := by
    have h := congrArg (fun x : State => x.ledger.opS) hbefore
    exact h
  refine ⟨(st_of_link hkept.link).trans rfl, ?_, ?_, ?_, ?_, ?_, ?_, ?_, ?_, ?_⟩
  · cases h : t.lock.held with
    | false => rfl
    | true => exact absurd (hkept.lease h) Bool.false_ne_true
  · exact (lock_of_link (f := LockSt.claim) hkept.link fun _ => rfl).trans rfl
  · exact (lock_of_link (f := LockSt.change) hkept.link fun _ => rfl).trans rfl
  · exact (lock_of_link (f := LockSt.yielding) hkept.link fun _ => rfl).trans rfl
  · exact (lock_of_link (f := LockSt.cpGood) hkept.link fun _ => rfl).trans rfl
  · exact (lock_of_link (f := LockSt.firstDuty) hkept.link fun _ => rfl).trans rfl
  · have h := congrArg (fun x : State => x.mb.dpReq) hkept.link
    exact h
  · have h := congrArg (fun x : State => x.bring.complete) hkept.link
    exact h
  · have hnoted : t.lock.drillOp = some (v.lock.drillOp.getD v.ledger.opS) :=
      (lock_of_link (f := LockSt.drillOp) hkept.link fun _ => rfl).trans rfl
    rw [hnoted, hops, lock_of_link (f := LockSt.drillOp) hbefore fun _ => rfl]

/-- Duty ends with its event, and the module's beat shows it (R332, R337). -/
def dutyGivenUp (cause : Nat) (s : State) : State := sendBeat false (linkFaults (leaveDuty (event 0x0C03 (u8 cause) s)))

theorem leaseEnd_due (h : leaseEndDue s = true) : leaseEnd s = dutyGivenUp 1 s := if_pos h

theorem leaseYield_due (h : yieldDue s = true) : leaseYield s = dutyGivenUp 2 s := if_pos h

theorem dutyGivenUp_kept (cause : Nat) (s : State) : LinkKept (leaveDuty (event 0x0C03 (u8 cause) s)) (settle (dutyGivenUp cause s)) := by
  unfold dutyGivenUp
  exact linkKept_settle (linkKept_sendBeat (linkKept_linkFaults (.refl _)))

theorem dutyOver_givenUp (cause : Nat) (s : State) :
    DutyOver s (settle (dutyGivenUp cause s)) ∧ (settle (dutyGivenUp cause s)).safety.running = false := by
  have hrecorded : LinkKept s (event 0x0C03 (u8 cause) s) := linkKept_event (.refl s)
  refine ⟨dutyOver_leaveDuty hrecorded.link (dutyGivenUp_kept cause s), ?_⟩
  rw [settle_safety, dutyGivenUp, (sendBeat_domains _ _).1, linkFaults_safety]
  exact leaveDuty_running _

/-! ### Yielding begins -/

theorem yielding_of_yieldLost (h : yieldLost s = true) : s.lock.yielding = false := by
  unfold yieldLost at h
  simp only [Bool.and_eq_true, Bool.not_eq_true'] at h
  obtain ⟨⟨-, hnot⟩, -⟩ := h
  exact hnot

/-- A holder that begins to yield (R337). -/
theorem startYield_effect (hnot : s.lock.yielding = false) (hon : s.st ≠ .off) : faultActive (startYield s) 0x0C13 = true ∧
    rest (startYield s) = rest { s with lock := { s.lock with yielding := true, yieldTick := frameIndex s + 1 } } := by
  unfold startYield
  rw [if_neg (ne_true_of_eq_false hnot)]
  exact ⟨faultOnce_active _ _ hon, faultOnce_rest _ _⟩

/-! ### A claim is released -/

/-- A claim whose checks failed is given up (Table 12-8). -/
def claimDropped (s : State) : State := setLock (fun l => { l with claim := none, claimOk := false, release := true, expiry := frameIndex s }) s

theorem abortClaim_eq (s : State) : abortClaim s = dutyPowerOff (chStop (sendRelease (frameIndex s) (frameIndex s) (claimDropped s))) := rfl

/-- The release beat of a claim leaves, and the module is as before its claim with the domains of duty off. -/
theorem abortClaim_effect (s : State) : (abortClaim s).st = s.st ∧ (abortClaim s).lock.claim = none ∧ (abortClaim s).safety.running = false ∧
    Sends (abortClaim s) (claimDropped s) 1 (frameIndex s)
      (beatBody (claimDropped s) false true false false (frameIndex s) (succOrder (claimDropped s) true)) := by
  have hsent : LinkKept (sendRelease (frameIndex s) (frameIndex s) (claimDropped s)) (abortClaim s) := by
    rw [abortClaim_eq]
    exact linkKept_dutyPowerOff (linkKept_chStop (.refl _))
  refine ⟨(st_of_link hsent.link).trans rfl, (lock_of_link (f := LockSt.claim) hsent.link fun _ => rfl).trans rfl, ?_, ?_⟩
  · rw [abortClaim_eq]
    exact (dutyPowerOff_domains _).1
  · exact sends_of_sent (sends_sendRaf _ _ _ _) hsent.sent

/-! ### Duty begins -/

/-- The committed checkpoint is FOREIGN, or there is none (R343, R346). -/
def foreignAtDuty (s : State) : Bool := match s.lock.committed with | some c => isForeign s c | none => true

/-- The state in which duty begins: READY after an election or from a FOREIGN checkpoint, else the checkpoint's (R346). -/
def dutyState (kind : Nat) (s : State) : ModState :=
  if kind = 0 ∨ foreignAtDuty s = true then .ready else match s.lock.committed with | some c => stateOfCode c.state | none => .ready

theorem onDuty_dutyState (kind : Nat) (s : State) : onDuty (dutyState kind s) = true := by
  have hcode : ∀ c, onDuty (stateOfCode c) = true := fun c => by
    unfold stateOfCode
    split
    · rfl
    · split <;> rfl
  unfold dutyState
  split
  · rfl
  · split
    · exact hcode _
    · rfl

/-- The lease is the module's and it emits (R334, R346). -/
def dutyTaken (kind : Nat) (s : State) : State := { s with
  st := dutyState kind s
  lock := { s.lock with held := true, claim := none, claimOk := false, prepared := none, firstDuty := some (frameIndex s), aborted := false
                        expiry := frameIndex s + s.cfg.img.lock.leaseLen, change := none, release := false }
  frame := { s.frame with emitSuppressed := false, p5Done := false, cpHanded := false, dpOk := false
                          sf1At := kindTripped s 1, sf2At := kindTripped s 2 }
  osc := s.osc.map (fun q => if q.watchPending then { q with watchPending := false, rxEl := elNs s } else q) }

/-- Whether the observer runs at the tick is noted. -/
def obsNoted (s : State) : State := { s with bring := { s.bring with obsAtTick := s.obs.init } }

/-- Bring-up is complete or not. -/
def completeIs (b : Bool) (s : State) : State := { s with bring := { s.bring with complete := b } }

/-- What duty begins with, up to MOK. -/
def dutyBegun (kind : Nat) (s : State) : State :=
  linkFaults (faultCond 0x0C16 false (faultCond 0x0C12 false (sendBeat false (obsNoted (startMode kind (bringAtDuty kind (dutyStart (dutyTaken kind s))))))))

theorem takeDuty_eq (kind : Nat) (s : State) : takeDuty kind s = mokAtTick (dutyBegun kind s) := rfl

theorem bringAtDuty_kept (kind : Nat) (s : State) : ∃ b, LinkKept (completeIs b s) (bringAtDuty kind s) := by
  unfold bringAtDuty
  split
  · exact ⟨s.bring.complete, linkKept_bringProgress ((linkKept_endStep (.refl s)).of_parts rfl)⟩
  · exact ⟨s.fusion.running && !s.fusion.warmup, linkKept_bringProgress ((LinkKept.refl _).of_parts rfl)⟩

/-- Of what `LinkKept` speaks of, starting in START_MODE goes by the link's state alone, and of the rest it changes the frame at most. -/
structure StartModeKeeps (kind : Nat) (s : State) : Prop where
  link : linkState (startMode kind s) = startMode kind (linkState s)
  out : (startMode kind s).out = s.out
  lent : lent (startMode kind s) = lent s
  src : (startMode kind s).faults.src = s.faults.src
  cfg : (startMode kind s).cfg = s.cfg
  st : (startMode kind s).st = s.st
  lock : (startMode kind s).lock = s.lock
  bring : (startMode kind s).bring = s.bring

theorem startMode_keeps (kind : Nat) (s : State) : StartModeKeeps kind s := by
  constructor <;> (unfold startMode; dsimp only; split <;> rfl)

/-- Of the link's state, beginning duty decides what `dutyTaken` and `startMode` say, and whether bring-up is complete. -/
theorem dutyBegun_kept (kind : Nat) (s : State) : ∃ b, LinkKept (startMode kind (completeIs b (dutyTaken kind s))) (dutyBegun kind s) := by
  obtain ⟨b, hbring⟩ := bringAtDuty_kept kind (dutyStart (dutyTaken kind s))
  have hstarted : LinkKept (completeIs b (dutyTaken kind s)) (completeIs b (dutyStart (dutyTaken kind s))) :=
    (linkKept_dutyStart (.refl _)).map (F := completeIs b) (fun _ => rfl) (fun _ => rfl) (fun _ => rfl) (fun _ => rfl) (fun _ => rfl)
  have hmode := (hstarted.trans hbring).map (F := startMode kind) (fun x => (startMode_keeps kind x).link) (fun x => (startMode_keeps kind x).out)
    (fun x => (startMode_keeps kind x).lent) (fun x => (startMode_keeps kind x).src) (fun x => (startMode_keeps kind x).cfg)
  have hnoted : LinkKept _ (obsNoted (startMode kind (bringAtDuty kind (dutyStart (dutyTaken kind s))))) := hmode.of_parts rfl
  exact ⟨b, linkKept_linkFaults (linkKept_faultCond (linkKept_faultCond (linkKept_sendBeat hnoted)))⟩

theorem linkKept_mokAtTick (h : LinkKept u s) : LinkKept u (mokAtTick s) := h.of_parts rfl

theorem takeDuty_kept {kind : Nat} {b : Bool} (h : LinkKept (startMode kind (completeIs b (dutyTaken kind s))) (dutyBegun kind s)) :
    LinkKept (startMode kind (completeIs b (dutyTaken kind s))) (settle (takeDuty kind s)) := by
  rw [takeDuty_eq]
  exact linkKept_settle (linkKept_mokAtTick h)

theorem mokCond_of_onDuty (h : onDuty s.st = true) : mokCond s = s.bring.powerFailEl.isNone := by
  unfold mokCond
  cases hst : s.st <;> simp_all [onDuty]

/-- MOK is energised at the tick on duty, but for a failing supply (18 R484). -/
theorem settle_mokAtTick (h : onDuty s.st = true) : (settle (mokAtTick s)).field.mok = s.bring.powerFailEl.isNone := by
  have hrest := updateFlt_rest (mokAtTick s)
  have hst : (updateFlt (mokAtTick s)).st = s.st := by
    have h := congrArg State.st hrest
    exact h
  have hbring : (updateFlt (mokAtTick s)).bring = s.bring := by
    have h := congrArg State.bring hrest
    exact h
  have hpin : (updateFlt (mokAtTick s)).field.mok = mokCond s := by
    obtain ⟨-, -, -, -, -, -, -, hmok⟩ := updateFlt_fields (mokAtTick s)
    exact hmok
  have hsettled : (settle (mokAtTick s)).field.mok = ((updateFlt (mokAtTick s)).field.mok && mokCond (updateFlt (mokAtTick s))) := rfl
  rw [hsettled, hpin, mokCond_of_onDuty h, mokCond_of_onDuty (hst ▸ h), hbring, Bool.and_self]

/-- `t` is on duty since the tick of `u` (R334, R346). -/
structure OnDutySince (u t : State) : Prop where
  claim : t.lock.claim = none
  firstDuty : t.lock.firstDuty = some (frameIndex u)
  change : t.lock.change = none
  mok : t.field.mok = u.bring.powerFailEl.isNone
  lease : Calm u → t.lock.held = true ∧ t.lock.expiry = frameIndex u + u.cfg.img.lock.leaseLen ∧ t.frame.emitSuppressed = false

theorem onDutySince_takeDuty (kind : Nat) (s : State) : OnDutySince s (settle (takeDuty kind s)) := by
  obtain ⟨b, hbegun⟩ := dutyBegun_kept kind s
  obtain ⟨-, -, hlent, -, hcfg, hst, hlock, hbring⟩ := startMode_keeps kind (completeIs b (dutyTaken kind s))
  have hkept := takeDuty_kept hbegun
  refine ⟨?_, ?_, ?_, ?_, fun hc => ?_⟩
  · exact (lock_of_link (f := LockSt.claim) hkept.link fun _ => rfl).trans (congrArg LockSt.claim hlock)
  · exact (lock_of_link (f := LockSt.firstDuty) hkept.link fun _ => rfl).trans (congrArg LockSt.firstDuty hlock)
  · exact (lock_of_link (f := LockSt.change) hkept.link fun _ => rfl).trans (congrArg LockSt.change hlock)
  · have hduty : onDuty (dutyBegun kind s).st = true := by
      rw [st_of_link hbegun.link, hst]
      exact onDuty_dutyState kind s
    have hsupply : (dutyBegun kind s).bring.powerFailEl = s.bring.powerFailEl :=
      (supply_of_link hbegun.link).trans ((congrArg BringSt.powerFailEl hbring).trans rfl)
    rw [takeDuty_eq, settle_mokAtTick hduty, hsupply]
  · have hcalm : Calm (startMode kind (completeIs b (dutyTaken kind s))) := fun code => by
      unfold cfgReact mapEntry
      rw [hcfg]
      exact hc code
    have hlease := (hkept.calm hcalm).trans hlent
    simp only [lent, Prod.mk.injEq] at hlease
    exact hlease

/-- The state and the frame mode in which duty begins. -/
theorem takeDuty_state (kind : Nat) (s : State) : (settle (takeDuty kind s)).st = dutyState kind s ∧
    (settle (takeDuty kind s)).frame.mode = s.frame.mode ∧
    (settle (takeDuty kind s)).frame.pendingMode = (startMode kind (dutyTaken kind s)).frame.pendingMode := by
  obtain ⟨b, hbegun⟩ := dutyBegun_kept kind s
  obtain ⟨-, -, -, -, -, hst, -, -⟩ := startMode_keeps kind (completeIs b (dutyTaken kind s))
  have hkept := takeDuty_kept hbegun
  have hmode : (startMode kind (completeIs b (dutyTaken kind s))).frame.mode = s.frame.mode ∧
      (startMode kind (completeIs b (dutyTaken kind s))).frame.pendingMode = (startMode kind (dutyTaken kind s)).frame.pendingMode := by
    unfold startMode
    dsimp only
    split <;> exact ⟨rfl, rfl⟩
  exact ⟨(st_of_link hkept.link).trans hst, (frame_of_link (f := FrameSt.mode) hkept.link fun _ => rfl).trans hmode.1,
    (frame_of_link (f := FrameSt.pendingMode) hkept.link fun _ => rfl).trans hmode.2⟩

/-! ### LEASE_PASS -/

theorem leasePass_fails {c kind : Nat} (hdue : passDue s = true) (hclaim : s.lock.claim = some (c, kind)) (hok : s.lock.claimOk = false) :
    leasePass s = abortClaim s := by
  unfold leasePass
  rw [if_pos hdue, hclaim]
  dsimp only
  exact if_neg (ne_true_of_eq_false hok)

/-- An election's or a takeover's claim whose checks passed takes duty. -/
theorem leasePass_passes {c kind : Nat} (hkind : kind = 0 ∨ kind = 1) (hdue : passDue s = true) (hclaim : s.lock.claim = some (c, kind))
    (hok : s.lock.claimOk = true) : leasePass s = takeDuty kind s := by
  unfold leasePass
  rw [if_pos hdue, hclaim]
  rcases hkind with rfl | rfl <;> exact if_pos hok

/-- Settles O46: by what the claim came to; duty ends alike at EXPIRY and after yielding, and what ends or begins it leaves the rest of the
link's state. -/
theorem leasePassesEndsAndIsYielded : Obligations.LeasePassesEndsAndIsYielded := by
  intro dt c kind cp s u k s1 duty standby
  have hduty : ∀ {x : State}, OnDutySince u x → duty x := fun h => ⟨h.claim, h.firstDuty, h.change, h.mok, h.lease⟩
  have hstandby : ∀ {x : State}, DutyOver u x ∧ x.safety.running = false → standby x := fun ⟨h, hrun⟩ =>
    ⟨h.state, h.held, h.claim, h.change, h.yielding, h.cpGood, h.firstDuty, h.dpReq, h.complete, hrun, h.drill⟩
  refine ⟨fun hdue hclaim hok => ?released, fun hdue hclaim hok => ?elected, fun hdue hclaim hok hcp => ?takenOver,
    fun h => gives_of_settle rfl (if_neg (ne_true_of_eq_false h)), fun hdue => ?ends, fun h => gives_of_settle rfl (if_neg (ne_true_of_eq_false h)),
    fun hdue => ?yielded, fun hnot hlost hon => ?yields, fun hnot hlost => gives_of_settle rfl ?idle⟩
  case released =>
    refine ⟨settle (leasePass u), rfl, ?_⟩
    rw [leasePass_fails hdue hclaim hok, settle_st, settle_lock, settle_safety]
    obtain ⟨hst, hnone, hrun, hbeat⟩ := abortClaim_effect u
    exact ⟨hst, hnone, hrun, sends_of_sent hbeat (linkKept_settle (.refl (abortClaim u))).sent⟩
  case elected =>
    refine ⟨settle (leasePass u), rfl, ?_⟩
    rw [leasePass_passes (.inl rfl) hdue hclaim hok]
    obtain ⟨hst, hmode, hpending⟩ := takeDuty_state 0 u
    exact ⟨hduty (onDutySince_takeDuty 0 u), hst, hmode, hpending⟩
  case takenOver =>
    refine ⟨settle (leasePass u), rfl, ?_⟩
    rw [leasePass_passes (.inr rfl) hdue hclaim hok]
    obtain ⟨hst, hmode, hpending⟩ := takeDuty_state 1 u
    refine ⟨hduty (onDutySince_takeDuty 1 u), hst.trans ?_, hmode, hpending⟩
    simp [dutyState, foreignAtDuty, hcp]
  case ends =>
    refine ⟨settle (leaseEnd u), rfl, hstandby ?_⟩
    rw [leaseEnd_due hdue]
    exact dutyOver_givenUp 1 u
  case yielded =>
    refine ⟨settle (leaseYield u), rfl, hstandby ?_⟩
    rw [leaseYield_due hdue]
    exact dutyOver_givenUp 2 u
  case yields =>
    refine ⟨settle (leaseYield u), rfl, ?_⟩
    rw [leaseYield, if_neg (ne_true_of_eq_false hnot), if_pos hlost, settle_active, settle_rest]
    exact startYield_effect (yielding_of_yieldLost hlost) hon
  case idle => rw [leaseYield, if_neg (ne_true_of_eq_false hnot), if_neg (ne_true_of_eq_false hlost)]

end Sys2Proof.Machine
end

section
/-! PROPERTY. LOCK_CHANGE_PREPARE, LOCK_CHANGE_RELEASE, CHECKPOINT_FALLBACK and PERIOD_ADOPT (12_lock_group R331, R336, R348 to R350). -/

namespace Sys2Proof.Machine

open Sys2Proof.Safety

variable {s t u v : State}

/-! ### PREPARE at tick k + 1 -/

/-- A tick of a lock change is a tick of the holder. -/
theorem held_of_changeTick {n : Nat} (h : changeTick n s = true) : s.lock.held = true ∧ atTick s = true := by
  unfold changeTick at h
  split at h
  · simp only [Bool.and_eq_true] at h
    obtain ⟨⟨⟨hheld, htick⟩, -⟩, -⟩ := h
    exact ⟨hheld, htick⟩
  · exact absurd h Bool.false_ne_true

/-- A holder whose lease lasts renews when it may (R331, R332). -/
theorem renew_lasting (hheld : s.lock.held = true) (hlasts : frameIndex s < s.lock.expiry) : renew s = { s with lock := { s.lock with
    expiry := if s.lock.firstDuty = some (frameIndex s) ∨ (s.frame.p5Done = true ∧ s.frame.cpHanded = true)
      then frameIndex s + s.cfg.img.lock.leaseLen else s.lock.expiry } } := by
  unfold renew
  by_cases hmay : s.lock.firstDuty = some (frameIndex s) ∨ (s.frame.p5Done = true ∧ s.frame.cpHanded = true)
  · rw [if_pos ⟨hheld, hlasts, hmay⟩, if_pos hmay]
    rfl
  · rw [if_neg fun h => hmay h.2.2, if_neg hmay]

theorem lasts_of_not_leaseEndDue (hheld : s.lock.held = true) (htick : atTick s = true) (h : leaseEndDue s = false) : frameIndex s < s.lock.expiry := by
  unfold leaseEndDue at h
  rw [hheld, htick] at h
  simpa using h

/-- The beat of a holder (R331). -/
theorem sendBeat_held (prepare : Bool) (hheld : s.lock.held = true) :
    sendBeat prepare s = sendRaf 1 (frameIndex s) (beatBody s prepare false false true s.lock.expiry (succOrder s false)) s := by
  unfold sendBeat
  simp only [hheld, Bool.not_true, Bool.and_false, Bool.or_false, if_true]

theorem lockPrepare_due (hdue : changeTick 1 s = true) (hlasts : leaseEndDue s = false) :
    lockPrepare s = sendBeat (s.lock.groupVer == 2) (renew s) := if_pos (by rw [hdue, hlasts]; rfl)

theorem lockPrepare_not (h : changeTick 1 s = false ∨ leaseEndDue s = true) : lockPrepare s = s := by
  refine if_neg ?_
  rcases h with h | h <;> simp [h]

/-! ### The release beat at tick k + 2 -/

theorem lockRelease_due (hdue : changeTick 2 s = true) :
    lockRelease s = linkFaults (leaveDuty (releaseAtTick (event 0x0C03 (u8 0) s))) := if_pos hdue

theorem releaseAtTick_link (s : State) : linkState (releaseAtTick s) = linkState s := by
  unfold releaseAtTick
  split <;> rfl

theorem lockRelease_kept (hdue : changeTick 2 s = true) : LinkKept (leaveDuty (releaseAtTick (event 0x0C03 (u8 0) s))) (settle (lockRelease s)) := by
  rw [lockRelease_due hdue]
  exact linkKept_settle (linkKept_linkFaults (.refl _))

theorem goodStandby_of_onDuty (h : onDuty s.st = true) : goodStandby s = false := by
  have hst : s.st ≠ .standby := fun hst => Bool.false_ne_true (by rw [hst] at h; exact h)
  simp [goodStandby, hst]

/-- What is recorded and raised without a reaction shows in no beat on duty. -/
theorem beat_of_onlyRaised (h : OnlyRaised s t) (hduty : onDuty s.st = true) (type frame expiry : Nat) (prepare release claim held last : Bool) :
    rafMessage t type frame (beatBody t prepare release claim held expiry (succOrder t last)) =
      rafMessage s type frame (beatBody s prepare release claim held expiry (succOrder s last)) := by
  obtain ⟨l, x, y, f, rfl⟩ := h
  have hgood := goodStandby_of_onDuty hduty
  have hgood' : goodStandby (raisedBy l x y f s) = false := goodStandby_of_onDuty hduty
  have hbody : beatBody (raisedBy l x y f s) prepare release claim held expiry (succOrder (raisedBy l x y f s) last) =
      beatBody s prepare release claim held expiry (succOrder s last) := by
    unfold beatBody
    rw [hgood, hgood']
    rfl
  rw [hbody]
  rfl

/-- A holder's release beat leaves at the tick (R336). -/
theorem releaseAtTick_sends (hheld : s.lock.held = true) :
    Sends (releaseAtTick s) s 1 (frameIndex s) (beatBody s false true false false (frameIndex s) (succOrder s true)) := by
  unfold releaseAtTick
  rw [if_pos hheld]
  exact sends_sendRaf 1 (frameIndex s) _ s

/-- The old holder's release beat has left, where no source reacts directly (R336). -/
theorem lockRelease_sends (hdue : changeTick 2 s = true) (hduty : onDuty s.st = true) (hcalm : Calm s) :
    Sends (settle (lockRelease s)) s 1 (frameIndex s) (beatBody s false true false false (frameIndex s) (succOrder s true)) := by
  obtain ⟨hheld, -⟩ := held_of_changeTick hdue
  have hraised : OnlyRaised s (event 0x0C03 (u8 0) s) := event_calm hcalm
  have hkept := (leaveDuty_kept (releaseAtTick (event 0x0C03 (u8 0) s))).trans (lockRelease_kept hdue)
  have hlease : (event 0x0C03 (u8 0) s).lock.held = true := (congrArg Prod.fst hraised.lent_eq).trans hheld
  intro p hp
  have hbeat := beat_of_onlyRaised hraised hduty 1 (frameIndex s) (frameIndex s) false true false false true
  have hsent := releaseAtTick_sends hlease p hp
  have hindex : frameIndex (event 0x0C03 (u8 0) s) = frameIndex s := event_frame_index _ _ _
  rw [hindex, hbeat] at hsent
  exact hkept.sent hsent

/-! ### The older checkpoint -/

theorem checkpointFallback_due {c : Nat} {cp : Checkpoint} (hclaim : s.lock.claim = some (c, 2)) (hcp : s.lock.committed = some cp)
    (hunloaded : s.lock.cpLoaded = none) (hok : s.lock.claimOk = true) (hframe : frameIndex s = c) (htime : s.frame.ticEl + 4000000 ≤ elNs s) :
    checkpointFallback s = targetLoad cp s := by
  simp only [checkpointFallback, hclaim, hcp]
  exact if_pos ⟨hunloaded, hok, hframe, htime⟩

theorem checkpointFallback_not {c : Nat} {cp : Checkpoint} (hclaim : s.lock.claim = some (c, 2)) (hcp : s.lock.committed = some cp)
    (h : s.lock.cpLoaded ≠ none ∨ s.lock.claimOk = false ∨ frameIndex s ≠ c ∨ elNs s < s.frame.ticEl + 4000000) : checkpointFallback s = s := by
  simp only [checkpointFallback, hclaim, hcp]
  refine if_neg ?_
  rintro ⟨hunloaded, hok, hframe, htime⟩
  rcases h with h | h | h | h
  · exact h hunloaded
  · exact Bool.false_ne_true (h.symm.trans hok)
  · exact h hframe
  · exact Nat.not_le.mpr h htime

theorem checkpointFallback_nothing (h : s.lock.claim = none ∨ s.lock.committed = none) : checkpointFallback s = s := by
  unfold checkpointFallback
  split
  next c cp hclaim hcp =>
    rcases h with h | h
    · exact absurd (h.symm.trans hclaim) (Option.some_ne_none _).symm
    · exact absurd (h.symm.trans hcp) (Option.some_ne_none _).symm
  next => rfl

/-- The target loads the checkpoint that it holds, and its claim stands (R348). -/
theorem targetLoad_effect (cp : Checkpoint) (s : State) : (settle (targetLoad cp s)).lock.cpLoaded = some cp.frame ∧
    (settle (targetLoad cp s)).lock.claim = s.lock.claim ∧ (settle (targetLoad cp s)).st = s.st := by
  have hkept : LinkKept (loadNoted cp s) (settle (targetLoad cp s)) := linkKept_settle (linkKept_claimEvents (loadCheckpoint_kept cp s))
  exact ⟨(lock_of_link (f := LockSt.cpLoaded) hkept.link fun _ => rfl).trans rfl, (lock_of_link (f := LockSt.claim) hkept.link fun _ => rfl).trans rfl,
    (st_of_link hkept.link).trans rfl⟩

/-! ### The holder's period -/

theorem rebase_keeps (d e : Int) (s : State) :
    (rebase d e s).frame = s.frame ∧ (rebase d e s).store = s.store ∧ (rebase d e s).field = s.field := by
  unfold rebase
  split <;> exact ⟨rfl, rfl, rfl⟩

/-- A standby in the holder's period: its frame is counted and bounded in it, and it is not good (R350). -/
def periodAdopted (s : State) : State :=
  let r := rebase ((s.frame.tic / periodNs (holderMode s) : Nat) - frameIndex s) 0 s
  { r with
    lock := { r.lock with periodDiff := false, cpGood := false }
    frame := { r.frame with mode := holderMode s, index := s.frame.tic / periodNs (holderMode s), nextTick := s.frame.tic + periodNs (holderMode s)
                            status := { r.frame.status with mode := holderMode s } } }

theorem periodAdopt_due (hst : s.st = .standby) (hdiff : s.lock.periodDiff = true) (htick : atTick s = true) (hgrid : s.frame.tic % 40000000 = 0) :
    periodAdopt s = periodAdopted s := if_pos ⟨hst, hdiff, htick, hgrid⟩

theorem periodAdopt_not (h : s.st ≠ .standby ∨ s.lock.periodDiff = false ∨ atTick s = false ∨ s.frame.tic % 40000000 ≠ 0) : periodAdopt s = s := by
  refine if_neg ?_
  rintro ⟨hst, hdiff, htick, hgrid⟩
  rcases h with h | h | h | h
  · exact h hst
  · exact Bool.false_ne_true (h.symm.trans hdiff)
  · exact Bool.false_ne_true (h.symm.trans htick)
  · exact h hgrid

theorem settle_di (s : State) : (settle s).field.di = s.field.di := by
  have h := congrArg (fun x : State => x.field.di) (settle_noPins s)
  exact h

/-- What a standby that adopts the holder's period has, and what it keeps. -/
theorem periodAdopted_effect (s : State) : (settle (periodAdopted s)).lock.periodDiff = false ∧ (settle (periodAdopted s)).lock.cpGood = false ∧
    (settle (periodAdopted s)).frame.mode = holderMode s ∧ (settle (periodAdopted s)).frame.index = s.frame.tic / periodNs (holderMode s) ∧
    (settle (periodAdopted s)).frame.nextTick = s.frame.tic + periodNs (holderMode s) ∧ (settle (periodAdopted s)).frame.tic = s.frame.tic ∧
    (settle (periodAdopted s)).store = s.store ∧ (settle (periodAdopted s)).field.di = s.field.di := by
  obtain ⟨hframe, hstore, hfield⟩ := rebase_keeps ((s.frame.tic / periodNs (holderMode s) : Nat) - frameIndex s) 0 s
  have htic := congrArg FrameSt.tic hframe
  have hdi := congrArg FieldSt.di hfield
  rw [settle_lock, settle_frame, settle_store, settle_di]
  exact ⟨rfl, rfl, rfl, rfl, rfl, htic, hstore, hdi⟩

/-- Settles O47: each row by what is due; the holder's beats go out before its duty ends, and a target's load leaves its claim standing. -/
theorem lockChangeHandsOverOnFixedTicks : Obligations.LockChangeHandsOverOnFixedTicks := by
  intro dt c cp s u k may v m
  refine ⟨fun hdue hlasts => ?prepares, fun h => gives_of_settle rfl (lockPrepare_not h), fun hdue => ?releases,
    fun h => gives_of_settle rfl (if_neg (ne_true_of_eq_false h)), fun hclaim hcp => ⟨fun hunloaded hok hframe htime => ?loads,
      fun h => gives_of_settle rfl (checkpointFallback_not hclaim hcp h)⟩, fun h => gives_of_settle rfl (checkpointFallback_nothing h),
    fun hst hdiff htick hgrid => ?adopts, fun h => gives_of_settle rfl (periodAdopt_not h)⟩
  case prepares =>
    obtain ⟨hheld, htick⟩ := held_of_changeTick hdue
    have hrenewed : renew u = v := renew_lasting hheld (lasts_of_not_leaseEndDue hheld htick hlasts)
    refine ⟨settle (lockPrepare u), rfl, ?_⟩
    rw [lockPrepare_due hdue hlasts, hrenewed, sendBeat_held _ (show v.lock.held = true from hheld), settle_lock, settle_rest]
    exact ⟨rfl, rfl, sends_of_sent (sends_sendRaf _ _ _ _) (linkKept_settle (.refl _)).sent⟩
  case releases =>
    have hrecorded : LinkKept u (event 0x0C03 (u8 0) u) := linkKept_event (.refl u)
    have hover := dutyOver_leaveDuty ((releaseAtTick_link _).trans hrecorded.link) (lockRelease_kept hdue)
    exact ⟨settle (lockRelease u), rfl, hover.state, hover.held, hover.change, hover.cpGood, lockRelease_sends hdue⟩
  case loads =>
    refine ⟨settle (checkpointFallback u), rfl, ?_⟩
    rw [checkpointFallback_due hclaim hcp hunloaded hok hframe htime]
    obtain ⟨hloaded, hstands, hst⟩ := targetLoad_effect cp u
    exact ⟨hloaded, hstands.trans hclaim, hst⟩
  case adopts =>
    refine ⟨settle (periodAdopt u), rfl, ?_⟩
    rw [periodAdopt_due hst hdiff htick hgrid]
    exact periodAdopted_effect u

end Sys2Proof.Machine
end

section
/-! PROPERTY. BEAT_RECEIVE, CHECKPOINT_FRAGMENT, RAFOGER_FORWARD, RAFOGER_DROP_SECOND and PATH_DOWN (12_lock_group R321 to R325, R333, R342). -/

namespace Sys2Proof.Machine

open Sys2Proof.Safety

variable {s t u : State} {m : Bytes} {type port ety slot : Nat} {b : Beat} {f : Bytes → State → State}

/-! ### What reaches the module itself -/

/-- A frame whose message is taken: the Ethertype is Rafoger's and the checks of R323 pass. -/
def MessageOk (ety : Nat) (m : Bytes) (s : State) : Prop := ety = 0x88B5 ∧ rafValid s m = true

theorem rafReceive_not (h : rafTakes s = false) : rafReceive type port ety m f s = s := if_neg (ne_true_of_eq_false h)

theorem rafReceive_dropped (h : rafTakes s = true) (hbad : ¬MessageOk ety m s) : rafReceive type port ety m f s = rafDrop port s := by
  unfold rafReceive
  rw [if_pos h, if_neg]
  simpa only [MessageOk, Bool.and_eq_true, decide_eq_true_eq] using hbad

theorem rafReceive_ok (h : rafTakes s = true) (hok : MessageOk ety m s) :
    rafReceive type port ety m f s = if byteAt m 1 = type ∧ (byteAt m 4).testBit (s.lock.slot - 1) = true then f m s else s := by
  unfold rafReceive
  rw [if_pos h, if_pos]
  simpa only [MessageOk, Bool.and_eq_true, decide_eq_true_eq] using hok

theorem rafReceive_others (h : rafTakes s = true) (hok : MessageOk ety m s)
    (hnot : byteAt m 1 ≠ type ∨ (byteAt m 4).testBit (s.lock.slot - 1) = false) : rafReceive type port ety m f s = s := by
  rw [rafReceive_ok h hok, if_neg]
  rintro ⟨htype, hmine⟩
  exact hnot.elim (· htype) (ne_true_of_eq_false · hmine)

theorem rafReceive_taken (h : rafTakes s = true) (hok : MessageOk ety m s) (htype : byteAt m 1 = type)
    (hmine : (byteAt m 4).testBit (s.lock.slot - 1) = true) : rafReceive type port ety m f s = f m s := by
  rw [rafReceive_ok h hok, if_pos ⟨htype, hmine⟩]

theorem rafTakes_standby (h : s.st = .standby) : rafTakes s = true := by
  unfold rafTakes
  rw [h]
  rfl

theorem powered_of_rafTakes (h : rafTakes s = true) : s.st ≠ .off := by
  intro hoff
  unfold rafTakes at h
  rw [hoff] at h
  exact Bool.false_ne_true h

/-! ### A beat -/

/-- What a beat tells of the peers and of the lease. -/
def toldOf (s : State) : List Peer × Option Beat × Bool := (s.lock.peers, s.lock.renewal, s.lock.laterClaim)

theorem told_of_kept (h : LinkKept s t) : toldOf t = toldOf s :=
  lock_of_link (f := fun l => (l.peers, l.renewal, l.laterClaim)) h.link fun _ => rfl

theorem linkKept_decideStandby (h : LinkKept u s) : LinkKept u (decideStandby s) := linkKept_dutyPowerOff (linkKept_endStep h)

theorem startYield_told (s : State) : toldOf (startYield s) = toldOf s := by
  unfold startYield
  split
  · rfl
  · exact (told_of_kept (linkKept_faultOnce (.refl _))).trans rfl

theorem prepareBeat_told (b : Beat) (s : State) : toldOf (prepareBeat b s) = toldOf s := by
  unfold prepareBeat
  split
  · exact (told_of_kept (linkKept_claimPower (.refl _))).trans rfl
  · rfl

/-- A path on which a beat came in frame `k`. -/
def alongPath (port k : Nat) (p : Peer) : Peer := if port = 0 then { p with pathL1 := some k } else { p with pathL2 := some k }

/-- The frame in which the last beat came along a path. -/
def pathOf (port : Nat) (p : Peer) : Option Nat := if port = 0 then p.pathL1 else p.pathL2

theorem pathOf_alongPath (port k : Nat) (p : Peer) : pathOf port (alongPath port k p) = some k := by
  unfold pathOf alongPath
  split <;> rfl

theorem notePath_eq (slot port : Nat) (s : State) : notePath slot port s =
    if (pathOf port (peerOf s slot)).isSome then setPeer slot (alongPath port (frameIndex s)) s
    else event 0x0C04 (flag true ++ u8 slot ++ u8 (port + 1)) (setPeer slot (alongPath port (frameIndex s)) s) := rfl

theorem notePath_link (slot port : Nat) (s : State) :
    linkState (notePath slot port s) = linkState (setPeer slot (alongPath port (frameIndex s)) s) := by
  rw [notePath_eq]
  split
  · rfl
  · exact (linkKept_event (.refl _)).link

/-- What a beat makes of its sender (R322, R325). -/
def hearPeer (b : Beat) (s : State) (p : Peer) : Peer :=
  { p with last := some b, inStep := if inStepBeat s b then some b else p.inStep, heard := true,
           holdAt := if b.held || b.claim then some (frameIndex s) else p.holdAt }

/-- A beat is noted for its sender, and the holder's frame mode is judged (R322, R350). -/
def beatHeard (port : Nat) (b : Beat) (s : State) : State :=
  let s1 := setPeer b.slot (hearPeer b s) (notePath b.slot port s)
  if b.held ∨ b.claim then judgePeriod b.mode s1 else s1

/-- A period judged is the holder's, or another's, of which the link notes that it differs (R350). -/
theorem judgePeriod_eq (mode : Nat) (s : State) :
    judgePeriod mode s = setLock (fun l => { l with periodDiff := true, cpGood := false }) s ∨ judgePeriod mode s = s := ite_eq_or_eq _ _ _

theorem judgePeriod_keeps (mode : Nat) (s : State) :
    (toldOf (judgePeriod mode s), (judgePeriod mode s).st, (judgePeriod mode s).cfg) = (toldOf s, s.st, s.cfg) := by
  obtain h | h := judgePeriod_eq mode s
  · rw [h]
    rfl
  · rw [h]

theorem beatHeard_keeps (port : Nat) (b : Beat) (s : State) :
    (toldOf (beatHeard port b s), (beatHeard port b s).st) =
      ((upd (hearPeer b s) (upd (alongPath port (frameIndex s)) s.lock.peers b.slot) b.slot, s.lock.renewal, s.lock.laterClaim), s.st) := by
  have hpath := notePath_link b.slot port s
  have hpeers : (notePath b.slot port s).lock.peers = upd (alongPath port (frameIndex s)) s.lock.peers b.slot :=
    (lock_of_link (f := LockSt.peers) hpath fun _ => rfl).trans rfl
  have hrenewal : (notePath b.slot port s).lock.renewal = s.lock.renewal := (lock_of_link (f := LockSt.renewal) hpath fun _ => rfl).trans rfl
  have hlater : (notePath b.slot port s).lock.laterClaim = s.lock.laterClaim := (lock_of_link (f := LockSt.laterClaim) hpath fun _ => rfl).trans rfl
  have hst : (notePath b.slot port s).st = s.st := (st_of_link hpath).trans rfl
  have hnoted : (toldOf (setPeer b.slot (hearPeer b s) (notePath b.slot port s)), (setPeer b.slot (hearPeer b s) (notePath b.slot port s)).st) =
      ((upd (hearPeer b s) (upd (alongPath port (frameIndex s)) s.lock.peers b.slot) b.slot, s.lock.renewal, s.lock.laterClaim), s.st) := by
    simp only [toldOf, setPeer, setLock_lock, setLock_st, hpeers, hrenewal, hlater, hst]
  rw [← hnoted]
  unfold beatHeard
  dsimp only
  split
  · obtain ⟨htold, hrest⟩ := Prod.mk.inj (judgePeriod_keeps b.mode (setPeer b.slot (hearPeer b s) (notePath b.slot port s)))
    obtain ⟨hjudged, -⟩ := Prod.mk.inj hrest
    rw [htold, hjudged]
  · rfl

/-- An in-step beat, once heard: the lease, PREPARE, the end of a slip, yielding and a decision of bring-up (R325, R333, R337, R348, R359). -/
def beatInStep (b : Beat) (s t : State) : State :=
  let u := if undecided s then prepareBeat b (leaseBeat b t)
    else faultCond 0x0C17 false (setLock (fun l => { l with frameSlip := false }) (prepareBeat b (leaseBeat b t)))
  if yieldBeat s b then startYield u
  else if s.st = .standby ∧ s.bring.step = 4 ∧ s.lock.claim = none ∧ (b.held = true ∨ b.claim = true) then decideStandby u
  else u

/-- A beat out of step, once heard: FRAME_SLIP, with fault 0x0C17 (R325). -/
def beatSlips (t : State) : State := faultCond 0x0C17 true (setLock (fun l => { l with frameSlip := true }) t)

/-- The link's conditions judged after a beat: a group version above this release's, and those of R351. -/
def linkJudged (s : State) : State := linkFaults (faultCond 0x0C19 (decide (2 < s.lock.groupVer)) s)

theorem takeBeat_eq (port : Nat) (b : Beat) (s : State) :
    takeBeat port b s = linkJudged (if inStepBeat s b then beatInStep b s (beatHeard port b s) else beatSlips (beatHeard port b s)) := rfl

theorem linkKept_linkJudged (h : LinkKept u s) : LinkKept u (linkJudged s) := linkKept_linkFaults (linkKept_faultCond h)

theorem beatInStep_told (b : Beat) (s t : State) : toldOf (beatInStep b s t) = toldOf (leaseBeat b t) := by
  have hprepared := prepareBeat_told b (leaseBeat b t)
  have hinStep : toldOf (if undecided s then prepareBeat b (leaseBeat b t)
      else faultCond 0x0C17 false (setLock (fun l => { l with frameSlip := false }) (prepareBeat b (leaseBeat b t)))) = toldOf (leaseBeat b t) := by
    split
    · exact hprepared
    · exact (told_of_kept (linkKept_faultCond (.refl _))).trans hprepared
  rw [← hinStep]
  unfold beatInStep
  dsimp only
  split
  · exact startYield_told _
  · split
    · exact told_of_kept (linkKept_decideStandby (.refl _))
    · rfl

theorem leaseBeat_peers (b : Beat) (s : State) : (leaseBeat b s).lock.peers = s.lock.peers := by
  unfold leaseBeat
  split
  · rfl
  · split
    · split <;> rfl
    · rfl

theorem leaseBeat_renews (h : b.held = true ∨ b.claim = true ∨ b.release = true) :
    (leaseBeat b s).lock.renewal = some b ∧ (leaseBeat b s).lock.laterClaim = false := by
  unfold leaseBeat
  rw [if_pos h]
  exact ⟨rfl, rfl⟩

theorem takeBeat_told_inStep (hstep : inStepBeat s b = true) : toldOf (takeBeat port b s) = toldOf (leaseBeat b (beatHeard port b s)) := by
  rw [takeBeat_eq, if_pos hstep, told_of_kept (linkKept_linkJudged (.refl _)), beatInStep_told]

theorem takeBeat_slips (hstep : inStepBeat s b = false) :
    LinkKept (setLock (fun l => { l with frameSlip := true }) (beatHeard port b s)) (takeBeat port b s) := by
  rw [takeBeat_eq, if_neg (ne_true_of_eq_false hstep)]
  exact linkKept_linkJudged (linkKept_faultCond (.refl _))

/-- Whatever it tells of the lease, a beat is noted for its sender. -/
theorem takeBeat_peers (port : Nat) (b : Beat) (s : State) :
    (takeBeat port b s).lock.peers = upd (hearPeer b s) (upd (alongPath port (frameIndex s)) s.lock.peers b.slot) b.slot := by
  have hheard := congrArg (fun x => x.1.1) (beatHeard_keeps port b s)
  refine Eq.trans ?_ hheard
  cases hstep : inStepBeat s b with
  | true =>
    have htold := congrArg Prod.fst (takeBeat_told_inStep (port := port) hstep)
    exact htold.trans (leaseBeat_peers b _)
  | false =>
    exact congrArg Prod.fst (told_of_kept (takeBeat_slips hstep))

theorem takeBeat_sender (port : Nat) (hslot : b.slot < s.lock.peers.length) : peerOf (settle (takeBeat port b s)) b.slot =
    hearPeer b s (alongPath port (frameIndex s) (peerOf s b.slot)) := by
  unfold peerOf
  rw [settle_lock, takeBeat_peers, nth_upd _ _ _ _ (by rwa [upd_length]), nth_upd _ _ _ _ hslot]

theorem takeBeat_renews (hstep : inStepBeat s b = true) (h : b.held = true ∨ b.claim = true ∨ b.release = true) :
    (takeBeat port b s).lock.renewal = some b ∧ (takeBeat port b s).lock.laterClaim = false := by
  obtain ⟨-, hlease⟩ := Prod.mk.inj (takeBeat_told_inStep (port := port) hstep)
  obtain ⟨hrenewal, hlater⟩ := Prod.mk.inj hlease
  obtain ⟨hsome, hfalse⟩ := leaseBeat_renews (s := beatHeard port b s) h
  exact ⟨hrenewal.trans hsome, hlater.trans hfalse⟩

theorem linkJudged_keeps_slip (h : faultActive s 0x0C17 = true) : faultActive (linkJudged s) 0x0C17 = true :=
  faultSet_keeps_other (by decide) <| faultSet_keeps_other (by decide) <| faultSet_keeps_other (by decide) <| faultSet_keeps_other (by decide) h

theorem takeBeat_outOfStep (hpow : s.st ≠ .off) (hstep : inStepBeat s b = false) : (takeBeat port b s).lock.frameSlip = true ∧
    (takeBeat port b s).lock.renewal = s.lock.renewal ∧ faultActive (takeBeat port b s) 0x0C17 = true := by
  have hslips := takeBeat_slips (port := port) hstep
  obtain ⟨htold, hst⟩ := Prod.mk.inj (beatHeard_keeps port b s)
  obtain ⟨-, hlease⟩ := Prod.mk.inj htold
  obtain ⟨hrenewal, -⟩ := Prod.mk.inj hlease
  refine ⟨lock_of_link (f := LockSt.frameSlip) hslips.link fun _ => rfl,
    (lock_of_link (f := LockSt.renewal) hslips.link fun _ => rfl).trans hrenewal, ?_⟩
  rw [takeBeat_eq, if_neg (ne_true_of_eq_false hstep)]
  exact linkJudged_keeps_slip (faultCond_active _ _ (hst ▸ hpow))

/-- What a beat taken leaves. -/
theorem takeBeat_effect (hpow : s.st ≠ .off) (hslot : b.slot < s.lock.peers.length) :
    let t := settle (takeBeat port b s)
    (peerOf t b.slot).last = some b ∧ (peerOf t b.slot).heard = true ∧ pathOf port (peerOf t b.slot) = some (frameIndex s) ∧
      (inStepBeat s b = true → b.held = true ∨ b.claim = true ∨ b.release = true → t.lock.renewal = some b ∧ t.lock.laterClaim = false) ∧
      (inStepBeat s b = false → t.lock.frameSlip = true ∧ t.lock.renewal = s.lock.renewal ∧ faultActive t 0x0C17 = true) := by
  dsimp only
  rw [takeBeat_sender port hslot, settle_lock, settle_active]
  exact ⟨rfl, rfl, pathOf_alongPath _ _ _, takeBeat_renews, takeBeat_outOfStep hpow⟩

/-! ### A checkpoint fragment -/

/-- A fragment and an assembly are of one checkpoint. -/
def OfAssembly (m : Bytes) (s : State) (a : Assembly) : Prop := a.frame = countedFrame s (fld m 8 8) ∧ a.count = fld m 26 2 ∧ a.src = byteAt m 2

/-- The assembly a fragment joins: the one that stands, or a new one in place of none and of an older one (R342). -/
def Joins (m : Bytes) (s : State) (q : Assembly) : Prop :=
  (∃ a, s.lock.asm = some a ∧ OfAssembly m s a ∧ q = a) ∨
  ((∀ a, s.lock.asm = some a → ¬OfAssembly m s a ∧ a.frame ≤ countedFrame s (fld m 8 8)) ∧
    q = { src := byteAt m 2, frame := countedFrame s (fld m 8 8), count := fld m 26 2 })

/-- The parts of an assembly with the fragment's. -/
def joinedParts (m : Bytes) (q : Assembly) : Table Bytes := Table.set q.parts (fld m 24 2) (slice m 32 (fld m 6 2 - 8))

def dropAssembly (s : State) : State := setLock (fun l => { l with asm := none }) s

/-- The last fragment came: the assembly is parsed, and committed when it names its frame (R342). -/
def assembled (m : Bytes) (q : Assembly) (s : State) : State :=
  match parseCp s ((joinedParts m q).flatMap Prod.snd) with
  | some c => if c.frame = fld m 8 8 then commitCp { c with frame := countedFrame s (fld m 8 8) } (dropAssembly s) else dropAssembly s
  | none => dropAssembly s

theorem takeFragment_joined {q : Assembly} (hst : s.st = .standby) (hok : fragOk m = true) (h : Joins m s q) : takeFragment m s =
    if (joinedParts m q).length = fld m 26 2 then assembled m q s
    else setLock (fun l => { l with asm := some { q with parts := joinedParts m q } }) s := by
  have hin : ¬(fragOk m = false ∨ s.st ≠ .standby) := by simp [hst, hok]
  unfold takeFragment
  rw [if_neg hin]
  rcases h with ⟨a, hasm, hsame, rfl⟩ | ⟨hother, rfl⟩
  · have hstands : q.frame = countedFrame s (fld m 8 8) ∧ q.count = fld m 26 2 ∧ q.src = byteAt m 2 := hsame
    simp only [hasm, if_pos hstands]
    rfl
  · cases hasm : s.lock.asm with
    | none => rfl
    | some a =>
      obtain ⟨hsame, hle⟩ := hother a hasm
      have hnot : ¬(a.frame = countedFrame s (fld m 8 8) ∧ a.count = fld m 26 2 ∧ a.src = byteAt m 2) := hsame
      simp only [if_neg hnot, if_pos (Nat.lt_or_eq_of_le hle)]
      rfl

theorem takeFragment_not (h : s.st ≠ .standby ∨ fragOk m = false ∨ ∃ a, s.lock.asm = some a ∧ countedFrame s (fld m 8 8) < a.frame) :
    takeFragment m s = s := by
  unfold takeFragment
  split
  · rfl
  · next hin =>
    obtain ⟨hok, hst⟩ := not_or.mp hin
    obtain ⟨a, hasm, hnewer⟩ := (h.resolve_left hst).resolve_left hok
    have hnot : ¬(a.frame = countedFrame s (fld m 8 8) ∧ a.count = fld m 26 2 ∧ a.src = byteAt m 2) := fun h => by omega
    have hnor : ¬(a.frame < countedFrame s (fld m 8 8) ∨ a.frame = countedFrame s (fld m 8 8)) := by omega
    simp only [hasm, if_neg hnot, if_neg hnor]

theorem commitCp_older {c o : Checkpoint} (hcommitted : s.lock.committed = some o) (hold : c.frame < o.frame) : commitCp c s = s := by
  unfold commitCp
  simp only [hcommitted, hold, decide_true, if_true]

/-- What the commit of a checkpoint notes of it: the checkpoint, the frame it came in, and that a pending change lasts (R342). -/
def cpNoted (c : Checkpoint) (p : Option (Nat × Nat)) (s : State) : State :=
  { s with lock := { s.lock with committed := some c, cpArr := some (frameIndex s) }, frame := { s.frame with pendingMode := p } }

/-- The commit once noted: the frame mode is judged, the standby is good, and whether the checkpoint is FOREIGN (R343, R350). -/
def cpJudged (mode : Nat) (s : State) : State := noteForeign (setLock (fun l => { l with cpGood := l.cpGood || !l.periodDiff }) (judgePeriod mode s))

theorem commitCp_eq {c : Checkpoint} (hclaim : s.lock.claim = none) (hnew : ∀ o, s.lock.committed = some o → o.frame ≤ c.frame) :
    ∃ p, commitCp c s = cpJudged (modeShown c s) (cpNoted c p s) := by
  unfold commitCp
  dsimp only
  cases hcommitted : s.lock.committed with
  | none =>
    rw [hclaim]
    exact ⟨_, rfl⟩
  | some o =>
    rw [if_neg (by simpa using hnew o hcommitted), hclaim]
    exact ⟨_, rfl⟩

/-- What of the lock group a commit decides. -/
def cpOf (s : State) : Option Checkpoint × Option Nat × Option Assembly := (s.lock.committed, s.lock.cpArr, s.lock.asm)

theorem judgePeriod_cpOf (mode : Nat) (s : State) : cpOf (judgePeriod mode s) = cpOf s := by
  obtain h | h := judgePeriod_eq mode s
  · rw [h]
    rfl
  · rw [h]

theorem noteForeign_standby {c : Checkpoint} (hst : s.st = .standby) (hcommitted : s.lock.committed = some c) :
    cpOf (noteForeign s) = cpOf s ∧ (noteForeign s).lock.foreign = isForeign s c := by
  have hkept : LinkKept (setLock (fun l => { l with foreign := isForeign s c }) s) (noteForeign s) := by
    unfold noteForeign
    simp only [hst, hcommitted, decide_true, Bool.true_and]
    exact linkKept_faultCond (.refl _)
  exact ⟨(lock_of_link (f := fun l => (l.committed, l.cpArr, l.asm)) hkept.link fun _ => rfl).trans rfl,
    lock_of_link (f := LockSt.foreign) hkept.link fun _ => rfl⟩

/-- A checkpoint not older than the committed one is committed. -/
theorem commitCp_effect {c : Checkpoint} (hst : s.st = .standby) (hclaim : s.lock.claim = none)
    (hnew : ∀ o, s.lock.committed = some o → o.frame ≤ c.frame) :
    cpOf (commitCp c s) = (some c, some (frameIndex s), s.lock.asm) ∧ (commitCp c s).lock.foreign = isForeign s c := by
  obtain ⟨p, hcommit⟩ := commitCp_eq hclaim hnew
  rw [hcommit]
  obtain ⟨-, hkept⟩ := Prod.mk.inj (judgePeriod_keeps (modeShown c s) (cpNoted c p s))
  obtain ⟨hjudgedSt, hcfg⟩ := Prod.mk.inj hkept
  have hjudged : cpOf (judgePeriod (modeShown c s) (cpNoted c p s)) = (some c, some (frameIndex s), s.lock.asm) := judgePeriod_cpOf _ _
  obtain ⟨hcpOf, hforeign⟩ := noteForeign_standby (c := c)
    (s := setLock (fun l => { l with cpGood := l.cpGood || !l.periodDiff }) (judgePeriod (modeShown c s) (cpNoted c p s)))
    (hjudgedSt.trans hst) (congrArg Prod.fst hjudged)
  refine ⟨hcpOf.trans hjudged, hforeign.trans ?_⟩
  unfold isForeign
  rw [setLock_cfg, hcfg]
  rfl

/-- The last fragment of an assembly that does not parse commits nothing. -/
theorem assembled_unparsed {q : Assembly} (h : parseCp s ((joinedParts m q).flatMap Prod.snd) = none) : assembled m q s = dropAssembly s := by
  unfold assembled
  rw [h]

/-- Nor does that of another frame's, or of a checkpoint older than the committed one. -/
theorem assembled_discarded {q : Assembly} {c : Checkpoint} (h : parseCp s ((joinedParts m q).flatMap Prod.snd) = some c)
    (hnot : c.frame ≠ fld m 8 8 ∨ ∃ o, s.lock.committed = some o ∧ countedFrame s (fld m 8 8) < o.frame) : assembled m q s = dropAssembly s := by
  unfold assembled
  rw [h]
  dsimp only
  split
  · next hframe =>
    obtain ⟨o, hcommitted, hold⟩ := hnot.resolve_left (· hframe)
    exact commitCp_older (s := dropAssembly s) hcommitted hold
  · rfl

theorem assembled_commits {q : Assembly} {c : Checkpoint} (h : parseCp s ((joinedParts m q).flatMap Prod.snd) = some c)
    (hframe : c.frame = fld m 8 8) : assembled m q s = commitCp { c with frame := countedFrame s (fld m 8 8) } (dropAssembly s) := by
  unfold assembled
  rw [h]
  exact if_pos hframe

/-- However it ends, the last fragment leaves no assembly. -/
theorem assembled_asm {q : Assembly} (hst : s.st = .standby) (hclaim : s.lock.claim = none) : (assembled m q s).lock.asm = none := by
  cases hparsed : parseCp s ((joinedParts m q).flatMap Prod.snd) with
  | none => exact congrArg (fun x : State => x.lock.asm) (assembled_unparsed hparsed)
  | some c =>
    by_cases hdiscarded : c.frame ≠ fld m 8 8 ∨ ∃ o, s.lock.committed = some o ∧ countedFrame s (fld m 8 8) < o.frame
    · exact congrArg (fun x : State => x.lock.asm) (assembled_discarded hparsed hdiscarded)
    · obtain ⟨hframe, hnot⟩ := not_or.mp hdiscarded
      rw [assembled_commits hparsed (not_not.mp hframe)]
      have hnew : ∀ o, s.lock.committed = some o → o.frame ≤ countedFrame s (fld m 8 8) := fun o ho => Nat.not_lt.mp fun hlt => hnot ⟨o, ho, hlt⟩
      exact congrArg (fun x => x.2.2) (commitCp_effect (s := dropAssembly s) (c := { c with frame := countedFrame s (fld m 8 8) }) hst hclaim hnew).1

/-! ### The relay, the drops of a second and a path's loss -/

/-- The drops of one port are recorded, and cleared (R323). -/
def dropsRecorded (p : Nat) (s : State) : State :=
  if nth 0 s.lock.drops p = 0 then s
  else event 0x0C08 (u8 (p + 1) ++ u32 (nth 0 s.lock.drops p)) (setLock (fun l => { l with drops := upd (fun _ => 0) l.drops p }) s)

theorem dropSecond_taking (h : rafTakes s = true) : dropSecond s = dropsRecorded 1 (dropsRecorded 0 s) := if_pos h

theorem upd_const_self {α : Type} (d c : α) : ∀ (l : List α) (i : Nat), nth d l i = c → upd (fun _ => c) l i = l
  | [], _, _ => rfl
  | _ :: _, 0, h => congrArg (· :: _) h.symm
  | x :: r, i + 1, h => congrArg (x :: ·) (upd_const_self d c r i h)

theorem dropsRecorded_rest (p : Nat) (s : State) :
    rest (dropsRecorded p s) = rest (setLock (fun l => { l with drops := upd (fun _ => 0) l.drops p }) s) := by
  unfold dropsRecorded
  split
  · next h =>
    unfold setLock
    dsimp only
    rw [upd_const_self 0 0 s.lock.drops p h]
  · exact event_rest _ _ _

theorem dropSecond_rest {a b : Nat} (h : rafTakes s = true) (hdrops : s.lock.drops = [a, b]) :
    rest (dropSecond s) = rest { s with lock := { s.lock with drops := [0, 0] } } := by
  have hfirst := congrArg (setLock fun l => { l with drops := upd (fun _ => 0) l.drops 1 }) (dropsRecorded_rest 0 s)
  have hsecond := dropsRecorded_rest 1 (dropsRecorded 0 s)
  rw [dropSecond_taking h]
  refine hsecond.trans ((congrArg rest hfirst).trans ?_)
  unfold setLock rest
  dsimp only
  rw [hdrops]
  rfl

theorem linkFaults_rest (s : State) : rest (linkFaults s) = rest s := by
  unfold linkFaults
  rw [faultCond_rest, faultCond_rest, faultCond_rest]

/-- A path that is down. -/
def withoutPath (port : Nat) (p : Peer) : Peer := if port = 0 then { p with pathL1 := none } else { p with pathL2 := none }

theorem pathDown_lost {k peer : Nat} {down : Bool} (hpath : pathOf port (peerOf s peer) = some k) (h : down = true ∨ recent s k = false) :
    rest (pathDown peer port down s) = rest (setPeer peer (withoutPath port) s) := by
  have hlost : pathDown peer port down s =
      linkFaults (event 0x0C04 (flag false ++ u8 peer ++ u8 (port + 1)) (setPeer peer (withoutPath port) s)) := by
    unfold pathOf at hpath
    unfold pathDown
    dsimp only
    rw [hpath]
    exact if_pos h
  rw [hlost, linkFaults_rest, event_rest]

theorem pathDown_not {k peer : Nat} {down : Bool}
    (h : pathOf port (peerOf s peer) = none ∨ (pathOf port (peerOf s peer) = some k ∧ down = false ∧ recent s k = true)) :
    pathDown peer port down s = s := by
  unfold pathOf at h
  unfold pathDown
  dsimp only
  rcases h with hpath | ⟨hpath, hup, hrecent⟩
  · rw [hpath]
  · rw [hpath]
    exact if_neg (by simp [hup, hrecent])

/-- Settles O44: a message by what is received of it, a beat by whether it is in step, a fragment by the assembly it joins. -/
theorem rafogerMessagesAreTakenRelayedOrCounted : Obligations.RafogerMessagesAreTakenRelayedOrCounted := by
  intro dt p ety x a b k ok dn m s u beat part valid bt f n mine same joins parts dropped others body good relays pt
  have hbeat : exec beat s = .next (settle (beatReceive (p % 2) ety m u)) := rfl
  have hpart : exec part s = .next (settle (checkpointFragment (p % 2) ety m u)) := rfl
  refine ⟨fun hoff => ⟨gives_of_settle hbeat (rafReceive_not hoff), gives_of_settle hpart (rafReceive_not hoff),
      gives_of_settle rfl (if_neg (ne_true_of_eq_false hoff))⟩,
    fun htakes hbad => ⟨gives_of_settle hbeat (rafReceive_dropped htakes hbad), gives_of_settle hpart (rafReceive_dropped htakes hbad)⟩,
    fun htakes hvalid => ⟨fun h => gives_of_settle hbeat (rafReceive_others htakes hvalid h),
      fun h => gives_of_settle hpart (rafReceive_others htakes hvalid h)⟩,
    fun htakes hvalid htype hmine hslot => ?beat, fun hst hvalid htype hmine hok q hjoins => ?fragment, fun hvalid htype htakes hnot => ?refused,
    fun h => gives_of_settle rfl (if_pos h), fun h => gives_of_settle rfl (if_neg h),
    fun htakes hdrops => givesRest_of_settle rfl (dropSecond_rest htakes hdrops),
    fun hpath h => givesRest_of_settle rfl (pathDown_lost hpath h), fun h => gives_of_settle rfl (pathDown_not h)⟩
  case beat =>
    have htaken : beatReceive (p % 2) ety m u = takeBeat (p % 2) bt u := rafReceive_taken htakes hvalid htype hmine
    exact ⟨_, hbeat.trans (by rw [htaken]), takeBeat_effect (powered_of_rafTakes htakes) hslot⟩
  case fragment =>
    have htaken : checkpointFragment (p % 2) ety m u = takeFragment m u := rafReceive_taken (rafTakes_standby hst) hvalid htype hmine
    have hjoined := htaken.trans (takeFragment_joined hst hok hjoins)
    refine ⟨fun hmore => gives_of_settle hpart (hjoined.trans (if_neg hmore)), fun hlast hclaim => ?_⟩
    have hassembled : checkpointFragment (p % 2) ety m u = assembled m q u := hjoined.trans (if_pos hlast)
    refine ⟨_, hpart.trans (by rw [hassembled]), ?_⟩
    rw [settle_lock]
    refine ⟨assembled_asm hst hclaim, ?_⟩
    split
    · next c hparsed =>
      refine ⟨fun hframe hnew => ?_, fun hnot => (congrArg (fun x : State => x.lock.committed) (assembled_discarded hparsed hnot)).trans rfl⟩
      rw [assembled_commits hparsed hframe]
      obtain ⟨hcpOf, hforeign⟩ := commitCp_effect (s := dropAssembly u) (c := { c with frame := f }) hst hclaim hnew
      exact ⟨congrArg Prod.fst hcpOf, congrArg (fun x => x.2.1) hcpOf, hforeign⟩
    · next hparsed => exact (congrArg (fun x : State => x.lock.committed) (assembled_unparsed hparsed)).trans rfl
  case refused =>
    by_cases hmine : mine = false
    · exact gives_of_settle hpart (rafReceive_others htakes hvalid (.inr hmine))
    · have htaken : checkpointFragment (p % 2) ety m u = takeFragment m u :=
        rafReceive_taken htakes hvalid htype (eq_true_of_ne_false hmine)
      exact gives_of_settle hpart (htaken.trans (takeFragment_not hnot))

end Sys2Proof.Machine
end

section
/-! SUPPORT. No operation of the module touches the queue of the commands that wait (notes/assumptions/1.md): one lemma per operation, in the order of
the model's files, each from the lemmas of the operations it is made of. -/

namespace Sys2Proof.Machine

variable (s : State)

@[simp] theorem ite_pending {c : Prop} [Decidable c] (t : State) : (if c then s else t).pending = if c then s.pending else t.pending :=
  apply_ite State.pending c s t

@[simp] theorem foldl_pending {α : Type} {f : State → α → State} (h : ∀ t a, (f t a).pending = t.pending) (xs : List α) :
    (xs.foldl f s).pending = s.pending := by
  induction xs generalizing s with
  | nil => rfl
  | cons a r ih => rw [List.foldl_cons, ih, h]

/-! ### Sending, free values and the write queue -/

@[simp] theorem recordRaw_pending (r : Rec) : (recordRaw r s).pending = s.pending := by unfold recordRaw; split <;> rfl

/-! ### Rafoger messages -/

@[simp] theorem sendRaf_pending (type frame : Nat) (body : Bytes) : (sendRaf type frame body s).pending = s.pending := rfl
@[simp] theorem sendRelease_pending (frame expiry : Nat) : (sendRelease frame expiry s).pending = s.pending := rfl
@[simp] theorem releaseBetweenTicks_pending : (releaseBetweenTicks s).pending = s.pending := by unfold releaseBetweenTicks; split <;> rfl
@[simp] theorem releaseAtTick_pending : (releaseAtTick s).pending = s.pending := by unfold releaseAtTick; split <;> rfl

/-! ### Events and faults -/

@[simp] theorem evRaw_pending (code : Nat) (data : Bytes) : (evRaw code data s).pending = s.pending := by simp [evRaw]
@[simp] theorem demandReset_pending : (demandReset s).pending = s.pending := rfl
@[simp] theorem surrender_pending : (surrender s).pending = s.pending := by unfold surrender; split <;> simp
@[simp] theorem holdBlock_pending (code : Nat) (b : Block) : (holdBlock code b s).pending = s.pending := rfl
@[simp] theorem resetAtRaise_pending (code : Nat) (b : Block) : (resetAtRaise code b s).pending = s.pending := by unfold resetAtRaise; split <;> simp
@[simp] theorem touchClass_pending (c : Nat) : (touchClass c s).pending = s.pending := rfl
@[simp] theorem assertFlt_pending (code : Nat) : (assertFlt code s).pending = s.pending := by unfold assertFlt; split <;> rfl

@[simp] theorem directReact_pending (code : Nat) (blks : List Block) :
    (directReact code blks s).pending = s.pending := by unfold directReact; split <;> simp

@[simp] theorem raiseCore_pending (code : Nat) (oneShot : Bool) (blks : List Block) :
    (raiseCore code oneShot blks s).pending = s.pending := by unfold raiseCore; split <;> simp

@[simp] theorem lossCheck_pending (before : Nat) : (lossCheck before s).pending = s.pending := by unfold lossCheck; split <;> simp
@[simp] theorem updateFlt_pending : (updateFlt s).pending = s.pending := by unfold updateFlt; split <;> rfl
@[simp] theorem mokAtTick_pending : (mokAtTick s).pending = s.pending := rfl

/-! ### Mailboxes -/

@[simp] theorem sendTo_pending (r : Request) (msg : Bytes) : (sendTo r msg s).pending = s.pending := rfl

@[simp] theorem flushBox_pending (m : Nat) : (flushBox m s).pending = s.pending := by
  refine (foldl_pending _ (fun t r => ?_) _).trans rfl
  exact sendTo_pending t r _

@[simp] theorem pump_pending (n m : Nat) : (pump n m s).pending = s.pending := by
  induction n generalizing s with
  | zero => rfl
  | succ n ih =>
    unfold pump
    dsimp only
    split
    · rfl
    · split
      · rfl
      · exact ih _

@[simp] theorem serve_pending (m : Nat) : (serve m s).pending = s.pending := by simp [serve]
@[simp] theorem refuseNow_pending (e : Err) (r : Request) : (refuseNow e r s).pending = s.pending := rfl

theorem refuseFullIn_pending (window : Nat) (r : Request) : (refuseFullIn window r s).pending = s.pending := by
  unfold refuseFullIn
  dsimp only
  split <;> dsimp only <;> split <;> rfl

@[simp] theorem refuseFull_pending (r : Request) : (refuseFull r s).pending = s.pending := refuseFullIn_pending s _ r

@[simp] theorem acceptRequest_pending (r : Request) : (acceptRequest r s).pending = s.pending := by
  unfold acceptRequest
  dsimp only
  split
  · rfl
  · (repeat' split) <;> simp

@[simp] theorem arrive_pending (port : HostPort) (src : Src) (dst : IpDst) (m : Bytes) : (arrive port src dst m s).pending = s.pending := by
  unfold arrive
  (repeat' split) <;> simp

@[simp] theorem answerTurn_pending (m : Nat) (msg : Bytes) : (answerTurn m msg s).pending = s.pending := rfl

/-! ### The Ledger -/

@[simp] theorem drainQueue_pending : (drainQueue s).pending = s.pending := rfl
@[simp] theorem reportLoss_pending : (reportLoss s).pending = s.pending := by unfold reportLoss; split <;> simp
@[simp] theorem writeRecord_pending (failedTwice : Bool) : (writeRecord failedTwice s).pending = s.pending := by unfold writeRecord; split <;> simp
@[simp] theorem saveOp_pending : (saveOp s).pending = s.pending := by unfold saveOp; split <;> rfl

/-! ### The real-time clock -/

@[simp] theorem fireAlarm_pending (i : Nat) (skipped : Bool) : (fireAlarm i skipped s).pending = s.pending := by simp [fireAlarm]
@[simp] theorem alarmsAtCarry_pending : (alarmsAtCarry s).pending = s.pending := by simp [alarmsAtCarry]
@[simp] theorem alarmsAtLoad_pending (old : Cal) : (alarmsAtLoad old s).pending = s.pending := by simp [alarmsAtLoad]
@[simp] theorem loadCal_pending (who : Nat) (c : Cal) (subEl : Nat) : (loadCal who c subEl s).pending = s.pending := by simp [loadCal]
@[simp] theorem opSnap_pending : (opSnap s).pending = s.pending := rfl
@[simp] theorem opCommit_pending : (opCommit s).pending = s.pending := by unfold opCommit; split <;> simp
@[simp] theorem opStDate_pending (v : Nat) : (opStDate v s).pending = s.pending := rfl
@[simp] theorem opStTime_pending (v : Nat) : (opStTime v s).pending = s.pending := rfl
@[simp] theorem opStatus_pending (v : Nat) : (opStatus v s).pending = s.pending := by unfold opStatus; split <;> simp
@[simp] theorem opRaw_pending (ofs v : Nat) : (opRaw ofs v s).pending = s.pending := by unfold opRaw; split <;> simp

@[simp] theorem unlessFollowing_pending (f : State → State) (h : (f s).pending = s.pending) : (unlessFollowing f s).pending = s.pending := by
  unfold unlessFollowing
  split
  · rfl
  · exact h

@[simp] theorem rawPlain_pending (ofs v : Nat) : (rawPlain ofs v s).pending = s.pending := by unfold rawPlain; split <;> simp
@[simp] theorem secondCarry_pending : (secondCarry s).pending = s.pending := by unfold secondCarry; split <;> simp
@[simp] theorem oscStop_pending : (oscStop s).pending = s.pending := by simp [oscStop]
@[simp] theorem bkReset_pending : (bkReset s).pending = s.pending := by unfold bkReset; split <;> rfl
@[simp] theorem followCheck_pending : (followCheck s).pending = s.pending := by simp [followCheck]

/-! ### Steps of bring-up -/

@[simp] theorem endStep_pending (n : Nat) : (endStep n s).pending = s.pending := by simp [endStep]
@[simp] theorem advance5_pending : (advance5 s).pending = s.pending := by unfold advance5; split <;> simp
@[simp] theorem advance6_pending : (advance6 s).pending = s.pending := by unfold advance6; split <;> simp
@[simp] theorem note7_pending : (note7 s).pending = s.pending := by unfold note7; split <;> simp
@[simp] theorem advance7_pending : (advance7 s).pending = s.pending := by unfold advance7; split <;> rfl
@[simp] theorem lockFault_pending : (lockFault s).pending = s.pending := by unfold lockFault; split <;> simp
@[simp] theorem bringProgress_pending : (bringProgress s).pending = s.pending := by simp [bringProgress]

/-! ### The timebase -/

@[simp] theorem timeFaults_pending : (timeFaults s).pending = s.pending := by simp [timeFaults]
@[simp] theorem setTb_pending (t : TbState) : (setTb t s).pending = s.pending := by unfold setTb; split <;> simp
@[simp] theorem setAddend_pending (a : Int) : (setAddend a s).pending = s.pending := rfl

@[simp] theorem loseSources_hold_pending (e : Nat) (g : Bool) :
    (loseSources.hold e g s).pending = s.pending := by unfold loseSources.hold; split <;> simp

@[simp] theorem loseSources_pending : (loseSources s).pending = s.pending := by
  unfold loseSources
  dsimp only
  split
  · exact loseSources_hold_pending _ _ _
  · split
    · exact loseSources_hold_pending _ _ _
    · simp
  · simp

@[simp] theorem reselect_pending : (reselect s).pending = s.pending := by
  unfold reselect
  dsimp only
  split
  · rfl
  · split
    · exact loseSources_pending s
    · split <;> simp

@[simp] theorem queueStep_pending (theta : Int) : (queueStep theta s).pending = s.pending := rfl
@[simp] theorem slew_pending (theta : Int) : (slew theta s).pending = s.pending := rfl
@[simp] theorem correct_duty_pending (theta : Int) (a : Nat) : (correct.duty theta a s).pending = s.pending := by unfold correct.duty; split <;> simp

@[simp] theorem correct_pending (theta : Int) : (correct theta s).pending = s.pending := by
  unfold correct
  dsimp only
  split
  · rfl
  · rfl
  · exact correct_duty_pending s theta _
  · exact correct_duty_pending s theta _
  · split <;> simp

@[simp] theorem judgeLock_pending (theta : Int) : (judgeLock theta s).pending = s.pending := by unfold judgeLock; split <;> simp

@[simp] theorem measure_pending (theta : Int) : (Machine.measure theta s).pending = s.pending := by
  unfold measure
  dsimp only
  split <;> simp

@[simp] theorem firstTime_pending (theta : Int) : (firstTime theta s).pending = s.pending := by unfold firstTime; split <;> simp
@[simp] theorem setPort_pending (p : Nat) (q : PtpPort) : (setPort p q s).pending = s.pending := rfl
@[simp] theorem applyUtc_pending : (applyUtc s).pending = s.pending := by unfold applyUtc; split <;> simp
@[simp] theorem syncDone_pending (p : Nat) (t1 t2 : Int) : (syncDone p t1 t2 s).pending = s.pending := by unfold syncDone; split <;> simp
@[simp] theorem delayDone_pending (p : Nat) (d : Int) : (delayDone p d s).pending = s.pending := by simp [delayDone]

@[simp] theorem ptpReceive_pending (p : Nat) (m : PtpMsg) : (ptpReceive p m s).pending = s.pending := by
  unfold ptpReceive
  dsimp only
  split
  · rfl
  · split
    all_goals (repeat' split) <;> simp

@[simp] theorem ptpSend_pending (p : Nat) (m : PtpSend) : (ptpSend p m s).pending = s.pending := by unfold ptpSend; split <;> simp

@[simp] theorem sourceLoss_pending (ptpPort : Option Nat) (gnss : Bool) :
    (sourceLoss ptpPort gnss s).pending = s.pending := by unfold sourceLoss; split <;> simp

@[simp] theorem permitExpiry_pending : (permitExpiry s).pending = s.pending := by unfold permitExpiry; split <;> simp
@[simp] theorem notLockedFault_pending : (notLockedFault s).pending = s.pending := by unfold notLockedFault; split <;> simp
@[simp] theorem markLate_pending (t0 t1 : Nat) : (markLate t0 t1 s).pending = s.pending := rfl
@[simp] theorem moveDecided_pending (d : Int) : (moveDecided d s).pending = s.pending := rfl
@[simp] theorem timebaseStep_pending : (timebaseStep s).pending = s.pending := by unfold timebaseStep; split <;> simp

@[simp] theorem trigPulse_pending (n : Nat) : (trigPulse n s).pending = s.pending := by
  unfold trigPulse
  dsimp only
  (repeat' split) <;> rfl

@[simp] theorem trigEnd_pending (n : Nat) : (trigEnd n s).pending = s.pending := by simp [trigEnd]
@[simp] theorem moveCal_pending (ms : Int) : (moveCal ms s).pending = s.pending := by simp [moveCal]

/-! ### Intake -/

@[simp] theorem commitSlot_pending (dest : Nat) (v : Int) (stamp q : Nat) : (commitSlot dest v stamp q s).pending = s.pending := rfl
@[simp] theorem count_pending (p : Nat) (f : Counters → Counters) : (count p f s).pending = s.pending := rfl

@[simp] theorem applyFate_pending (p stamp : Nat) (e : Image.Entry) (f : Fate) :
    (applyFate p stamp e f s).pending = s.pending := by unfold applyFate; split <;> rfl

@[simp] theorem commitMessage_pending (p stamp : Nat) (es : List Image.Entry) (read : Image.Entry → Raw) :
    (commitMessage p stamp es read s).pending = s.pending := by unfold commitMessage; split <;> simp

@[simp] theorem lockSerial_pending (p baud : Nat) : (lockSerial p baud s).pending = s.pending := by unfold lockSerial; split <;> simp
@[simp] theorem endCond_pending (code : Nat) (on : Bool) : (endCond code on s).pending = s.pending := by unfold endCond; split <;> simp

@[simp] theorem serialMessage_pending (p baud : Nat) (m : Bytes × Bool) : (serialMessage p baud m s).pending = s.pending := by
  unfold serialMessage
  dsimp only
  split <;> simp

@[simp] theorem sentenceReceive_pending (p baud : Nat) (chars : Bytes) (_ending : MsgEnd) :
    (sentenceReceive p baud chars _ending s).pending = s.pending := by
  unfold sentenceReceive
  split
  simp

@[simp] theorem serialUnlock_pending (p : Nat) : (serialUnlock p s).pending = s.pending := by simp [serialUnlock]
@[simp] theorem serialUnlockedFault_pending (p : Nat) : (serialUnlockedFault p s).pending = s.pending := by unfold serialUnlockedFault; split <;> simp

@[simp] theorem sentence450_pending (p h arr stamp : Nat) (line : Bytes) (s1 : State) : (sentence450 p h arr stamp line s1).pending = s1.pending := by
  unfold sentence450
  (repeat' split) <;> simp

@[simp] theorem serve450_pending (p h : Nat) (d : Pend) : (serve450 p h d s).pending = s.pending := by unfold serve450; split <;> simp

@[simp] theorem noteUdp_pending (h arr : Nat) (bs : Bytes) (e : Image.Entry) :
    (noteUdp h arr bs e s).pending = s.pending := by unfold noteUdp; split <;> rfl

@[simp] theorem serveUdp_pending (p h : Nat) (d : Pend) (s1 : State) : (serveUdp p h d s1).pending = s1.pending := by simp [serveUdp]
@[simp] theorem servePend_pending (p : Nat) (d : Pend) : (servePend p d s).pending = s.pending := by unfold servePend; split <;> simp

@[simp] theorem serveIntake_pending : (serveIntake s).pending = s.pending := by
  unfold serveIntake
  dsimp only
  have hdropped : (queuePorts.foldl (fun t p => setIntakePort p (fun x => { x with waiting := x.waiting.drop (servedOf s p).length }) t) s).pending =
      s.pending := by
    refine foldl_pending _ (fun t p => ?_) _
    rfl
  split
  · refine (foldl_pending _ (fun t x => ?_) _).trans hdropped
    exact servePend_pending t x.1 x.2
  · exact hdropped

@[simp] theorem queueMessage_pending (p : Nat) (d : Pend) (s0 : State) :
    (queueMessage p d s0).pending = s0.pending := by unfold queueMessage; split <;> simp

@[simp] theorem datagram450_pending (port : Nat) (d : Datagram) : (datagram450 port d s).pending = s.pending := by unfold datagram450; split <;> simp

@[simp] theorem commitNative_pending (e : Image.Entry) (v : Int) (stamp q : Nat) : (commitNative e v stamp q s).pending = s.pending := by
  unfold commitNative
  (repeat' split) <;> simp

@[simp] theorem closeIntake_pending : (closeIntake s).pending = s.pending := rfl
@[simp] theorem takeSnapshot_pending : (takeSnapshot s).pending = s.pending := rfl
@[simp] theorem resetStore_pending : (resetStore s).pending = s.pending := rfl
@[simp] theorem unlockPort_pending (p : Nat) : (unlockPort p s).pending = s.pending := by unfold unlockPort; split <;> simp
@[simp] theorem startIntake_pending (s0 : State) : (startIntake s0).pending = s0.pending := by simp [startIntake]
@[simp] theorem floodTick_pending : (floodTick s).pending = s.pending := by simp [floodTick]
@[simp] theorem floodFault_pending (p : Nat) : (floodFault p s).pending = s.pending := by unfold floodFault; split <;> simp
@[simp] theorem counterSecond_pending (s0 : State) : (counterSecond s0).pending = s0.pending := by simp [counterSecond]
@[simp] theorem malformedRateFault_pending (p : Nat) : (malformedRateFault p s).pending = s.pending := by unfold malformedRateFault; split <;> simp

/-! ### Analog channels -/

@[simp] theorem noteSettled_pending : (noteSettled s).pending = s.pending := by unfold noteSettled; split <;> simp
@[simp] theorem endChanFaults_pending : (endChanFaults s).pending = s.pending := by simp [endChanFaults]

@[simp] theorem stopGroup_pending (g : Nat) : (stopGroup g s).pending = s.pending := by
  refine (endChanFaults_pending _).trans ((foldl_pending _ (fun t c => ?_) _).trans rfl)
  rfl

@[simp] theorem analogOff_pending : (analogOff s).pending = s.pending := by simp [analogOff]
@[simp] theorem analogOn_pending : (analogOn s).pending = s.pending := by unfold analogOn; split <;> simp
@[simp] theorem noteAnalog_pending : (noteAnalog s).pending = s.pending := rfl
@[simp] theorem groupTick_pending (g : Nat) : (groupTick s g).pending = s.pending := by simp [groupTick]
@[simp] theorem analogTick_pending : (analogTick s).pending = s.pending := by simp [analogTick]

@[simp] theorem groupStart_pending (g : Nat) : (groupStart g s).pending = s.pending := by
  unfold groupStart
  dsimp only
  split
  · split
    · refine (event_pending _ _ _).trans ((foldl_pending _ (fun t c => ?_) _).trans rfl)
      rfl
    · rfl
  · rfl

@[simp] theorem serveChannel_pending (c : Nat) : (serveChannel c s).pending = s.pending := by unfold serveChannel; split <;> simp
@[simp] theorem serveAnalog_pending : (serveAnalog s).pending = s.pending := by simp [serveAnalog]
@[simp] theorem analogSample_pending (c : Nat) (mods : List Bool) : (analogSample c mods s).pending = s.pending := by simp [analogSample]
@[simp] theorem modulatorOverload_pending (c : Nat) (input : Int) : (modulatorOverload c input s).pending = s.pending := by simp [modulatorOverload]
@[simp] theorem modulatorRestart_pending (c : Nat) : (modulatorRestart c s).pending = s.pending := by simp [modulatorRestart]
@[simp] theorem analogChannelFault_pending (c : Nat) : (analogChannelFault c s).pending = s.pending := by simp [analogChannelFault]
@[simp] theorem analogImage_pending (old : Image.Analog) : (analogImage old s).pending = s.pending := by simp [analogImage]

/-! ### Paths of the links -/

@[simp] theorem linkFaults_pending : (linkFaults s).pending = s.pending := by simp [linkFaults]

/-! ### Inputs, supplies and outputs -/

@[simp] theorem commitInput_pending (n : Nat) : (commitInput n s).pending = s.pending := by
  unfold commitInput
  dsimp only
  split <;> simp

@[simp] theorem windowDi_pending (w : WindowIn) : (windowDi w s).pending = s.pending := by simp [windowDi]
@[simp] theorem windowSx_pending (w : WindowIn) : (windowSx w s).pending = s.pending := by unfold windowSx; split <;> simp
@[simp] theorem supplyFaults_pending : (supplyFaults s).pending = s.pending := by simp [supplyFaults]
@[simp] theorem groupOff_pending (g : Nat) : (groupOff g s).pending = s.pending := by simp [groupOff]
@[simp] theorem groupRelease_pending (g : Nat) : (groupRelease g s).pending = s.pending := by simp [groupRelease]
@[simp] theorem tryRelease_pending (g : Nat) : (tryRelease g s).pending = s.pending := by unfold tryRelease; split <;> simp
@[simp] theorem armStep_pending (g : Nat) : (armStep g s).pending = s.pending := by simp [armStep]
@[simp] theorem windowSupply_pending (w : WindowIn) : (windowSupply w s).pending = s.pending := by unfold windowSupply; split <;> simp
@[simp] theorem inputWindow_pending (w : WindowIn) : (inputWindow w s).pending = s.pending := by unfold inputWindow; split <;> simp

@[simp] theorem supplyRecovered_pending (i : Nat) (l : FsLevel) :
    (supplyRecovered i l s).pending = s.pending := by unfold supplyRecovered; split <;> simp

@[simp] theorem serveUnit_pending (u : Nat) : (serveUnit u s).pending = s.pending := by unfold serveUnit; split <;> simp
@[simp] theorem serveCaptures_pending : (serveCaptures s).pending = s.pending := by simp [serveCaptures]
@[simp] theorem serveAll_pending : (serveAll s).pending = s.pending := by simp [serveAll]

@[simp] theorem captureEdge_pending (u : Nat) (rising : Bool) (s0 : State) :
    (captureEdge u rising s0).pending = s0.pending := by unfold captureEdge; split <;> simp

@[simp] theorem latchFaults_pending : (latchFaults s).pending = s.pending := by simp [latchFaults]
@[simp] theorem applyDo_pending (c : Nat) : (applyDo c s).pending = s.pending := by simp [applyDo]
@[simp] theorem applyOutputs_pending : (applyOutputs s).pending = s.pending := by unfold applyOutputs; split <;> simp
@[simp] theorem outputsOff_pending : (outputsOff s).pending = s.pending := rfl
@[simp] theorem latchDo_pending (c kind : Nat) : (latchDo c kind s).pending = s.pending := by unfold latchDo; split <;> simp

@[simp] theorem groupOvercurrent_pending (g : Nat) (still : Bool) :
    (groupOvercurrent g still s).pending = s.pending := by unfold groupOvercurrent; split <;> simp

@[simp] theorem fieldImage_pending : (fieldImage s).pending = s.pending := by simp [fieldImage]
@[simp] theorem ioOff_pending : (ioOff s).pending = s.pending := by simp [ioOff]

/-! ### Connections -/

@[simp] theorem connEvent_pending (n : Nat) (opened : Bool) (ver : Nat) : (connEvent n opened ver s).pending = s.pending := by simp [connEvent]
@[simp] theorem connFault_pending : (connFault s).pending = s.pending := by simp [connFault]
@[simp] theorem closeConn_pending (n : Nat) : (closeConn n s).pending = s.pending := by simp [closeConn]
@[simp] theorem watchdogExpired_pending (n : Nat) : (watchdogExpired n s).pending = s.pending := by unfold watchdogExpired; split <;> simp

@[simp] theorem setupAck_pending (n : Nat) (bs : Bytes) : (setupAck n bs s).pending = s.pending := by
  unfold setupAck
  dsimp only
  split
  · split
    · rfl
    · split <;> simp
  · rfl

@[simp] theorem canIntake_pending (c idWord : Nat) (data : Bytes) : (canIntake c idWord data s).pending = s.pending := by simp [canIntake]
@[simp] theorem canUnread_pending (c : Nat) : (canUnread c s).pending = s.pending := rfl

@[simp] theorem oscReceive_pending (n : Nat) (bs : Bytes) : (oscReceive n bs s).1.pending = s.pending := by
  unfold oscReceive
  dsimp only
  (repeat' split) <;> simp

@[simp] theorem oscArrive_pending (n : Nat) (bs : Bytes) : (oscArrive n bs s).pending = s.pending := by
  unfold oscArrive
  dsimp only
  split
  · split <;> [split; skip] <;> simp
  · rfl

@[simp] theorem watchdogRow_pending (n : Nat) : (watchdogRow n s).pending = s.pending := by simp [watchdogRow]
@[simp] theorem sendSetup_pending (n : Nat) : (sendSetup n s).pending = s.pending := rfl
@[simp] theorem sendUdp_pending (c : Image.Conn) (bs : Bytes) : (sendUdp c bs s).pending = s.pending := rfl
@[simp] theorem closeAll_pending : (closeAll s).pending = s.pending := by simp [closeAll]

/-! ### Controllers and slots -/

@[simp] theorem canCount_pending (c : Nat) (f : CanCounters → CanCounters) : (canCount c f s).pending = s.pending := rfl
@[simp] theorem setSafe_pending (c : Nat) (f : SlotMsg → SlotMsg) : (setSafe c f s).pending = s.pending := rfl
@[simp] theorem canFaults_pending (c : Nat) : (canFaults c s).pending = s.pending := by simp [canFaults]
@[simp] theorem cancelPending_pending (c : Nat) : (cancelPending c s).pending = s.pending := rfl
@[simp] theorem setErr_pending (c tec rec : Nat) : (setErr c tec rec s).pending = s.pending := by simp [setErr]
@[simp] theorem txResult_pending (c : Nat) (acked : Bool) : (txResult c acked s).pending = s.pending := by unfold txResult; split <;> simp
@[simp] theorem rxGood_pending (c : Nat) : (rxGood c s).pending = s.pending := by simp [rxGood]
@[simp] theorem receiveError_pending (c : Nat) : (receiveError c s).pending = s.pending := by unfold receiveError; split <;> simp
@[simp] theorem protocolException_pending (c : Nat) : (protocolException c s).pending = s.pending := by unfold protocolException; split <;> rfl
@[simp] theorem busoffHold_pending (c : Nat) : (busoffHold c s).pending = s.pending := by simp [busoffHold]
@[simp] theorem busoffRecovered_pending (c : Nat) : (busoffRecovered c s).pending = s.pending := by unfold busoffRecovered; split <;> simp
@[simp] theorem canStart_pending (c : Nat) : (canStart c s).pending = s.pending := by simp [canStart]
@[simp] theorem canStartAll_pending : (canStartAll s).pending = s.pending := by simp [canStartAll]
@[simp] theorem drive_pending (ctrl idWord len : Nat) (b : Bytes) : (drive ctrl idWord len b s).pending = s.pending := rfl

@[simp] theorem gateSlots_pending (started : List Nat) (hit : Nat → Bool) : (gateSlots started hit s).pending = s.pending := by
  refine foldl_pending _ (fun t p => ?_) _
  dsimp only
  (repeat' split) <;> simp

@[simp] theorem suppressSlots_pending (started : List Nat) : (suppressSlots started s).pending = s.pending := by simp [suppressSlots]
@[simp] theorem lostArb_pending (c n : Nat) : (lostArb c n s).pending = s.pending := rfl

@[simp] theorem slotStart_pending (e : Nat) (sof : Bool) : (slotStart e sof s).pending = s.pending := by
  unfold slotStart
  (repeat' split) <;> simp

@[simp] theorem runFaults_pending : (runFaults s).pending = s.pending := by unfold runFaults; split <;> simp

@[simp] theorem slotEnd_pending (e : Nat) (sof : Bool) (arbLost : Nat) :
    (slotEnd e sof arbLost s).pending = s.pending := by unfold slotEnd; split <;> simp

@[simp] theorem safetySlotStart_pending (c : Nat) : (safetySlotStart c s).pending = s.pending := by
  unfold safetySlotStart
  dsimp only
  split
  · split <;> split <;> simp
  · rfl

@[simp] theorem txCount_pending (c : Nat) (acked : Bool) : (txCount c acked s).pending = s.pending := rfl

@[simp] theorem txComplete_pending (c : Nat) (entry : Option Nat) (acked : Bool) (arbLost : Nat) :
    (txComplete c entry acked arbLost s).pending = s.pending := by unfold txComplete; split <;> simp

@[simp] theorem slotRunFault_pending (c : Nat) (entry : Option Nat) :
    (slotRunFault c entry s).pending = s.pending := by unfold slotRunFault; split <;> simp

@[simp] theorem canFrame_pending (c idWord : Nat) (remote : Bool) (data : Bytes) : (canFrame c idWord remote data s).pending = s.pending := by
  unfold canFrame
  (repeat' split) <;> simp

@[simp] theorem canSecond_pending : (canSecond s).pending = s.pending := by simp [canSecond]

/-! ### The safety pair -/

@[simp] theorem setFunc_pending (f : Nat) (g : FuncSt → FuncSt) : (setFunc f g s).pending = s.pending := rfl
@[simp] theorem pairsStep_pending : (pairsStep s).pending = s.pending := by simp [pairsStep]
@[simp] theorem soOff_pending (mask : Nat) : (soOff mask s).pending = s.pending := rfl
@[simp] theorem trip_pending (f cause : Nat) (started : List Nat) : (trip f cause started s).pending = s.pending := by simp [trip]

@[simp] theorem tripAll_pending (started : List Nat) : (tripAll started s).pending = s.pending := by
  refine foldl_pending _ (fun t f => ?_) _
  (repeat' split) <;> simp

@[simp] theorem tripQuiet_pending (f cause : Nat) : (tripQuiet f cause s).pending = s.pending := by simp [tripQuiet]
@[simp] theorem startTrips_pending : (startTrips s).pending = s.pending := by simp [startTrips]
@[simp] theorem arm_pending (f : Nat) (auto : Bool) : (arm f auto s).pending = s.pending := by simp [arm]

@[simp] theorem pulse_pending (d : Nat) : (pulse d s).pending = s.pending := by
  refine foldl_pending _ (fun t f => ?_) _
  (repeat' split) <;> simp

@[simp] theorem resetsStep_pending : (resetsStep s).pending = s.pending := by simp [resetsStep]
@[simp] theorem autoArm_pending : (autoArm s).pending = s.pending := by simp [autoArm]
@[simp] theorem edmStep_pending : (edmStep s).pending = s.pending := by simp [edmStep]
@[simp] theorem writeOutputs_pending : (writeOutputs s).pending = s.pending := rfl
@[simp] theorem writeTelegrams_pending : (writeTelegrams s).pending = s.pending := by simp [writeTelegrams]
@[simp] theorem readInputs_pending : (readInputs s).pending = s.pending := rfl
@[simp] theorem safetyFaults_pending : (safetyFaults s).pending = s.pending := by simp [safetyFaults]

@[simp] theorem safetyCycle_pending (fs1Mv fs2Mv : Nat) (started : List Nat) :
    (safetyCycle fs1Mv fs2Mv started s).pending = s.pending := by unfold safetyCycle; split <;> simp

@[simp] theorem soTimeout_pending (ch : Nat) : (soTimeout ch s).pending = s.pending := by unfold soTimeout; split <;> rfl
@[simp] theorem lockstep_pending : (lockstep s).pending = s.pending := by unfold lockstep; split <;> simp
@[simp] theorem discrepancy_pending (k : Nat) : (discrepancy k s).pending = s.pending := by unfold discrepancy; split <;> simp
@[simp] theorem stuckReset_pending (d : Nat) : (stuckReset d s).pending = s.pending := by simp [stuckReset]
@[simp] theorem edmCheck_pending (f : Nat) : (edmCheck f s).pending = s.pending := by unfold edmCheck; split <;> simp
@[simp] theorem soTestPulse_pending (ch : Nat) (ok : Bool) : (soTestPulse ch ok s).pending = s.pending := by unfold soTestPulse; split <;> simp
@[simp] theorem proofOverdue_pending (f : Nat) : (proofOverdue f s).pending = s.pending := by simp [proofOverdue]
@[simp] theorem safetyOn_pending : (safetyOn s).pending = s.pending := by unfold safetyOn; split <;> rfl
@[simp] theorem safetyOff_pending : (safetyOff s).pending = s.pending := by simp [safetyOff]

/-! ### Fusion -/

@[simp] theorem refEvents_pending (old : RefSt) (w : RefW) : (refEvents old w s).pending = s.pending := by simp [refEvents]
@[simp] theorem warmCheck_pending : (warmCheck s).pending = s.pending := by unfold warmCheck; split <;> simp
@[simp] theorem fusionFaults_pending : (fusionFaults s).pending = s.pending := by simp [fusionFaults]

@[simp] theorem kindStep_pending (kind : Nat) (a : Attitude) (hp : Bool) (old : Fused) (minIn : Nat) : (kindStep kind a hp old minIn s).1.pending = s.pending := by
  unfold kindStep
  dsimp only
  split <;> split <;> simp

@[simp] theorem fusionP1_pending : (fusionP1 s).pending = s.pending := by
  unfold fusionP1
  split
  · simp
  · rfl

@[simp] theorem fusionLate_pending : (fusionLate s).pending = s.pending := rfl
@[simp] theorem latchNav_pending : (latchNav s).pending = s.pending := by unfold latchNav; split <;> simp
@[simp] theorem fusionStart_pending : (fusionStart s).pending = s.pending := rfl
@[simp] theorem fusionLoad_pending (f : FusionSt) (tic : Nat) : (fusionLoad f tic s).pending = s.pending := rfl
@[simp] theorem fusionStop_pending : (fusionStop s).pending = s.pending := by simp [fusionStop]
@[simp] theorem skewRelearn_pending (i : Nat) : (skewRelearn i s).pending = s.pending := by simp [skewRelearn]
@[simp] theorem awaitTimeout_pending (i : Nat) : (awaitTimeout i s).pending = s.pending := by simp [awaitTimeout]
@[simp] theorem drLimit_pending (heading : Bool) : (drLimit heading s).pending = s.pending := by unfold drLimit; split <;> simp
@[simp] theorem kindNotValid_pending (wind : Bool) : (kindNotValid wind s).pending = s.pending := by unfold kindNotValid; split <;> simp

/-! ### Observer -/

@[simp] theorem setCtrl_pending (bit : Nat) (on : Bool) : (setCtrl bit on s).pending = s.pending := by unfold setCtrl; split <;> rfl
@[simp] theorem windStep_pending : (windStep s).pending = s.pending := by simp [windStep]
@[simp] theorem selectors_pending : (selectors s).pending = s.pending := rfl
@[simp] theorem endBlend_pending : (endBlend s).pending = s.pending := by unfold endBlend; split <;> simp

@[simp] theorem regionStep_pending (s0 : State) : (regionStep s0).pending = s0.pending := by
  unfold regionStep
  dsimp only
  split <;> simp

@[simp] theorem obsStep1_pending : (obsStep1 s).pending = s.pending := by simp [obsStep1]

@[simp] theorem applyUpdate_pending (q : ObsInputs) (eps : List Int) : (applyUpdate q eps s).pending = s.pending := by
  unfold applyUpdate
  split
  simp

@[simp] theorem obsRun_pending (s0 : State) : (obsRun s0).pending = s0.pending := by simp [obsRun]
@[simp] theorem obsInit_pending : (obsInit s).pending = s.pending := by simp [obsInit]
@[simp] theorem corrFlags_pending : (corrFlags s).pending = s.pending := by simp [corrFlags]
@[simp] theorem obsStep2_pending (s0 : State) : (obsStep2 s0).pending = s0.pending := by simp [obsStep2]
@[simp] theorem obsMissed_pending : (obsMissed s).pending = s.pending := by unfold obsMissed; split <;> rfl
@[simp] theorem obsStep3_pending : (obsStep3 s).pending = s.pending := rfl
@[simp] theorem obsReset_pending : (obsReset s).pending = s.pending := rfl
@[simp] theorem blendEnd_pending : (blendEnd s).pending = s.pending := by unfold blendEnd; split <;> simp
@[simp] theorem controlPersist_pending (noRegion : Bool) : (controlPersist noRegion s).pending = s.pending := by unfold controlPersist; split <;> simp

/-! ### Set-points -/

@[simp] theorem beginMove_pending (m : Move) (t : Nat) : (beginMove m t s).pending = s.pending := by simp [beginMove]

@[simp] theorem moveRest_pending (t : Nat) : (moveRest t s).pending = s.pending := by
  unfold moveRest
  (repeat' split) <;> simp

@[simp] theorem pushLatch_pending : (pushLatch s).pending = s.pending := by simp [pushLatch]
@[simp] theorem pushRampEnd_pending (t : Nat) : (pushRampEnd t s).pending = s.pending := by simp [pushRampEnd]
@[simp] theorem spCapture_pending (t : Nat) : (spCapture t s).pending = s.pending := rfl
@[simp] theorem spEval_pending (t : Nat) : (spEval t s).pending = s.pending := by unfold spEval; split <;> rfl
@[simp] theorem spStep_pending : (spStep s).pending = s.pending := by unfold spStep; split <;> simp
@[simp] theorem spDiscard_pending : (spDiscard s).pending = s.pending := rfl

/-! ### Control -/

@[simp] theorem ctlStep5_pending : (ctlStep5 s).pending = s.pending := by
  unfold ctlStep5
  split
  simp

@[simp] theorem ctlStep6_pending : (ctlStep6 s).pending = s.pending := by simp [ctlStep6]
@[simp] theorem p2Step_pending (n : Nat) : (p2Step n s).pending = s.pending := by unfold p2Step; split <;> simp
@[simp] theorem p2Upto_pending (n : Nat) : (p2Upto n s).pending = s.pending := by simp [p2Upto]
@[simp] theorem p2End_pending (n : Nat) : (p2End n s).pending = s.pending := by simp [p2End]

@[simp] theorem moveAtRest_pending : (moveAtRest s).pending = s.pending := by
  unfold moveAtRest
  (repeat' split) <;> simp

@[simp] theorem pushRampRow_pending : (pushRampRow s).pending = s.pending := by simp [pushRampRow]

/-! ### The Chandler -/

@[simp] theorem chMeasure_pending (pIn : Nat) (p1 p2 : Int) (pDom : List Nat) : (chMeasure pIn p1 p2 pDom s).pending = s.pending := by
  unfold chMeasure
  dsimp only
  split <;> simp

@[simp] theorem chEnergies_pending (esh : List Nat) (epr : Nat) : (chEnergies esh epr s).pending = s.pending := rfl

@[simp] theorem chDecide_pending : (chDecide s).pending = s.pending := by
  unfold chDecide
  dsimp only
  split <;> simp

@[simp] theorem sbPowerOn_pending : (sbPowerOn s).pending = s.pending := by unfold sbPowerOn; split <;> rfl
@[simp] theorem sbPowerOff_pending : (sbPowerOff s).pending = s.pending := rfl
@[simp] theorem chTick_pending : (chTick s).pending = s.pending := by simp [chTick]
@[simp] theorem chStart_pending : (chStart s).pending = s.pending := by simp [chStart]
@[simp] theorem chStop_pending : (chStop s).pending = s.pending := by simp [chStop]
@[simp] theorem shadowCutFault_pending : (shadowCutFault s).pending = s.pending := by unfold shadowCutFault; split <;> simp

/-! ### Allocation -/

@[simp] theorem setThr_pending (i : Nat) (f : ThrSt → ThrSt) : (setThr i f s).pending = s.pending := rfl
@[simp] theorem setBus_pending (b : Nat) (f : BusSt → BusSt) : (setBus b f s).pending = s.pending := rfl
@[simp] theorem allocAvail_pending : (allocAvail s).pending = s.pending := by simp [allocAvail]

@[simp] theorem crossBegin_pending (i : Nat) : (crossBegin s i).pending = s.pending := by
  unfold crossBegin
  dsimp only
  split
  · split <;> simp
  · rfl

@[simp] theorem crossEnd_pending (i : Nat) : (crossEnd s i).pending = s.pending := by
  unfold crossEnd
  dsimp only
  split <;> simp

@[simp] theorem allocCross_pending : (allocCross s).pending = s.pending := by simp [allocCross]
@[simp] theorem allocStart_pending : (allocStart s).pending = s.pending := rfl
@[simp] theorem allocEmitted_pending (sent : List Nat) : (allocEmitted sent s).pending = s.pending := by simp [allocEmitted]
@[simp] theorem allocAfter_pending (sol : Solution) (n : Nat) : (allocAfter sol n s).pending = s.pending := by simp [allocAfter]
@[simp] theorem slackFault_pending : (slackFault s).pending = s.pending := by unfold slackFault; split <;> simp
@[simp] theorem exceedFault_pending (b : Nat) : (exceedFault b s).pending = s.pending := by unfold exceedFault; split <;> simp

/-! ### The receiver -/

@[simp] theorem gnssStart_pending : (gnssStart s).pending = s.pending := rfl
@[simp] theorem gnssOff_pending : (gnssOff s).pending = s.pending := by simp [gnssOff]
@[simp] theorem gnssDuty_pending : (gnssDuty s).pending = s.pending := by unfold gnssDuty; split <;> simp

@[simp] theorem gnssRegime_pending : (gnssRegime s).pending = s.pending := by
  unfold gnssRegime
  dsimp only
  split
  · rfl
  · split <;> simp

@[simp] theorem commitChannel_pending (epoch : Nat) (m : ChanMeas) : (commitChannel epoch m s).pending = s.pending := by
  unfold commitChannel
  refine (foldl_pending _ (fun t e => ?_) _).trans rfl
  dsimp only
  generalize channelValue _ _ _ _ = x
  split
  · cases x <;> simp
  · rfl

@[simp] theorem measurementEpoch_pending (ms : List ChanMeas) : (measurementEpoch ms s).pending = s.pending := by simp [measurementEpoch]
@[simp] theorem gnssBurst_pending : (gnssBurst s).pending = s.pending := by unfold gnssBurst; split <;> rfl
@[simp] theorem retainWord_pending (w : NavWord) (data : Nat) : (retainWord w data s).pending = s.pending := by unfold retainWord; split <;> simp
@[simp] theorem navigationWord_pending (w : NavWord) : (navigationWord w s).pending = s.pending := by unfold navigationWord; split <;> simp

@[simp] theorem commitSolution_pending (grade : Nat) (x : NavSol) : (commitSolution grade x s).pending = s.pending := by
  refine foldl_pending _ (fun t e => ?_) _
  (repeat' split) <;> simp

@[simp] theorem navSolution_pending (x : NavSol) : (navSolution x s).pending = s.pending := by unfold navSolution; split <;> simp
@[simp] theorem gnssSleep_pending (ephFresh : Bool) : (gnssSleep ephFresh s).pending = s.pending := by simp [gnssSleep]
@[simp] theorem gnssWake_pending : (gnssWake s).pending = s.pending := by unfold gnssWake; split <;> simp
@[simp] theorem noFullFault_pending : (noFullFault s).pending = s.pending := by unfold noFullFault; split <;> simp
@[simp] theorem antennaOpen_pending : (antennaOpen s).pending = s.pending := by unfold antennaOpen; split <;> simp
@[simp] theorem antennaShort_pending : (antennaShort s).pending = s.pending := by unfold antennaShort; split <;> simp
@[simp] theorem biasRetry_pending : (biasRetry s).pending = s.pending := by unfold biasRetry; split <;> simp
@[simp] theorem endDefer_pending : (endDefer s).pending = s.pending := by unfold endDefer; split <;> simp
@[simp] theorem ppsPulse_pending : (ppsPulse s).pending = s.pending := by unfold ppsPulse; split <;> simp
@[simp] theorem ppsEnd_pending : (ppsEnd s).pending = s.pending := by unfold ppsEnd; split <;> simp
@[simp] theorem announcePulse_pending : (announcePulse s).pending = s.pending := by simp [announcePulse]

/-! ### Assembly -/

@[simp] theorem notePrimary_pending (warm0 : Option Solution) : (notePrimary s warm0).pending = s.pending := rfl

/-! ### The solver arrays -/

@[simp] theorem setShadow_pending (g : Nat) (f : Shadow → Shadow) : (setShadow g f s).pending = s.pending := rfl

@[simp] theorem decideEmission_pending (out0 : Nat) : (decideEmission out0 s).pending = s.pending := by
  unfold decideEmission
  dsimp only
  split
  · rfl
  · split <;> simp

@[simp] theorem setArr_pending (a : Arr) (v : Option Solve) : (setArr a v s).pending = s.pending := rfl

@[simp] theorem startNext_pending (a : Arr) : (startNext a s).pending = s.pending := by
  unfold startNext
  (repeat' split) <;> simp

@[simp] theorem dispatch_pending : (dispatch s).pending = s.pending := by
  unfold dispatch
  (repeat' split) <;> simp

@[simp] theorem p3Run_pending (primary : Bool) (k : Nat) (s0 : State) : (p3Run primary k s0).pending = s0.pending := by unfold p3Run; split <;> simp
@[simp] theorem solveEvent_pending (v : Solve) : (solveEvent v s).pending = s.pending := by simp [solveEvent]

@[simp] theorem takeResult_pending (a : Arr) (cut : Bool) (v0 : Solve) : (takeResult a cut v0 s).pending = s.pending := by
  unfold takeResult
  dsimp only
  split <;> simp

@[simp] theorem addBusy_pending (a : Arr) (us : Nat) : (addBusy a us s).pending = s.pending := rfl

@[simp] theorem solveComplete_pending (a : Arr) (busyUs : Nat) : (solveComplete a busyUs s).pending = s.pending := by
  unfold solveComplete
  (repeat' split) <;> simp

@[simp] theorem deadlineArr_pending (a : Arr) (r : ArrIn) : (deadlineArr a r s).pending = s.pending := by unfold deadlineArr; split <;> simp

@[simp] theorem standPrimary_pending : (standPrimary s).pending = s.pending := by
  unfold standPrimary
  dsimp only
  split
  · rfl
  · split
    · split <;> simp
    · split <;> simp

@[simp] theorem powerReport_pending (warm : Option Solution) : (powerReport warm s).pending = s.pending := rfl
@[simp] theorem p4End_pending (a b : ArrIn) (s0 : State) : (p4End a b s0).pending = s0.pending := by unfold p4End; split <;> simp
@[simp] theorem holdShiftFault_pending : (holdShiftFault s).pending = s.pending := by unfold holdShiftFault; split <;> simp
@[simp] theorem solverRunFault_pending (epsMax : Bool) : (solverRunFault epsMax s).pending = s.pending := by unfold solverRunFault; split <;> simp
@[simp] theorem conseqFault_pending : (conseqFault s).pending = s.pending := by unfold conseqFault; split <;> simp
@[simp] theorem coverAgeFault_pending : (coverAgeFault s).pending = s.pending := by simp [coverAgeFault]
@[simp] theorem solverStart_pending : (solverStart s).pending = s.pending := rfl
@[simp] theorem solverStop_pending : (solverStop s).pending = s.pending := by simp [solverStop]

/-! ### Duty -/

@[simp] theorem refuseBound_pending : (refuseBound s).pending = s.pending := by simp [refuseBound]
@[simp] theorem domainLosses_pending (failed : Nat) : (domainLosses failed s).pending = s.pending := by unfold domainLosses; split <;> simp
@[simp] theorem claimPower_pending : (claimPower s).pending = s.pending := by simp [claimPower]
@[simp] theorem dutyPowerOffKeep_pending : (dutyPowerOffKeep s).pending = s.pending := by simp [dutyPowerOffKeep]
@[simp] theorem dutyPowerOff_pending : (dutyPowerOff s).pending = s.pending := by simp [dutyPowerOff]
@[simp] theorem noteStandby_pending : (noteStandby s).pending = s.pending := rfl

@[simp] theorem leaveDutyWith_pending (off : State → State) (h : ∀ t, (off t).pending = t.pending) :
    (leaveDutyWith off s).pending = s.pending := by simp [leaveDutyWith, h]

@[simp] theorem leaveDuty_pending : (leaveDuty s).pending = s.pending := by simp [leaveDuty]
@[simp] theorem dutyStart_pending : (dutyStart s).pending = s.pending := by simp [dutyStart]
@[simp] theorem stagesStart_pending : (stagesStart s).pending = s.pending := rfl

/-! ### Checkpoints -/

@[simp] theorem sendCheckpoint_pending : (sendCheckpoint s).pending = s.pending := by
  refine foldl_pending _ (fun t i => ?_) _
  exact sendRaf_pending t _ _ _

@[simp] theorem loadFuncs_pending (c : Checkpoint) : (loadFuncs c s).pending = s.pending := by simp [loadFuncs]
@[simp] theorem loadConns_pending (c : Checkpoint) : (loadConns c s).pending = s.pending := rfl
@[simp] theorem advanceObs_pending (n : Nat) : (advanceObs n s).pending = s.pending := by unfold advanceObs; split <;> simp
@[simp] theorem loadParts_pending (c : Checkpoint) : (loadParts c s).pending = s.pending := by simp [loadParts]
@[simp] theorem loadCheckpoint_pending (c : Checkpoint) : (loadCheckpoint c s).pending = s.pending := by unfold loadCheckpoint; split <;> simp

/-! ### The lock group -/

@[simp] theorem setPeer_pending (slot : Nat) (f : Peer → Peer) : (setPeer slot f s).pending = s.pending := rfl
@[simp] theorem rafDrop_pending (port : Nat) : (rafDrop port s).pending = s.pending := rfl
@[simp] theorem notePath_pending (slot port : Nat) : (notePath slot port s).pending = s.pending := by unfold notePath; split <;> simp
@[simp] theorem startYield_pending : (startYield s).pending = s.pending := by unfold startYield; split <;> simp
@[simp] theorem decideStandby_pending : (decideStandby s).pending = s.pending := by simp [decideStandby]

@[simp] theorem leaseBeat_pending (b : Beat) : (leaseBeat b s).pending = s.pending := by
  unfold leaseBeat
  (repeat' split) <;> simp

@[simp] theorem prepareBeat_pending (b : Beat) : (prepareBeat b s).pending = s.pending := by unfold prepareBeat; split <;> simp
@[simp] theorem judgePeriod_pending (mode : Nat) : (judgePeriod mode s).pending = s.pending := by unfold judgePeriod; split <;> simp

@[simp] theorem takeBeat_pending (port : Nat) (b : Beat) (s0 : State) :
    (takeBeat port b s0).pending = s0.pending := by unfold takeBeat; split <;> simp

@[simp] theorem rafReceive_pending (type port ety : Nat) (m : Bytes) (f : Bytes → State → State) (h : (f m s).pending = s.pending) :
    (rafReceive type port ety m f s).pending = s.pending := by
  unfold rafReceive
  split
  · split
    · split
      · exact h
      · rfl
    · exact rafDrop_pending s port
  · rfl

@[simp] theorem beatReceive_pending (port ety : Nat) (m : Bytes) : (beatReceive port ety m s).pending = s.pending := by simp [beatReceive]

@[simp] theorem forward_pending (port : Nat) (m : Bytes) (etherOk : Bool) :
    (forward port m etherOk s).pending = s.pending := by unfold forward; split <;> simp

@[simp] theorem dropSecond_pending : (dropSecond s).pending = s.pending := by unfold dropSecond; split <;> simp

@[simp] theorem pathDown_pending (peer port : Nat) (linkDown : Bool) : (pathDown peer port linkDown s).pending = s.pending := by
  unfold pathDown
  dsimp only
  split <;> simp

@[simp] theorem lockTick_pending : (lockTick s).pending = s.pending := by
  unfold lockTick
  dsimp only
  split
  · refine (linkFaults_pending _).trans (foldl_pending _ (fun t x => ?_) _)
    rfl
  · rfl

@[simp] theorem claimEvents_pending (reason : Nat) (c : Option Checkpoint) :
    (claimEvents reason c s).pending = s.pending := by unfold claimEvents; split <;> simp

@[simp] theorem targetLoad_pending (c : Checkpoint) : (targetLoad c s).pending = s.pending := by simp [targetLoad]
@[simp] theorem noteForeign_pending : (noteForeign s).pending = s.pending := by unfold noteForeign; split <;> simp

@[simp] theorem commitCp_pending (c : Checkpoint) : (commitCp c s).pending = s.pending := by
  unfold commitCp
  (repeat' split) <;> simp

@[simp] theorem takeFragment_pending (m : Bytes) : (takeFragment m s).pending = s.pending := by
  unfold takeFragment
  dsimp only
  split
  · rfl
  · split
    · rfl
    · split
      · split
        · split <;> simp
        · rfl
      · rfl

@[simp] theorem checkpointFragment_pending (port ety : Nat) (m : Bytes) :
    (checkpointFragment port ety m s).pending = s.pending := by simp [checkpointFragment]

@[simp] theorem sendBeat_pending (prepare : Bool) : (sendBeat prepare s).pending = s.pending := rfl
@[simp] theorem renew_pending : (renew s).pending = s.pending := by unfold renew; split <;> rfl
@[simp] theorem startDiscovery_pending : (startDiscovery s).pending = s.pending := rfl
@[simp] theorem discoveryEnd_pending : (discoveryEnd s).pending = s.pending := by unfold discoveryEnd; split <;> simp
@[simp] theorem claimStart_pending (kind failed0 : Nat) : (claimStart kind failed0 s).pending = s.pending := by simp [claimStart]
@[simp] theorem electionClaim_pending (failed : Nat) : (electionClaim failed s).pending = s.pending := by unfold electionClaim; split <;> simp

@[simp] theorem leaseClaim_pending (failed : Nat) : (leaseClaim failed s).pending = s.pending := by
  unfold leaseClaim
  (repeat' split) <;> simp

@[simp] theorem abortClaim_pending : (abortClaim s).pending = s.pending := by simp [abortClaim]
@[simp] theorem bringAtDuty_pending (kind : Nat) : (bringAtDuty kind s).pending = s.pending := by unfold bringAtDuty; split <;> simp
@[simp] theorem startMode_pending (kind : Nat) : (startMode kind s).pending = s.pending := by unfold startMode; split <;> rfl
@[simp] theorem takeDuty_pending (kind : Nat) : (takeDuty kind s).pending = s.pending := by unfold takeDuty; split <;> simp

@[simp] theorem leasePass_pending : (leasePass s).pending = s.pending := by
  unfold leasePass
  (repeat' split) <;> simp

@[simp] theorem leaseEnd_pending : (leaseEnd s).pending = s.pending := by unfold leaseEnd; split <;> simp
@[simp] theorem leaseYield_pending : (leaseYield s).pending = s.pending := by unfold leaseYield; split <;> simp
@[simp] theorem lockPrepare_pending : (lockPrepare s).pending = s.pending := by unfold lockPrepare; split <;> simp
@[simp] theorem lockRelease_pending : (lockRelease s).pending = s.pending := by unfold lockRelease; split <;> simp
@[simp] theorem dropPrepare_pending : (dropPrepare s).pending = s.pending := by unfold dropPrepare; split <;> simp
@[simp] theorem withholdClaim_pending (checked failed : Nat) : (withholdClaim checked failed s).pending = s.pending := by simp [withholdClaim]

@[simp] theorem targetClaim_pending (failed : Nat) : (targetClaim failed s).pending = s.pending := by
  unfold targetClaim
  (repeat' split) <;> simp

@[simp] theorem checkpointFallback_pending : (checkpointFallback s).pending = s.pending := by unfold checkpointFallback; split <;> simp
@[simp] theorem rebase_pending (d e : Int) : (rebase d e s).pending = s.pending := by unfold rebase; split <;> rfl
@[simp] theorem periodAdopt_pending : (periodAdopt s).pending = s.pending := by unfold periodAdopt; split <;> simp

/-! ### Configuration -/

@[simp] theorem setBank_pending (b : Nat) (k : Bank) : (setBank b k s).pending = s.pending := by unfold setBank; split <;> rfl
@[simp] theorem putCopy_pending (c : CommitCopy) : (putCopy c s).pending = s.pending := by unfold putCopy; split <;> rfl

@[simp] theorem writeCommit_pending (bank : Nat) (digest : Bytes) :
    (writeCommit bank digest s).pending = s.pending := by unfold writeCommit; split <;> simp

@[simp] theorem commitCut_pending (cut : Bytes) : (commitCut cut s).pending = s.pending := by simp [commitCut]
@[simp] theorem noteGrant_pending : (noteGrant s).pending = s.pending := by unfold noteGrant; split <;> rfl
@[simp] theorem grantExpiry_pending : (grantExpiry s).pending = s.pending := by unfold grantExpiry; split <;> simp
@[simp] theorem noteVerified_pending (img : Image.Img) : (noteVerified img s).pending = s.pending := rfl
@[simp] theorem adoptImage_pending (img : Image.Img) : (adoptImage img s).pending = s.pending := rfl
@[simp] theorem imageStages_pending : (imageStages s).pending = s.pending := by simp [imageStages]
@[simp] theorem restartBringup_pending (oldAnalog : Image.Analog) : (restartBringup oldAnalog s).pending = s.pending := by simp [restartBringup]

@[simp] theorem imageEffect_pending : (imageEffect s).pending = s.pending := by
  unfold imageEffect
  dsimp only
  split
  · rfl
  · split
    · split
      · split <;> simp
      · split <;> simp
    · rfl

/-! ### Bring-up -/

@[simp] theorem startOver_pending (powerGood : Bool) (cause : Nat) : (startOver powerGood cause s).pending = s.pending := rfl

@[simp] theorem powerGood_pending (lvA lvB : Nat) (h1Fast h2Fast : Bool) :
    (powerGood lvA lvB h1Fast h2Fast s).pending = s.pending := by unfold powerGood; split <;> rfl

@[simp] theorem moduleReset_pending : (moduleReset s).pending = s.pending := by unfold moduleReset; split <;> simp

@[simp] theorem powerFail_pending (lvA lvB : Nat) (started : List Nat) :
    (powerFail lvA lvB started s).pending = s.pending := by unfold powerFail; split <;> simp

@[simp] theorem offState_pending (vbak : Bool) : (offState vbak s).pending = s.pending := rfl
@[simp] theorem powerOff_pending (vbak : Bool) (cut : Bytes) : (powerOff vbak cut s).pending = s.pending := by unfold powerOff; split <;> simp

@[simp] theorem selftestComplete_pending (failed0 : Nat) :
    (selftestComplete failed0 s).pending = s.pending := by unfold selftestComplete; split <;> simp

@[simp] theorem timeFromRtc_pending : (timeFromRtc s).pending = s.pending := by unfold timeFromRtc; split <;> simp
@[simp] theorem startFrames_pending (mode : Nat) : (startFrames mode s).pending = s.pending := rfl
@[simp] theorem startStation_pending (img : Image.Img) : (startStation img s).pending = s.pending := by simp [startStation]
@[simp] theorem startHeld_pending (v : Verdict) : (startHeld v s).pending = s.pending := by simp [startHeld]
@[simp] theorem noteVerdict_pending (b st : Nat) (v : Verdict) : (noteVerdict b st v s).pending = s.pending := by unfold noteVerdict; split <;> simp

@[simp] theorem verificationComplete_pending (bankErr : Bool) : (verificationComplete bankErr s).pending = s.pending := by
  unfold verificationComplete
  (repeat' split) <;> simp

@[simp] theorem timeLockTimeout_pending : (timeLockTimeout s).pending = s.pending := by unfold timeLockTimeout; split <;> simp
@[simp] theorem oscSetupTimeout_pending : (oscSetupTimeout s).pending = s.pending := by unfold oscSetupTimeout; split <;> simp
@[simp] theorem bringupTimeout_pending : (bringupTimeout s).pending = s.pending := by unfold bringupTimeout; split <;> simp
@[simp] theorem bringComplete_pending : (bringComplete s).pending = s.pending := by simp [bringComplete]

/-! ### Fault collection -/

@[simp] theorem modSrc_pending (code : Nat) (f : FaultSt → FaultSt) : (modSrc code f s).pending = s.pending := rfl
@[simp] theorem firmwareAck_pending (code : Nat) : (firmwareAck code s).pending = s.pending := by simp [firmwareAck]
@[simp] theorem criticalReaction_pending : (criticalReaction s).pending = s.pending := by unfold criticalReaction; split <;> simp

@[simp] theorem sluiceExpiry_pending (code : Nat) : (sluiceExpiry code s).pending = s.pending := by
  have hheld (bs : List Block) (t : State) : (bs.foldl (fun t b => holdBlock code b t) t).pending = t.pending := by
    refine foldl_pending _ (fun t b => ?_) _
    rfl
  unfold sluiceExpiry
  dsimp only
  split
  · (repeat' split) <;> simp [hheld]
  · rfl

@[simp] theorem canRestart_pending (c : Nat) : (canRestart c s).pending = s.pending := by simp [canRestart]
@[simp] theorem blockRestart_pending (b : Block) : (blockRestart b s).pending = s.pending := by unfold blockRestart; split <;> simp
@[simp] theorem loseArray_pending (a : Arr) : (loseArray a s).pending = s.pending := by unfold loseArray; split <;> simp
@[simp] theorem releaseBlock_pending (b : Block) : (releaseBlock b s).pending = s.pending := rfl
@[simp] theorem noteReset_pending (a : Arr) : (noteReset a s).2.pending = s.pending := by cases a <;> rfl

@[simp] theorem arrayReset_pending (a : Arr) (b : Block) (pass : Bool) (s0 : State) : (arrayReset a b pass s0).pending = s0.pending := by
  unfold arrayReset
  dsimp only
  split <;> simp

@[simp] theorem plainReset_pending (b : Block) (pass : Bool) : (plainReset b pass s).pending = s.pending := by unfold plainReset; split <;> simp

@[simp] theorem blockResetComplete_pending (b : Block) (pass : Bool) : (blockResetComplete b pass s).pending = s.pending := by
  unfold blockResetComplete
  (repeat' split) <;> simp

@[simp] theorem classRecovery_pending (c : Nat) : (classRecovery c s).pending = s.pending := by simp [classRecovery]
@[simp] theorem wordCorrected_pending (o : SramOwner) : (wordCorrected o s).pending = s.pending := by simp [wordCorrected]
@[simp] theorem arrayWord_pending (a : Arr) (b : Block) : (arrayWord a b s).pending = s.pending := by simp [arrayWord]
@[simp] theorem checkpointWord_pending : (checkpointWord s).pending = s.pending := by unfold checkpointWord; split <;> simp
@[simp] theorem uncorrectable_pending (o : SramOwner) : (uncorrectable o s).pending = s.pending := by unfold uncorrectable; split <;> simp
@[simp] theorem sramScrub_pending (o : SramOwner) (bits : Nat) : (sramScrub o bits s).pending = s.pending := by unfold sramScrub; split <;> simp
@[simp] theorem eccRate_pending : (eccRate s).pending = s.pending := by unfold eccRate; split <;> simp

/-! ### Sessions, service access and firmware -/

@[simp] theorem tagExpiry_pending (m : Nat) : (tagExpiry m s).pending = s.pending := rfl

@[simp] theorem endSession_pending (m : Nat) : (endSession m s).pending = s.pending := by
  unfold endSession
  dsimp only
  split <;> simp

@[simp] theorem usbDetach_pending : (usbDetach s).pending = s.pending := by simp [usbDetach]
@[simp] theorem sendReports_pending : (sendReports s).pending = s.pending := rfl
@[simp] theorem unlockTimeout_pending : (unlockTimeout s).pending = s.pending := by unfold unlockTimeout; split <;> rfl
@[simp] theorem lockoutExpiry_pending : (lockoutExpiry s).pending = s.pending := by unfold lockoutExpiry; split <;> simp
@[simp] theorem decideState_pending : (decideState s).pending = s.pending := by unfold decideState; split <;> simp
@[simp] theorem requestDp_pending (tick : Nat) (v : Bool) : (requestDp tick v s).pending = s.pending := by unfold requestDp; split <;> simp

/-! ### What a mailbox command leaves, whether it accepts, fails or refuses -/

/-- The queue stands in what a command leaves behind. -/
def QueueKept (q : List Instr) : Reply → Prop
  | .ok t _ => t.pending = q
  | .fail t _ => t.pending = q
  | .refuse _ => True

@[simp] theorem queueKept_ok (q : List Instr) (p : Bytes) : QueueKept q (.ok s p) ↔ s.pending = q := Iff.rfl
@[simp] theorem queueKept_fail (q : List Instr) (e : Err) : QueueKept q (.fail s e) ↔ s.pending = q := Iff.rfl
@[simp] theorem queueKept_refuse (q : List Instr) (e : Err) : QueueKept q (.refuse e) := trivial

theorem queueKept_ite {q : List Instr} {c : Prop} [Decidable c] {a b : Reply} (ha : QueueKept q a) (hb : QueueKept q b) :
    QueueKept q (if c then a else b) := by
  split
  · exact ha
  · exact hb

/-- A check that refuses comes before what a command does. -/
theorem queueKept_guard {q : List Instr} {c : Prop} [Decidable c] {e : Err} {b : Reply} (hb : QueueKept q b) :
    QueueKept q (if c then .refuse e else b) := queueKept_ite trivial hb

theorem queueKept_judgeReply (q : List Instr) (late : Option Err) {y : Reply} (h : QueueKept q y) : QueueKept q (judgeReply late y) := by
  unfold judgeReply
  split
  · split <;> exact queueKept_refuse _ _
  · exact queueKept_refuse _ _
  · exact queueKept_refuse _ _
  · exact h

/-- An immediate command leaves the queue when its own effect does. -/
theorem runImmediate_pending (word m : Nat) (f : Request → State → Reply) (h : ∀ r, QueueKept s.pending (f r s)) :
    (runImmediate word f m s).pending = s.pending := by
  unfold runImmediate
  split
  · rfl
  · rename_i r _
    split
    · simp
    · have hy := queueKept_judgeReply s.pending (expiryCheck r (nowNs s)) (h r)
      split
      · simp
      · rename_i hj
        rw [hj] at hy
        simpa using hy
      · rename_i hj
        rw [hj] at hy
        simpa using hy

@[simp] theorem queueKept_cmdLedgerWindow (r : Request) : QueueKept s.pending (cmdLedgerWindow r s) :=
  queueKept_guard <| queueKept_guard <| queueKept_guard <| queueKept_guard <| by simp
@[simp] theorem queueKept_cmdLedgerRead (readErr : List Nat) (r : Request) : QueueKept s.pending (cmdLedgerRead readErr r s) := by
  unfold cmdLedgerRead
  dsimp only
  split
  · trivial
  · exact queueKept_guard (by simp)
@[simp] theorem queueKept_cmdTimeSet (r : Request) : QueueKept s.pending (cmdTimeSet r s) := by
  refine queueKept_ite ?_ <| queueKept_ite (queueKept_guard (queueKept_guard (by simp))) trivial
  split
  · trivial
  · exact queueKept_guard (by simp)
@[simp] theorem queueKept_cmdAlarmSet (r : Request) : QueueKept s.pending (cmdAlarmSet r s) := by
  refine queueKept_guard (queueKept_guard ?_)
  split
  · exact queueKept_guard rfl
  · exact queueKept_ite rfl (queueKept_guard (queueKept_guard rfl))
@[simp] theorem queueKept_cmdTimeRead (r : Request) : QueueKept s.pending (cmdTimeRead r s) := queueKept_guard rfl
@[simp] theorem queueKept_cmdTimeAdjust (r : Request) : QueueKept s.pending (cmdTimeAdjust r s) := by
  unfold cmdTimeAdjust
  dsimp only
  refine queueKept_guard <| queueKept_ite (queueKept_guard ?_) <| queueKept_ite (queueKept_guard (queueKept_guard (by simp)))
    (queueKept_guard <| queueKept_ite rfl trivial)
  split <;> simp
@[simp] theorem queueKept_cmdTargetSet (r : Request) : QueueKept s.pending (cmdTargetSet r s) := by
  refine queueKept_guard (queueKept_guard (queueKept_guard ?_))
  split
  · exact queueKept_ite (by simp) (by simp)
  · simp
@[simp] theorem queueKept_cmdTargetStop (r : Request) : QueueKept s.pending (cmdTargetStop r s) := by
  unfold cmdTargetStop
  dsimp only
  split <;> simp
@[simp] theorem queueKept_cmdPushSet (r : Request) : QueueKept s.pending (cmdPushSet r s) := queueKept_guard <| queueKept_ite (by simp) (by simp)
@[simp] theorem queueKept_cmdLockChange (r : Request) : QueueKept s.pending (cmdLockChange r s) := by
  unfold cmdLockChange
  dsimp only
  refine queueKept_guard ?_
  split
  · trivial
  · exact queueKept_guard (queueKept_guard (queueKept_guard (by simp)))
@[simp] theorem queueKept_cmdStage (r : Request) : QueueKept s.pending (cmdStage r s) :=
  queueKept_guard <| queueKept_guard <| queueKept_guard <| queueKept_guard <| by simp
@[simp] theorem queueKept_cmdCommit (writeOk : Bool) (r : Request) : QueueKept s.pending (cmdCommit writeOk r s) :=
  queueKept_guard (queueKept_guard <| queueKept_ite (by simp) <| queueKept_ite (by simp) (queueKept_guard (queueKept_guard (by simp))))
@[simp] theorem queueKept_cmdAbort (r : Request) : QueueKept s.pending (cmdAbort r s) := by
  unfold cmdAbort
  dsimp only
  split
  · exact queueKept_guard <| queueKept_ite (by simp) (by simp)
  · simp
@[simp] theorem queueKept_cmdConfigRead (r : Request) : QueueKept s.pending (cmdConfigRead r s) :=
  queueKept_guard <| queueKept_guard <| queueKept_guard <| by simp
@[simp] theorem queueKept_faultReadCmd (r : Request) : QueueKept s.pending (faultReadCmd r s) := queueKept_guard (queueKept_guard rfl)
@[simp] theorem queueKept_faultAckCmd (r : Request) : QueueKept s.pending (faultAckCmd r s) := queueKept_guard (by simp)
@[simp] theorem queueKept_cmdHello (r : Request) : QueueKept s.pending (cmdHello r s) := queueKept_guard <| queueKept_guard <| queueKept_ite (by simp) (by simp)
@[simp] theorem queueKept_cmdStateRead (r : Request) : QueueKept s.pending (cmdStateRead r s) := rfl
@[simp] theorem queueKept_cmdTargetRead (r : Request) : QueueKept s.pending (cmdTargetRead r s) := rfl
@[simp] theorem queueKept_cmdFrameRead (r : Request) : QueueKept s.pending (cmdFrameRead r s) := queueKept_guard rfl
@[simp] theorem queueKept_cmdFrameSubscribe (r : Request) : QueueKept s.pending (cmdFrameSubscribe r s) :=
  queueKept_guard <| queueKept_ite rfl <| queueKept_guard rfl
@[simp] theorem queueKept_cmdServiceChallenge (r : Request) : QueueKept s.pending (cmdServiceChallenge r s) := queueKept_guard rfl
@[simp] theorem queueKept_respondFail : QueueKept s.pending (respondFail s) := by simp [respondFail]
@[simp] theorem queueKept_cmdServiceRespond (r : Request) : QueueKept s.pending (cmdServiceRespond r s) := by
  refine queueKept_guard ?_
  split
  · exact queueKept_respondFail s
  · exact queueKept_ite rfl (queueKept_respondFail s)
@[simp] theorem queueKept_cmdServiceLock (r : Request) : QueueKept s.pending (cmdServiceLock r s) := rfl
@[simp] theorem queueKept_cmdFwStage (readBackOk : Bool) (r : Request) : QueueKept s.pending (cmdFwStage readBackOk r s) :=
  queueKept_guard <| queueKept_guard rfl
@[simp] theorem queueKept_cmdFwActivate (r : Request) : QueueKept s.pending (cmdFwActivate r s) :=
  queueKept_guard (queueKept_guard <| queueKept_ite rfl rfl)
@[simp] theorem queueKept_cmdModeSet (r : Request) : QueueKept s.pending (cmdModeSet r s) :=
  queueKept_guard <| queueKept_guard <| queueKept_guard <| queueKept_guard <| queueKept_guard <| queueKept_guard <| by simp
@[simp] theorem queueKept_boundEffect (r : Request) : QueueKept s.pending (boundEffect r s) :=
  queueKept_ite (queueKept_ite (queueKept_cmdTargetSet s r) trivial) <| queueKept_ite (queueKept_ite (queueKept_cmdPushSet s r) trivial) <|
    queueKept_ite (queueKept_cmdTargetStop s r) (queueKept_cmdLockChange s r)

/-! ### The frame -/

@[simp] theorem storeAnswer_pending (r : Request) (msg : Bytes) : (storeAnswer r msg s).pending = s.pending := rfl

@[simp] theorem applyRequest_pending (r : Request) : (applyRequest r s).pending = s.pending := by
  have h := queueKept_boundEffect s r
  unfold applyRequest
  revert h
  cases boundEffect r s with
  | ok t p => exact id
  | fail t e => exact id
  | refuse e => exact fun _ => rfl

@[simp] theorem applyAll_pending : (applyAll s).pending = s.pending := by simp [applyAll]
@[simp] theorem boundRow_pending (word m : Nat) : (boundRow word m s).pending = s.pending := by unfold boundRow; split <;> simp
@[simp] theorem endShots_pending : (endShots s).pending = s.pending := rfl
@[simp] theorem closeFrame_pending (stopped : List Engine) : (closeFrame stopped s).pending = s.pending := by unfold closeFrame; split <;> simp
@[simp] theorem openFrame_pending : (openFrame s).pending = s.pending := by simp [openFrame]

@[simp] theorem tickState_pending : (tickState s).pending = s.pending := by
  unfold tickState
  (repeat' split) <;> simp

@[simp] theorem tickWork_pending : (tickWork s).pending = s.pending := by simp [tickWork]
@[simp] theorem tickBeat_pending : (tickBeat s).pending = s.pending := by unfold tickBeat; split <;> simp
@[simp] theorem frameTick_pending (stopped : List Engine) : (frameTick stopped s).pending = s.pending := by unfold frameTick; split <;> simp
@[simp] theorem modeChange_pending : (modeChange s).pending = s.pending := by unfold modeChange; split <;> simp

@[simp] theorem placeTelegram_pending (n type : Nat) (data : Bytes) : (placeTelegram n type data s).1.pending = s.pending := rfl
@[simp] theorem placeCommand_pending (n : Nat) : (placeCommand n s).1.pending = s.pending := rfl

@[simp] theorem placeKind1_pending (unplaced : List Nat) : (placeKind1 unplaced s).pending = s.pending := by
  unfold placeKind1
  split
  · refine foldl_pending _ (fun t p => ?_) _
    dsimp only
    split <;> rfl
  · rfl

@[simp] theorem placeKind2_pending (late : Bool) (placed : List Nat) : (placeKind2 late placed s).pending = s.pending := by
  refine foldl_pending _ (fun t p => ?_) _
  dsimp only
  split <;> rfl

@[simp] theorem releaseHeld_pending : (releaseHeld s).pending = s.pending := by simp [releaseHeld]
@[simp] theorem p5Begin_pending (r : PhaseIn) : (p5Begin r s).pending = s.pending := by unfold p5Begin; split <;> simp
@[simp] theorem stampPhase_pending (p : Nat) (late : Bool) (margin : Nat) : (stampPhase p late margin s).pending = s.pending := rfl

@[simp] theorem udpConn_pending (n room : Nat) : (udpConn n room s).1.pending = s.pending := by
  unfold udpConn
  dsimp only
  (repeat' split) <;> simp

@[simp] theorem udpAll_pending (room : Nat) : (udpAll room s).1.pending = s.pending := by
  have hfold (xs : List (Nat × Image.Conn)) (a : State × Nat × List Nat) : (xs.foldl (fun a p =>
      if p.2.ctrl = 4 then
        let (t, r, sent) := udpConn p.1 a.2.1 a.1
        (t, r, if sent then p.1 :: a.2.2 else a.2.2)
      else a) a).1.pending = a.1.pending := by
    induction xs generalizing a with
    | nil => rfl
    | cons p xs ih =>
      rw [List.foldl_cons, ih]
      split
      · exact udpConn_pending a.1 p.1 a.2.1
      · rfl
  exact hfold _ _

@[simp] theorem p5End_pending (late : Bool) (r : PhaseIn) : (p5End late r s).pending = s.pending := by
  unfold p5End
  dsimp only
  split
  · split <;> simp
  · simp

@[simp] theorem notePhase_pending (p : Nat) (late : Bool) (margin : Nat) :
    (notePhase p late margin s).pending = s.pending := by unfold notePhase; split <;> simp

@[simp] theorem p0End_pending (late : Bool) : (p0End late s).pending = s.pending := by unfold p0End; split <;> simp
@[simp] theorem p1End_pending (late : Bool) : (p1End late s).pending = s.pending := by unfold p1End; split <;> simp
@[simp] theorem p6End_pending (late : Bool) : (p6End late s).pending = s.pending := by unfold p6End; split <;> simp

@[simp] theorem phaseEnd_pending (p : Nat) (late : Bool) (r : PhaseIn) :
    (phaseEnd p late r s).pending = s.pending := by unfold phaseEnd; split <;> simp

@[simp] theorem phaseBegin_pending (p : Nat) (r : PhaseIn) : (phaseBegin p r s).pending = s.pending := by unfold phaseBegin; split <;> simp
@[simp] theorem phaseBoundary_pending (r : PhaseIn) : (phaseBoundary r s).pending = s.pending := by simp [phaseBoundary]

/-! ### A command's effect, at its instant -/

theorem pending_of_next {u s t : State} (hu : u.pending = s.pending) (h : Host.Outcome.next (settle u) = (.next t : Host.Outcome State Fault Refusal)) :
    t.pending = s.pending := by
  injection h with h
  rw [← h, settle_pending, hu]

theorem pending_of_immediate {s t : State} {dt word m : Nat} {f : Request → State → Reply}
    (hf : ∀ r, QueueKept (advance s dt).pending (f r (advance s dt)))
    (h : Host.Outcome.next (settle (runImmediate word f m (advance s dt))) = (.next t : Host.Outcome State Fault Refusal)) : t.pending = s.pending :=
  pending_of_next (runImmediate_pending (advance s dt) word m f hf) h

theorem exec_pending {c : Instr} {s t : State} (hx : exec c s = .next t) : t.pending = s.pending := by
  cases c with
  | hello _ _ => exact pending_of_immediate (queueKept_cmdHello _) hx
  | stateRead _ _ => exact pending_of_immediate (queueKept_cmdStateRead _) hx
  | modeSet _ _ => exact pending_of_immediate (queueKept_cmdModeSet _) hx
  | frameRead _ _ => exact pending_of_immediate (queueKept_cmdFrameRead _) hx
  | frameSubscribe _ _ => exact pending_of_immediate (queueKept_cmdFrameSubscribe _) hx
  | targetRead _ _ => exact pending_of_immediate (queueKept_cmdTargetRead _) hx
  | configStage _ _ => exact pending_of_immediate (queueKept_cmdStage _) hx
  | configCommit _ _ _ => exact pending_of_immediate (queueKept_cmdCommit _ _) hx
  | configRead _ _ => exact pending_of_immediate (queueKept_cmdConfigRead _) hx
  | configAbort _ _ => exact pending_of_immediate (queueKept_cmdAbort _) hx
  | ledgerWindow _ _ => exact pending_of_immediate (queueKept_cmdLedgerWindow _) hx
  | ledgerRead _ _ _ => exact pending_of_immediate (queueKept_cmdLedgerRead _ _) hx
  | timeRead _ _ => exact pending_of_immediate (queueKept_cmdTimeRead _) hx
  | timeSet _ _ => exact pending_of_immediate (queueKept_cmdTimeSet _) hx
  | timeAdjust _ _ => exact pending_of_immediate (queueKept_cmdTimeAdjust _) hx
  | alarmSet _ _ => exact pending_of_immediate (queueKept_cmdAlarmSet _) hx
  | faultRead _ _ => exact pending_of_immediate (queueKept_faultReadCmd _) hx
  | faultAck _ _ => exact pending_of_immediate (queueKept_faultAckCmd _) hx
  | fwStage _ _ _ => exact pending_of_immediate (queueKept_cmdFwStage _ _) hx
  | fwActivate _ _ => exact pending_of_immediate (queueKept_cmdFwActivate _) hx
  | serviceChallenge _ _ => exact pending_of_immediate (queueKept_cmdServiceChallenge _) hx
  | serviceRespond _ _ => exact pending_of_immediate (queueKept_cmdServiceRespond _) hx
  | serviceLock _ _ => exact pending_of_immediate (queueKept_cmdServiceLock _) hx
  | captureEdge _ _ _ => exact pending_of_next (by split <;> simp) hx
  | intakeCounterSecond _ => exact pending_of_next (by split <;> simp) hx
  | ptpMessage _ _ _ => exact pending_of_next (by split <;> simp) hx
  | sourceLoss _ _ _ => exact pending_of_next (by split <;> simp) hx
  | canCounterSecond _ => exact pending_of_next (by split <;> simp) hx
  | ptpMessageSend _ _ _ => exact pending_of_next (by split <;> simp) hx
  | commit _ => exact pending_of_next (unlessFollowing_pending (advance s _) _ (opCommit_pending _)) hx
  | stDate _ _ => exact pending_of_next (unlessFollowing_pending (advance s _) _ (opStDate_pending _ _)) hx
  | stTime _ _ => exact pending_of_next (unlessFollowing_pending (advance s _) _ (opStTime_pending _ _)) hx
  | _ => exact pending_of_next (by simp) hx

/-- Settles O4: every command settles the effect of its own operations. -/
theorem commandsLeaveTheQueue : Obligations.CommandsLeaveTheQueue := fun _ _ _ hx => exec_pending hx

/-- Every command answers a next state: no arm of `exec` ends in a fault or a refusal. -/
theorem exec_next (c : Instr) (s : State) : ∃ t, exec c s = .next t := by cases c <;> exact ⟨_, rfl⟩

theorem step_cons {s : State} {c : Instr} {q : List Instr} (h : s.pending = c :: q) : step s = exec c { s with pending := q } := by
  unfold step
  rw [h]

theorem step_nil {s : State} (h : s.pending = []) : step s = .next s := by
  unfold step
  rw [h]

/-- Settles O1: by whether a command waits. -/
theorem stepTakesFrontCommand : Obligations.StepTakesFrontCommand := by
  refine ⟨fun s c q h => step_cons h, fun s h => step_nil h, fun s => ?_⟩
  cases h : s.pending with
  | nil => exact ⟨s, step_nil h⟩
  | cons c q =>
    obtain ⟨t, ht⟩ := exec_next c { s with pending := q }
    exact ⟨t, (step_cons h).trans ht⟩

end Sys2Proof.Machine
end

section
/-! PROPERTY. ALARM.SET (14_timebase_rtc R395, R396). -/

namespace Sys2Proof.Machine

open Sys2Proof.Safety

/-- A calendar word pair within the ranges of Table 14-7, with WEEKDAY 0. -/
def CalInRange (c : Cal) : Prop :=
  c.weekday = 0 ∧ c.year ≤ 99 ∧ 1 ≤ c.month ∧ c.month ≤ 12 ∧ 1 ≤ c.day ∧ c.day ≤ monthLen c.month c.year ∧ c.hour ≤ 23 ∧ c.minute ≤ 59 ∧
    c.second ≤ 59

theorem calRange_inRange {d t : Nat} (o : Nat) (h : CalInRange (calOfWords d t)) : calRange d t o = none := by
  obtain ⟨hweekday, hyear, hmonth, hmonth', hday, hday', hhour, hminute, hsecond⟩ := h
  unfold calRange
  dsimp only
  rw [if_neg (by omega), if_neg (by omega), if_neg (by omega)]

/-- An alarm slot written. -/
def withAlarm (i : Nat) (a : Alarm) (u : State) : State := { u with rtc := { u.rtc with alarms := upd (fun _ => a) u.rtc.alarms i } }

section
variable {r : Request} {u : State} (hslot : byteAt r.payload 0 ≤ 3) (hvalid : CalInRange (calOfWords (fld r.payload 4 4) (fld r.payload 8 4)))
include hslot hvalid

theorem cmdAlarmSet_disarm (harm : byteAt r.payload 1 = 0) :
    let spent := withAlarm (byteAt r.payload 0) { nth {} u.rtc.alarms (byteAt r.payload 0) with armed := false } u
    cmdAlarmSet r u = .ok spent (u8 (almArmed spent) ++ zeros 3) := by
  unfold cmdAlarmSet
  simp only [calRange_inRange 4 hvalid, harm, if_neg (Nat.not_lt.mpr hslot)]
  rfl

theorem cmdAlarmSet_past (harm : byteAt r.payload 1 = 1) (hpast : calKey (calOfWords (fld r.payload 4 4) (fld r.payload 8 4)) ≤ calKey (calOf u.rtc)) :
    cmdAlarmSet r u = .refuse (errRange 4) := by
  unfold cmdAlarmSet
  simp [calRange_inRange 4 hvalid, harm, Nat.not_lt.mpr hslot, hpast]

theorem cmdAlarmSet_later (harm : byteAt r.payload 1 = 1) (hlater : calKey (calOf u.rtc) < calKey (calOfWords (fld r.payload 4 4) (fld r.payload 8 4))) :
    let armed := withAlarm (byteAt r.payload 0) { armed := true, date := fld r.payload 4 4, time := fld r.payload 8 4 } u
    cmdAlarmSet r u = if u.rtc.calValid = false then .refuse (errState u) else .ok armed (u8 (almArmed armed) ++ zeros 3) := by
  unfold cmdAlarmSet
  simp only [calRange_inRange 4 hvalid, harm, if_neg (Nat.not_lt.mpr hslot), if_neg (Nat.not_le.mpr hlater)]
  rfl

end

/-- Settles O29: by ARM, and for ARM 1 by whether the alarm is later than the present second. -/
theorem alarmSetArmsOneSlot : Obligations.AlarmSetArmsOneSlot := by
  intro dt m s r q u i d t c valid with_ armed spent hturn hslot hvalid
  refine ⟨fun harm hlater => ⟨fun hcal => ?armed, fun hcal => ?state⟩, fun harm hpast => ?past, fun harm => ?disarm⟩
  case armed =>
    have heq := cmdAlarmSet_later hslot hvalid harm hlater
    exact answered_of_mb rfl hturn (heq.trans (if_neg (by simp [hcal]))) rfl
  case state => exact refused_of_refuse rfl hturn ((cmdAlarmSet_later hslot hvalid harm hlater).trans (if_pos hcal))
  case past => exact refused_of_refuse rfl hturn (cmdAlarmSet_past hslot hvalid harm hpast)
  case disarm => exact answered_of_mb rfl hturn (cmdAlarmSet_disarm hslot hvalid harm) rfl

end Sys2Proof.Machine
end

section
/-! PROPERTY. The calendar, its raw window and the follower (14_timebase_rtc R385 to R393; notes/assumptions/14.md). -/

namespace Sys2Proof.Machine

open Sys2Proof.Safety

/-! ### A condition that ends -/

theorem faultSet_inactive (s : State) (c : Nat) (bs : List Block) : faultActive (faultSet c false bs s) c = false := by
  unfold faultSet
  rw [if_neg (by decide)]
  split
  · show (Table.get ({} : FaultSt) _ (faultIndex c)).active = false
    rw [setSrc_faults, Table.get_set, if_pos rfl]
  · rename_i h
    exact eq_false_of_ne_true h

theorem faultCond_inactive (s : State) (c : Nat) : faultActive (faultCond c false s) c = false := faultSet_inactive s c _

/-- A fold of steps that each leave a part of the state leaves it. -/
theorem foldl_keeps {α β : Type} {f : State → α → State} (part : State → β) (h : ∀ t a, part (f t a) = part t) (xs : List α) (s : State) :
    part (xs.foldl f s) = part s := by
  induction xs generalizing s with
  | nil => rfl
  | cons a r ih => rw [List.foldl_cons, ih, h]

/-! ### Alarms leave the calendar -/

/-- The calendar and what stands with it beside the alarms, and the module's clock. -/
def calPart (s : State) : Cal × Nat × Bool × Bool × Bool × List Nat × Clock :=
  (calOf s.rtc, s.rtc.subEl, s.rtc.calValid, s.rtc.stageDirty, s.rtc.osf, s.rtc.backup, s.clk)

theorem calPart_event (c : Nat) (d : Bytes) (s : State) : calPart (event c d s) = calPart s := by simp [calPart]

theorem calPart_fireAlarm (i : Nat) (skipped : Bool) (s : State) : calPart (fireAlarm i skipped s) = calPart s := by
  unfold fireAlarm
  rw [calPart_event]
  rfl

theorem calPart_alarmsAtCarry (s : State) : calPart (alarmsAtCarry s) = calPart s := by
  refine foldl_keeps calPart (fun t p => ?_) _ _
  split
  · exact calPart_fireAlarm _ _ t
  · rfl

theorem calPart_alarmsAtLoad (old : Cal) (s : State) : calPart (alarmsAtLoad old s) = calPart s := by
  refine foldl_keeps calPart (fun t p => ?_) _ _
  dsimp only
  split
  · exact calPart_fireAlarm _ _ t
  · split
    · exact calPart_fireAlarm _ _ t
    · rfl

/-- A load leaves its calendar, valid from the instant at which the sub-second stands at 0 (R387). -/
theorem calPart_loadCal (who : Nat) (c : Cal) (subEl : Nat) (s : State) :
    calPart (loadCal who c subEl s) = (c, subEl, true, s.rtc.stageDirty, s.rtc.osf, s.rtc.backup, s.clk) := by
  unfold loadCal
  rw [calPart_alarmsAtLoad, calPart_event]
  rfl

/-- What a state shows whose calendar and what stands with it are known. -/
theorem calPart_fields {s : State} {c : Cal} {e : Nat} {valid dirty osf : Bool} {backup : List Nat} {k : Clock}
    (h : calPart s = (c, e, valid, dirty, osf, backup, k)) : calOf s.rtc = c ∧ s.rtc.subEl = e ∧ s.rtc.calValid = valid ∧
      s.rtc.stageDirty = dirty ∧ s.rtc.osf = osf ∧ s.rtc.backup = backup ∧ s.clk = k := by
  simpa only [calPart, Prod.mk.injEq] using h

theorem calPart_settle (s : State) : calPart (settle s) = calPart s := by simp only [calPart, settle_rtc, settle_clk]

/-! ### The raw window -/

theorem unlessFollowing_free {f : State → State} {u : State} (h : following u = false) : unlessFollowing f u = f u := if_neg (by simp [h])

theorem unlessFollowing_following {f : State → State} {u : State} (h : following u = true) : unlessFollowing f u = u := if_pos h

theorem opSnap_dirty {u : State} (h : u.rtc.stageDirty = true) : opSnap u = { u with rtc := { u.rtc with
    shDate := dateWord (calOf u.rtc), shTime := timeWord (calOf u.rtc), shSubsec := subsec u } } := by
  simp [opSnap, h]

theorem opSnap_clean {u : State} (h : u.rtc.stageDirty = false) : opSnap u = { u with rtc := { u.rtc with
    shDate := dateWord (calOf u.rtc), shTime := timeWord (calOf u.rtc), shSubsec := subsec u
    stDate := dateWord (calOf u.rtc), stTime := timeWord (calOf u.rtc) } } := by
  simp [opSnap, h]

theorem opCommit_clean {u : State} (h : u.rtc.stageDirty = false) : opCommit u = u := by simp [opCommit, h]

theorem opCommit_dirty {u : State} (h : u.rtc.stageDirty = true) : opCommit u =
    loadCal 1 (calOfWords u.rtc.stDate u.rtc.stTime) (nextEdge u) { u with rtc := { u.rtc with stageDirty := false } } := if_pos h

theorem opStatus_clears {u : State} {v : Nat} (h : v % 2 = 1) : opStatus v u = faultCond 0x0E13 false { u with rtc := { u.rtc with osf := false } } :=
  if_pos h

theorem opStatus_leaves {u : State} {v : Nat} (h : v % 2 = 0) : opStatus v u = u := if_neg (by omega)

theorem rawPlain_backup {u : State} {i v : Nat} (h : i < 16) :
    rawPlain (0x40 + 4 * i) v u = { u with rtc := { u.rtc with backup := upd (fun _ => v % 2 ^ 32) u.rtc.backup i } } := by
  have hword : (0x40 + 4 * i - 0x40) / 4 = i := by omega
  unfold rawPlain opRaw
  simp only [hword]
  rw [if_neg (by omega), if_neg (by omega), if_neg (by omega), if_neg (by omega), if_neg (by omega), if_neg (by omega), if_pos (by omega)]

theorem rawPlain_below {u : State} {i v : Nat} (h : i < 0x20) : rawPlain i v u = u := if_pos h

theorem rawPlain_reserved {u : State} {i v : Nat} (h : 0x20 ≤ i) (h' : i < 0x40) : rawPlain i v u = u := by
  unfold rawPlain opRaw
  rw [if_neg (by omega), if_neg (by omega), if_neg (by omega), if_neg (by omega), if_neg (by omega), if_neg (by omega), if_neg (by omega)]

/-! ### The follower -/

theorem following_iff (u : State) : following u = true ↔ u.cfg.img.time.rtcFollow = 1 := by simp [following]

theorem followCheck_loads {u : State} (hfollow : u.cfg.img.time.rtcFollow = 1) (hlocked : u.time.state = .locked)
    (hoff : 2000000 < ((calNs u : Int) - utcNs u).natAbs) :
    ∃ e, followCheck u = loadCal 3 (calOfSeconds ((utcNs u + 500000000) / 1000000000)) e u :=
  ⟨_, if_pos ⟨(following_iff u).2 hfollow, hlocked, hoff⟩⟩

theorem followCheck_leaves {u : State}
    (h : u.cfg.img.time.rtcFollow ≠ 1 ∨ u.time.state ≠ .locked ∨ ((calNs u : Int) - utcNs u).natAbs ≤ 2000000) : followCheck u = u := by
  refine if_neg ?_
  rintro ⟨hfollow, hlocked, hoff⟩
  rcases h with h | h | h
  · exact h ((following_iff u).1 hfollow)
  · exact h hlocked
  · exact Nat.not_lt.mpr h hoff

/-- Settles O30: each register by its own operation, the two loads by what they leave of the calendar. -/
theorem rawWindowCommandsActAsTheirRegistersSay : Obligations.RawWindowCommandsActAsTheirRegistersSay := by
  intro dt v i s u d t sec off
  refine ⟨fun h => gives_of_settle rfl (opSnap_dirty h), fun h => gives_of_settle rfl (opSnap_clean h), fun h => ⟨?_, ?_, ?_, ?_⟩, fun h => ⟨?_, ?_, ?_⟩,
    fun h => ?_, fun h => gives_of_settle rfl (opStatus_leaves h), fun h => gives_of_settle rfl (rawPlain_backup h),
    fun _ h => gives_of_settle rfl (rawPlain_below (Nat.lt_trans h (by decide))), fun h h' => gives_of_settle rfl (rawPlain_reserved h h'),
    fun hf hl ho => ?_, fun h => gives_of_settle rfl (followCheck_leaves h)⟩
  · exact gives_of_settle rfl (unlessFollowing_free h)
  · exact gives_of_settle rfl (unlessFollowing_free h)
  · exact fun hclean => gives_of_settle rfl ((unlessFollowing_free h).trans (opCommit_clean hclean))
  · intro hdirty
    have heq := (unlessFollowing_free (f := opCommit) h).trans (opCommit_dirty hdirty)
    obtain ⟨hcal, hsub, hvalid, hst, hosf, hbackup, -⟩ :=
      calPart_fields ((calPart_settle _).trans ((congrArg calPart heq).trans (calPart_loadCal _ _ _ _)))
    exact ⟨_, rfl, hcal, hsub, hvalid, hst, hosf, hbackup⟩
  · exact gives_of_settle rfl (unlessFollowing_following h)
  · exact gives_of_settle rfl (unlessFollowing_following h)
  · exact gives_of_settle rfl (unlessFollowing_following h)
  · refine ⟨settle (opStatus v u), rfl, ?_, ?_⟩
    · rw [settle_rtc, opStatus_clears h, faultCond_rtc]
    · rw [settle_active, opStatus_clears h, faultCond_inactive]
  · obtain ⟨e, heq⟩ := followCheck_loads hf hl ho
    obtain ⟨hcal, -, hvalid, -, hosf, hbackup, hclk⟩ :=
      calPart_fields ((calPart_settle _).trans ((congrArg calPart heq).trans (calPart_loadCal _ _ _ _)))
    exact ⟨_, rfl, hcal, hvalid, hosf, hbackup, hclk⟩

/-! ### The seconds carry -/

/-- The seconds carry on the calendar: which fields go to their least value and which one advances (R385). -/
theorem carrySecond_second {c : Cal} (h : c.second < 59) : carrySecond c = { c with second := c.second + 1 } := by
  simp [carrySecond, advanceField, Nat.not_le.mpr h]

theorem carrySecond_minute {c : Cal} (h : 59 ≤ c.second) (hm : c.minute < 59) : carrySecond c = { c with second := 0, minute := c.minute + 1 } := by
  simp [carrySecond, advanceField, h, Nat.not_le.mpr hm]

theorem carrySecond_hour {c : Cal} (h : 59 ≤ c.second) (hm : 59 ≤ c.minute) (hh : c.hour < 23) :
    carrySecond c = { c with second := 0, minute := 0, hour := c.hour + 1 } := by
  simp [carrySecond, advanceField, h, hm, Nat.not_le.mpr hh]

/-- The weekday after a day's end. -/
def nextWeekday (w : Nat) : Nat := if 6 ≤ w then 0 else w + 1

section
variable {c : Cal} (h : 59 ≤ c.second) (hm : 59 ≤ c.minute) (hh : 23 ≤ c.hour)
include h hm hh

theorem carrySecond_day (hd : c.day < monthLen c.month c.year) :
    carrySecond c = { c with second := 0, minute := 0, hour := 0, weekday := nextWeekday c.weekday, day := c.day + 1 } := by
  simp [carrySecond, advanceField, nextWeekday, h, hm, hh, Nat.not_le.mpr hd, apply_ite Prod.fst]

theorem carrySecond_month (hd : monthLen c.month c.year ≤ c.day) (hmo : c.month < 12) :
    carrySecond c = { c with second := 0, minute := 0, hour := 0, weekday := nextWeekday c.weekday, day := 1, month := c.month + 1 } := by
  simp [carrySecond, advanceField, nextWeekday, h, hm, hh, hd, Nat.not_le.mpr hmo, apply_ite Prod.fst]

theorem carrySecond_year (hd : monthLen c.month c.year ≤ c.day) (hmo : 12 ≤ c.month) :
    carrySecond c = ⟨if 99 ≤ c.year then 0 else c.year + 1, 1, 1, nextWeekday c.weekday, 0, 0, 0⟩ := by
  simp [carrySecond, advanceField, nextWeekday, h, hm, hh, hd, hmo, apply_ite Prod.fst]

/-- What a new day leaves of the time of day, and its weekday. -/
theorem carrySecond_midnight : (carrySecond c).second = 0 ∧ (carrySecond c).minute = 0 ∧ (carrySecond c).hour = 0 ∧
    (carrySecond c).weekday = nextWeekday c.weekday := by
  rcases Nat.lt_or_ge c.day (monthLen c.month c.year) with hd | hd
  · simp [carrySecond_day h hm hh hd]
  · rcases Nat.lt_or_ge c.month 12 with hmo | hmo
    · simp [carrySecond_month h hm hh hd hmo]
    · simp [carrySecond_year h hm hh hd hmo]

end

theorem carrySecond_full_hour {c : Cal} (h : 59 ≤ c.second) (hm : 59 ≤ c.minute) : (carrySecond c).second = 0 ∧ (carrySecond c).minute = 0 := by
  rcases Nat.lt_or_ge c.hour 23 with hh | hh
  · simp [carrySecond_hour h hm hh]
  · exact ⟨(carrySecond_midnight h hm hh).1, (carrySecond_midnight h hm hh).2.1⟩

theorem carrySecond_full_minute {c : Cal} (h : 59 ≤ c.second) : (carrySecond c).second = 0 := by
  rcases Nat.lt_or_ge c.minute 59 with hm | hm
  · simp [carrySecond_minute h hm]
  · exact (carrySecond_full_hour h hm).1

theorem calPart_secondCarry {u : State} (h : u.rtc.subEl + 1000000000 ≤ elNs u) :
    calPart (secondCarry u) =
      (carrySecond (calOf u.rtc), elNs u, u.rtc.calValid, u.rtc.stageDirty, u.rtc.osf, u.rtc.backup, u.clk) := by
  unfold secondCarry
  rw [if_pos (Nat.le_trans (Nat.add_le_add_left (by decide) _) h), calPart_alarmsAtCarry]
  rfl

theorem bkReset_off {u : State} (h : u.st = .off) : bkReset u = { u with rtc := { subEl := elNs u, alarms := u.rtc.alarms } } := by
  simp only [bkReset, h]

/-- Settles O31: the carry by the first field below its greatest valid value; the two others by their own effect. -/
theorem calendarCountsAndCarries : Obligations.CalendarCountsAndCarries := by
  intro dt s u c
  refine ⟨fun hdue => ?carry, fun hon => ?stop, fun hoff => ?reset⟩
  case carry =>
    have hpart := (calPart_settle _).trans (calPart_secondCarry hdue)
    obtain ⟨x, hx⟩ : ∃ x, x = settle (secondCarry u) := ⟨_, rfl⟩
    rw [← hx] at hpart
    obtain ⟨hcal, hsub, hvalid, -, hosf, hbackup, -⟩ := calPart_fields hpart
    refine ⟨x, congrArg Host.Outcome.next hx.symm, ?_⟩
    refine ⟨hsub, hbackup, hosf, hvalid, fun h => hcal.trans (carrySecond_second h), fun h => ?_⟩
    refine ⟨(congrArg Cal.second hcal).trans (carrySecond_full_minute h), fun hm => hcal.trans (carrySecond_minute h hm), fun hm => ?_⟩
    refine ⟨(congrArg Cal.minute hcal).trans (carrySecond_full_hour h hm).2, fun hh => hcal.trans (carrySecond_hour h hm hh), fun hh => ?_⟩
    obtain ⟨-, -, hhour, hweekday⟩ := carrySecond_midnight (c := calOf u.rtc) h hm hh
    refine ⟨(congrArg Cal.hour hcal).trans hhour, (congrArg Cal.weekday hcal).trans hweekday, fun hd => ?_, fun hd => ?_⟩
    · have hday := hcal.trans (carrySecond_day (c := calOf u.rtc) h hm hh hd)
      exact ⟨congrArg Cal.day hday, congrArg Cal.month hday, congrArg Cal.year hday⟩
    · refine ⟨?_, fun hmo => ?_, fun hmo => ?_⟩
      · rcases Nat.lt_or_ge u.rtc.month 12 with hmo | hmo
        · exact congrArg Cal.day (hcal.trans (carrySecond_month (c := calOf u.rtc) h hm hh hd hmo))
        · exact congrArg Cal.day (hcal.trans (carrySecond_year (c := calOf u.rtc) h hm hh hd hmo))
      · have hmonth := hcal.trans (carrySecond_month (c := calOf u.rtc) h hm hh hd hmo)
        exact ⟨congrArg Cal.month hmonth, congrArg Cal.year hmonth⟩
      · have hyear := hcal.trans (carrySecond_year (c := calOf u.rtc) h hm hh hd hmo)
        exact ⟨congrArg Cal.month hyear, congrArg Cal.year hyear⟩
  case stop =>
    refine ⟨settle (oscStop u), rfl, ?_, ?_⟩
    · rw [settle_rtc, oscStop, faultCond_rtc]
    · rw [settle_active]
      exact faultCond_active _ _ hon
  case reset =>
    refine ⟨settle (bkReset u), rfl, ?_⟩
    rw [settle_rtc, bkReset_off hoff]
    exact ⟨rfl, rfl, rfl, rfl, rfl⟩

end Sys2Proof.Machine
end

section
/-! PROPERTY. PTP_MESSAGE, PTP_MESSAGE_SEND and SOURCE_LOSS (14_timebase_rtc R373, R374, R378, R380; notes/assumptions/4.md, 15.md). -/

namespace Sys2Proof.Machine

open Sys2Proof.Safety

/-! ### What faults and bring-up leave of the timebase -/

@[simp] theorem timeFaults_time (s : State) : (timeFaults s).time = s.time := by have h := congrArg State.time (timeFaults_rest s); exact h
@[simp] theorem timeFaults_clk (s : State) : (timeFaults s).clk = s.clk := by have h := congrArg State.clk (timeFaults_rest s); exact h
@[simp] theorem timeFaults_st (s : State) : (timeFaults s).st = s.st := by have h := congrArg State.st (timeFaults_rest s); exact h
@[simp] theorem bringProgress_time (s : State) : (bringProgress s).time = s.time := by
  have h := congrArg State.time (bringProgress_restNoBring (s := s)); exact h
@[simp] theorem bringProgress_clk (s : State) : (bringProgress s).clk = s.clk := by
  have h := congrArg State.clk (bringProgress_restNoBring (s := s)); exact h

/-! ### The measured offset and the ports stand through selection and correction -/

/-- The last measured offset and what the ports have heard. -/
def ptpPart (s : State) : Int × List PtpPort := (s.time.theta, s.time.ports)

theorem ptpPart_timeFaults (s : State) : ptpPart (timeFaults s) = ptpPart s := by simp [ptpPart]

theorem ptpPart_event (c : Nat) (d : Bytes) (s : State) : ptpPart (event c d s) = ptpPart s := by simp [ptpPart]

theorem ptpPart_setTb (x : TbState) (s : State) : ptpPart (setTb x s) = ptpPart s := by
  unfold setTb
  split
  · rfl
  · rw [ptpPart_timeFaults, ptpPart_event]
    rfl

theorem ptpPart_hold (e : Nat) (g : Bool) (s : State) : ptpPart (loseSources.hold e g s) = ptpPart s := by
  unfold loseSources.hold
  rw [ptpPart_timeFaults, ptpPart_setTb]
  split <;> rfl

theorem ptpPart_loseSources (s : State) : ptpPart (loseSources s) = ptpPart s := by
  unfold loseSources
  dsimp only
  split
  · exact ptpPart_hold _ _ _
  · split
    · exact ptpPart_hold _ _ _
    · rw [ptpPart_timeFaults, ptpPart_setTb]
      rfl
  · rw [ptpPart_timeFaults]
    rfl

theorem ptpPart_reselect (s : State) : ptpPart (reselect s) = ptpPart s := by
  unfold reselect
  dsimp only
  split
  · rfl
  · split
    · exact ptpPart_loseSources s
    · split
      · rw [ptpPart_event]
        rfl
      · rw [ptpPart_setTb]
        rfl

theorem ptpPart_applyUtc (s : State) : ptpPart (applyUtc s) = ptpPart s := by
  unfold applyUtc
  extract_lets fromPort got o s1
  split
  · rfl
  · rw [ptpPart_event]
    rfl

theorem ptpPart_judgeLock (theta : Int) (s : State) : ptpPart (judgeLock theta s) = ptpPart s := by
  unfold judgeLock
  extract_lets thr within beyond s1
  split
  · split
    · exact ptpPart_setTb _ _
    · rfl
  · split
    · exact ptpPart_setTb _ _
    · rfl
  · rfl

theorem ptpPart_duty (theta : Int) (a : Nat) (s : State) : ptpPart (correct.duty theta a s) = ptpPart s := by
  unfold correct.duty
  split
  · rfl
  · split <;> rfl

theorem ptpPart_correct (theta : Int) (s : State) : ptpPart (correct theta s) = ptpPart s := by
  unfold correct
  dsimp only
  split
  · rfl
  · rfl
  · exact ptpPart_duty _ _ _
  · exact ptpPart_duty _ _ _
  · split <;> rfl

theorem theta_measure (theta : Int) (s : State) : (measure theta s).time.theta = theta := by
  unfold measure
  dsimp only
  rw [bringProgress_time, timeFaults_time]
  have hjudged := congrArg Prod.fst (ptpPart_judgeLock theta { s with time := { s.time with
    theta := theta, estErr := Config.thetaFilter s.time.estErr theta.natAbs s.nFree }, nFree := s.nFree + 2 })
  split
  · exact hjudged
  · refine (congrArg Prod.fst (ptpPart_correct _ _)).trans ?_
    split
    · exact hjudged
    · exact hjudged

/-! ### One message -/

theorem nth_port_setPort {p : Nat} (q : PtpPort) {s : State} (h : p < s.time.ports.length) : nth {} (setPort p q s).time.ports p = q :=
  nth_upd _ _ _ _ h

/-- A one-step Sync of the port's master has both its stamps at once. -/
theorem ptpReceive_oneStep {p : Nat} {origin corr li : Int} {u : State} {b : PtpMaster} (hrole : rolePort u p = true)
    (hbest : (nth {} u.time.ports p).best = some b) : ptpReceive p (.sync b.ident false origin corr li) u =
      syncDone p (origin + corr) ((nowNs u : Int) + ingressCorr u p)
        (setPort p { nth {} u.time.ports p with syncEl := elNs u, logInterval := clamp (-7) 1 li } u) := by
  unfold ptpReceive
  extract_lets q t2 fromBest
  have hfrom : fromBest b.ident = true := by simp [fromBest, q, hbest]
  rw [if_neg (by simp [hrole])]
  exact (if_pos hfrom).trans rfl

theorem theta_syncDone {p : Nat} {t1 t2 delay : Int} {u : State} (hst : u.st ≠ .selftest) (hsource : u.time.source = some p)
    (hdelay : (nth {} u.time.ports p).delayNs = some delay) : (syncDone p t1 t2 u).time.theta = t1 + asymNs u p + delay - t2 := by
  unfold syncDone
  dsimp only
  rw [if_neg (fun h => hst h.1), if_pos hsource, theta_measure, syncTheta, hdelay]
  rfl

/-- A Sync of the selected master whose delay is known measures its offset (R374, R380). -/
theorem theta_ptpReceive {p : Nat} {origin corr li delay : Int} {u : State} {b : PtpMaster} (hst : u.st ≠ .selftest)
    (hrole : rolePort u p = true) (hp : p < u.time.ports.length) (hbest : (nth {} u.time.ports p).best = some b)
    (hsource : u.time.source = some p) (hdelay : (nth {} u.time.ports p).delayNs = some delay) :
    (ptpReceive p (.sync b.ident false origin corr li) u).time.theta =
      origin + corr + asymNs u p + delay - ((nowNs u : Int) + ingressCorr u p) := by
  rw [ptpReceive_oneStep hrole hbest]
  refine theta_syncDone hst hsource ?_
  rw [nth_port_setPort _ hp]
  exact hdelay

/-- An Announce on a port that hears no master makes its sender that port's master. -/
theorem ptpReceive_first {p : Nat} {u : State} {b : PtpMaster} (hrole : rolePort u p = true) (hp : p < u.time.ports.length)
    (hbest : (nth {} u.time.ports p).best = none) :
    let t := ptpReceive p (.announce b.ident b.prio1 b.cls b.accuracy b.variance b.prio2 b.steps b.utcOffset b.utcValid) u
    (nth {} t.time.ports p).best = some { b with port := p } ∧ (nth {} t.time.ports p).announceEl = elNs u := by
  intro t
  have heq : t = applyUtc (reselect (setPort p { nth {} u.time.ports p with
        best := some { b with port := p }, announceEl := elNs u, delayNs := none, ms := none, syncT2 := none } u)) := by
    unfold t ptpReceive
    extract_lets q t2 fromBest
    have hfrom : fromBest b.ident = false := by simp [fromBest, q, hbest]
    rw [if_neg (by simp [hrole])]
    dsimp only
    rw [hfrom, if_pos (by simp [q, hbest])]
    rfl
  have hports (v : State) : (applyUtc (reselect v)).time.ports = v.time.ports :=
    congrArg Prod.snd ((ptpPart_applyUtc (reselect v)).trans (ptpPart_reselect v))
  rw [heq, hports, nth_port_setPort _ hp]
  exact ⟨rfl, rfl⟩

theorem ptpReceive_request {p ident : Nat} {u : State} (hrole : rolePort u p = true) (hmaster : portMaster u p = true) :
    ptpReceive p (.delayReq ident) u = emit (.ptpResp p ident ((nowNs u : Int) + ingressCorr u p).toNat 0) u := by
  simp only [ptpReceive, hrole, hmaster, Bool.not_true, Bool.false_eq_true, if_false, if_true]

theorem ptpReceive_outside {p : Nat} {x : PtpMsg} {u : State} (hrole : rolePort u p = false) : ptpReceive p x u = u := by
  simp only [ptpReceive, hrole, Bool.not_false, if_true]

theorem ptpReceive_other (p : Nat) (u : State) : ptpReceive p .other u = u := by
  unfold ptpReceive
  dsimp only
  split <;> rfl

/-! ### The loss of the selected master -/

/-- What loss and selection decide: the state of the timebase, its source and the slew that is left. -/
def lockPart (s : State) : TbState × Option Nat × Int := (s.time.state, s.time.source, s.clk.slewLeft)

theorem lockPart_bringProgress (s : State) : lockPart (bringProgress s) = lockPart s := by simp [lockPart]

theorem lockPart_event (c : Nat) (d : Bytes) (s : State) : lockPart (event c d s) = lockPart s := by simp [lockPart]

theorem lockPart_applyUtc (s : State) : lockPart (applyUtc s) = lockPart s := by
  unfold applyUtc
  extract_lets fromPort got o s1
  split
  · rfl
  · rw [lockPart_event]
    rfl

theorem lockPart_setTb {x : TbState} {s : State} (h : s.time.state ≠ x) : lockPart (setTb x s) = (x, s.time.source, s.clk.slewLeft) := by
  unfold setTb
  rw [if_neg h]
  simp [lockPart]

theorem lockPart_hold {e : Nat} {g : Bool} {s : State} (h : s.time.state = .locked) :
    lockPart (loseSources.hold e g s) = (.holdover, s.time.source, s.clk.slewLeft) := by
  have hstands (v : State) (hv : lockPart v = lockPart s) :
      lockPart (timeFaults (setTb .holdover v)) = (.holdover, s.time.source, s.clk.slewLeft) := by
    obtain ⟨hstate, hsource, hslew⟩ := Prod.mk.inj hv |>.imp_right Prod.mk.inj
    have hset := lockPart_setTb (x := .holdover) (s := v) (by rw [hstate, h]; decide)
    rw [hsource, hslew] at hset
    rw [← hset]
    simp [lockPart]
  unfold loseSources.hold
  dsimp only
  split
  · exact hstands _ rfl
  · exact hstands _ rfl

/-- A LOCKED timebase that has lost every source holds over, without a source and without a slew (R373). -/
theorem lockPart_loseSources {s : State} (h : s.time.state = .locked) : lockPart (loseSources s) = (.holdover, none, 0) := by
  unfold loseSources
  dsimp only
  split
  · exact lockPart_hold h
  · rename_i h'
    exact absurd (h.symm.trans h') (by decide)
  · rename_i h' _
    exact absurd h h'

/-- With no source usable nothing is chosen. -/
theorem chooseSource_none {s : State} (hport : bestPort s = none) (hgnss : s.time.gnssUsable = false) : chooseSource s = none := by
  have hcode (c : Nat) : sourceUsable s c = none := by
    unfold sourceUsable
    rw [hport, hgnss]
    simp
  unfold chooseSource
  rw [hcode, hcode]

theorem bestPort_none_iff (s : State) : bestPort s = none ↔ usableMaster s 0 = none ∧ usableMaster s 1 = none := by
  unfold bestPort
  split <;> simp_all

/-- A port whose delay is unknown names no usable master. -/
theorem usableMaster_setPort_unknown {p : Nat} {q : PtpPort} {s : State} (hp : p < s.time.ports.length) (hq : q.delayNs = none) :
    usableMaster (setPort p q s) p = none := by
  simp [usableMaster, nth_port_setPort q hp, hq]

theorem usableMaster_setPort_other {p i : Nat} {q : PtpPort} {s : State} (h : p ≠ i) : usableMaster (setPort p q s) i = usableMaster s i := by
  have hport : nth {} (setPort p q s).time.ports i = nth {} s.time.ports i := nth_upd_other _ _ _ _ _ h
  unfold usableMaster
  rw [hport]
  rfl

/-- Whatever a port without a known delay holds, it is usable no more than an empty one. -/
theorem bestPort_setPort_none {p : Nat} {q : PtpPort} {s : State} (hp : p < s.time.ports.length) (hq : q.delayNs = none)
    (h : bestPort (setPort p {} s) = none) : bestPort (setPort p q s) = none := by
  have hmaster (i : Nat) (hi : usableMaster (setPort p {} s) i = none) : usableMaster (setPort p q s) i = none := by
    by_cases hpi : p = i
    · subst hpi
      exact usableMaster_setPort_unknown hp hq
    · rwa [usableMaster_setPort_other hpi] at hi ⊢
  rw [bestPort_none_iff] at h ⊢
  exact ⟨hmaster 0 h.1, hmaster 1 h.2⟩

theorem lockPart_reselect_lost {s : State} (hstate : s.time.state = .locked) (hsource : s.time.source ≠ none) (hnone : chooseSource s = none) :
    lockPart (reselect s) = (.holdover, none, 0) := by
  unfold reselect
  dsimp only
  rw [hnone, if_neg (Ne.symm hsource)]
  exact lockPart_loseSources hstate

/-- The row on the port of the selected master, which is lost with no other source usable. -/
theorem lockPart_sourceLoss {p : Nat} {u : State} (hp : p < u.time.ports.length) (hsource : u.time.source = some p) (hstate : u.time.state = .locked)
    (hlost : ptpLost u p = true) (hgnss : u.time.gnssUsable = false) (hport : bestPort (setPort p {} u) = none) :
    lockPart (sourceLoss (some p) false u) = (.holdover, none, 0) := by
  have hstands (q : PtpPort) (hq : q.delayNs = none) : lockPart (bringProgress (applyUtc (reselect (setPort p q u)))) = (.holdover, none, 0) := by
    rw [lockPart_bringProgress, lockPart_applyUtc]
    refine lockPart_reselect_lost hstate (fun h => nomatch hsource.symm.trans h) ?_
    exact chooseSource_none (bestPort_setPort_none hp hq hport) hgnss
  unfold sourceLoss
  simp only [hlost, if_true, Bool.false_eq_true, false_and, if_false]
  split
  · exact hstands _ rfl
  · exact hstands _ rfl

theorem ptpSend_master {p : Nat} {u : State} (h : portMaster u p = true) :
    ptpSend p .sync u = emit (.ptp p .sync (clockClassOut u)) u ∧ ptpSend p .announce u = emit (.ptp p .announce (clockClassOut u)) u := by
  simp only [ptpSend, h, if_true, and_self]

theorem ptpSend_notMaster {p : Nat} {u : State} (h : portMaster u p = false) : ptpSend p .sync u = u ∧ ptpSend p .announce u = u := by
  simp only [ptpSend, h, Bool.false_eq_true, if_false, and_self]

/-- Outside OFF a row on the timebase has its own effect. -/
theorem next_of_on {s t : State} {f : State} (hon : s.st ≠ .off) :
    Host.Outcome.next (settle (match s.st with | .off => t | _ => f)) = (.next (settle f) : Host.Outcome State Fault Refusal) := by
  cases h : s.st with
  | off => exact absurd h hon
  | _ => rfl

/-- Settles O32: a message by its kind on a port in the role, a send by whether the port is a master, a loss by what is still usable. -/
theorem ptpMessagesMeasureAndAnswer : Obligations.PtpMessagesMeasureAndAnswer := by
  intro dt p ident origin corr li delay s b u q role stamp asym hon
  have hreceive (x : PtpMsg) : exec (.ptpMessage dt p x) s = .next (settle (ptpReceive p x u)) := next_of_on hon
  have hsend (x : PtpSend) : exec (.ptpMessageSend dt p x) s = .next (settle (ptpSend p x u)) := next_of_on hon
  have hloss : exec (.sourceLoss dt (some p) false) s = .next (settle (sourceLoss (some p) false u)) := next_of_on hon
  refine ⟨fun hst hrole hp hbest hident hsource hdelay => ?sync, fun hrole hp hbest => ?announce, fun hrole hmaster => ?request,
    fun x hrole => ?outside, ?other, fun hmaster => ?master, fun hmaster => ?slave, fun hp hlen hsource hstate hlost hgnss hport _ => ?loss⟩
  case sync =>
    subst hident
    exact ⟨_, hreceive _, (congrArg TimeSt.theta (settle_time _)).trans (theta_ptpReceive hst hrole hp hbest hsource hdelay)⟩
  case announce =>
    refine ⟨_, hreceive _, ?_⟩
    rw [settle_time]
    exact ptpReceive_first hrole hp hbest
  case request => exact gives_of_settle (hreceive _) (ptpReceive_request hrole hmaster)
  case outside => exact gives_of_settle (hreceive _) (ptpReceive_outside hrole)
  case other => exact gives_of_settle (hreceive _) (ptpReceive_other p u)
  case master => exact ⟨gives_of_settle (hsend _) (ptpSend_master hmaster).1, gives_of_settle (hsend _) (ptpSend_master hmaster).2⟩
  case slave => exact ⟨gives_of_settle (hsend _) (ptpSend_notMaster hmaster).1, gives_of_settle (hsend _) (ptpSend_notMaster hmaster).2⟩
  case loss =>
    refine ⟨_, hloss, ?_⟩
    rw [settle_time, settle_clk]
    have hpart := lockPart_sourceLoss (hlen ▸ hp) hsource hstate hlost hgnss hport
    obtain ⟨hholdover, hrest⟩ := Prod.mk.inj hpart
    exact ⟨hholdover, Prod.mk.inj hrest⟩

end Sys2Proof.Machine
end

section
/-! PROPERTY. LEDGER_RECORD_WRITE, OPERATING_SECONDS_SAVE, LEDGER.WINDOW and LEDGER.READ (20_ledger R514 to R516, R521, R522; notes/assumptions/35.md). -/

namespace Sys2Proof.Machine

open Sys2Proof.Safety

/-! ### The writer -/

/-- The writer takes the oldest occurrence (R517). -/
theorem writeRecord_cons {s : State} {e : Rec} {q : List Rec} (hon : s.st ≠ .off) (hq : s.ledger.queue = e :: q) :
    writeRecord false s = reportLoss { s with ledger := { s.ledger with queue := q }.write e } := by
  unfold writeRecord
  rw [hq]
  cases h : s.st with
  | off => exact absurd h hon
  | _ => rfl

theorem writeRecord_nil {s : State} (hq : s.ledger.queue = []) (b : Bool) : writeRecord b s = s := by
  unfold writeRecord
  rw [hq]
  cases s.st <;> rfl

/-- With no record lost there is no loss to report (R518). -/
theorem reportLoss_none {s : State} (h : s.ledger.lostSince = 0) : reportLoss s = s := if_neg (by simp [h])

theorem write_lostSince (l : LedgerSt) (r : Rec) : (l.write r).lostSince = l.lostSince := by
  unfold LedgerSt.write
  split
  · split <;> rfl
  · rfl

theorem writeRecord_ledger {s : State} {e : Rec} {q : List Rec} (hon : s.st ≠ .off) (hq : s.ledger.queue = e :: q) (hlost : s.ledger.lostSince = 0) :
    (writeRecord false s).ledger = { s.ledger with queue := q }.write e := by
  rw [writeRecord_cons hon hq, reportLoss_none ((write_lostSince { s.ledger with queue := q } e).trans hlost)]

theorem write_merges {l : LedgerSt} {n e : Rec} {old : List Rec} (hrecs : l.recs = n :: old) (h : mergeable n e = true) :
    l.write e = { l with recs := { n with repeats := n.repeats + 1, lastS := lastSeconds n e } :: old } := by
  simp only [LedgerSt.write, hrecs, h, if_true]

theorem write_appends {l : LedgerSt} {n e : Rec} {old : List Rec} (h : l.recs = [] ∨ (l.recs = n :: old ∧ mergeable n e = false)) :
    l.write e = l.append e := by
  rcases h with hnone | ⟨hrecs, hnot⟩
  · simp only [LedgerSt.write, hnone]
  · simp only [LedgerSt.write, hrecs, hnot, Bool.false_eq_true, if_false]

/-- The newest record stands in a region with any room (R520). -/
theorem trimRecs_head {k : Nat} (h : 0 < k) (r : Rec) (q : List Rec) : (trimRecs k (r :: q)).head? = some r := by
  cases k with
  | zero => exact absurd h (Nat.lt_irrefl 0)
  | succ k => rfl

theorem append_fields (l : LedgerSt) (e : Rec) : (l.append e).queue = l.queue ∧ (l.append e).next = (l.next + e.size) % 2 ^ 32 ∧
    (l.append e).recs.head? = some { e with seq := l.next } :=
  ⟨rfl, rfl, trimRecs_head (by decide) _ _⟩

theorem saveOp_due {s : State} (hcount : s.ledger.counting = true) (hten : s.ledger.opS % 10 = 0) :
    saveOp s = { s with ledger := { s.ledger with savedOp := s.ledger.opS } } := if_pos ⟨hcount, hten⟩

theorem saveOp_not {s : State} (h : s.ledger.counting = false ∨ s.ledger.opS % 10 ≠ 0) : saveOp s = s := by
  refine if_neg ?_
  rintro ⟨hcount, hten⟩
  rcases h with h | h
  · exact Bool.false_ne_true (h.symm.trans hcount)
  · exact h hten

/-! ### A mailbox's window -/

/-- A state whose mailbox holds another Ledger window. -/
def withWindow (m : Nat) (w : Window) (u : State) : State := setBox m { boxOf u m with window := some w } u

/-- An immediate command that writes its mailbox's window is answered, leaves the window there, and changes mailbox contents alone. -/
theorem window_of_ok {c : Instr} {s u : State} {m word : Nat} {r : Request} {q : List Request} {f : Request → State → Reply} {p : Bytes} {w : Window}
    (hc : exec c s = .next (settle (runImmediate word f m u))) (h : Turn u m word r q) (hf : f r u = .ok (withWindow m w u) p) :
    ∃ t, exec c s = .next t ∧ quiet t = quiet u ∧ (boxOf t m).window = some w ∧ Out.msg r.port r.src (respond r p none) ∈ t.out := by
  refine ⟨_, hc, (settle_quiet _).trans ((runImmediate_quiet h hf).trans (setBox_quiet _ _ _)), ?_, ?_⟩
  · have hterms := runImmediate_boxTerms h hf m
    rw [withWindow, boxOf_setBox _ h.box] at hterms
    rw [boxOf_settle]
    exact (congrArg Mbox.window hterms :)
  · rw [settle_out]
    refine runImmediate_sends h hf ?_ ?_
    · rw [withWindow, setBox_length]
      exact h.box
    · rw [withWindow, boxOf_setBox _ h.box]
      exact h.queue

/-- The first and the last SEQ that LEDGER.WINDOW names (Table 20-3). -/
def windowFirst (r : Request) (u : State) : Nat :=
  if byteAt r.payload 0 = 0 then fld r.payload 4 4
  else if byteAt r.payload 0 = 1 then oldestSeq u else toWord 32 ((newestSeq u : Int) - fld r.payload 8 4 + 1)

def windowLast (r : Request) (u : State) : Nat := toWord 32 ((windowFirst r u : Int) + fld r.payload 8 4 - 1)

theorem cmdLedgerWindow_inRange {r : Request} {u : State} (hanchor : byteAt r.payload 0 ≤ 2) (hspan : 1 ≤ fld r.payload 8 4)
    (hspan' : fld r.payload 8 4 ≤ 1048576) (hfrom : byteAt r.payload 0 ≠ 0 → fld r.payload 4 4 = 0)
    (hseq : byteAt r.payload 0 = 0 → seqDiff (fld r.payload 4 4) u.ledger.next ≤ 0) :
    cmdLedgerWindow r u = .ok (withWindow r.mbox { first := windowFirst r u, last := windowLast r u, cursor := windowFirst r u } u)
      (u32 (windowFirst r u) ++ u32 (windowLast r u) ++ u32 (oldestSeq u) ++ u32 (newestSeq u) ++ u32 u.ledger.boot ++ u32 u.ledger.lost) := by
  unfold cmdLedgerWindow
  dsimp only
  rw [if_neg (by omega), if_neg (fun h => h.2 (hfrom h.1)), if_neg (by unfold ledgerCap; omega), if_neg (fun h => Int.not_lt.mpr (hseq h.1) h.2)]
  rfl

theorem cmdLedgerRead_noWindow {r : Request} {u : State} (errs : List Nat) (h : (boxOf u r.mbox).window = none) :
    cmdLedgerRead errs r u = .refuse { code := 0x0006 } := by
  simp only [cmdLedgerRead, h]

/-- Where LEDGER.READ begins: the cursor, or the oldest record when that is later. -/
def readFrom (w : Window) (u : State) : Nat := if 0 < seqDiff (oldestSeq u) w.cursor then oldestSeq u else w.cursor

/-- Records from there to the newest, and to the window's end. -/
def readAvail (w : Window) (u : State) : Nat := (seqDiff (newestSeq u) (readFrom w u) + 1).toNat
def readLeft (w : Window) (u : State) : Nat := (seqDiff w.last (readFrom w u) + 1).toNat

/-- How many are read, and the cursor past them. -/
def recordsRead (n : Nat) (w : Window) (u : State) : Nat := Nat.min n (Nat.min (readAvail w u) (readLeft w u))
def readNext (n : Nat) (w : Window) (u : State) : Nat := (readFrom w u + recordsRead n w u) % 2 ^ 32

theorem cmdLedgerRead_window {r : Request} {u : State} {w : Window} (hw : (boxOf u r.mbox).window = some w) (hlow : 1 ≤ byteAt r.payload 0)
    (hhigh : byteAt r.payload 0 ≤ 40) :
    let n := byteAt r.payload 0
    cmdLedgerRead [] r u = .ok (withWindow r.mbox { w with cursor := readNext n w u } u)
      (u8 (recordsRead n w u) ++ u8 (maskOf [decide (readAvail w u < n) && decide (readAvail w u < readLeft w u),
        decide (0 < seqDiff (oldestSeq u) w.cursor), decide (0 < seqDiff (readNext n w u) w.last)]) ++ u16 0 ++ u32 (oldestSeq u) ++
        u32 (newestSeq u) ++ u32 (readNext n w u) ++
        (List.range (recordsRead n w u)).flatMap (fun i => recordAt u [] ((readFrom w u + i) % 2 ^ 32))) := by
  have hfrom : (if decide (0 < seqDiff (oldestSeq u) w.cursor) = true then oldestSeq u else w.cursor) = readFrom w u := by
    simp only [decide_eq_true_eq, readFrom]
  unfold cmdLedgerRead
  simp only [hw, if_neg (show ¬(byteAt r.payload 0 = 0 ∨ 40 < byteAt r.payload 0) by omega), hfrom, List.flatMap_map]
  rw [if_neg (by simp)]
  rfl

/-- Settles O33: an occurrence merges or is appended; a window is written; a reading moves the cursor of its own mailbox. -/
theorem ledgerWritesReadsAndCounts : Obligations.LedgerWritesReadsAndCounts := by
  intro dt m s e n rest_ old r q u anchor from_ span count first last
  refine ⟨fun hon hq hlost => ⟨fun hrecs hmerge => ?merge, fun hnew => ?append⟩, fun hq => ?nothing, fun hcount hten => ?save, fun hnot => ?notYet,
    fun hturn hbox hanchor hspan hspan' hfrom hseq => ?window, fun hturn hbox hnone => ?noWindow, fun w hturn hbox hw hlow hhigh => ?read⟩
  case merge =>
    refine ⟨settle (writeRecord false u), rfl, ?_⟩
    have hwrite := write_merges (l := { u.ledger with queue := rest_ }) hrecs hmerge
    rw [settle_ledger, writeRecord_ledger (s := u) hon hq hlost, hwrite]
    exact ⟨rfl, rfl, rfl⟩
  case append =>
    refine ⟨settle (writeRecord false u), rfl, ?_⟩
    have hwrite := write_appends (l := { u.ledger with queue := rest_ }) hnew
    rw [settle_ledger, writeRecord_ledger (s := u) hon hq hlost, hwrite]
    exact append_fields _ _
  case nothing => exact gives_of_settle rfl (writeRecord_nil hq false)
  case save => exact gives_of_settle rfl (saveOp_due hcount hten)
  case notYet => exact gives_of_settle rfl (saveOp_not hnot)
  case window =>
    subst hbox
    obtain ⟨t, ht, hquiet, hwindow, hsent⟩ :=
      window_of_ok (c := .ledgerWindow dt r.mbox) rfl hturn (cmdLedgerWindow_inRange hanchor hspan hspan' hfrom hseq)
    exact ⟨t, ht, hquiet, hsent, hwindow⟩
  case noWindow =>
    subst hbox
    exact refused_of_refuse rfl hturn (cmdLedgerRead_noWindow [] hnone)
  case read =>
    subst hbox
    exact window_of_ok (c := .ledgerRead dt r.mbox []) rfl hturn (cmdLedgerRead_window hw hlow hhigh)

end Sys2Proof.Machine
end

section
/-! PROPERTY. GNSS_BURST, GNSS_SLEEP, GNSS_WAKE, ANTENNA_OPEN, ANTENNA_SHORT, BIAS_RETRY, NO_FULL_SOLUTION_FAULT, PPS_OUT_PULSE and
PPS_OUT_PULSE_END (15_gnss R401, R410, R411, R413, R415, R418). -/

namespace Sys2Proof.Machine

open Sys2Proof.Safety

/-! ### A raise or an end of one source leaves the others -/

theorem faultActive_raiseCore_other {c code : Nat} {o : Bool} {bs : List Block} (s : State) (hc : faultIndex code ≠ faultIndex c) :
    faultActive (raiseCore code o bs s) c = faultActive s c := by
  by_cases hs : s.st = .off
  · unfold raiseCore
    rw [hs]
  · obtain ⟨f, -, -, -, hsrc⟩ := raiseCore_src s code o bs hs
    unfold faultActive srcOf
    rw [hsrc, Table.get_set, if_neg hc]

theorem faultActive_lossCheck_other {c : Nat} (n : Nat) (s : State) (hc : faultIndex c ≠ faultIndex 0x1410) :
    faultActive (lossCheck n s) c = faultActive s c := by
  unfold faultActive srcOf
  rw [lossCheck_src s n _ hc]

/-- A condition source taking the truth of its condition changes no other, lost records (20 R518) apart. -/
theorem faultActive_faultSet_other {c code : Nat} (on : Bool) (bs : List Block) (s : State) (hc : faultIndex code ≠ faultIndex c)
    (hloss : faultIndex c ≠ faultIndex 0x1410) : faultActive (faultSet code on bs s) c = faultActive s c := by
  unfold faultSet
  split
  · split
    · rfl
    · rw [faultActive_lossCheck_other _ _ hloss, faultActive_raiseCore_other s hc]
  · split
    · unfold faultActive srcOf setSrc
      rw [Table.get_set, if_neg hc]
    · rfl

/-! ### Bursts, sleep and the antenna -/

theorem gnssBurst_eq {s : State} (h : s.gnss.regime = .burst ∧ s.gnss.powered = true ∧ gnssHeld s = false ∧ s.gnss.burst = false) :
    gnssBurst s = { s with gnss := { s.gnss with burst := true, slip := s.gnss.slip.map (fun n => (n + 1) % 256) } } := by
  unfold gnssBurst
  rw [if_pos h]
  rfl

theorem gnssBurst_idle {s : State} (h : ¬(s.gnss.regime = .burst ∧ s.gnss.powered = true ∧ gnssHeld s = false ∧ s.gnss.burst = false)) :
    gnssBurst s = s := if_neg h

/-- The receiver may go to sleep now: WAKE_MAX_S awake, or full for AWAKE_S on fresh ephemerides (R411). -/
def mayDoze (fresh : Bool) (s : State) : Prop := s.gnss.wakeEl + s.cfg.img.gnss.wakeMaxS * 1000000000 ≤ elNs s ∨
  (fresh = true ∧ ∃ f, s.gnss.fullSince = some f ∧ f + s.cfg.img.gnss.awakeS * 1000000000 ≤ elNs s)

/-- GNSS_SLEEP's own test, as the model writes it. -/
theorem dozeTest_iff (fresh : Bool) (s : State) :
    ((match s.gnss.fullSince with
      | some t => decide (t + s.cfg.img.gnss.awakeS * 1000000000 ≤ elNs s) && fresh
      | none => false) = true ∨ decide (s.gnss.wakeEl + s.cfg.img.gnss.wakeMaxS * 1000000000 ≤ elNs s) = true) ↔ mayDoze fresh s := by
  unfold mayDoze
  cases s.gnss.fullSince with
  | none => simp
  | some f => simp [or_comm, and_comm]

/-- What GNSS_SLEEP leaves of the receiver. -/
def dozing (el : Nat) (h : GnssSt) : GnssSt :=
  { h with powered := false, asleep := true, sleepEl := el, saved := h.ret, grade := 0, fullSince := none, codeLock := List.replicate 33 false }

theorem gnssSleep_gnss {fresh : Bool} {s : State} (h : s.gnss.regime = .longSleep ∧ s.gnss.powered = true ∧ atSecond s = true)
    (hdoze : mayDoze fresh s) : (gnssSleep fresh s).gnss = dozing (elNs s) s.gnss := by
  obtain ⟨hregime, hpowered, hsecond⟩ := h
  unfold gnssSleep
  extract_lets g held late
  rw [if_pos ⟨hregime, hpowered, hsecond, (dozeTest_iff fresh s).mpr hdoze⟩, event_gnss, faultSet_gnss]
  rfl

theorem gnssSleep_idle {fresh : Bool} {s : State}
    (h : ¬(s.gnss.regime = .longSleep ∧ s.gnss.powered = true ∧ atSecond s = true ∧ mayDoze fresh s)) : gnssSleep fresh s = s := by
  unfold gnssSleep
  extract_lets g held late
  refine if_neg (fun hd => h ?_)
  obtain ⟨hregime, hpowered, hsecond, hdoze⟩ := hd
  exact ⟨hregime, hpowered, hsecond, (dozeTest_iff fresh s).mp hdoze⟩

theorem gnssWake_gnss {s : State} (h : s.gnss.asleep = true ∧ s.gnss.sleepEl + s.cfg.img.gnss.sleepMin * 60000000000 ≤ elNs s ∧
    atSecond s = true) : (gnssWake s).gnss = (gnssStart s).gnss := by
  unfold gnssWake
  rw [if_pos h]
  exact event_gnss _ _ _

theorem gnssWake_idle {s : State} (h : ¬(s.gnss.asleep = true ∧ s.gnss.sleepEl + s.cfg.img.gnss.sleepMin * 60000000000 ≤ elNs s ∧
    atSecond s = true)) : gnssWake s = s := if_neg h

theorem antennaOpen_on {s : State} (h : s.gnss.bias = true) : antennaOpen s = faultSet 0x0F10 true [.gnss] s := if_pos h

theorem antennaOpen_off {s : State} (h : s.gnss.bias = false) : antennaOpen s = s := if_neg (by simp [h])

/-- A short takes the bias from the antenna. -/
def shorted (s : State) : State := setGnss (fun g => { g with bias := false, shortEl := some (elNs s) }) s

theorem antennaShort_on {s : State} (h : s.gnss.bias = true) :
    antennaShort s = faultSet 0x0F11 true [.gnss] (faultSet 0x0F10 false [.gnss] (shorted s)) := if_pos h

theorem antennaShort_off {s : State} (h : s.gnss.bias = false) : antennaShort s = s := if_neg (by simp [h])

theorem biasRetry_due {s : State} {t : Nat} (hshort : s.gnss.shortEl = some t) (hel : t + 10000000000 ≤ elNs s)
    (hon : s.gnss.powered = true ∨ s.gnss.asleep = true) :
    biasRetry s = faultSet 0x0F11 false [.gnss] (setGnss (fun g => { g with bias := true, shortEl := none }) s) := by
  unfold biasRetry
  rw [hshort]
  exact if_pos ⟨hel, hon⟩

theorem biasRetry_idle {s : State}
    (h : ¬((s.gnss.powered = true ∨ s.gnss.asleep = true) ∧ ∃ t, s.gnss.shortEl = some t ∧ t + 10000000000 ≤ elNs s)) : biasRetry s = s := by
  unfold biasRetry
  cases hshort : s.gnss.shortEl with
  | none => rfl
  | some t => exact if_neg (fun hd => h ⟨hd.2, t, hshort, hd.1⟩)

/-- Table 15-8: 60 s from both the wake and the last full solution. -/
theorem noFullTest_iff (s : State) (d el : Nat) :
    Nat.max s.gnss.wakeEl s.gnss.fullEl + d ≤ el ↔ s.gnss.wakeEl + d ≤ el ∧ s.gnss.fullEl + d ≤ el := by
  have h := Nat.max_le (a := s.gnss.wakeEl + d) (b := s.gnss.fullEl + d) (c := el)
  rwa [Nat.add_max_add_right] at h

theorem noFullFault_due {s : State} (h : s.gnss.powered = true ∧ s.gnss.grade ≠ 2 ∧ s.gnss.wakeEl + 60000000000 ≤ elNs s ∧
    s.gnss.fullEl + 60000000000 ≤ elNs s) : noFullFault s = faultSet 0x0F13 true [.gnss] s := by
  obtain ⟨hpowered, hgrade, hwait⟩ := h
  exact if_pos ⟨hpowered, hgrade, (noFullTest_iff s _ _).mpr hwait⟩

theorem noFullFault_idle {s : State} (h : ¬(s.gnss.powered = true ∧ s.gnss.grade ≠ 2 ∧ s.gnss.wakeEl + 60000000000 ≤ elNs s ∧
    s.gnss.fullEl + 60000000000 ≤ elNs s)) : noFullFault s = s :=
  if_neg (fun hd => h ⟨hd.1, hd.2.1, (noFullTest_iff s _ _).mp hd.2.2⟩)

/-- Settles O40: each command by the equation of its function where its condition holds, and as no change where it does not. -/
theorem receiverSleepsWakesAndGuardsItsAntenna : Obligations.ReceiverSleepsWakesAndGuardsItsAntenna := by
  intro dt b s u g bursts sleeps wakes retries overdue
  refine ⟨fun h => gives_of_settle rfl (gnssBurst_eq h), fun h => gives_of_settle rfl (gnssBurst_idle h), ?sleep, ?stay, ?wake, ?slumber,
    ?antenna, fun h => ⟨gives_of_settle rfl (antennaOpen_off h), gives_of_settle rfl (antennaShort_off h)⟩, ?retry, fun h => gives_of_settle rfl (biasRetry_idle h), ?overdue,
    fun h => gives_of_settle rfl (noFullFault_idle h)⟩
  case sleep =>
    rintro ⟨hregime, hpowered, hsecond, hdoze⟩
    refine ⟨_, rfl, ?_⟩
    rw [settle_gnss, gnssSleep_gnss ⟨hregime, hpowered, hsecond⟩ hdoze]
    exact ⟨rfl, rfl, rfl, rfl, rfl⟩
  case stay => exact fun h => gives_of_settle rfl (gnssSleep_idle h)
  case wake =>
    rintro ⟨hasleep, hsecond, hel⟩
    refine ⟨_, rfl, ?_⟩
    rw [settle_gnss, gnssWake_gnss ⟨hasleep, hel, hsecond⟩]
    exact ⟨rfl, rfl, rfl, rfl⟩
  case slumber => exact fun h => gives_of_settle rfl (gnssWake_idle (fun hd => h ⟨hd.1, hd.2.2, hd.2.1⟩))
  case antenna =>
    intro hon hbias
    refine ⟨⟨_, rfl, ?_⟩, _, rfl, ?_⟩
    · rw [antennaOpen_on hbias, settle_active, settle_rest, faultSet_rest]
      exact ⟨faultSet_active u 0x0F10 [.gnss] hon, rfl⟩
    · rw [antennaShort_on hbias, settle_gnss, settle_active, settle_active, faultSet_gnss, faultSet_gnss,
        faultActive_faultSet_other (c := 0x0F10) _ _ _ (by decide) (by decide), faultSet_inactive]
      exact ⟨rfl, rfl, faultSet_active _ _ _ (by rw [faultSet_st]; exact hon), rfl⟩
  case retry =>
    rintro - ⟨hpower, t, hshort, hel⟩
    refine ⟨_, rfl, ?_⟩
    rw [biasRetry_due hshort hel hpower, settle_gnss, settle_active, faultSet_gnss]
    exact ⟨rfl, rfl, faultSet_inactive _ _ _⟩
  case overdue =>
    intro hon hd
    refine ⟨_, rfl, ?_⟩
    rw [noFullFault_due hd, settle_active, settle_rest, faultSet_rest]
    exact ⟨faultSet_active u 0x0F13 [.gnss] hon, rfl⟩

end Sys2Proof.Machine
end

section
/-! PROPERTY. PPS_OUT_PULSE, PPS_OUT_PULSE_END, GNSS_MEASUREMENT_EPOCH, NAVIGATION_WORD and NAV_SOLUTION_COMPLETE (15_gnss R403 to R407, R413,
R415; notes/assumptions/18.md). -/

namespace Sys2Proof.Machine

open Sys2Proof.Safety

/-! ### The receiver stands through selection and correction of the timebase -/

/-- The receiver, and whether its solutions are a time source. -/
def gnssPart (s : State) : GnssSt × Bool := (s.gnss, s.time.gnssUsable)

@[simp] theorem timeFaults_gnss (s : State) : (timeFaults s).gnss = s.gnss := by have h := congrArg State.gnss (timeFaults_rest s); exact h

@[simp] theorem bringProgress_gnss (s : State) : (bringProgress s).gnss = s.gnss := by
  have h := congrArg State.gnss (bringProgress_restNoBring (s := s)); exact h

theorem gnssPart_timeFaults (s : State) : gnssPart (timeFaults s) = gnssPart s := by simp [gnssPart]

theorem gnssPart_event (c : Nat) (d : Bytes) (s : State) : gnssPart (event c d s) = gnssPart s := by simp [gnssPart]

theorem gnssPart_faultSet (c : Nat) (on : Bool) (bs : List Block) (s : State) : gnssPart (faultSet c on bs s) = gnssPart s := by
  simp [gnssPart]

theorem gnssPart_bringProgress (s : State) : gnssPart (bringProgress s) = gnssPart s := by simp [gnssPart]

theorem gnssPart_setTb (x : TbState) (s : State) : gnssPart (setTb x s) = gnssPart s := by
  unfold setTb
  split
  · rfl
  · rw [gnssPart_timeFaults, gnssPart_event]
    rfl

theorem gnssPart_hold (e : Nat) (g : Bool) (s : State) : gnssPart (loseSources.hold e g s) = gnssPart s := by
  unfold loseSources.hold
  rw [gnssPart_timeFaults, gnssPart_setTb]
  split <;> rfl

theorem gnssPart_loseSources (s : State) : gnssPart (loseSources s) = gnssPart s := by
  unfold loseSources
  dsimp only
  split
  · exact gnssPart_hold _ _ _
  · split
    · exact gnssPart_hold _ _ _
    · rw [gnssPart_timeFaults, gnssPart_setTb]
      rfl
  · rw [gnssPart_timeFaults]
    rfl

theorem gnssPart_reselect (s : State) : gnssPart (reselect s) = gnssPart s := by
  unfold reselect
  dsimp only
  split
  · rfl
  · split
    · exact gnssPart_loseSources s
    · split
      · rw [gnssPart_event]
        rfl
      · rw [gnssPart_setTb]
        rfl

theorem gnssPart_applyUtc (s : State) : gnssPart (applyUtc s) = gnssPart s := by
  unfold applyUtc
  extract_lets fromPort got o s1
  split
  · rfl
  · rw [gnssPart_event]
    rfl

theorem gnssPart_judgeLock (theta : Int) (s : State) : gnssPart (judgeLock theta s) = gnssPart s := by
  unfold judgeLock
  extract_lets thr within beyond s1
  split
  · split
    · exact gnssPart_setTb _ _
    · rfl
  · split
    · exact gnssPart_setTb _ _
    · rfl
  · rfl

theorem gnssPart_setAddend (a : Int) (s : State) : gnssPart (setAddend a s) = gnssPart s := rfl

theorem gnssPart_duty (theta : Int) (a : Nat) (s : State) : gnssPart (correct.duty theta a s) = gnssPart s := by
  unfold correct.duty
  split
  · rfl
  · split <;> rfl

theorem gnssPart_correct (theta : Int) (s : State) : gnssPart (correct theta s) = gnssPart s := by
  unfold correct
  dsimp only
  split
  · rfl
  · rfl
  · exact gnssPart_duty _ _ _
  · exact gnssPart_duty _ _ _
  · split <;> rfl

theorem gnssPart_measure (theta : Int) (s : State) : gnssPart (measure theta s) = gnssPart s := by
  unfold measure
  dsimp only
  rw [gnssPart_bringProgress, gnssPart_timeFaults]
  have hjudged := gnssPart_judgeLock theta { s with time := { s.time with
    theta := theta, estErr := Config.thetaFilter s.time.estErr theta.natAbs s.nFree }, nFree := s.nFree + 2 }
  split
  · exact hjudged
  · refine (gnssPart_correct _ _).trans ?_
    split
    · exact hjudged
    · exact hjudged

/-! ### PPS_OUT -/

theorem endDefer_gnss (s : State) : (endDefer s).gnss = s.gnss := by
  unfold endDefer
  extract_lets s1
  split
  · extract_lets s2
    split
    · rw [timeFaults_gnss]
      exact congrArg Prod.fst (gnssPart_correct _ s2)
    · rfl
  · rfl

theorem endDefer_none {s : State} (h : s.time.deferAddend = none) : endDefer s = { s with time := { s.time with deferTo := none } } := by
  unfold endDefer
  rw [h]
  dsimp only
  rw [h]

/-- `ns` have gone since the last pulse, if there was one. -/
def sincePulse (s : State) (ns : Nat) : Prop := ∀ t, s.gnss.ppsEl = some t → t + ns ≤ elNs s

theorem freshTest_iff (s : State) (ns : Nat) :
    (match s.gnss.ppsEl with | some t => decide (t + ns ≤ elNs s) | none => true) = true ↔ sincePulse s ns := by
  unfold sincePulse
  cases s.gnss.ppsEl <;> simp

theorem tooSoon_eq_false_iff (s : State) : tooSoon s (elNs s) = false ↔ sincePulse s 500000000 := by
  unfold tooSoon sincePulse
  cases s.gnss.ppsEl with
  | none => simp
  | some t => simp

/-- A pulse is due at this instant (R413, 14 R377). -/
def pulseDue (s : State) : Prop := s.frame.running = true ∧ hasTime s = true ∧
  (atSecond s = true ∨ nth false s.time.lateFire 14 = true) ∧ sincePulse s 1000

/-- The pin goes high, before what waited for the pulse takes effect. -/
def pulsed (s : State) : State :=
  setGnss (fun g => { g with ppsHigh := true, ppsEl := some (elNs s) })
    { s with time := { s.time with lateFire := upd (fun _ => false) s.time.lateFire 14 } }

theorem ppsPulse_due {s : State} (hdue : pulseDue s) (hsince : sincePulse s 500000000) : ppsPulse s = endDefer (pulsed s) := by
  obtain ⟨hrunning, htime, hinstant, hfresh⟩ := hdue
  unfold ppsPulse
  extract_lets fresh
  rw [if_pos ⟨hrunning, htime, hinstant, (freshTest_iff s 1000).mpr hfresh⟩, (tooSoon_eq_false_iff s).mpr hsince]
  rfl

theorem ppsPulse_soon {s : State} (hdue : pulseDue s) (hsince : ¬sincePulse s 500000000) :
    ppsPulse s = event 0x0F03 [] (setGnss (fun g => { g with msgSkip := true }) s) := by
  obtain ⟨hrunning, htime, hinstant, hfresh⟩ := hdue
  unfold ppsPulse
  extract_lets fresh
  rw [if_pos ⟨hrunning, htime, hinstant, (freshTest_iff s 1000).mpr hfresh⟩,
    if_pos (Bool.eq_true_of_not_eq_false (fun h => hsince ((tooSoon_eq_false_iff s).mp h)))]

theorem ppsPulse_idle {s : State} (h : ¬pulseDue s) : ppsPulse s = s := by
  unfold ppsPulse
  extract_lets fresh
  refine if_neg (fun hd => h ?_)
  obtain ⟨hrunning, htime, hinstant, hfresh⟩ := hd
  exact ⟨hrunning, htime, hinstant, (freshTest_iff s 1000).mp hfresh⟩

theorem ppsEnd_due {s : State} {t : Nat} (hhigh : s.gnss.ppsHigh = true) (hel : s.gnss.ppsEl = some t)
    (hwidth : t + s.cfg.img.gnss.ppsWidthMs * 1000000 ≤ elNs s) : ppsEnd s = { s with gnss := { s.gnss with ppsHigh := false } } := by
  unfold ppsEnd
  rw [hel]
  exact if_pos ⟨hhigh, hwidth⟩

theorem ppsEnd_idle {s : State}
    (h : ¬(s.gnss.ppsHigh = true ∧ ∃ t, s.gnss.ppsEl = some t ∧ t + s.cfg.img.gnss.ppsWidthMs * 1000000 ≤ elNs s)) : ppsEnd s = s := by
  unfold ppsEnd
  cases hel : s.gnss.ppsEl with
  | none => rfl
  | some t => exact if_neg (fun hd => h ⟨hd.1, t, hel, hd.2⟩)

/-- Settles O41: by whether a pulse is due and how long ago the last one was. -/
theorem ppsOutPulsesOncePerSecond : Obligations.PpsOutPulsesOncePerSecond := by
  intro dt s u g since comes ends
  refine ⟨?pulse, fun hcomes hsince => givesRest_of_settle rfl ?_, fun h => gives_of_settle rfl (ppsPulse_idle h), ?noTime, ?low,
    fun h => gives_of_settle rfl (ppsEnd_idle h)⟩
  case pulse =>
    intro hcomes hsince
    refine ⟨_, rfl, ?_⟩
    rw [ppsPulse_due hcomes hsince, settle_gnss, settle_noPins, endDefer_gnss]
    refine ⟨rfl, fun hnone => ?_⟩
    exact congrArg noPins (endDefer_none (s := pulsed u) hnone)
  case noTime =>
    rintro hstate ⟨-, htime, -⟩
    simp [hasTime, hstate] at htime
  case low =>
    rintro ⟨hhigh, t, hel, hwidth⟩
    exact gives_of_settle rfl (ppsEnd_due hhigh hel hwidth)
  · rw [ppsPulse_soon hcomes hsince, event_rest]
    rfl

end Sys2Proof.Machine
end

section
/-! PROPERTY. GNSS_MEASUREMENT_EPOCH, NAVIGATION_WORD and NAV_SOLUTION_COMPLETE (15_gnss R403 to R407; notes/assumptions/18.md). -/

namespace Sys2Proof.Machine

open Sys2Proof.Safety

/-! ### The commit of a native value -/

/-- An entry with neither range nor source quality takes every native value (03 R99, R102). -/
theorem commitNative_plain {e : Image.Entry} (hrange : e.rangeEn = false) (hsrcq : e.srcqEn = false) (v : Int) (stamp : Nat) (s : State) :
    commitNative e v stamp 0 s = commitSlot e.dest (scale e (Frac.ofInt v)) stamp 0 s := by
  have hfate : fate s.cfg.img.map (fun _ => .val (Frac.ofInt v)) e = .commit (scale e (Frac.ofInt v)) 0 := by
    simp [fate, sourceQuality, hrange, hsrcq]
  unfold commitNative
  rw [hfate]
  rfl

/-- What a commit leaves alone of the receiver and of time. -/
def receiverPart (s : State) : GnssSt × TimeSt × Clock := (s.gnss, s.time, s.clk)

theorem receiverPart_event (c : Nat) (d : Bytes) (s : State) : receiverPart (event c d s) = receiverPart s := by simp [receiverPart]

theorem receiverPart_faultSet (c : Nat) (on : Bool) (bs : List Block) (s : State) : receiverPart (faultSet c on bs s) = receiverPart s := by
  simp [receiverPart]

theorem receiverPart_commitNative (e : Image.Entry) (v : Int) (stamp q : Nat) (s : State) :
    receiverPart (commitNative e v stamp q s) = receiverPart s := by
  unfold commitNative
  split
  · split <;> rfl
  · rfl

theorem receiverPart_commitSolution (gr : Nat) (x : NavSol) (s : State) : receiverPart (commitSolution gr x s) = receiverPart s := by
  refine foldl_keeps receiverPart (fun t e => ?_) _ s
  split
  · split
    · exact receiverPart_commitNative _ _ _ _ _
    · rfl
  · exact receiverPart_commitNative _ _ _ _ _
  · rfl

/-! ### Measurements -/

theorem measurementEpoch_due {m : ChanMeas} {s : State} (hlater : s.gnss.epoch < epochInstant s)
    (hpowered : s.gnss.powered = true) (hheld : gnssHeld s = false) (hregime : s.gnss.regime = .continuous) :
    measurementEpoch [m] s = commitChannel (epochInstant s) m (setGnss (fun g => { g with epoch := epochInstant s, burst := false }) s) := by
  unfold measurementEpoch
  extract_lets ep due
  have hdue : due = true := by simp [due, ep, hlater, hpowered, hheld, hregime]
  rw [if_pos hdue]
  rfl

theorem measurementEpoch_idle {ms : List ChanMeas} {s : State}
    (h : epochInstant s ≤ s.gnss.epoch ∨ ¬(s.gnss.powered = true ∧ gnssHeld s = false)) : measurementEpoch ms s = s := by
  unfold measurementEpoch
  extract_lets ep due
  refine if_neg (fun hdue => ?_)
  simp only [due, Bool.and_eq_true, decide_eq_true_eq, Bool.not_eq_true'] at hdue
  obtain ⟨⟨⟨hlater, hpowered⟩, hheld⟩, -⟩ := hdue
  exact h.elim (Nat.not_le_of_lt hlater) (fun hw => hw ⟨hpowered, hheld⟩)

/-- A locked channel's pseudorange goes to the one entry that reads the channel. -/
theorem commitChannel_pseudorange {ep : Nat} {m : ChanMeas} {e : Image.Entry} {s : State} (hread : nativeEntries s 8 m.chan = [e])
    (hq : byteAt e.mtch 0 = 0) (hrange : e.rangeEn = false) (hsrcq : e.srcqEn = false) (hlock : m.codeLock = true) (hmask : m.masked = false)
    (hlo : 1 ≤ m.prn) (hhi : m.prn ≤ 32) :
    (commitChannel ep m s).gnss.epoch = s.gnss.epoch ∧ ∀ d, Table.get {} (commitChannel ep m s).store d =
      if e.dest = d then (Table.get {} s.store e.dest).take (scale e (Frac.ofInt m.pseudorangeMm)) ep 0 else Table.get {} s.store d := by
  have heq : ∃ f : GnssSt → GnssSt, (f s.gnss).epoch = s.gnss.epoch ∧
      commitChannel ep m s = commitSlot e.dest (scale e (Frac.ofInt m.pseudorangeMm)) ep 0 (setGnss f s) := by
    unfold commitChannel
    extract_lets lock bursty cl broke slip s1
    have hentries : nativeEntries s1 8 m.chan = [e] := hread
    have hl : lock = true := by simp [lock, hlock, hmask, hlo, hhi]
    rw [hentries, List.foldl_cons, List.foldl_nil]
    dsimp only
    rw [hq, hl, if_pos (by rfl)]
    exact ⟨_, rfl, commitNative_plain hrange hsrcq _ _ _⟩
  obtain ⟨f, hepoch, heq⟩ := heq
  rw [heq]
  exact ⟨hepoch, commitSlot_slot _ _ _ _ _⟩

/-! ### Navigation words -/

theorem retainWord_store (w : NavWord) (data : Nat) (s : State) : (retainWord w data s).store = s.store := by
  unfold retainWord
  extract_lets sf s1
  split <;> rfl

/-- The first word after bit sync is not of good parity (R405). -/
theorem wordValue_first {w : NavWord} (star : Nat × Nat) (h : w.first = true) : (wordValue w star).2.1 = false := by
  simp [wordValue, h]

theorem navigationWord_idle {w : NavWord} {s : State} (h : ¬(s.gnss.powered = true ∧ gnssHeld s = false) ∨ s.gnss.regime = .burst) :
    navigationWord w s = s :=
  if_neg (fun hd => h.elim (fun hw => hw ⟨hd.1, hd.2.1⟩) hd.2.2)

/-- The value of a word of the channel, after what the channel's last word leaves (R405). -/
def wordOf (w : NavWord) (s : State) : Nat × Bool × Nat := wordValue w (nth (0, 0) s.gnss.lastWord w.chan)

/-- A word's value committed, before it joins the retained set. -/
def wordCommitted (w : NavWord) (s : State) : State :=
  (nativeEntries s 8 w.chan).foldl (fun t e => if byteAt e.mtch 0 = 4 then commitNative e (wordOf w s).1 (nowNs s) 0 t else t)
    (setGnss (fun g => { g with lastWord := upd (fun _ => (w.bits / 2 % 2, w.bits % 2)) g.lastWord w.chan }) s)

theorem navigationWord_works {w : NavWord} {s : State} (hpowered : s.gnss.powered = true) (hheld : gnssHeld s = false)
    (hregime : s.gnss.regime ≠ .burst) :
    navigationWord w s = if (wordOf w s).2.1 = true then retainWord w (wordOf w s).2.2 (wordCommitted w s) else wordCommitted w s :=
  if_pos ⟨hpowered, hheld, hregime⟩

/-- A word's value goes to the one entry that reads the channel's words. -/
theorem wordCommitted_one {w : NavWord} {e : Image.Entry} {s : State} (hread : nativeEntries s 8 w.chan = [e]) (hq : byteAt e.mtch 0 = 4)
    (hrange : e.rangeEn = false) (hsrcq : e.srcqEn = false) :
    (wordCommitted w s).gnss.ret = s.gnss.ret ∧ ∀ d, Table.get {} (wordCommitted w s).store d =
      if e.dest = d then (Table.get {} s.store e.dest).take (scale e (Frac.ofInt (wordOf w s).1)) (nowNs s) 0 else Table.get {} s.store d := by
  unfold wordCommitted
  rw [hread, List.foldl_cons, List.foldl_nil, if_pos hq, commitNative_plain hrange hsrcq]
  exact ⟨rfl, commitSlot_slot _ _ _ _ _⟩

theorem navigationWord_store {w : NavWord} {s : State} (hpowered : s.gnss.powered = true) (hheld : gnssHeld s = false)
    (hregime : s.gnss.regime ≠ .burst) : (navigationWord w s).store = (wordCommitted w s).store := by
  rw [navigationWord_works hpowered hheld hregime]
  split
  · exact retainWord_store _ _ _
  · rfl

theorem navigationWord_first {w : NavWord} {s : State} (hpowered : s.gnss.powered = true) (hheld : gnssHeld s = false)
    (hregime : s.gnss.regime ≠ .burst) (hfirst : w.first = true) : navigationWord w s = wordCommitted w s := by
  rw [navigationWord_works hpowered hheld hregime, if_neg]
  rw [wordOf, wordValue_first _ hfirst]
  decide

/-! ### Solutions -/

/-- What a graded solution leaves of the receiver (R406). -/
def graded (gr el : Nat) (x : NavSol) (g : GnssSt) : GnssSt :=
  { g with
    grade := gr, sol := if gr = 0 then g.sol else some x, solEpoch := if gr = 0 then g.solEpoch else g.epoch
    fullSince := if decide (gr = 2) then some (g.fullSince.getD el) else none, fullEl := if decide (gr = 2) then el else g.fullEl
    ret := { g.ret with utc := (match x.utcOffset with | some o => some o | none => g.ret.utc)
                        pos := if decide (gr = 2) then some (x.lat, x.lon) else g.ret.pos } }

/-- The receiver's part of a solution: graded, committed, and the open antenna's fault ended. -/
def receiverSolves (gr : Nat) (x : NavSol) (s : State) : State :=
  let s1 := if gr = s.gnss.grade then s else event 0x0F01 (u8 gr ++ u8 (Nat.min 255 x.sats) ++ u16 (Nat.min 0xFFFF x.pdop)) s
  let s3 := commitSolution gr x (setGnss (graded gr (elNs s) x) s1)
  if gr = 0 then s3 else faultSet 0x0F10 false [.gnss] s3

/-- A full solution as a source of time: the 60 s fault ends, and the source selected takes its θ (R407). -/
def solvesTime (x : NavSol) (s : State) : State :=
  let s6 := applyUtc (reselect (faultSet 0x0F13 false [.gnss] { s with time := { s.time with gnssUsable := true } }))
  if s6.time.source = some 2 then measure x.thetaNs s6 else s6

theorem receiverPart_receiverSolves (gr : Nat) (x : NavSol) (s : State) :
    receiverPart (receiverSolves gr x s) = (graded gr (elNs s) x s.gnss, s.time, s.clk) := by
  unfold receiverSolves
  extract_lets s1 s3
  have hs1 : receiverPart s1 = receiverPart s := by
    unfold s1
    split
    · rfl
    · exact receiverPart_event _ _ _
  have hs3 : receiverPart s3 = (graded gr (elNs s) x s.gnss, s.time, s.clk) := by
    refine (receiverPart_commitSolution _ _ _).trans ?_
    obtain ⟨hgnss, htime, hclk⟩ := Prod.mk.inj hs1 |>.imp_right Prod.mk.inj
    show (graded gr (elNs s) x s1.gnss, s1.time, s1.clk) = _
    rw [hgnss, htime, hclk]
  split
  · exact hs3
  · rw [receiverPart_faultSet, hs3]

theorem navSolution_works {x : NavSol} {s : State} (hworks : s.gnss.powered = true ∧ gnssHeld s = false) :
    navSolution x s = if gradeOf s x = 2 then solvesTime x (receiverSolves (gradeOf s x) x s) else receiverSolves (gradeOf s x) x s := by
  unfold navSolution
  rw [if_pos hworks]
  by_cases hgr : gradeOf s x = 2
  · rw [if_pos hgr]
    exact if_pos (decide_eq_true hgr)
  · rw [if_neg hgr]
    exact if_neg (by simp [hgr])

theorem gnssPart_solvesTime (x : NavSol) (s : State) : gnssPart (solvesTime x s) = (s.gnss, true) := by
  unfold solvesTime
  extract_lets src s6
  have hs6 : gnssPart s6 = (s.gnss, true) := by
    unfold s6
    rw [gnssPart_applyUtc, gnssPart_reselect, gnssPart_faultSet]
    rfl
  split
  · rw [gnssPart_measure, hs6]
  · exact hs6

theorem gradeOf_full {x : NavSol} {s : State} (hsats : 4 ≤ x.sats) (hpdop : x.pdop ≤ s.cfg.img.gnss.pdopMax) : gradeOf s x = 2 := by
  simp [gradeOf, hsats, hpdop]

theorem gradeOf_degraded {x : NavSol} {s : State}
    (h : (4 ≤ x.sats ∧ s.cfg.img.gnss.pdopMax < x.pdop) ∨ (x.sats = 3 ∧ s.gnss.ret.pos.isSome = true)) : gradeOf s x = 1 := by
  unfold gradeOf
  rcases h with ⟨hsats, hpdop⟩ | ⟨hsats, hpos⟩
  · rw [if_pos hsats, if_neg (Nat.not_le_of_lt hpdop)]
  · rw [if_neg (by omega), if_pos ⟨hsats, hpos⟩]

theorem gradeOf_none {x : NavSol} {s : State} (h : x.sats < 3 ∨ (x.sats = 3 ∧ s.gnss.ret.pos.isSome = false)) : gradeOf s x = 0 := by
  unfold gradeOf
  rw [if_neg (by omega), if_neg]
  rintro ⟨hsats, hpos⟩
  rcases h with hfew | ⟨-, hunknown⟩
  · omega
  · simp [hpos] at hunknown

/-- Settles O39: each commit is one slot's, and a solution follows its grade. -/
theorem receiverCommitsMeasurementsAndGrades : Obligations.ReceiverCommitsMeasurementsAndGrades := by
  intro dt m w x e s u ep o put star works known limit
  have hslots {t : State} {v : Int} {stamp : Nat} (h : ∀ d, Table.get {} t.store d =
      if e.dest = d then o.take v stamp 0 else Table.get {} u.store d) :
      Table.get {} t.store e.dest = put v stamp ∧ ∀ d, d ≠ e.dest → Table.get {} t.store d = Table.get {} u.store d :=
    ⟨(h e.dest).trans (if_pos rfl), fun d hd => (h d).trans (if_neg (Ne.symm hd))⟩
  refine ⟨?epoch, fun h => gives_of_settle rfl (measurementEpoch_idle h), ?word, fun h => gives_of_settle rfl (navigationWord_idle h), ?solution,
    fun h => gives_of_settle rfl (if_neg h)⟩
  case epoch =>
    rintro hlater ⟨hpowered, hheld⟩ hregime hread hq hrange hsrcq hlock hmask hlo hhi
    obtain ⟨hepoch, hstore⟩ := commitChannel_pseudorange (ep := ep) (s := setGnss (fun g => { g with epoch := ep, burst := false }) u)
      hread hq hrange hsrcq hlock hmask hlo hhi
    refine ⟨_, rfl, ?_⟩
    rw [measurementEpoch_due hlater hpowered hheld hregime, settle_gnss, settle_store]
    exact ⟨hepoch, hslots hstore⟩
  case word =>
    rintro ⟨hpowered, hheld⟩ hregime hread hq hrange hsrcq
    obtain ⟨hret, hstore⟩ := wordCommitted_one hread hq hrange hsrcq
    obtain ⟨htaken, hother⟩ := hslots hstore
    refine ⟨_, rfl, ?_⟩
    rw [settle_gnss, settle_store, navigationWord_store hpowered hheld hregime]
    refine ⟨htaken, fun hfirst => ?_, hother⟩
    rw [navigationWord_first hpowered hheld hregime hfirst]
    exact hret
  case solution =>
    intro hworks
    have hsolves := receiverPart_receiverSolves (gradeOf u x) x u
    have heq := navSolution_works (x := x) hworks
    refine ⟨fun hsats hpdop => ?full, fun h => ?degraded, fun h => ?none⟩
    case full =>
      rw [gradeOf_full hsats hpdop] at hsolves heq
      have hparts := gnssPart_solvesTime x (receiverSolves 2 x u)
      rw [show (receiverSolves 2 x u).gnss = _ from congrArg Prod.fst hsolves] at hparts
      obtain ⟨hgnss, husable⟩ := Prod.mk.inj hparts
      refine ⟨_, rfl, ?_⟩
      rw [settle_gnss, settle_time, heq, if_pos rfl, hgnss]
      exact ⟨rfl, rfl, husable, rfl⟩
    case degraded =>
      rw [gradeOf_degraded h] at hsolves heq
      obtain ⟨hgnss, htime, hclk⟩ := Prod.mk.inj hsolves |>.imp_right Prod.mk.inj
      refine ⟨_, rfl, ?_⟩
      rw [settle_gnss, settle_time, settle_clk, heq, if_neg (by decide), hgnss]
      exact ⟨rfl, rfl, htime, hclk⟩
    case none =>
      rw [gradeOf_none h] at hsolves heq
      obtain ⟨hgnss, htime, hclk⟩ := Prod.mk.inj hsolves |>.imp_right Prod.mk.inj
      refine ⟨_, rfl, ?_⟩
      rw [settle_gnss, settle_time, settle_clk, heq, if_neg (by decide), hgnss]
      exact ⟨rfl, rfl, htime, hclk⟩

end Sys2Proof.Machine
end

section
/-! PROPERTY. CAN_RECEIVE_ERROR, CAN_PROTOCOL_EXCEPTION, BUSOFF_HOLD_EXPIRY, BUSOFF_RECOVERED and CAN_COUNTER_SECOND (16_can R420, R436, R438,
Table 16-5; notes/assumptions/21.md). -/

namespace Sys2Proof.Machine

open Sys2Proof.Safety

/-! ### Entries of lists -/

theorem nth_beyond {α : Type} (d : α) : ∀ (l : List α) (i : Nat), l.length ≤ i → nth d l i = d
  | [], _, _ => rfl
  | _ :: r, 0, h => absurd h (by simp)
  | _ :: r, i + 1, h => nth_beyond d r i (Nat.le_of_succ_le_succ h)

/-- An entry that differs from the default is one of the list. -/
theorem lt_length_of_nth_ne {α : Type} {d : α} {l : List α} {i : Nat} (h : nth d l i ≠ d) : i < l.length :=
  Nat.lt_of_not_le (fun hle => h (nth_beyond d l i hle))

theorem nth_map_enumFrom {α β : Type} (d : α) (e : β) (g : Nat × α → β) : ∀ (l : List α) (k i : Nat), i < l.length →
    nth e ((enumFrom k l).map g) i = g (k + i, nth d l i)
  | [], _, _, h => absurd h (by simp)
  | _ :: _, _, 0, _ => rfl
  | _ :: r, k, i + 1, h => by
    have hrest := nth_map_enumFrom d e g r (k + 1) i (Nat.lt_of_succ_lt_succ h)
    rw [Nat.add_right_comm] at hrest
    exact hrest

/-! ### The controllers and the matrix -/

/-- The controllers and the messages of the matrix: what the bus changes. -/
def busPart (s : State) : List CanSt × List SlotMsg := (s.can, s.slots)

theorem busPart_event (c : Nat) (d : Bytes) (s : State) : busPart (event c d s) = busPart s := by simp [busPart]

theorem busPart_faultSet (c : Nat) (on : Bool) (bs : List Block) (s : State) : busPart (faultSet c on bs s) = busPart s := by simp [busPart]

theorem busPart_canFaults (c : Nat) (s : State) : busPart (canFaults c s) = busPart s :=
  (busPart_faultSet _ _ _ _).trans (busPart_faultSet _ _ _ _)

theorem canOf_setCan_other {s : State} {c x : Nat} (f : CanSt → CanSt) (h : c ≠ x) : canOf (setCan c f s) x = canOf s x :=
  nth_upd_other _ _ _ _ _ h

theorem setCan_length (c : Nat) (f : CanSt → CanSt) (s : State) : (setCan c f s).can.length = s.can.length := upd_length _ _ _

theorem can_lt_of_busOff {s : State} {c : Nat} (h : (canOf s c).st = .busOff) : c < s.can.length :=
  lt_length_of_nth_ne (d := {}) (fun he => by
    rw [show canOf s c = {} from he] at h
    exact absurd h (by decide))

/-- A pending message is taken back (R436). -/
def cancelled (m : SlotMsg) : SlotMsg := if m.st = 1 then { m with st := 0, openMsg := none } else m

/-- A controller whose error counters became `tec` and `rec`: the error state follows, and of the rest only the times of bus-off and a
message that was pending may change (R436). -/
structure ErrMoved (tec rec : Nat) (q r : CanSt) : Prop where
  tec_eq : r.tec = tec
  rec_eq : r.rec_ = rec
  st_eq : r.st = stateFor tec rec
  cnt_eq : r.cnt = q.cnt
  withdrawn_eq : r.withdrawn = q.withdrawn
  safe_eq : r.safe = q.safe ∨ r.safe = cancelled q.safe

/-- `setErr`'s own change of the controller. -/
def errCounted (c tec rec : Nat) (s : State) : State :=
  setCan c (fun x => { x with
    tec := tec, rec_ := rec, st := stateFor tec rec
    busOffEl := if stateFor tec rec = .busOff ∧ (canOf s c).st ≠ .busOff then elNs s else x.busOffEl, recovering := false }) s

/-- Controllers and matrix after new error counters: pending messages are cancelled at a bus-off. -/
theorem busPart_setErr (c tec rec : Nat) (s : State) : busPart (setErr c tec rec s) =
    if stateFor tec rec = .busOff ∧ (canOf s c).st ≠ .busOff then busPart (cancelPending c (errCounted c tec rec s))
    else busPart (errCounted c tec rec s) := by
  unfold setErr
  extract_lets q n s1 s2
  by_cases hsame : n = q.st
  · rw [if_pos hsame, if_neg (fun h => h.2 (hsame.symm.trans h.1))]
    rfl
  · rw [if_neg hsame, busPart_canFaults, busPart_event]
    unfold s2
    by_cases hoff : n = .busOff
    · rw [if_pos hoff, if_pos ⟨hoff, fun h => hsame (hoff.trans h.symm)⟩]
      rfl
    · rw [if_neg hoff, if_neg (fun h => hoff h.1)]
      rfl

theorem canOf_errCounted {s : State} {c : Nat} (tec rec : Nat) (h : c < s.can.length) :
    ErrMoved tec rec (canOf s c) (canOf (errCounted c tec rec s) c) := by
  rw [errCounted, canOf_setCan _ h]
  exact ⟨rfl, rfl, rfl, rfl, rfl, .inl rfl⟩

theorem canOf_cancelPending {s : State} {c : Nat} (h : c < s.can.length) :
    canOf (cancelPending c s) c = { canOf s c with safe := cancelled (canOf s c).safe } := nth_upd _ _ _ _ h

theorem canOf_setErr {s : State} {c : Nat} (tec rec : Nat) (h : c < s.can.length) :
    ErrMoved tec rec (canOf s c) (canOf (setErr c tec rec s) c) := by
  have hcounted := canOf_errCounted tec rec h
  have hparts := busPart_setErr c tec rec s
  split at hparts
  · have hctrl : canOf (setErr c tec rec s) c = canOf (cancelPending c (errCounted c tec rec s)) c :=
      congrArg (fun p : List CanSt × List SlotMsg => nth ({} : CanSt) p.1 c) hparts
    have hsafe : (canOf (errCounted c tec rec s) c).safe = (canOf s c).safe := by rw [errCounted, canOf_setCan _ h]
    rw [hctrl, canOf_cancelPending (by rwa [errCounted, setCan_length])]
    exact { hcounted with safe_eq := .inr (congrArg cancelled hsafe) }
  · have hctrl : canOf (setErr c tec rec s) c = canOf (errCounted c tec rec s) c := congrArg (fun p : List CanSt × List SlotMsg => nth ({} : CanSt) p.1 c) hparts
    rwa [hctrl]

theorem canOf_setErr_other {s : State} {c x : Nat} (tec rec : Nat) (h : c ≠ x) : canOf (setErr c tec rec s) x = canOf s x := by
  have hparts := congrArg Prod.fst (busPart_setErr c tec rec s)
  unfold canOf
  rw [show (setErr c tec rec s).can = _ from hparts]
  split
  · exact (canOf_setCan_other (s := errCounted c tec rec s) _ h).trans (canOf_setCan_other _ h)
  · exact canOf_setCan_other _ h

/-- An error state other than bus-off cancels nothing. -/
theorem slots_setErr {tec rec : Nat} (c : Nat) (s : State) (h : stateFor tec rec ≠ .busOff) : (setErr c tec rec s).slots = s.slots := by
  have hparts := congrArg Prod.snd (busPart_setErr c tec rec s)
  rw [if_neg (fun hoff => h hoff.1)] at hparts
  exact hparts

/-! ### The commands -/

/-- A controller as it counts a receive error. -/
def errorSeen (c : Nat) (s : State) : State :=
  setCan c (fun q => { q with withdrawn := false, cnt := { q.cnt with rxErr := inc q.cnt.rxErr } }) s

theorem receiveError_live {c : Nat} {s : State} (h : canLive s c = true) :
    receiveError c s = setErr c (canOf s c).tec (Nat.min 255 ((canOf s c).rec_ + 1)) (errorSeen c s) := if_pos h

theorem receiveError_silent {c : Nat} {s : State} (h : canLive s c = false) : receiveError c s = s := if_neg (by simp [h])

theorem protocolException_idle {c : Nat} {s : State} (h : canLive s c = false ∨ (ctrlCfg s c).fdEn ≠ 0) : protocolException c s = s :=
  if_neg (fun hd => h.elim (fun hl => by simp [hl] at hd) (fun hf => hf hd.2))

theorem busoffHold_idle {c : Nat} {s : State}
    (h : (canOf s c).st ≠ .busOff ∨ elNs s < (canOf s c).busOffEl + (ctrlCfg s c).busoffHoldMs * 1000000) : busoffHold c s = s :=
  if_neg (fun hd => h.elim (fun hs => hs hd.1) (Nat.not_lt_of_le hd.2))

theorem busoffRecovered_idle {c : Nat} {s : State} (h : (canOf s c).st ≠ .busOff ∨ (canOf s c).recovering = false) : busoffRecovered c s = s :=
  if_neg (fun hd => h.elim (fun hs => hs hd.1) (fun hr => by simp [hr] at hd))

/-- The counters of every controller recorded. -/
def countersNoted (s : State) : State := { s with can := s.can.map (fun q => { q with last := q.cnt }) }

/-- The second leaves of the bus the counters that it recorded. -/
theorem canSecond_rest (s : State) : rest (canSecond s) = rest (countersNoted s) := by
  have hevents : rest (((enumFrom 1 s.can).filter (fun p => decide (p.2.cnt ≠ p.2.last))).foldl
      (fun t p => event 0x1002 (u8 p.1 ++ canCounterBytes p.2.cnt) t) s) = rest s :=
    foldl_keeps rest (fun t p => event_rest t _ _) _ s
  exact congrArg countersNoted hevents

/-- Settles O53: new error counters move one controller, and the other commands write it alone. -/
theorem canControllersCountErrorsAndRecover : Obligations.CanControllersCountErrorsAndRecover := by
  intro dt c s u w q
  refine ⟨?error, fun h => ⟨gives_of_settle rfl (receiveError_silent h), gives_of_settle rfl (protocolException_idle (.inl h))⟩,
    fun hlive hfd => gives_of_settle rfl (if_pos ⟨hlive, hfd⟩), fun h => gives_of_settle rfl (protocolException_idle (.inr h)),
    fun hst hel => gives_of_settle rfl (if_pos ⟨hst, hel⟩), fun h => gives_of_settle rfl (busoffHold_idle h), ?recovered,
    fun h => gives_of_settle rfl (busoffRecovered_idle h), ?second, ?off⟩
  case error =>
    intro hlive hw
    have hseen := canOf_setCan (s := u) (fun q => { q with withdrawn := false, cnt := { q.cnt with rxErr := inc q.cnt.rxErr } }) hw
    have hmoved := canOf_setErr (s := errorSeen w u) q.tec (Nat.min 255 (q.rec_ + 1)) (by rwa [errorSeen, setCan_length])
    refine ⟨_, rfl, ?_⟩
    simp only [canOf_settle]
    rw [receiveError_live hlive]
    refine ⟨hmoved.rec_eq, hmoved.tec_eq, hmoved.st_eq, hmoved.cnt_eq.trans (congrArg CanSt.cnt hseen),
      hmoved.withdrawn_eq.trans (congrArg CanSt.withdrawn hseen), fun x hx => ?_⟩
    exact (canOf_setErr_other _ _ (Ne.symm hx)).trans (canOf_setCan_other _ (Ne.symm hx))
  case recovered =>
    intro hst hrecovering
    have hmoved := canOf_setErr (s := u) 0 0 (can_lt_of_busOff hst)
    refine ⟨_, rfl, ?_⟩
    simp only [canOf_settle, settle_slots]
    rw [show busoffRecovered w u = setErr w 0 0 u from if_pos ⟨hst, hrecovering⟩]
    exact ⟨hmoved.st_eq, hmoved.tec_eq, hmoved.rec_eq, slots_setErr w u (by decide), fun x hx => canOf_setErr_other 0 0 (Ne.symm hx)⟩
  case second =>
    intro hon
    exact givesRest_of_settle (next_of_on hon) (canSecond_rest u)
  case off =>
    intro hoff
    exact gives_of_settle (t := u) (by show Host.Outcome.next _ = _; rw [show s.st = .off from hoff]) rfl

end Sys2Proof.Machine
end

section
/-! PROPERTY. SLOT_START, SLOT_END, SAFETY_SLOT_START and CAN_TX_COMPLETE (16_can R426 to R429, R433, R434, R439; notes/assumptions/21.md). -/

namespace Sys2Proof.Machine

open Sys2Proof.Safety

/-! ### Messages of the matrix -/

theorem setSlot_setSlot (e : Nat) (f g : SlotMsg → SlotMsg) (s : State) : setSlot e f (setSlot e g s) = setSlot e (fun x => f (g x)) s := by
  simp only [setSlot, upd_upd]

theorem canCount_canCount (c : Nat) (f g : CanCounters → CanCounters) (s : State) :
    canCount c f (canCount c g s) = canCount c (fun x => f (g x)) s := setCan_setCan _ _ _ _

theorem slotMsg_setSlot {s : State} {e : Nat} (f : SlotMsg → SlotMsg) (h : e < s.slots.length) : slotMsg (setSlot e f s) e = f (slotMsg s e) :=
  nth_upd _ _ _ _ h

/-- A message that waits or is on the bus is one of the matrix. -/
theorem slot_lt_of_open {s : State} {e : Nat} (h : (slotMsg s e).st ≠ 0) : e < s.slots.length :=
  lt_length_of_nth_ne (d := ({} : SlotMsg)) (fun he => h (congrArg SlotMsg.st he))

theorem safe_lt_of_open {s : State} {c : Nat} (h : (canOf s c).safe.st ≠ 0) : c < s.can.length :=
  lt_length_of_nth_ne (d := ({} : CanSt)) (fun he => h (congrArg (fun q : CanSt => q.safe.st) he))

/-! ### SLOT_START -/

/-- A slot's message opens: on the bus when it goes at once, else waiting (R427, R428). -/
def slotOpened (e : Nat) (go : Bool) (b : Bytes) (s : State) : State :=
  setSlot e (fun m => { m with opened := some (frameIndex s), st := if go then 2 else 1, openMsg := some b, content := none }) s

theorem slotStart_empty {s : State} {e : Nat} (sof : Bool) (hdue : slotDue s e = true) (h : openContent s e = none) :
    slotStart e sof s = canCount (slotCfg s e).ctrl (fun y => { y with slotEmpty := inc y.slotEmpty })
      (setSlot e (fun x => { x with opened := some (frameIndex s), st := 0, openMsg := none }) s) := by
  unfold slotStart
  rw [if_pos hdue, h]
  dsimp only
  rw [setSlot_setSlot]

theorem slotStart_content {s : State} {e : Nat} {sof : Bool} {b : Bytes} (hdue : slotDue s e = true) (h : openContent s e = some b) :
    slotStart e sof s =
      (let go := sof && canSends s (slotCfg s e).ctrl
       let t := if (slotCfg s e).kind = 2 ∧ (connOf s (slotCfg s e).conn).st ≠ 2 then sendSetup (slotCfg s e).conn (slotOpened e go b s)
         else slotOpened e go b s
       if go then drive ((slotCfg s e).ctrl + 1) (slotCfg s e).txId (slotCfg s e).len b t else t) := by
  unfold slotStart
  rw [if_pos hdue, h]
  dsimp only
  rw [setSlot_setSlot]
  rfl

theorem slotStart_idle {s : State} {e : Nat} (sof : Bool) (h : slotDue s e = false) : slotStart e sof s = s := if_neg (by simp [h])

/-- A thrust command opens its slot and writes nothing else. -/
theorem slotStart_kind1 {s : State} {e : Nat} {sof : Bool} {b : Bytes} (hdue : slotDue s e = true) (h : openContent s e = some b)
    (hkind : (slotCfg s e).kind = 1) : slotStart e sof s =
      (let go := sof && canSends s (slotCfg s e).ctrl
       { slotOpened e go b s with
         out := if go then s.out ++ [.can ((slotCfg s e).ctrl + 1) (slotCfg s e).txId (padTo (slotCfg s e).len b)] else s.out }) := by
  rw [slotStart_content hdue h]
  extract_lets go t
  have ht : t = slotOpened e go b s := if_neg (fun hk => absurd (hkind.symm.trans hk.1) (by decide))
  rw [ht]
  split <;> rfl

/-- A telegram of a connection opens its slot; of the connections only its own may move. -/
theorem slotStart_kind2 {s : State} {e : Nat} {sof : Bool} {b : Bytes} (hdue : slotDue s e = true) (h : openContent s e = some b) :
    let go := sof && canSends s (slotCfg s e).ctrl
    let t := slotStart e sof s
    t.slots = (slotOpened e go b s).slots ∧ t.can = s.can ∧ (∀ x, x ≠ (slotCfg s e).conn → connOf t x = connOf s x) ∧
      (go = true → Out.can ((slotCfg s e).ctrl + 1) (slotCfg s e).txId (padTo (slotCfg s e).len b) ∈ t.out) := by
  intro go v
  obtain ⟨t, ⟨hslots, hcan, hconn⟩, hv⟩ : ∃ t, (t.slots = (slotOpened e go b s).slots ∧ t.can = s.can ∧
      ∀ x, x ≠ (slotCfg s e).conn → connOf t x = connOf s x) ∧
      v = if go then drive ((slotCfg s e).ctrl + 1) (slotCfg s e).txId (slotCfg s e).len b t else t := by
    refine ⟨_, ?_, slotStart_content hdue h⟩
    split
    · exact ⟨rfl, rfl, fun x hx => nth_upd_other _ _ _ _ _ (Ne.symm hx)⟩
    · exact ⟨rfl, rfl, fun x _ => rfl⟩
  rw [hv]
  split
  case isTrue => exact ⟨hslots, hcan, hconn, fun _ => List.mem_append_right _ (List.mem_singleton.mpr rfl)⟩
  case isFalse hgo => exact ⟨hslots, hcan, hconn, fun hyes => absurd hyes hgo⟩

theorem slot_lt_of_due {s : State} {e : Nat} (h : slotDue s e = true) : e < s.slots.length := by
  simp only [slotDue, Bool.and_eq_true, decide_eq_true_eq] at h
  exact h.1.1.1.1.1.1.2

/-! ### SLOT_END -/

/-- A slot's window has run out. -/
def windowOver (s : State) (e : Nat) : Prop :=
  slotStartNs s (slotCfg s e).ref (slotCfg s e).ofsUs + (slotCfg s e).windowUs * 1000 ≤ nowNs s

/-- Arbitration losses added (R428). -/
def addLost (n : Nat) (y : CanCounters) : CanCounters := { y with arbLost := Nat.min 0xFFFFFFFF (y.arbLost + n) }

section
variable {s : State} {e : Nat} (hopen : (slotMsg s e).st = 1) (hover : windowOver s e)
include hopen hover

theorem slotEnd_started (n : Nat) {sof : Bool} (hgo : (sof && canSends s (slotCfg s e).ctrl) = true) : slotEnd e sof n s =
    drive ((slotCfg s e).ctrl + 1) (slotCfg s e).txId (slotCfg s e).len ((slotMsg s e).openMsg.getD [])
      (setSlot e (fun x => { x with st := 2 }) (canCount (slotCfg s e).ctrl (addLost n) s)) := by
  obtain ⟨hsof, -⟩ := Bool.and_eq_true_iff.mp hgo
  unfold slotEnd
  extract_lets c m s1
  rw [if_pos ⟨hopen, hover⟩, if_neg (fun h => by simp [hsof] at h), if_pos hgo]
  rfl

theorem slotEnd_removed (n : Nat) (hremoved : removed s e = true) : slotEnd e false n s =
    canCount (slotCfg s e).ctrl (fun y => { addLost n y with slotEmpty := inc (addLost n y).slotEmpty })
      (setSlot e (fun x => { x with st := 0, openMsg := none }) s) := by
  unfold slotEnd
  extract_lets c m s1
  rw [if_pos ⟨hopen, hover⟩, if_pos ⟨hremoved, rfl⟩]
  exact canCount_canCount c.ctrl (fun y => { y with slotEmpty := inc y.slotEmpty }) (addLost n) (setSlot e _ s)

theorem slotEnd_missed (n : Nat) {sof : Bool} (hgo : (sof && canSends s (slotCfg s e).ctrl) = false) (hnot : sof = true ∨ removed s e = false) :
    slotEnd e sof n s = canCount (slotCfg s e).ctrl (fun y => { addLost n y with slotMissed := inc (addLost n y).slotMissed })
      (setSlot e (fun x => { x with st := 0, openMsg := none, run := capRun (x.run + 1) }) s) := by
  unfold slotEnd
  extract_lets c m s1
  rw [if_pos ⟨hopen, hover⟩, if_neg (fun h => hnot.elim (fun hs => by simp [hs] at h) (fun hr => by simp [hr] at h)), if_neg (by simpa using hgo)]
  exact canCount_canCount c.ctrl (fun y => { y with slotMissed := inc y.slotMissed }) (addLost n) (setSlot e _ s)

end

theorem slotEnd_idle {s : State} {e : Nat} (sof : Bool) (n : Nat) (h : (slotMsg s e).st ≠ 1 ∨ ¬windowOver s e) : slotEnd e sof n s = s :=
  if_neg (fun hd => h.elim (fun hs => hs hd.1) (fun hw => hw hd.2))

/-! ### SAFETY_SLOT_START -/

/-- A controller's safety slot opens now (R433). -/
def safeDue (s : State) (c : Nat) : Prop := s.frame.running = true ∧ onDuty s.st = true ∧ (ctrlCfg s c).mode = 1 ∧ (ctrlCfg s c).safeLen ≠ 0 ∧
  (canOf s c).safe.opened ≠ some (frameIndex s) ∧ ((ctrlCfg s c).safeRef = 0 ∨ 5 ≤ s.frame.phase) ∧
  slotStartNs s (ctrlCfg s c).safeRef (ctrlCfg s c).safeOfsUs ≤ nowNs s

/-- A telegram that still waits when the next one's slot opens was missed (R434). -/
def safeMissed (q : CanSt) : CanSt :=
  if q.safe.st = 0 then q
  else { q with cnt := { q.cnt with slotMissed := inc q.cnt.slotMissed }, safe := { q.safe with run := capRun (q.safe.run + 1) } }

/-- The safety slot opens for a frame, the telegram before it gone. -/
def safeOpened (fi : Nat) (q : CanSt) : CanSt := { q with safe := { q.safe with opened := some fi, st := 0, openMsg := none } }

/-- The state in which a safety slot of the frame is open and empty. -/
def safeSlotOpen (c : Nat) (s : State) : State :=
  let s0 := if (canOf s c).safe.st = 0 then s
    else canCount c (fun n => { n with slotMissed := inc n.slotMissed }) (setSafe c (fun x => { x with run := capRun (x.run + 1) }) s)
  setSafe c (fun x => { x with opened := some (frameIndex s), st := 0, openMsg := none }) s0

theorem canOf_safeSlotOpen {s : State} {c : Nat} (h : c < s.can.length) :
    canOf (safeSlotOpen c s) c = safeOpened (frameIndex s) (safeMissed (canOf s c)) := by
  unfold safeSlotOpen safeMissed
  extract_lets s0
  by_cases hst : (canOf s c).safe.st = 0
  · rw [show s0 = s from if_pos hst, if_pos hst]
    exact canOf_setCan _ h
  · rw [show s0 = _ from if_neg hst, if_neg hst, setSafe, canCount, setSafe, setCan_setCan, setCan_setCan]
    exact canOf_setCan _ h

/-- The safety slot's opening writes controllers only. -/
theorem safeSlotOpen_parts (c : Nat) (s : State) :
    (safeSlotOpen c s).safety = s.safety ∧ (safeSlotOpen c s).out = s.out ∧ (safeSlotOpen c s).can.length = s.can.length := by
  unfold safeSlotOpen
  extract_lets s0
  have hs0 : s0.safety = s.safety ∧ s0.out = s.out ∧ s0.can.length = s.can.length := by
    unfold s0
    split
    · exact ⟨rfl, rfl, rfl⟩
    · exact ⟨rfl, rfl, (setCan_length _ _ _).trans (setCan_length _ _ _)⟩
  obtain ⟨hsafety, hout, hlen⟩ := hs0
  exact ⟨hsafety, hout, (setCan_length _ _ _).trans hlen⟩

/-- The telegram of a safety slot's content (17 R458, R467). -/
def safeTelegram (c : Nat) (d : Bytes) (s : State) : Bytes :=
  telegram (safeVersion s c) 6 (nth 1 s.safety.seq c) (nth 0 s.cfg.img.osc.safeConnId c) s.cfg.img.osc.safeTExpMs d

/-- The telegram waits in its open slot, or is on the bus at once, and the sequence has moved on. -/
def safeWaiting (c : Nat) (d : Bytes) (s : State) : State :=
  setSafe c (fun x => { x with st := if canSends s c then 2 else 1, openMsg := some (safeTelegram c d s) })
    { safeSlotOpen c s with safety := { s.safety with seq := upd (fun x => (x + 1) % 65536) s.safety.seq c } }

theorem safeWaiting_ctrl {s : State} {c : Nat} (d : Bytes) (h : c < s.can.length) :
    canOf (safeWaiting c d s) c = { safeOpened (frameIndex s) (safeMissed (canOf s c)) with
      safe := { (safeOpened (frameIndex s) (safeMissed (canOf s c))).safe with
        st := if canSends s c then 2 else 1, openMsg := some (safeTelegram c d s) } } := by
  obtain ⟨-, -, hlen⟩ := safeSlotOpen_parts c s
  rw [← canOf_safeSlotOpen h]
  exact nth_upd _ _ _ _ (hlen ▸ h)

/-- SAFETY_SLOT_START when the slot opens: empty, or with the telegram of its content. -/
theorem safetySlotStart_due {s : State} {c : Nat} (h : safeDue s c) : safetySlotStart c s =
    (match (canOf s c).safe.content with
     | none => canCount c (fun n => { n with slotEmpty := inc n.slotEmpty }) (safeSlotOpen c s)
     | some d =>
       if canSends s c then drive (c + 1) (ctrlCfg s c).safeId (ctrlCfg s c).safeLen (safeTelegram c d s) (safeWaiting c d s)
       else safeWaiting c d s) := by
  obtain ⟨hrunning, hduty, hmode, hlen, hopened, hphase, hinstant⟩ := h
  have hsafety : (safeSlotOpen c s).safety = s.safety := (safeSlotOpen_parts c s).1
  unfold safeWaiting safeTelegram
  rw [← hsafety]
  refine (if_pos ?_).trans rfl
  simp [hrunning, hduty, hmode, hlen, hopened, hphase, hinstant]

theorem safetySlotStart_empty {s : State} {c : Nat} (h : safeDue s c) (hcontent : (canOf s c).safe.content = none) :
    safetySlotStart c s = canCount c (fun n => { n with slotEmpty := inc n.slotEmpty }) (safeSlotOpen c s) := by
  rw [safetySlotStart_due h, hcontent]

theorem safetySlotStart_sends {s : State} {c : Nat} {d : Bytes} (h : safeDue s c) (hcontent : (canOf s c).safe.content = some d) :
    safetySlotStart c s = { safeWaiting c d s with
      out := if canSends s c then s.out ++ [.can (c + 1) (ctrlCfg s c).safeId (padTo (ctrlCfg s c).safeLen (safeTelegram c d s))] else s.out } := by
  have hout : (safeWaiting c d s).out = s.out := (safeSlotOpen_parts c s).2.1
  rw [safetySlotStart_due h, hcontent]
  dsimp only
  split
  · rw [← hout]
    rfl
  · rw [← hout]

theorem safetySlotStart_idle {s : State} {c : Nat} (h : ¬safeDue s c) : safetySlotStart c s = s := by
  refine if_neg (fun hd => h ?_)
  simp only [Bool.and_eq_true, Bool.or_eq_true, decide_eq_true_eq, beq_iff_eq] at hd
  obtain ⟨⟨⟨⟨⟨⟨hrunning, hduty⟩, hmode⟩, hlen⟩, hopened⟩, hphase⟩, hinstant⟩ := hd
  exact ⟨hrunning, hduty, hmode, hlen, hopened, hphase, hinstant⟩

/-! ### CAN_TX_COMPLETE -/

theorem busPart_runFaults (s : State) : busPart (runFaults s) = busPart s := by
  unfold runFaults
  extract_lets s1
  have hs1 : busPart s1 = busPart s := by
    unfold s1
    split
    · rfl
    · exact busPart_faultSet _ _ _ _
  split
  · exact hs1
  · rw [busPart_faultSet, hs1]

theorem event_sent (c : Nat) (d : Bytes) (s : State) : s.out ⊆ (event c d s).out := by
  have hrecorded : (evRaw c d s).out = s.out := recordRaw_out _ s
  exact hrecorded ▸ lossCheck_sent _ (evRaw c d s)

theorem faultSet_sent (c : Nat) (on : Bool) (bs : List Block) (s : State) : s.out ⊆ (faultSet c on bs s).out := by
  unfold faultSet
  split
  · split
    · exact List.Subset.refl _
    · exact List.Subset.trans (raiseCore_sent c false bs s) (lossCheck_sent _ _)
  · split
    · exact List.Subset.refl _
    · exact List.Subset.refl _

theorem setErr_sent (c tec rec : Nat) (s : State) : s.out ⊆ (setErr c tec rec s).out := by
  unfold setErr
  extract_lets q n s1 s2
  split
  · exact List.Subset.refl _
  · have hs2 : s2.out = s.out := by
      unfold s2
      split <;> rfl
    refine List.Subset.trans ?_ (List.Subset.trans (faultSet_sent _ _ _ _) (faultSet_sent _ _ _ _))
    exact hs2 ▸ event_sent _ _ s2

theorem txResult_sent (c : Nat) (ack : Bool) (s : State) : s.out ⊆ (txResult c ack s).out := by
  unfold txResult
  extract_lets q
  split
  · exact setErr_sent _ _ _ _
  · split
    · exact List.Subset.refl _
    · exact setErr_sent _ _ _ _

theorem runFaults_sent (s : State) : s.out ⊆ (runFaults s).out := by
  unfold runFaults
  extract_lets s1
  have hs1 : s.out ⊆ s1.out := by
    unfold s1
    split
    · exact List.Subset.refl _
    · exact faultSet_sent _ _ _ _
  split
  · exact hs1
  · exact List.Subset.trans hs1 (faultSet_sent _ _ _ _)

/-- A controller after a transmission's end: its counters move with the error state, everything counted stays. -/
structure TxMoved (ack : Bool) (q r : CanSt) : Prop where
  cnt_eq : r.cnt = q.cnt
  rec_eq : r.rec_ = q.rec_
  acked : ack = true → r.tec = q.tec - 1
  unacked : ack = false → q.st ≠ .passive → r.tec = q.tec + 8
  safe_eq : r.safe = q.safe ∨ r.safe = cancelled q.safe

theorem canOf_txResult {s : State} {c : Nat} (ack : Bool) (h : c < s.can.length) : TxMoved ack (canOf s c) (canOf (txResult c ack s) c) := by
  unfold txResult
  extract_lets q
  split
  case isTrue hack =>
    have hmoved := canOf_setErr (q.tec - 1) q.rec_ h
    exact ⟨hmoved.cnt_eq, hmoved.rec_eq, fun _ => hmoved.tec_eq, fun hno => absurd (hack.symm.trans hno) (by decide), hmoved.safe_eq⟩
  case isFalse hack =>
    split
    case isTrue hpassive => exact ⟨rfl, rfl, fun hyes => absurd hyes hack, fun _ hnot => absurd hpassive.1 hnot, .inl rfl⟩
    case isFalse =>
      have hmoved := canOf_setErr (q.tec + 8) q.rec_ h
      exact ⟨hmoved.cnt_eq, hmoved.rec_eq, fun hyes => absurd hyes hack, fun _ _ => hmoved.tec_eq, hmoved.safe_eq⟩

theorem slotMsg_cancelPending {s : State} {c e : Nat} (h : e < s.slots.length) :
    slotMsg (cancelPending c s) e = slotMsg s e ∨ slotMsg (cancelPending c s) e = cancelled (slotMsg s e) := by
  have hmsg := nth_map_enumFrom ({} : SlotMsg) ({} : SlotMsg)
    (fun p => if (slotCfg s p.1).ctrl = c then cancelled p.2 else p.2) s.slots 0 e h
  rw [Nat.zero_add] at hmsg
  unfold slotMsg
  rw [show nth ({} : SlotMsg) (cancelPending c s).slots e = _ from hmsg]
  dsimp only
  split
  · exact .inr rfl
  · exact .inl rfl

theorem slotMsg_setErr {s : State} {c e : Nat} (tec rec : Nat) (h : e < s.slots.length) :
    slotMsg (setErr c tec rec s) e = slotMsg s e ∨ slotMsg (setErr c tec rec s) e = cancelled (slotMsg s e) := by
  have hparts := busPart_setErr c tec rec s
  split at hparts
  · have hmsg : slotMsg (setErr c tec rec s) e = slotMsg (cancelPending c (errCounted c tec rec s)) e :=
      congrArg (fun p : List CanSt × List SlotMsg => nth ({} : SlotMsg) p.2 e) hparts
    rw [hmsg]
    exact slotMsg_cancelPending (s := errCounted c tec rec s) h
  · exact .inl (congrArg (fun p : List CanSt × List SlotMsg => nth ({} : SlotMsg) p.2 e) hparts)

theorem slotMsg_txResult {s : State} {c e : Nat} (ack : Bool) (h : e < s.slots.length) :
    slotMsg (txResult c ack s) e = slotMsg s e ∨ slotMsg (txResult c ack s) e = cancelled (slotMsg s e) := by
  unfold txResult
  extract_lets q
  split
  · exact slotMsg_setErr _ _ h
  · split
    · exact .inl rfl
    · exact slotMsg_setErr _ _ h

/-- A message that has ended is past cancelling. -/
theorem cancelled_endMsg (ack : Bool) (m : SlotMsg) : cancelled (endMsg ack m) = endMsg ack m := if_neg (by simp [endMsg])

/-- A transmission's result counted (R429, Table 16-5). -/
def txCounted (ack : Bool) (n : Nat) (y : CanCounters) : CanCounters :=
  if ack then { addLost n y with txOk := inc y.txOk } else { addLost n y with txErr := inc y.txErr }

theorem txCount_lostArb (c : Nat) (ack : Bool) (n : Nat) (s : State) : txCount c ack (lostArb c n s) = canCount c (txCounted ack n) s := by
  refine (canCount_canCount c _ _ s).trans ?_
  unfold txCounted
  cases ack <;> rfl

/-- What CAN_TX_COMPLETE adds to the counters of a message's controller; `refused`: the message waited when its removal found it on the bus
(Table 16-1). -/
def entryCounted (refused : Prop) [Decidable refused] (ack : Bool) (n : Nat) (y : CanCounters) : CanCounters :=
  txCounted ack n (if refused then { y with cancelRefused := inc y.cancelRefused } else y)

/-- The state in which a message's transmission has ended, before the error counters move: one that waited has been on the bus. -/
def txEnded (c e : Nat) (ack : Bool) (n : Nat) (s : State) : State :=
  { canCount c (entryCounted ((slotMsg s e).st = 1 ∧ removed s e = true) ack n) (setSlot e (endMsg ack) s) with
    out := if (slotMsg s e).st = 1 then s.out ++ [.can (c + 1) (slotCfg s e).txId (padTo (slotCfg s e).len ((slotMsg s e).openMsg.getD []))] else s.out }

theorem canCount_entryCounted (refused : Prop) [Decidable refused] (c : Nat) (ack : Bool) (n : Nat) (s : State) :
    canCount c (txCounted ack n) (if refused then canCount c (fun y => { y with cancelRefused := inc y.cancelRefused }) s else s) =
      canCount c (entryCounted refused ack n) s := by
  unfold entryCounted
  split
  · exact canCount_canCount c _ _ s
  · rfl

theorem txComplete_entry {s : State} {c e : Nat} (ack : Bool) (n : Nat) (hopen : (slotMsg s e).st ≠ 0) (hctrl : (slotCfg s e).ctrl = c) :
    txComplete c (some e) ack n s = runFaults (txResult c ack (txEnded c e ack n s)) := by
  refine (if_pos ⟨hopen, hctrl⟩).trans (congrArg (fun t => runFaults (txResult c ack t)) ?_)
  rw [txCount_lostArb, txEnded, ← canCount_entryCounted]
  by_cases hwait : (slotMsg s e).st = 1
  · rw [if_pos hwait, if_pos hwait]
    split <;> rfl
  · rw [if_neg hwait, if_neg hwait, if_neg (fun h => hwait h.1), if_neg (fun h => hwait h.1)]
    rfl

theorem txEnded_ctrl {s : State} {c : Nat} (e : Nat) (ack : Bool) (n : Nat) (hc : c < s.can.length) : canOf (txEnded c e ack n s) c =
    { canOf s c with cnt := entryCounted ((slotMsg s e).st = 1 ∧ removed s e = true) ack n (canOf s c).cnt } := nth_upd _ _ _ _ hc

theorem txEnded_msg {s : State} {e : Nat} (c : Nat) (ack : Bool) (n : Nat) (he : e < s.slots.length) :
    slotMsg (txEnded c e ack n s) e = endMsg ack (slotMsg s e) := nth_upd _ _ _ _ he

theorem txEnded_can_length (c e : Nat) (ack : Bool) (n : Nat) (s : State) : (txEnded c e ack n s).can.length = s.can.length := upd_length _ _ _

theorem txEnded_slots_length (c e : Nat) (ack : Bool) (n : Nat) (s : State) : (txEnded c e ack n s).slots.length = s.slots.length :=
  upd_length _ _ _

theorem txEnded_sent {s : State} {e : Nat} (c : Nat) (ack : Bool) (n : Nat) (h : (slotMsg s e).st = 1) :
    Out.can (c + 1) (slotCfg s e).txId (padTo (slotCfg s e).len ((slotMsg s e).openMsg.getD [])) ∈ (txEnded c e ack n s).out := by
  simp [txEnded, h]

theorem txComplete_entry_idle {s : State} {c e : Nat} (ack : Bool) (n : Nat) (h : (slotMsg s e).st = 0 ∨ (slotCfg s e).ctrl ≠ c) :
    txComplete c (some e) ack n s = s := if_neg (fun hd => h.elim hd.1 (fun hc => hc hd.2))

/-- The safety slot's telegram has ended, before the error counters move. -/
def safeTxEnded (c : Nat) (ack : Bool) (n : Nat) (s : State) : State :=
  canCount c (txCounted ack n) (setSafe c (endMsg ack) (if (canOf s c).safe.st = 1 then
    drive (c + 1) (ctrlCfg s c).safeId (ctrlCfg s c).safeLen ((canOf s c).safe.openMsg.getD []) s else s))

theorem txComplete_safe {s : State} {c : Nat} (ack : Bool) (n : Nat) (hopen : (canOf s c).safe.st ≠ 0) :
    txComplete c none ack n s = runFaults (txResult c ack (safeTxEnded c ack n s)) := by
  refine (if_pos hopen).trans (congrArg (fun t => runFaults (txResult c ack t)) ?_)
  rw [txCount_lostArb]
  rfl

theorem safeTxEnded_can (c : Nat) (ack : Bool) (n : Nat) (s : State) : (safeTxEnded c ack n s).can =
    upd (fun q => { q with safe := endMsg ack q.safe, cnt := txCounted ack n q.cnt }) s.can c := by
  unfold safeTxEnded
  rw [canCount, setSafe, setCan_setCan]
  split <;> rfl

theorem txComplete_safe_idle {s : State} {c : Nat} (ack : Bool) (n : Nat) (h : (canOf s c).safe.st = 0) : txComplete c none ack n s = s :=
  if_neg (fun hd => hd h)

/-- A settled end of a transmission leaves the bus as the error counters left it. -/
theorem canOf_ended (t : State) (c : Nat) : canOf (settle (runFaults t)) c = canOf t c := by
  rw [canOf_settle]
  exact congrArg (fun p : List CanSt × List SlotMsg => nth ({} : CanSt) p.1 c) (busPart_runFaults t)

theorem slotMsg_ended (t : State) (e : Nat) : slotMsg (settle (runFaults t)) e = slotMsg t e := by
  unfold slotMsg
  rw [settle_slots]
  exact congrArg (fun p : List CanSt × List SlotMsg => nth ({} : SlotMsg) p.2 e) (busPart_runFaults t)

/-- Settles O52: by each command's equation; a transmission's end through the error counters that it moves. -/
theorem slotsOpenEndAndComplete : Obligations.SlotsOpenEndAndComplete := by
  intro dt e n c sof ack b d s u k m fi w ct sf inWin count put base arb due tel
  refine ⟨fun hdue => ⟨fun h => gives_of_settle rfl (slotStart_empty sof hdue h), fun h hkind => gives_of_settle rfl ?kind1, fun h hkind => ?kind2⟩,
    fun h => gives_of_settle rfl (slotStart_idle sof h),
    fun hopen hover => ⟨fun hgo => gives_of_settle rfl ?started, fun hsof hremoved => gives_of_settle rfl ?removed,
      fun hgo hnot => gives_of_settle rfl ?missed⟩,
    fun h => gives_of_settle rfl (slotEnd_idle sof n h), ?safeEmpty, ?safeSent, fun h => gives_of_settle rfl (safetySlotStart_idle h), ?entry,
    fun h => gives_of_settle rfl (txComplete_entry_idle ack n h), ?safe, fun h => gives_of_settle rfl (txComplete_safe_idle ack n h)⟩
  case kind1 =>
    rw [slotStart_kind1 hdue h hkind]
    rfl
  case kind2 =>
    obtain ⟨hslots, hcan, hconn, hout⟩ := slotStart_kind2 (sof := sof) hdue h
    refine ⟨_, rfl, ?_⟩
    unfold slotMsg
    unfold connOf at hconn ⊢
    rw [settle_slots, settle_out, settle_can, settle_osc, hslots]
    exact ⟨slotMsg_setSlot _ (slot_lt_of_due hdue), fun hgo => hout (by simpa using hgo), hcan, hconn⟩
  case started =>
    rw [slotEnd_started hopen hover n (by simpa using hgo)]
    rfl
  case removed =>
    subst hsof
    exact slotEnd_removed hopen hover n hremoved
  case missed =>
    have hsends : sof = true ∧ canSends u k.ctrl = false := by simpa using hgo
    exact slotEnd_missed hopen hover n (by rw [hsends.2, Bool.and_false]) hnot
  case safeEmpty =>
    intro hdue hcontent hw
    obtain ⟨hsafety, hout, hlen⟩ := safeSlotOpen_parts w u
    have hctrl := canOf_setCan (s := safeSlotOpen w u) (fun q => { q with cnt := { q.cnt with slotEmpty := inc q.cnt.slotEmpty } }) (by rwa [hlen])
    rw [canOf_safeSlotOpen hw] at hctrl
    refine ⟨_, rfl, ?_⟩
    rw [safetySlotStart_empty hdue hcontent, canOf_settle, settle_safety, settle_out, canCount, hctrl]
    refine ⟨?_, rfl, rfl, hsafety, hout⟩
    show inc (safeMissed (canOf u w)).cnt.slotEmpty = _
    rw [safeMissed]
    split <;> rfl
  case safeSent =>
    intro hdue hcontent hw hseq
    have hctrl : canOf (settle (safetySlotStart w u)) w = canOf (safeWaiting w d u) w := by
      rw [canOf_settle, safetySlotStart_sends hdue hcontent]
      rfl
    refine ⟨_, rfl, ?_⟩
    rw [hctrl, safeWaiting_ctrl d hw, safetySlotStart_sends hdue hcontent, settle_safety, settle_out]
    refine ⟨rfl, rfl, rfl, nth_upd _ _ _ _ hseq, rfl, fun hst => ?_⟩
    rw [safeMissed, if_neg hst]
    exact ⟨rfl, rfl⟩
  case entry =>
    intro hopen hctrl hw
    have he : e < u.slots.length := slot_lt_of_open hopen
    have hmoved := canOf_txResult (s := txEnded w e ack n u) ack (by rwa [txEnded_can_length])
    rw [txEnded_ctrl e ack n hw] at hmoved
    have hmsg := slotMsg_txResult (s := txEnded w e ack n u) (c := w) ack (by rwa [txEnded_slots_length])
    rw [txEnded_msg w ack n he, cancelled_endMsg, or_self] at hmsg
    refine ⟨_, rfl, ?_⟩
    rw [txComplete_entry ack n hopen hctrl, settle_out, canOf_ended, slotMsg_ended]
    refine ⟨hmsg, ?_, hmoved.acked, hmoved.unacked, hmoved.rec_eq, fun hwait => ?_⟩
    · rw [hmoved.cnt_eq]
      rfl
    · exact runFaults_sent _ (txResult_sent _ _ _ (txEnded_sent w ack n hwait))
  case safe =>
    intro hopen
    have hw := safe_lt_of_open hopen
    have hmoved := canOf_txResult (s := safeTxEnded w ack n u) ack (by rwa [safeTxEnded_can, upd_length])
    have hctrl : (canOf (safeTxEnded w ack n u) w).safe = endMsg ack sf := by
      unfold canOf
      rw [safeTxEnded_can, nth_upd _ _ _ _ hw]
      rfl
    have hsafe := hmoved.safe_eq
    rw [hctrl, cancelled_endMsg, or_self] at hsafe
    refine ⟨_, rfl, ?_⟩
    rw [txComplete_safe ack n hopen, canOf_ended]
    exact hsafe

end Sys2Proof.Machine
end

section
/-! PROPERTY. OSC_TELEGRAM_RECEIVE, SETUP_ACK and OSC_WATCHDOG_EXPIRY (17_safety R460 to R462; notes/assumptions/20.md). -/

namespace Sys2Proof.Machine

open Sys2Proof.Safety

/-! ### The connections stand while messages are taken in and served -/

@[simp] theorem count_osc (p : Nat) (f : Counters → Counters) (s : State) : (count p f s).osc = s.osc := rfl

theorem applyFate_osc (p stamp : Nat) (e : Image.Entry) (f : Fate) (s : State) : (applyFate p stamp e f s).osc = s.osc := by
  unfold applyFate
  split <;> rfl

@[simp] theorem commitMessage_osc (p stamp : Nat) (es : List Image.Entry) (read : Image.Entry → Raw) (s : State) :
    (commitMessage p stamp es read s).osc = s.osc := by
  unfold commitMessage
  extract_lets map fs s1 s2
  refine (foldl_keeps State.osc (fun t x => applyFate_osc _ _ _ _ t) _ s2).trans ?_
  have hs1 : s1.osc = s.osc := by
    unfold s1
    split <;> rfl
  unfold s2
  split
  · exact hs1
  · exact hs1

@[simp] theorem sentence450_osc (p h arr stamp : Nat) (line : Bytes) (s : State) : (sentence450 p h arr stamp line s).osc = s.osc := by
  unfold sentence450
  split
  split
  · rfl
  · split
    · rfl
    · extract_lets es kept dup s2
      have hs2 : s2.osc = s.osc := by
        unfold s2
        split <;> rfl
      split
      · rfl
      · split
        · rfl
        · split
          · rfl
          · rw [commitMessage_osc, hs2]

@[simp] theorem serve450_osc (p h : Nat) (d : Pend) (s : State) : (serve450 p h d s).osc = s.osc := by
  unfold serve450
  split
  · exact foldl_keeps State.osc (fun t l => sentence450_osc _ _ _ _ _ t) _ s
  · rfl

theorem noteUdp_osc (h arr : Nat) (bs : Bytes) (e : Image.Entry) (s : State) : (noteUdp h arr bs e s).osc = s.osc := by
  unfold noteUdp
  split <;> rfl

@[simp] theorem serveUdp_osc (p h : Nat) (d : Pend) (s : State) : (serveUdp p h d s).osc = s.osc := by
  unfold serveUdp
  extract_lets hits es s2 com
  have hs2 : s2.osc = s.osc := by
    unfold s2
    split <;> rfl
  split
  · exact hs2
  · refine (foldl_keeps State.osc (fun t e => noteUdp_osc _ _ _ _ t) _ _).trans ?_
    rw [commitMessage_osc, hs2]

@[simp] theorem servePend_osc (p : Nat) (d : Pend) (s : State) : (servePend p d s).osc = s.osc := by
  unfold servePend
  split <;> simp

@[simp] theorem serveIntake_osc (s : State) : (serveIntake s).osc = s.osc := by
  unfold serveIntake
  extract_lets done s1
  have hs1 : s1.osc = s.osc := by
    refine foldl_keeps State.osc (fun t p => ?_) _ s
    rfl
  split
  · exact (foldl_keeps State.osc (fun t x => servePend_osc _ _ t) _ s1).trans hs1
  · exact hs1

theorem queueMessage_osc (p : Nat) (d : Pend) (s : State) : (queueMessage p d s).osc = s.osc := by
  unfold queueMessage
  extract_lets n s1 w last d'
  split
  · exact serveIntake_osc s
  · exact serveIntake_osc s

theorem canIntake_osc (c id : Nat) (data : Bytes) (s : State) : (canIntake c id data s).osc = s.osc := queueMessage_osc _ _ _

/-! ### One connection -/

theorem connOf_setConn {s : State} {n : Nat} (f : OscConn → OscConn) (h : n < s.osc.length) : connOf (setConn n f s) n = f (connOf s n) :=
  nth_upd _ _ _ _ h

theorem connOf_setConn_other {s : State} {n x : Nat} (f : OscConn → OscConn) (h : n ≠ x) : connOf (setConn n f s) x = connOf s x :=
  nth_upd_other _ _ _ _ _ h

/-- A connection in use is one of the image's. -/
theorem conn_lt_of_used {s : State} {n : Nat} (h : (connOf s n).st ≠ 0) : n < s.osc.length :=
  lt_length_of_nth_ne (d := ({} : OscConn)) (fun he => h (congrArg OscConn.st he))

theorem connOf_congr {s t : State} (h : t.osc = s.osc) (n : Nat) : connOf t n = connOf s n := congrArg (fun l => nth ({} : OscConn) l n) h

theorem connEvent_osc (n : Nat) (opened : Bool) (ver : Nat) (s : State) : (connEvent n opened ver s).osc = s.osc := event_osc _ _ _

@[simp] theorem connEvent_st (n : Nat) (opened : Bool) (ver : Nat) (s : State) : (connEvent n opened ver s).st = s.st := event_st _ _ _

theorem closeConn_osc (n : Nat) (s : State) : (closeConn n s).osc = upd (fun _ => {}) s.osc n := by
  unfold closeConn
  extract_lets q s1
  split
  · exact connEvent_osc _ _ _ _
  · split
    · exact connEvent_osc _ _ _ _
    · rfl

theorem closeConn_st (n : Nat) (s : State) : (closeConn n s).st = s.st := by
  unfold closeConn
  extract_lets q s1
  split
  · exact connEvent_st _ _ _ _
  · split
    · exact connEvent_st _ _ _ _
    · rfl

theorem watchdogExpired_osc (n : Nat) (s : State) : (watchdogExpired n s).osc = upd (fun _ => {}) s.osc n := by
  unfold watchdogExpired
  extract_lets s1
  have hs1 : s1.osc = upd (fun _ => {}) s.osc n := closeConn_osc n s
  split
  · rw [faultOnce_osc, hs1]
  · exact hs1

theorem watchdogExpired_active {n : Nat} {s : State} (hduty : onDuty s.st = true) : faultActive (watchdogExpired n s) 0x1115 = true := by
  unfold watchdogExpired
  extract_lets s1
  have hst : s1.st = s.st := closeConn_st n s
  rw [if_pos hduty]
  refine faultOnce_active _ _ (fun hoff => ?_)
  rw [← hst, hoff] at hduty
  exact absurd hduty (by decide)

/-- An expired connection is closed, and no other. -/
theorem connOf_watchdogExpired {n : Nat} {s : State} (h : n < s.osc.length) :
    connOf (watchdogExpired n s) n = {} ∧ ∀ x, x ≠ n → connOf (watchdogExpired n s) x = connOf s x := by
  unfold connOf
  rw [watchdogExpired_osc]
  exact ⟨nth_upd _ _ _ _ h, fun x hx => nth_upd_other _ _ _ _ _ (Ne.symm hx)⟩

/-! ### SETUP_ACK -/

theorem connFault_osc (s : State) : (connFault s).osc = s.osc := by
  have h := congrArg State.osc (endCond_rest 0x0D12 (!allConnsOpen s) s)
  exact h

@[simp] theorem bringProgress_osc (s : State) : (bringProgress s).osc = s.osc := by
  have h := congrArg State.osc (bringProgress_restNoBring (s := s))
  exact h

theorem setupAck_idle {n : Nat} {bs : Bytes} {s : State} (h : (connOf s n).st ≠ 1) : setupAck n bs s = s := if_neg h

theorem setupAck_unread {n : Nat} {bs : Bytes} {s : State} (hst : (connOf s n).st = 1) (h : ackOk (connCfg s n) bs = none) :
    setupAck n bs s = s := by
  unfold setupAck
  extract_lets c
  rw [if_pos hst, show ackOk c bs = none from h]

theorem setupAck_refused {n v : Nat} {bs : Bytes} {tg : Telegram} {s : State} (hst : (connOf s n).st = 1)
    (h : ackOk (connCfg s n) bs = some (tg, v)) (hv : v = 0 ∨ (connCfg s n).verMax < v) :
    setupAck n bs s = setConn n (fun q => { q with st := 0 }) s := by
  unfold setupAck
  extract_lets c
  rw [if_pos hst, show ackOk c bs = some (tg, v) from h]
  exact if_pos hv

theorem setupAck_opens {n v : Nat} {bs : Bytes} {tg : Telegram} {s : State} (hst : (connOf s n).st = 1)
    (h : ackOk (connCfg s n) bs = some (tg, v)) (hv : v ≠ 0) (hmax : v ≤ (connCfg s n).verMax) :
    (setupAck n bs s).osc = upd (fun q => { q with st := 2, ver := v, txSeq := 1, rxLast := 0, rxEl := elNs s, rxExpMs := tg.tExp }) s.osc n := by
  unfold setupAck
  extract_lets c
  rw [if_pos hst, show ackOk c bs = some (tg, v) from h]
  dsimp only
  rw [if_neg (fun hd => hd.elim hv (Nat.not_lt_of_le hmax)), bringProgress_osc, connFault_osc, connEvent_osc]
  rfl

/-! ### OSC_TELEGRAM_RECEIVE -/

theorem oscArrive_idle {n : Nat} {bs : Bytes} {s : State} (h : onDuty s.st = false ∨ s.osc.length ≤ n) : oscArrive n bs s = s :=
  if_neg (fun hd => h.elim (fun ho => by simp [ho] at hd) (Nat.not_le_of_lt hd.2))

section
variable {n : Nat} {bs : Bytes} {s : State} (hduty : onDuty s.st = true) (hn : n < s.osc.length)
include hduty hn

/-- A telegram on a connection: read by the connection, and of a CAN connection handed on to intake, or counted as unread (R467). -/
theorem oscArrive_works : oscArrive n bs s =
    if (connCfg s n).ctrl < 4 then
      (if (oscReceive n bs s).2 then canIntake (connCfg s n).ctrl (connCfg s n).rxId bs (oscReceive n bs s).1
       else canUnread (connCfg s n).ctrl (oscReceive n bs s).1)
    else (oscReceive n bs s).1 := if_pos ⟨hduty, hn⟩

theorem oscArrive_osc : (oscArrive n bs s).osc = (oscReceive n bs s).1.osc := by
  rw [oscArrive_works hduty hn]
  split
  · split
    · exact canIntake_osc _ _ _ _
    · rfl
  · rfl

theorem oscArrive_udp (hctrl : 4 ≤ (connCfg s n).ctrl) : oscArrive n bs s = (oscReceive n bs s).1 := by
  rw [oscArrive_works hduty hn, if_neg (Nat.not_lt_of_le hctrl)]

theorem oscArrive_refused (h : (oscReceive n bs s).2 = false) : oscArrive n bs s = (oscReceive n bs s).1 ∨
    oscArrive n bs s = canUnread (connCfg s n).ctrl (oscReceive n bs s).1 := by
  rw [oscArrive_works hduty hn, h]
  split
  · exact .inr rfl
  · exact .inl rfl

end

section
variable {n : Nat} {bs : Bytes} {s : State} (htype : byteAt bs 0 % 16 ≠ 2)
include htype

theorem oscReceive_closed (hst : (connOf s n).st ≠ 2) : oscReceive n bs s = (s, false) := by
  unfold oscReceive
  extract_lets q
  rw [if_neg (fun h => htype h.1), if_pos hst]

theorem oscReceive_failed {k : Nat} (hst : (connOf s n).st = 2) (h : failedCheck (connCfg s n) (connOf s n) bs = some k) :
    oscReceive n bs s = (event 0x1106 (u8 k ++ u8 n) s, false) := by
  unfold oscReceive
  extract_lets q
  rw [if_neg (fun h => htype h.1), if_neg (not_not_intro hst), show failedCheck (connCfg s n) q bs = some k from h]

/-- What passes every check but comes too late expires the connection; else it renews it (R460). -/
theorem oscReceive_passed {tg : Telegram} (hst : (connOf s n).st = 2) (h : failedCheck (connCfg s n) (connOf s n) bs = none)
    (hread : readTelegram bs = some tg) : oscReceive n bs s =
      if (connOf s n).rxEl + (connOf s n).rxExpMs * 1000000 < elNs s then (watchdogExpired n s, false)
      else (setConn n (fun x => { x with rxLast := tg.seq, rxEl := elNs s, rxExpMs := tg.tExp }) s, true) := by
  unfold oscReceive
  extract_lets q
  rw [if_neg (fun h => htype h.1), if_neg (not_not_intro hst), show failedCheck (connCfg s n) q bs = none from h, hread]

end

theorem readTelegram_of_passed {c : Image.Conn} {q : OscConn} {bs : Bytes} (h : failedCheck c q bs = none) :
    ∃ tg, readTelegram bs = some tg := by
  unfold failedCheck at h
  cases hread : readTelegram bs with
  | none => simp [hread] at h
  | some tg => exact ⟨tg, rfl⟩

/-- Settles O54: by the checks that a telegram passes, and by what an acknowledgement chooses. -/
theorem oscConnectionsOpenTakeAndExpire : Obligations.OscConnectionsOpenTakeAndExpire := by
  intro dt n k v bs tg s u q cf late
  have hconns {t : State} {f : OscConn → OscConn} (hn : n < u.osc.length) (h : t.osc = upd f u.osc n) :
      connOf (settle t) n = f q ∧ ∀ x, x ≠ n → connOf (settle t) x = connOf u x := by
    unfold connOf
    rw [settle_osc, h]
    exact ⟨nth_upd _ _ _ _ hn, fun x hx => nth_upd_other _ _ _ _ _ (Ne.symm hx)⟩
  refine ⟨fun h => gives_of_settle rfl (oscArrive_idle h), fun hduty hn htype => ⟨?closed, ?failed, ?taken, ?late⟩,
    fun hduty hst => ⟨?unread, ?refused, ?opens⟩, ?noAck, ?expires, ?watched⟩
  case closed =>
    intro hst hctrl
    refine gives_of_settle rfl ?_
    rw [oscArrive_udp hduty hn hctrl, oscReceive_closed htype hst]
  case failed =>
    intro hst hfailed
    have hreceive := oscReceive_failed htype hst hfailed
    refine ⟨_, rfl, ?_, ?_, fun hctrl => ?_⟩
    · rw [settle_osc, oscArrive_osc hduty hn, hreceive, event_osc]
    · rw [settle_store]
      rcases oscArrive_refused hduty hn (congrArg Prod.snd hreceive) with h | h
      · rw [h, hreceive, event_store]
      · rw [h, hreceive]
        exact event_store _ _ _
    · rw [settle_rest, oscArrive_udp hduty hn hctrl, hreceive, event_rest]
  case taken =>
    intro hst hpassed hread hlate
    have hreceive := (oscReceive_passed htype hst hpassed hread).trans (if_neg hlate)
    obtain ⟨hone, hothers⟩ := hconns hn ((oscArrive_osc hduty hn).trans (congrArg (fun p => p.1.osc) hreceive))
    refine ⟨_, rfl, hone, hothers, fun hctrl => ?_⟩
    rw [settle_store, oscArrive_udp hduty hn hctrl, hreceive]
    rfl
  case late =>
    intro hst hpassed hlate
    obtain ⟨tg', hread⟩ := readTelegram_of_passed hpassed
    have hreceive := (oscReceive_passed htype hst hpassed hread).trans (if_pos hlate)
    obtain ⟨hone, hothers⟩ := hconns hn (((oscArrive_osc hduty hn).trans (congrArg (fun p => p.1.osc) hreceive)).trans (watchdogExpired_osc n u))
    refine ⟨_, rfl, hone, ?_, hothers⟩
    rw [settle_active]
    rcases oscArrive_refused hduty hn (congrArg Prod.snd hreceive) with h | h
    · rw [h, hreceive]
      exact watchdogExpired_active hduty
    · rw [h, hreceive]
      exact watchdogExpired_active (n := n) hduty
  case unread => exact fun h => gives_of_settle rfl ((if_pos hduty).trans (setupAck_unread hst h))
  case refused => exact fun h hv => gives_of_settle rfl ((if_pos hduty).trans (setupAck_refused hst h hv))
  case opens =>
    intro h hv hmax
    have hn := conn_lt_of_used (n := n) (s := u) (by rw [show (connOf u n).st = 1 from hst]; decide)
    have heq : (if onDuty s.st then setupAck n bs u else u) = setupAck n bs u := if_pos hduty
    obtain ⟨hone, hothers⟩ := hconns hn (setupAck_opens hst h hv hmax)
    exact ⟨_, congrArg (fun t => Host.Outcome.next (settle t)) heq, hone, hothers⟩
  case noAck =>
    intro h
    refine gives_of_settle rfl ?_
    show (if onDuty s.st then setupAck n bs u else u) = u
    split
    · rename_i hduty
      exact setupAck_idle (h.resolve_left (fun hoff => by
        rw [show onDuty u.st = onDuty s.st from rfl, hduty] at hoff
        exact absurd hoff (by decide)))
    · rfl
  case expires =>
    intro hst hwatch hlate
    have hn := conn_lt_of_used (n := n) (s := u) (by rw [show (connOf u n).st = 2 from hst]; decide)
    have heq : watchdogRow n u = watchdogExpired n u := if_pos ⟨hst, hwatch, hlate⟩
    obtain ⟨hone, hothers⟩ := hconns hn (watchdogExpired_osc n u)
    refine ⟨_, congrArg (fun t => Host.Outcome.next (settle t)) heq, hone, fun hduty => ?_, hothers⟩
    rw [settle_active]
    exact watchdogExpired_active hduty
  case watched =>
    intro h
    refine gives_of_settle rfl (if_neg ?_)
    rintro ⟨hst, hwatch, hlate⟩
    rcases h with hst' | hwatch' | hlate'
    · exact hst' hst
    · rw [show (connOf u n).watchPending = true from hwatch'] at hwatch
      exact absurd hwatch (by decide)
    · exact hlate' hlate

end Sys2Proof.Machine
end

section
/-! PROPERTY. SO_REFRESH_TIMEOUT, LOCKSTEP_MISMATCH, DISCREPANCY, STUCK_RESET, EDM_CHECK and SO_TEST_PULSE (17_safety R441, R444, R449, R452,
R456). -/

namespace Sys2Proof.Machine

open Sys2Proof.Safety

/-! ### What a trip leaves -/

/-- What gates never reach: the state, time, the image, the Ledger, the pair, and how many controllers there are. -/
def gatePart (s : State) : (ModState × Clock × CfgSt) × LedgerSt × SafetySt × Nat :=
  ((s.st, s.clk, s.cfg), s.ledger, s.safety, s.can.length)

theorem gatePart_canCount (c : Nat) (f : CanCounters → CanCounters) (s : State) : gatePart (canCount c f s) = gatePart s := by
  simp [gatePart, canCount, setCan, upd_length]

theorem gatePart_gateSlots (started : List Nat) (hit : Nat → Bool) (s : State) : gatePart (gateSlots started hit s) = gatePart s := by
  refine foldl_keeps gatePart (fun t p => ?_) _ s
  extract_lets e refuse
  split
  · split
    · split
      · exact gatePart_canCount _ _ _
      · exact gatePart_canCount _ _ _
    · exact gatePart_canCount _ _ _
    · rfl
  · rfl

/-- A function tripped (R446, Table 17-5). -/
def trippedFunc (op : Nat) (q : FuncSt) : FuncSt := { q with st := 2, autoUsed := true, edmUntil := none, lastTripOp := op }

/-- The pair after a function's trip: counted, its outputs off. -/
def trippedPair (cf : Image.Func) (f op : Nat) (p : SafetySt) : SafetySt :=
  { p with
    funcs := upd (trippedFunc op) p.funcs f, tripCount := (p.tripCount + 1) % 65536, sf2Gate := p.sf2Gate || cf.fkind == 2
    so := (enumFrom 0 p.so).map (fun x => if cf.soMask.testBit (x.1 / 2) then { x.2 with on := false } else x.2) }

theorem trip_gatePart (f cause : Nat) (started : List Nat) (s : State) :
    gatePart (trip f cause started s) =
      gatePart (event 0x1101 (u8 f ++ u8 cause) { s with safety := trippedPair (funcCfg s f) f s.ledger.opS s.safety }) :=
  gatePart_gateSlots _ _ _

theorem trip_safety (f cause : Nat) (started : List Nat) (s : State) :
    (trip f cause started s).safety = trippedPair (funcCfg s f) f s.ledger.opS s.safety := by
  have h := congrArg (fun p => p.2.2.1) (trip_gatePart f cause started s)
  simpa only [gatePart, event_safety] using h

theorem trip_st (f cause : Nat) (started : List Nat) (s : State) : (trip f cause started s).st = s.st := by
  have h := congrArg (fun p => p.1.1) (trip_gatePart f cause started s)
  simpa only [gatePart, event_st] using h

theorem funcOf_upd {s : State} {f : Nat} (g : FuncSt → FuncSt) (h : f < s.safety.funcs.length) :
    nth ({} : FuncSt) (upd g s.safety.funcs f) f = g (funcOf s f) := nth_upd _ _ _ _ h

/-- A function in use is one of the image's. -/
theorem func_lt_of_used {s : State} {f : Nat} (h : (funcOf s f).st ≠ 0) : f < s.safety.funcs.length :=
  lt_length_of_nth_ne (d := ({} : FuncSt)) (fun he => h (congrArg FuncSt.st he))

/-- Every channel of the function's output pairs is off after its trip. -/
theorem trippedPair_off {cf : Image.Func} {f op ch : Nat} {p : SafetySt} (h : cf.soMask.testBit (ch / 2) = true) :
    (nth {} (trippedPair cf f op p).so ch).on = false := by
  by_cases hch : ch < p.so.length
  · have hmap := nth_map_enumFrom ({} : SoChan) ({} : SoChan)
      (fun x => if cf.soMask.testBit (x.1 / 2) then { x.2 with on := false } else x.2) p.so 0 ch hch
    rw [Nat.zero_add] at hmap
    rw [show nth ({} : SoChan) (trippedPair cf f op p).so ch = _ from hmap, if_pos h]
  · have hlen : (trippedPair cf f op p).so.length ≤ ch := by
      simp only [trippedPair, List.length_map]
      rw [← List.length_map (f := Prod.snd), map_snd_enumFrom]
      exact Nat.le_of_not_lt hch
    rw [nth_beyond _ _ _ hlen]

/-! ### Safety slots -/

/-- A controller's safety slot gets content. -/
def setContent (c : Nat) (d : Option Bytes) (s : State) : State := setSafe c (fun m => { m with content := d }) s

theorem content_setContent {s : State} (c : Nat) (d : Option Bytes) (x : Nat) (h : x < s.can.length) :
    (canOf (setContent c d s) x).safe.content = if c = x then d else (canOf s x).safe.content := by
  split
  case isTrue hx =>
    subst hx
    rw [setContent, setSafe, canOf_setCan _ h]
  case isFalse hx => rw [setContent, setSafe, canOf_setCan_other _ hx]

theorem setContent_length (c : Nat) (d : Option Bytes) (s : State) : (setContent c d s).can.length = s.can.length := setCan_length _ _ _

/-- Every controller's safety slot without content. -/
def slotsCleared (s : State) : State := [0, 1, 2, 3].foldl (fun t c => setContent c none t) s

theorem slotsCleared_content {s : State} {c : Nat} (hc : c < 4) : (canOf (slotsCleared s) c).safe.content = none := by
  by_cases hlen : c < s.can.length
  · have hrange : c = 0 ∨ c = 1 ∨ c = 2 ∨ c = 3 := by omega
    simp only [slotsCleared, List.foldl, content_setContent, setContent_length, hlen]
    rcases hrange with rfl | rfl | rfl | rfl <;> rfl
  · have hlen' : (slotsCleared s).can.length ≤ c := by
      simp only [slotsCleared, List.foldl, setContent_length]
      exact Nat.le_of_not_lt hlen
    exact congrArg (fun q : CanSt => q.safe.content) (nth_beyond _ _ _ hlen')

theorem writeTelegrams_gatePart (s : State) : gatePart (writeTelegrams s) = gatePart s := by
  refine foldl_keeps gatePart (fun t c => ?_) _ s
  split
  · simp [gatePart, setSafe, setCan, upd_length]
  · rfl

theorem writeTelegrams_safety (s : State) : (writeTelegrams s).safety = s.safety := by
  have h := congrArg (fun p => p.2.2.1) (writeTelegrams_gatePart s)
  simpa only [gatePart] using h

theorem writeTelegrams_st (s : State) : (writeTelegrams s).st = s.st := by
  have h := congrArg (fun p => p.1.1) (writeTelegrams_gatePart s)
  simpa only [gatePart] using h

/-! ### The commands -/

/-- The channels of a pair have disagreed for longer than DISC_MS (R444). -/
def disagrees (s : State) (k : Nat) : Prop := s.safety.running = true ∧
  ∃ t0 d, (nth {} s.safety.pairs k).disEl = some t0 ∧ discMs s (k + 1) = some d ∧ t0 + d * 1000000 < elNs s

theorem discrepancy_due {k : Nat} {s : State} (h : disagrees s k) : discrepancy k s =
    faultCond 0x1110 true { s with safety := { s.safety with pairs := upd (fun q => { q with discrepant := true }) s.safety.pairs k } } := by
  obtain ⟨hrunning, t0, d, hdis, hms, hlate⟩ := h
  unfold discrepancy
  rw [hdis, hms]
  exact if_pos ⟨hrunning, hlate⟩

theorem discrepancy_idle {k : Nat} {s : State} (h : ¬disagrees s k) : discrepancy k s = s := by
  unfold discrepancy
  split
  case h_1 t0 d hdis hms => exact if_neg (fun hd => h ⟨hd.1, t0, d, hdis, hms, hd.2⟩)
  case h_2 => rfl

/-- The EDM input of an armed function has not fallen when its check ends (R452). -/
def notFallen (s : State) (f : Nat) : Prop := (funcOf s f).st = 1 ∧
  (nth ({} : InSt) s.field.di ((funcCfg s f).edmDi - 1)).level ≠ some false ∧ ∃ t0, (funcOf s f).edmUntil = some t0 ∧ t0 ≤ elNs s

theorem edmCheck_due {f : Nat} {s : State} (h : notFallen s f) : edmCheck f s = faultOnce 0x1117 (writeTelegrams (trip f 5 [] s)) := by
  obtain ⟨hst, hlevel, t0, huntil, hel⟩ := h
  unfold edmCheck
  rw [huntil]
  exact if_pos ⟨hel, hst, hlevel⟩

theorem edmCheck_idle {f : Nat} {s : State} (h : ¬notFallen s f) : edmCheck f s = s := by
  unfold edmCheck
  split
  case h_1 t0 huntil => exact if_neg (fun hd => h ⟨hd.2.1, hd.2.2, t0, huntil, hd.1⟩)
  case h_2 => rfl

theorem edmCheck_safety {f : Nat} {s : State} (h : notFallen s f) :
    (edmCheck f s).safety = trippedPair (funcCfg s f) f s.ledger.opS s.safety := by
  rw [edmCheck_due h, faultOnce_safety, writeTelegrams_safety, trip_safety]

theorem edmCheck_active {f : Nat} {s : State} (h : notFallen s f) (hon : s.st ≠ .off) : faultActive (edmCheck f s) 0x1117 = true := by
  rw [edmCheck_due h]
  exact faultOnce_active _ _ (by rwa [writeTelegrams_st, trip_st])

theorem lockstep_runs {s : State} (h : s.safety.running = true) : lockstep s = faultCond 0x1114 true (slotsCleared
    { s with safety := { s.safety with stopped := true, so := s.safety.so.map (fun c => { c with on := false }) } }) := if_pos h

theorem lockstep_idle {s : State} (h : s.safety.running = false) : lockstep s = s := if_neg (by simp [h])

theorem soTestPulse_fails {ch : Nat} {s : State} (h : s.safety.running = true) : soTestPulse ch false s = faultCond 0x1112 true
    (soOff (2 ^ (ch / 2)) { s with safety := { s.safety with latch := upd (fun _ => true) s.safety.latch (ch / 2) } }) :=
  if_neg (by simp [h])

/-- Settles O56: each monitor by its equation where its condition holds. -/
theorem safetyMonitorsActAtOnce : Obligations.SafetyMonitorsActAtOnce := by
  intro dt n s u x f di stale disagree stuck notFallen'
  refine ⟨fun h => gives_of_settle rfl (if_pos h), fun h => gives_of_settle rfl (if_neg h), ?lockstep,
    fun h => gives_of_settle rfl (lockstep_idle h), ?discrepancy, fun h => gives_of_settle rfl (discrepancy_idle h), ?stuck,
    fun h => gives_of_settle rfl (if_neg h), ?edm, fun h => gives_of_settle rfl (edmCheck_idle h), ?pulse,
    fun h => gives_of_settle rfl (if_pos (.inr h)), gives_of_settle rfl (if_pos (.inl rfl))⟩
  case lockstep =>
    intro hon hrunning
    refine ⟨_, rfl, ?_, ?_, fun c hc => ?_⟩
    · rw [lockstep_runs hrunning, settle_active]
      exact faultCond_active _ _ hon
    · rw [lockstep_runs hrunning, settle_safety, faultCond_safety]
      rfl
    · rw [lockstep_runs hrunning, canOf_settle, canOf, faultCond_can]
      exact slotsCleared_content hc
  case discrepancy =>
    intro hon h
    refine ⟨_, rfl, ?_⟩
    rw [discrepancy_due h, settle_active, settle_rest, faultCond_rest]
    exact ⟨faultCond_active _ _ hon, rfl⟩
  case stuck =>
    intro hon h
    have heq : stuckReset n u = faultCond 0x1113 true (event 0x1104 []
        { u with safety := { u.safety with resets := upd (fun y => { y with stuck := true }) u.safety.resets n } }) := if_pos h
    refine ⟨_, rfl, ?_⟩
    rw [heq, settle_active, settle_rest, faultCond_rest, event_rest]
    exact ⟨faultCond_active _ _ (by rw [event_st]; exact hon), rfl⟩
  case edm =>
    intro hon h
    have hfunc := funcOf_upd (trippedFunc u.ledger.opS) (func_lt_of_used (s := u) (f := n) (by rw [show (funcOf u n).st = 1 from h.1]; decide))
    refine ⟨_, rfl, ?_⟩
    unfold funcOf
    rw [settle_safety, settle_active, edmCheck_safety h]
    refine ⟨congrArg FuncSt.st hfunc, congrArg FuncSt.edmUntil hfunc, congrArg FuncSt.lastTripOp hfunc, rfl, fun ch hch => trippedPair_off hch,
      edmCheck_active h hon⟩
  case pulse =>
    intro hon hrunning
    refine ⟨_, rfl, ?_⟩
    rw [soTestPulse_fails hrunning, settle_active, settle_rest, faultCond_rest]
    exact ⟨faultCond_active _ _ hon, rfl⟩

end Sys2Proof.Machine
end

section
/-! PROPERTY. SAFETY_CYCLE (17_safety R440, R446 to R453; 18_field_io R482; notes/assumptions/22.md). -/

namespace Sys2Proof.Machine

open Sys2Proof.Safety

/-! ### What stands through a cycle's trips and resets -/

/-- The pair without its functions, their count, the gate, the outputs and the reset inputs: what trips and resets read and never write. -/
def pairFixed (p : SafetySt) : SafetySt := { p with funcs := [], tripCount := 0, sf2Gate := false, so := [], resets := [] }

/-- `t` is `s` after trips and resets. -/
structure CycleKept (s t : State) : Prop where
  st : t.st = s.st
  clk : t.clk = s.clk
  cfg : t.cfg = s.cfg
  opS : t.ledger.opS = s.ledger.opS
  pair : pairFixed t.safety = pairFixed s.safety
  so : t.safety.so.length = s.safety.so.length
  funcs : t.safety.funcs.length = s.safety.funcs.length
  can : t.can.length = s.can.length

namespace CycleKept

theorem refl (s : State) : CycleKept s s := ⟨rfl, rfl, rfl, rfl, rfl, rfl, rfl, rfl⟩

theorem trans {s t v : State} (h : CycleKept s t) (g : CycleKept t v) : CycleKept s v :=
  ⟨g.st.trans h.st, g.clk.trans h.clk, g.cfg.trans h.cfg, g.opS.trans h.opS, g.pair.trans h.pair, g.so.trans h.so, g.funcs.trans h.funcs,
    g.can.trans h.can⟩

theorem rdSx {s t : State} (h : CycleKept s t) : t.safety.rdSx = s.safety.rdSx := by have e := congrArg SafetySt.rdSx h.pair; exact e
theorem rdDi {s t : State} (h : CycleKept s t) : t.safety.rdDi = s.safety.rdDi := by have e := congrArg SafetySt.rdDi h.pair; exact e
theorem rdEl {s t : State} (h : CycleKept s t) : t.safety.rdEl = s.safety.rdEl := by have e := congrArg SafetySt.rdEl h.pair; exact e
theorem sx {s t : State} (h : CycleKept s t) : t.safety.sx = s.safety.sx := by have e := congrArg SafetySt.sx h.pair; exact e
theorem pairs {s t : State} (h : CycleKept s t) : t.safety.pairs = s.safety.pairs := by have e := congrArg SafetySt.pairs h.pair; exact e
theorem latch {s t : State} (h : CycleKept s t) : t.safety.latch = s.safety.latch := by have e := congrArg SafetySt.latch h.pair; exact e
theorem supply {s t : State} (h : CycleKept s t) : t.safety.supply = s.safety.supply := by have e := congrArg SafetySt.supply h.pair; exact e

theorem funcCfg_eq {s t : State} (h : CycleKept s t) (f : Nat) : funcCfg t f = funcCfg s f := by unfold funcCfg; rw [h.cfg]
theorem pairTrip_eq {s t : State} (h : CycleKept s t) (p pol : Nat) : pairTrip t p pol = pairTrip s p pol := by unfold pairTrip; rw [h.rdSx]
theorem pairRead_eq {s t : State} (h : CycleKept s t) (p pol : Nat) : pairRead t p pol = pairRead s p pol := by unfold pairRead; rw [h.rdSx]
theorem pairOf_eq {s t : State} (h : CycleKept s t) (p : Nat) : pairOf t p = pairOf s p := by unfold pairOf; rw [h.pairs]
theorem readBackIn_eq {s t : State} (h : CycleKept s t) (m : Nat) : readBackIn t m = readBackIn s m := by unfold readBackIn; rw [h.latch]
theorem supplyFaultIn_eq {s t : State} (h : CycleKept s t) (m : Nat) : supplyFaultIn t m = supplyFaultIn s m := by
  unfold supplyFaultIn; rw [h.supply]
theorem runFor50_eq {s t : State} (h : CycleKept s t) (p : Nat) : runFor50 t p = runFor50 s p := by
  unfold runFor50; rw [h.pairOf_eq, h.rdEl]
theorem rdInput_eq {s t : State} (h : CycleKept s t) (d : Nat) : rdInput t d = rdInput s d := by simp only [rdInput, h.rdDi]

/-- Whatever trips and resets leave, a function's causes and what refuses its reset do not change (R446, R450). -/
theorem tripCause_eq {s t : State} (h : CycleKept s t) (f : Nat) : tripCause t f = tripCause s f := by
  simp only [tripCause, h.funcCfg_eq, h.pairRead_eq, h.pairTrip_eq, h.pairOf_eq, h.readBackIn_eq, h.supplyFaultIn_eq]

theorem resetRefused_eq {s t : State} (h : CycleKept s t) (f : Nat) : resetRefused t f = resetRefused s f := by
  simp only [resetRefused, h.funcCfg_eq, h.pairRead_eq, h.runFor50_eq, h.pairOf_eq, h.readBackIn_eq, h.supplyFaultIn_eq, h.rdInput_eq]

end CycleKept

theorem event_opS (c : Nat) (d : Bytes) (s : State) : (event c d s).ledger.opS = s.ledger.opS := by
  have h := congrArg (fun t => t.ledger.opS) (event_rest s c d)
  exact h

theorem event_cycleKept (c : Nat) (d : Bytes) (s : State) : CycleKept s (event c d s) := by
  constructor <;> simp [event_opS]

theorem setFunc_cycleKept (f : Nat) (g : FuncSt → FuncSt) (s : State) : CycleKept s (setFunc f g s) :=
  ⟨rfl, rfl, rfl, rfl, rfl, rfl, upd_length _ _ _, rfl⟩

/-- What gates never reach holds all that a cycle keeps. -/
theorem cycleKept_of_gatePart {s t : State} (h : gatePart t = gatePart s) : CycleKept s t := by
  simp only [gatePart, Prod.mk.injEq] at h
  obtain ⟨⟨hst, hclk, hcfg⟩, hledger, hsafety, hcan⟩ := h
  exact ⟨hst, hclk, hcfg, congrArg LedgerSt.opS hledger, congrArg pairFixed hsafety, congrArg (fun p => p.so.length) hsafety,
    congrArg (fun p => p.funcs.length) hsafety, hcan⟩

theorem length_map_enumFrom {α β : Type} (g : Nat × α → β) (k : Nat) (l : List α) : ((enumFrom k l).map g).length = l.length := by
  rw [List.length_map, ← List.length_map (f := Prod.snd), map_snd_enumFrom]

theorem trip_cycleKept (f cause : Nat) (started : List Nat) (s : State) : CycleKept s (trip f cause started s) := by
  have htripped : CycleKept s { s with safety := trippedPair (funcCfg s f) f s.ledger.opS s.safety } :=
    ⟨rfl, rfl, rfl, rfl, rfl, length_map_enumFrom _ _ _, upd_length _ _ _, rfl⟩
  exact (htripped.trans (event_cycleKept _ _ _)).trans (cycleKept_of_gatePart (gatePart_gateSlots _ _ _))

theorem arm_cycleKept (f : Nat) (auto : Bool) (s : State) : CycleKept s (arm f auto s) :=
  (setFunc_cycleKept _ _ _).trans (event_cycleKept _ _ _)

theorem foldl_cycleKept {α : Type} {f : State → α → State} (h : ∀ t a, CycleKept t (f t a)) (l : List α) (s : State) : CycleKept s (l.foldl f s) :=
  List.foldlRecOn l f (.refl s) (fun t ht a _ => ht.trans (h t a))

/-- One function's step of `tripAll`. -/
def tripOne (started : List Nat) (t : State) (f : Nat) : State :=
  if (funcOf t f).st = 1 then (match tripCause t f with | some k => trip f k started t | none => t) else t

theorem tripAll_eq (started : List Nat) (s : State) : tripAll started s = (funcIds s).foldl (tripOne started) s := rfl

theorem tripOne_cycleKept (started : List Nat) (t : State) (f : Nat) : CycleKept t (tripOne started t f) := by
  unfold tripOne
  split
  · split
    · exact trip_cycleKept _ _ _ _
    · exact .refl t
  · exact .refl t

theorem tripAll_cycleKept (started : List Nat) (s : State) : CycleKept s (tripAll started s) := foldl_cycleKept (tripOne_cycleKept started) _ s

theorem pulse_cycleKept (d : Nat) (s : State) : CycleKept s (pulse d s) := by
  refine foldl_cycleKept (fun t f => ?_) _ s
  split
  · split
    · exact arm_cycleKept _ _ _
    · exact (setFunc_cycleKept _ _ _).trans (event_cycleKept _ _ _)
  · exact .refl t

/-- A reset input takes its reading. -/
def resetRead (d : Nat) (t : State) : State := { t with safety := { t.safety with
  resets := upd (fun _ => (resetStep t.safety.rdEl (rdInput t d) (nth {} t.safety.resets d)).1) t.safety.resets d } }

/-- One input's step of `resetsStep`. -/
def resetOne (t : State) (d : Nat) : State :=
  if (resetStep t.safety.rdEl (rdInput t d) (nth {} t.safety.resets d)).2 then pulse d (resetRead d t) else resetRead d t

theorem resetsStep_eq (s : State) : resetsStep s = (resetInputs s).foldl resetOne s := rfl

theorem resetRead_cycleKept (d : Nat) (t : State) : CycleKept t (resetRead d t) := ⟨rfl, rfl, rfl, rfl, rfl, rfl, rfl, rfl⟩

theorem resetOne_cycleKept (t : State) (d : Nat) : CycleKept t (resetOne t d) := by
  unfold resetOne
  split
  · exact (resetRead_cycleKept d t).trans (pulse_cycleKept _ _)
  · exact resetRead_cycleKept d t

theorem resetsStep_cycleKept (s : State) : CycleKept s (resetsStep s) := foldl_cycleKept resetOne_cycleKept _ s

theorem autoArm_cycleKept (s : State) : CycleKept s (autoArm s) := by
  refine foldl_cycleKept (fun t f => ?_) _ s
  dsimp only
  split
  · exact arm_cycleKept _ _ _
  · exact .refl t

theorem edmStep_cycleKept (s : State) : CycleKept s (edmStep s) := by
  refine foldl_cycleKept (fun t f => ?_) _ s
  split
  · exact setFunc_cycleKept _ _ _
  · exact .refl t

def withPairs (s : State) (ps : List PairSt) : State := { s with safety := { s.safety with pairs := ps } }

/-- The reading of the pairs changes the pairs alone. -/
theorem pairsStep_eq (s : State) : ∃ ps, pairsStep s = withPairs s ps := by
  refine List.foldlRecOn (motive := fun t => ∃ ps, t = withPairs s ps) _ _ ⟨s.safety.pairs, rfl⟩ (fun t ht f _ => ?_)
  obtain ⟨ps, rfl⟩ := ht
  exact ⟨_, rfl⟩

/-! ### One function through the trips -/

theorem funcOf_setFunc {s : State} {f : Nat} (g : FuncSt → FuncSt) (h : f < s.safety.funcs.length) : funcOf (setFunc f g s) f = g (funcOf s f) :=
  nth_upd _ _ _ _ h

theorem funcOf_setFunc_other {s : State} {f x : Nat} (g : FuncSt → FuncSt) (h : f ≠ x) : funcOf (setFunc f g s) x = funcOf s x :=
  nth_upd_other _ _ _ _ _ h

theorem funcOf_event (c : Nat) (d : Bytes) (s : State) (g : Nat) : funcOf (event c d s) g = funcOf s g := by unfold funcOf; rw [event_safety]

theorem funcOf_trip {s : State} {f : Nat} (cause : Nat) (started : List Nat) (h : f < s.safety.funcs.length) :
    funcOf (trip f cause started s) f = trippedFunc s.ledger.opS (funcOf s f) := by
  unfold funcOf
  rw [trip_safety]
  exact nth_upd _ _ _ _ h

theorem funcOf_trip_other {s : State} {f x : Nat} (cause : Nat) (started : List Nat) (h : f ≠ x) :
    funcOf (trip f cause started s) x = funcOf s x := by
  unfold funcOf
  rw [trip_safety]
  exact nth_upd_other _ _ _ _ _ h

theorem funcOf_tripOne_other {t : State} {f x : Nat} (started : List Nat) (h : f ≠ x) : funcOf (tripOne started t f) x = funcOf t x := by
  unfold tripOne
  split
  · split
    · exact funcOf_trip_other _ _ h
    · rfl
  · rfl

theorem tripOne_idle {t : State} {f : Nat} (started : List Nat) (h : (funcOf t f).st ≠ 1 ∨ tripCause t f = none) : tripOne started t f = t := by
  unfold tripOne
  split
  case isTrue hst => rw [h.resolve_left (not_not_intro hst)]
  case isFalse => rfl

theorem tripOne_trips {t : State} {f : Nat} (started : List Nat) (hst : (funcOf t f).st = 1) (hcause : tripCause t f ≠ none) :
    funcOf (tripOne started t f) f = trippedFunc t.ledger.opS (funcOf t f) := by
  have hf : f < t.safety.funcs.length := func_lt_of_used (by rw [hst]; decide)
  unfold tripOne
  rw [if_pos hst]
  split
  · exact funcOf_trip _ _ hf
  · rename_i hnone
    exact absurd hnone hcause

/-- A function without a cause stays as it was. -/
theorem funcOf_tripAll_stays {s : State} {g : Nat} (started : List Nat) (h : (funcOf s g).st ≠ 1 ∨ tripCause s g = none) :
    funcOf (tripAll started s) g = funcOf s g := by
  refine (List.foldlRecOn (motive := fun t => CycleKept s t ∧ funcOf t g = funcOf s g) (funcIds s) (tripOne started) ⟨.refl s, rfl⟩ ?_).2
  rintro t ⟨hkept, hfunc⟩ f -
  refine ⟨hkept.trans (tripOne_cycleKept _ _ _), ?_⟩
  by_cases hf : f = g
  · subst hf
    rw [tripOne_idle started (by rwa [hfunc, hkept.tripCause_eq]), hfunc]
  · rw [funcOf_tripOne_other started hf, hfunc]

/-- An armed function with a cause trips once. -/
theorem funcOf_tripAll_trips {s : State} {g : Nat} (started : List Nat) (hst : (funcOf s g).st = 1) (hcause : tripCause s g ≠ none) :
    funcOf (tripAll started s) g = trippedFunc s.ledger.opS (funcOf s g) := by
  have hg : g ∈ funcIds s := List.mem_range.mpr (func_lt_of_used (by rw [hst]; decide))
  obtain ⟨before, after, hids⟩ := List.append_of_mem hg
  have hstep {t : State} {f : Nat} (hkept : CycleKept s t) (htripped : funcOf t g = trippedFunc s.ledger.opS (funcOf s g)) :
      funcOf (tripOne started t f) g = trippedFunc s.ledger.opS (funcOf s g) := by
    by_cases hf : f = g
    · subst hf
      rw [tripOne_idle started (.inl (by rw [htripped]; exact fun h => absurd (show (2 : Nat) = 1 from h) (by decide))), htripped]
    · rw [funcOf_tripOne_other started hf, htripped]
  have hfirst {t : State} (hkept : CycleKept s t) (h : funcOf t g = funcOf s g) :
      funcOf (tripOne started t g) g = trippedFunc s.ledger.opS (funcOf s g) := by
    rw [tripOne_trips started (by rw [h, hst]) (by rwa [hkept.tripCause_eq]), hkept.opS, h]
  have hbefore := List.foldlRecOn
    (motive := fun t => CycleKept s t ∧ (funcOf t g = funcOf s g ∨ funcOf t g = trippedFunc s.ledger.opS (funcOf s g)))
    before (tripOne started) ⟨.refl s, .inl rfl⟩ (by
      rintro t ⟨hkept, hfunc⟩ f -
      refine ⟨hkept.trans (tripOne_cycleKept _ _ _), ?_⟩
      rcases hfunc with hfunc | hfunc
      · by_cases hf : f = g
        · subst hf
          exact .inr (hfirst hkept hfunc)
        · exact .inl (by rw [funcOf_tripOne_other started hf, hfunc])
      · exact .inr (hstep hkept hfunc))
  rw [tripAll_eq, hids, List.foldl_append, List.foldl_cons]
  obtain ⟨hkept, hfunc⟩ := hbefore
  refine (List.foldlRecOn (motive := fun t => CycleKept s t ∧ funcOf t g = trippedFunc s.ledger.opS (funcOf s g)) after (tripOne started)
    ⟨hkept.trans (tripOne_cycleKept _ _ _), hfunc.elim (hfirst hkept) (hstep hkept)⟩ ?_).2
  rintro t ⟨hkept, hfunc⟩ f -
  exact ⟨hkept.trans (tripOne_cycleKept _ _ _), hstep hkept hfunc⟩

/-! ### Resets and automatic arming -/

/-- No valid pulse falls on an input that is not low (R449). -/
theorem resetStep_high {el : Nat} {r : Option Bool} (q : ResetIn) (h : r ≠ some false) : (resetStep el r q).2 = false := by
  unfold resetStep
  split <;> simp_all

/-- With no reset input low nothing is reset. -/
theorem funcOf_resetsStep_high {s : State} (h : ∀ y, rdInput s y ≠ some false) (g : Nat) : funcOf (resetsStep s) g = funcOf s g := by
  refine (List.foldlRecOn (motive := fun t => CycleKept s t ∧ funcOf t g = funcOf s g) (resetInputs s) resetOne ⟨.refl s, rfl⟩ ?_).2
  rintro t ⟨hkept, hfunc⟩ d -
  refine ⟨hkept.trans (resetOne_cycleKept _ _), ?_⟩
  unfold resetOne
  rw [resetStep_high _ (by rw [hkept.rdInput_eq]; exact h d)]
  exact hfunc

theorem edmStep_high {s : State} (h : ∀ y, rdInput s y ≠ some false) : edmStep s = s := by
  refine List.foldlRecOn (motive := fun t => t = s) (funcIds s) _ rfl ?_
  rintro t rfl f -
  exact if_neg (fun hd => h _ hd.2)

theorem edmStep_resets (s : State) : (edmStep s).safety.resets = s.safety.resets := by
  refine foldl_keeps (fun t => t.safety.resets) (fun t f => ?_) _ s
  split <;> rfl

theorem funcOf_edmStep_st (s : State) (g : Nat) : (funcOf (edmStep s) g).st = (funcOf s g).st := by
  refine List.foldlRecOn (motive := fun t => (funcOf t g).st = (funcOf s g).st) (funcIds s) _ rfl ?_
  intro t ht f _
  split
  · by_cases hg : g < t.safety.funcs.length
    · by_cases hf : f = g
      · subst hf
        rw [funcOf_setFunc _ hg]
        exact ht
      · rw [funcOf_setFunc_other _ hf]
        exact ht
    · rw [← ht]
      exact congrArg FuncSt.st ((nth_beyond _ _ _ (by rw [(setFunc_cycleKept f _ t).funcs]; exact Nat.le_of_not_lt hg)).trans
        (nth_beyond _ _ _ (Nat.le_of_not_lt hg)).symm)
  · exact ht

theorem funcOf_arm {s : State} {f : Nat} (auto : Bool) (h : f < s.safety.funcs.length) : (funcOf (arm f auto s) f).st = 1 := by
  unfold arm
  extract_lets c e
  rw [funcOf_event, funcOf_setFunc _ h]

theorem funcOf_arm_other {s : State} {f x : Nat} (auto : Bool) (h : f ≠ x) : funcOf (arm f auto s) x = funcOf s x := by
  unfold arm
  extract_lets c e
  rw [funcOf_event, funcOf_setFunc_other _ h]

/-- What is armed, or has tripped since the last start, AUTO_ARM leaves alone (R453). -/
theorem funcOf_autoArm {s : State} {g : Nat} (h : (funcOf s g).st < 2 ∨ (funcOf s g).autoUsed = true) : funcOf (autoArm s) g = funcOf s g := by
  refine List.foldlRecOn (motive := fun t => funcOf t g = funcOf s g) (funcIds s) _ rfl ?_
  intro t ht f _
  dsimp only
  split
  case isTrue hd =>
    obtain ⟨-, hunused, htwo, -⟩ := hd
    by_cases hf : f = g
    · subst hf
      rw [ht] at hunused htwo
      rcases h with h | h
      · exact absurd htwo (Nat.not_le_of_lt h)
      · rw [h] at hunused
        exact absurd hunused (by decide)
    · rw [funcOf_arm_other _ hf, ht]
  case isFalse => exact ht

theorem autoArm_none {s : State} (h : ∀ g, g < s.safety.funcs.length → (funcCfg s g).autoArm ≠ 1) : autoArm s = s := by
  refine List.foldlRecOn (motive := fun t => t = s) (funcIds s) _ rfl ?_
  rintro t rfl f hf
  exact if_neg (fun hd => h f (List.mem_range.mp hf) hd.1)

/-! ### One function in use -/

theorem filter_range_one {n d : Nat} (h : d < n) : (List.range n).filter (fun x => d == x) = [d] := by
  have hcount : List.count d (List.range n) = 1 := List.count_eq_one_of_mem List.nodup_range (List.mem_range.mpr h)
  have hfilter : (List.range n).filter (fun x => x == d) = List.replicate (List.count d (List.range n)) d := List.filter_beq d
  rw [hcount] at hfilter
  rw [← List.replicate_one (a := d), ← hfilter]
  exact List.filter_congr (fun x _ => Bool.beq_comm)

theorem resetInputs_one {s : State} {f : Image.Func} (h : s.cfg.img.safety.funcs = [f]) (hd : f.resetDi < 33) : resetInputs s = [f.resetDi] := by
  unfold resetInputs
  rw [h]
  simp only [List.any_cons, List.any_nil, Bool.or_false]
  exact filter_range_one hd

/-- A high pulse between 50 ms and 3.0 s on an input that was low for 50 ms is a valid one (R449). -/
theorem resetStep_pulse {el : Nat} {q : ResetIn} (hlevel : q.level = some true) (hlow : q.lowOk = true) (hstuck : q.stuck = false)
    (hshort : q.highEl + 50000000 ≤ el) (hlong : el ≤ q.highEl + 3000000000) : (resetStep el (some false) q).2 = true := by
  unfold resetStep
  rw [hlevel]
  simp [hlow, hstuck, hshort, hlong]

section
variable {s : State} {f : Image.Func} {q : FuncSt} (hcfg : s.cfg.img.safety.funcs = [f]) (hfuncs : s.safety.funcs.length = 1)
include hfuncs

theorem funcIds_one : funcIds s = [0] := by
  unfold funcIds
  rw [hfuncs]
  rfl

include hcfg

/-- A valid pulse on its input arms the one function, or leaves it tripped with the reset refused (R450). -/
theorem funcOf_pulse_one (hst : 2 ≤ (funcOf s 0).st) :
    (funcOf (pulse f.resetDi s) 0).st = if resetRefused s 0 = none then 1 else 3 := by
  have hreset : (funcCfg s 0).resetDi = f.resetDi := by
    unfold funcCfg
    rw [hcfg]
    rfl
  have hlen : 0 < s.safety.funcs.length := by
    rw [hfuncs]
    decide
  unfold pulse
  rw [funcIds_one hfuncs, List.foldl_cons, List.foldl_nil, if_pos ⟨hst, hreset⟩]
  split
  · rename_i hnone
    rw [if_pos hnone, funcOf_arm _ hlen]
  · rename_i k hsome
    rw [hsome, if_neg (Option.some_ne_none k), funcOf_event, funcOf_setFunc _ hlen]

theorem funcOf_resetsStep_one (hd : f.resetDi < 33) (hst : 2 ≤ (funcOf s 0).st) (hread : rdInput s f.resetDi = some false)
    (hpulse : (resetStep s.safety.rdEl (some false) (nth {} s.safety.resets f.resetDi)).2 = true) :
    (funcOf (resetsStep s) 0).st = if resetRefused s 0 = none then 1 else 3 := by
  have hkept := resetRead_cycleKept f.resetDi s
  rw [resetsStep_eq, resetInputs_one hcfg hd, List.foldl_cons, List.foldl_nil, resetOne, hread, if_pos hpulse,
    funcOf_pulse_one (s := resetRead f.resetDi s) hcfg hfuncs hst, hkept.resetRefused_eq]

theorem autoArm_one (hauto : f.autoArm = 0) : autoArm s = s := by
  refine autoArm_none (fun g hg => ?_)
  have hzero : g = 0 := by omega
  unfold funcCfg
  rw [hcfg, hzero]
  show f.autoArm ≠ 1
  rw [hauto]
  decide

end

/-! ### The cycle's end -/

/-- The functions of a cycle that read supplies `sup`, before its outputs are written. -/
def readSupply (sup : List Bool) (s : State) : State := { s with safety := { s.safety with supply := sup } }

/-- The state from which a cycle writes. -/
def cycleDecided (started : List Nat) (w : State) : State := autoArm (resetsStep (tripAll started w))

theorem cycleDecided_kept (started : List Nat) (w : State) : CycleKept w (cycleDecided started w) :=
  ((tripAll_cycleKept _ _).trans (resetsStep_cycleKept _)).trans (autoArm_cycleKept _)

/-- Outputs and telegrams written and the inputs read: the faults that follow apart, the state after a cycle. -/
def cycleWritten (s : State) : State := readInputs (writeTelegrams (writeOutputs s))

theorem safetyCycle_eq {a b : Nat} {started : List Nat} {s : State} (hrunning : s.safety.running = true) (hstopped : s.safety.stopped = false) :
    safetyCycle a b started s = safetyFaults (cycleWritten (cycleDecided started (edmStep (pairsStep
      (readSupply [nth false s.safety.supply 0 || decide (a < 16000), nth false s.safety.supply 1 || decide (b < 16000)] s))))) :=
  if_pos ⟨hrunning, hstopped⟩

theorem safetyCycle_idle {a b : Nat} {started : List Nat} {s : State} (h : s.safety.running = false ∨ s.safety.stopped = true) :
    safetyCycle a b started s = s := if_neg (fun hd => h.elim (fun hr => by simp [hr] at hd) (fun hs => by simp [hs] at hd))

theorem safetyFaults_rest (s : State) : rest (safetyFaults s) = rest s := by
  unfold safetyFaults
  extract_lets s1 s2
  rw [endCond_rest, show rest s2 = rest s1 from endCond_rest _ _ _, show rest s1 = rest s from endCond_rest _ _ _]

/-- The pair after the outputs are written and the inputs read. -/
theorem cycleWritten_safety (s : State) : (cycleWritten s).safety = { s.safety with
    so := (enumFrom 0 s.safety.so).map (fun p => { on := soLevel s p.1, refreshEl := elNs s })
    rdSx := s.safety.sx, rdDi := none :: (writeTelegrams (writeOutputs s)).field.di.map (·.level), rdEl := elNs s } := by
  have hgate := writeTelegrams_gatePart (writeOutputs s)
  simp only [gatePart, Prod.mk.injEq] at hgate
  obtain ⟨⟨-, hclk, -⟩, -, hsafety, -⟩ := hgate
  have hel : elNs (writeTelegrams (writeOutputs s)) = elNs s := congrArg Clock.el hclk
  unfold cycleWritten readInputs
  rw [hsafety, hel]
  rfl

theorem readInputs_parts (s : State) : (readInputs s).st = s.st ∧ (readInputs s).cfg = s.cfg ∧ (readInputs s).can = s.can := ⟨rfl, rfl, rfl⟩

theorem cycleWritten_parts (s : State) : (cycleWritten s).st = s.st ∧ (cycleWritten s).cfg = s.cfg ∧
    (cycleWritten s).can = (writeTelegrams (writeOutputs s)).can := by
  obtain ⟨hst, hcfg, hcan⟩ := readInputs_parts (writeTelegrams (writeOutputs s))
  have hgate := writeTelegrams_gatePart (writeOutputs s)
  simp only [gatePart, Prod.mk.injEq] at hgate
  obtain ⟨⟨hst', -, hcfg'⟩, -, -, -⟩ := hgate
  exact ⟨hst.trans hst', hcfg.trans hcfg', hcan⟩

theorem soLevel_congr {s t : State} {ch : Nat} (hst : t.st = s.st) (hcfg : t.cfg = s.cfg) (hstopped : t.safety.stopped = s.safety.stopped)
    (hfuncs : t.safety.funcs = s.safety.funcs) (hlatch : t.safety.latch = s.safety.latch) (hsupply : t.safety.supply = s.safety.supply) :
    soLevel t ch = soLevel s ch := by
  unfold soLevel pairArmed funcIds funcCfg funcOf
  rw [hst, hcfg, hstopped, hfuncs, hlatch, hsupply]

theorem safeStateData_congr {s t : State} (hcfg : t.cfg = s.cfg) (hfuncs : t.safety.funcs = s.safety.funcs)
    (hcount : t.safety.tripCount = s.safety.tripCount) : safeStateData t = safeStateData s := by
  unfold safeStateData sf1Mask funcIds funcCfg funcOf
  rw [hcfg, hfuncs, hcount]

/-- One controller's step of `writeTelegrams`. -/
def writeOne (d : Bytes) (t : State) (c : Nat) : State := if (ctrlCfg t c).safeLen ≠ 0 then setContent c (some d) t else t

theorem writeOne_kept (d : Bytes) (t : State) (c : Nat) : (writeOne d t c).cfg = t.cfg ∧ (writeOne d t c).can.length = t.can.length := by
  unfold writeOne
  split
  · exact ⟨rfl, setContent_length _ _ _⟩
  · exact ⟨rfl, rfl⟩

/-- Every controller of the list with a safety slot holds the telegram's data. -/
theorem foldl_writeOne_content {d : Bytes} {c : Nat} : ∀ (l : List Nat) (t : State), c < t.can.length → (ctrlCfg t c).safeLen ≠ 0 →
    c ∈ l ∨ (canOf t c).safe.content = some d → (canOf (l.foldl (writeOne d) t) c).safe.content = some d
  | [], _, _, _, h => h.resolve_left (by simp)
  | a :: r, t, hlen, hslot, h => by
    obtain ⟨hcfg, hcan⟩ := writeOne_kept d t a
    have hslot' : (ctrlCfg (writeOne d t a) c).safeLen ≠ 0 := by
      unfold ctrlCfg
      rw [hcfg]
      exact hslot
    refine foldl_writeOne_content r _ (by rwa [hcan]) hslot' ?_
    by_cases ha : a = c
    · subst ha
      refine .inr ?_
      rw [writeOne, if_pos hslot, content_setContent _ _ _ hlen, if_pos rfl]
    · refine h.imp (fun hmem => (List.mem_cons.mp hmem).resolve_left (Ne.symm ha)) (fun hcontent => ?_)
      unfold writeOne
      split
      · rw [content_setContent _ _ _ hlen, if_neg ha, hcontent]
      · exact hcontent

theorem writeTelegrams_content {s : State} {c : Nat} (hc : c < 4) (hlen : c < s.can.length) (hslot : (ctrlCfg s c).safeLen ≠ 0) :
    (canOf (writeTelegrams s) c).safe.content = some (safeStateData s) := by
  have heq : writeTelegrams s = [0, 1, 2, 3].foldl (writeOne (safeStateData s)) s := rfl
  rw [heq]
  refine foldl_writeOne_content [0, 1, 2, 3] s hlen hslot (.inl ?_)
  have hrange : c = 0 ∨ c = 1 ∨ c = 2 ∨ c = 3 := by omega
  simpa using hrange

theorem rest_parts (s : State) : (rest s).st = s.st ∧ (rest s).cfg = s.cfg ∧ (rest s).can = s.can ∧ (rest s).safety = s.safety :=
  ⟨rfl, rfl, rfl, rfl⟩

/-- The state, the image, the controllers and the pair after a settled cycle that decided `v`. -/
theorem cycle_ends {t v : State} (h : rest t = rest (cycleWritten v)) : t.st = v.st ∧ t.cfg = v.cfg ∧
    t.can = (writeTelegrams (writeOutputs v)).can ∧ t.safety = (cycleWritten v).safety := by
  obtain ⟨hst, hcfg, hcan, hsafety⟩ := rest_parts t
  obtain ⟨hst', hcfg', hcan', hsafety'⟩ := rest_parts (cycleWritten v)
  obtain ⟨hstw, hcfgw, hcanw⟩ := cycleWritten_parts v
  rw [h] at hst hcfg hcan hsafety
  exact ⟨(hst.symm.trans hst').trans hstw, (hcfg.symm.trans hcfg').trans hcfgw, (hcan.symm.trans hcan').trans hcanw, hsafety.symm.trans hsafety'⟩

section
variable {t v : State} (h : rest t = rest (cycleWritten v))
include h

/-- What the cycle's writing leaves of the functions and of what the outputs depend on. -/
theorem cycle_ends_pair : t.safety.funcs = v.safety.funcs ∧ t.safety.stopped = v.safety.stopped ∧ t.safety.latch = v.safety.latch ∧
    t.safety.supply = v.safety.supply ∧ t.safety.tripCount = v.safety.tripCount ∧ t.safety.rdSx = v.safety.sx ∧ t.safety.rdEl = elNs v := by
  obtain ⟨-, -, -, hsafety⟩ := cycle_ends h
  rw [hsafety, cycleWritten_safety]
  exact ⟨rfl, rfl, rfl, rfl, rfl, rfl, rfl⟩

theorem cycle_ends_func (g : Nat) : funcOf t g = funcOf v g := by
  unfold funcOf
  rw [(cycle_ends_pair h).1]

/-- Every safe output is at the level of R440 and refreshed. -/
theorem cycle_ends_outputs {ch : Nat} (hch : ch < v.safety.so.length) : nth {} t.safety.so ch = { on := soLevel t ch, refreshEl := elNs v } := by
  obtain ⟨hst, hcfg, -, hsafety⟩ := cycle_ends h
  obtain ⟨hfuncs, hstopped, hlatch, hsupply, -⟩ := cycle_ends_pair h
  rw [soLevel_congr hst hcfg hstopped hfuncs hlatch hsupply, hsafety, cycleWritten_safety]
  have hmap := nth_map_enumFrom ({} : SoChan) ({} : SoChan) (fun p => { on := soLevel v p.1, refreshEl := elNs v }) v.safety.so 0 ch hch
  rw [Nat.zero_add] at hmap
  exact hmap

theorem cycle_ends_telegrams {c : Nat} (hc : c < 4) (hlen : c < v.can.length) (hslot : (ctrlCfg v c).safeLen ≠ 0) :
    (canOf t c).safe.content = some (safeStateData t) := by
  obtain ⟨-, hcfg, hcan, -⟩ := cycle_ends h
  obtain ⟨hfuncs, -, -, -, hcount, -⟩ := cycle_ends_pair h
  have hdata : safeStateData t = safeStateData (writeOutputs v) := safeStateData_congr hcfg hfuncs hcount
  have hctrl : canOf t c = canOf (writeTelegrams (writeOutputs v)) c := by
    unfold canOf
    rw [hcan]
  rw [hdata, hctrl]
  exact writeTelegrams_content hc hlen hslot

end

/-- With no reset input low, a function armed before the decision is tripped by its cause and else stays armed. -/
theorem cycleDecided_high {w : State} {g : Nat} (started : List Nat) (hhigh : ∀ y, rdInput w y ≠ some false) (hst : (funcOf w g).st = 1) :
    (tripCause w g = none → funcOf (cycleDecided started w) g = funcOf w g) ∧
    (tripCause w g ≠ none → funcOf (cycleDecided started w) g = trippedFunc w.ledger.opS (funcOf w g)) := by
  have hreset := funcOf_resetsStep_high (s := tripAll started w) (fun y => by rw [(tripAll_cycleKept started w).rdInput_eq]; exact hhigh y) g
  constructor
  · intro hnone
    rw [funcOf_tripAll_stays started (.inr hnone)] at hreset
    rw [cycleDecided, funcOf_autoArm (.inl (by rw [hreset, hst]; decide)), hreset]
  · intro hcause
    rw [funcOf_tripAll_trips started hst hcause] at hreset
    rw [cycleDecided, funcOf_autoArm (.inr (by rw [hreset]; rfl)), hreset]

/-- A valid pulse decides the one function in use, which was tripped. -/
theorem cycleDecided_one {w : State} {f : Image.Func} (started : List Nat) (hcfg : w.cfg.img.safety.funcs = [f]) (hfuncs : w.safety.funcs.length = 1)
    (hst : 2 ≤ (funcOf w 0).st) (hauto : f.autoArm = 0) (hd : f.resetDi < 33) (hread : rdInput w f.resetDi = some false)
    (hpulse : (resetStep w.safety.rdEl (some false) (nth {} w.safety.resets f.resetDi)).2 = true) :
    (funcOf (cycleDecided started w) 0).st = if resetRefused w 0 = none then 1 else 3 := by
  have hnot : (funcOf w 0).st ≠ 1 := fun h => by
    rw [h] at hst
    exact absurd hst (by decide)
  have htrips : tripAll started w = w := by
    rw [tripAll_eq, funcIds_one hfuncs, List.foldl_cons, List.foldl_nil, tripOne_idle started (.inl hnot)]
  have hkept := resetsStep_cycleKept w
  rw [cycleDecided, htrips, autoArm_one (f := f) (by rw [hkept.cfg, hcfg]) (by rw [hkept.funcs, hfuncs]) hauto]
  exact funcOf_resetsStep_one hcfg hfuncs hd hst hread hpulse

/-- Settles O55: a cycle keeps what its trips and resets read, and each function is followed through them. -/
theorem safetyCycleTripsArmsAndWrites : Obligations.SafetyCycleTripsArmsAndWrites := by
  intro dt a b d sl f q s u x w
  refine ⟨fun hrunning hstopped => ?runs, fun h => gives_of_settle rfl (safetyCycle_idle h)⟩
  obtain ⟨sup, hsup⟩ : ∃ sup, sup = [nth false u.safety.supply 0 || decide (a < 16000), nth false u.safety.supply 1 || decide (b < 16000)] := ⟨_, rfl⟩
  have hw : w = edmStep (pairsStep (readSupply sup u)) := by
    rw [hsup]
    rfl
  clear_value w
  obtain ⟨ps, hps⟩ := pairsStep_eq (readSupply sup u)
  rw [hps] at hw
  have hkeptw : CycleKept (withPairs (readSupply sup u) ps) w := hw ▸ edmStep_cycleKept _
  have hkept := hkeptw.trans (cycleDecided_kept sl w)
  have hrest : rest (settle (safetyCycle a b sl u)) = rest (cycleWritten (cycleDecided sl w)) := by
    rw [settle_rest, safetyCycle_eq hrunning hstopped, safetyFaults_rest, ← hsup, hps, hw]
  refine ⟨_, rfl, ?_⟩
  obtain ⟨t, ht⟩ : ∃ t, t = settle (safetyCycle a b sl u) := ⟨_, rfl⟩
  rw [← ht] at hrest ⊢
  obtain ⟨hst, -, -, -⟩ := cycle_ends hrest
  obtain ⟨-, -, hlatch, hsupply, -, hrdSx, hrdEl⟩ := cycle_ends_pair hrest
  have hel : elNs (cycleDecided sl w) = elNs u := congrArg Clock.el hkept.clk
  have hread (y : Nat) : rdInput w y = rdInput u y := hkeptw.rdInput_eq y
  have hfuncw (g : Nat) : (funcOf w g).st = (funcOf u g).st := by
    rw [hw]
    exact funcOf_edmStep_st _ g
  refine ⟨fun ch hch => ?outputs, fun c hc hlen hslot => ?telegrams, (hsupply.trans hkept.supply).trans hsup, hrdSx.trans hkept.sx,
    hrdEl.trans hel, hlatch.trans hkept.latch, hst.trans hkept.st, fun hhigh g hg => ?trips, ?pulse⟩
  case outputs =>
    have hso := cycle_ends_outputs hrest (ch := ch) (by rw [hkept.so]; exact hch)
    rwa [hel] at hso
  case telegrams =>
    refine cycle_ends_telegrams hrest hc (by rw [hkept.can]; exact hlen) ?_
    unfold ctrlCfg
    rw [hkept.cfg]
    exact hslot
  case trips =>
    have hhighw : ∀ y, rdInput w y ≠ some false := fun y => (hread y).symm ▸ hhigh y
    obtain ⟨hstays, htrips⟩ := cycleDecided_high (w := w) (g := g) sl hhighw ((hfuncw g).trans hg)
    refine ⟨fun hnone => ?_, fun hcause => ?_⟩
    · rw [cycle_ends_func hrest, hstays hnone, hfuncw, hg]
    · rw [cycle_ends_func hrest, htrips hcause]
      exact ⟨rfl, hkeptw.opS⟩
  case pulse =>
    intro hcfg hfuncs hq hauto hdi hd hlow hlevel hlowOk hstuck hshort hlong
    have hqu : (funcOf u 0).st = q.st := by
      unfold funcOf
      rw [hfuncs]
      rfl
    have hresets : w.safety.resets = u.safety.resets := by
      rw [hw]
      exact edmStep_resets _
    rw [cycle_ends_func hrest]
    subst hdi
    refine cycleDecided_one sl (by rw [hkeptw.cfg]; exact hcfg) ?_ (by rw [hfuncw, hqu]; exact hq) hauto hd (by rw [hread, hlow]) ?_
    · rw [hkeptw.funcs]
      show u.safety.funcs.length = 1
      rw [hfuncs]
      rfl
    · rw [hresets, hkeptw.rdEl]
      exact resetStep_pulse hlevel hlowOk hstuck hshort hlong

end Sys2Proof.Machine
end

section
/-! PROPERTY. INPUT_WINDOW_END, FIELD_SUPPLY_RECOVERED, OUTPUT_OVERLOAD, OUTPUT_OVERHEAT, GROUP_OVERCURRENT and ECC_RATE_WINDOW (18_field_io R469
to R481; 19_faults R502; notes/assumptions/19.md). -/

namespace Sys2Proof.Machine

open Sys2Proof.Safety

/-! ### What raises leave of the fault state -/

/-- The fault state without its sources, classes and block resets: what no raise writes (19 R490, R494). -/
def faultsFixed (f : FaultsSt) : FaultsSt := { f with src := [], cls := [], blkReset := [], blkWork := [], blkBy := [], mustReset := false }

theorem surrender_faultsFixed (s : State) : faultsFixed (surrender s).faults = faultsFixed s.faults := by
  have hbefore : (if s.lock.held then evRaw 0x0C03 (u8 0) s else s).faults = s.faults := by
    split
    · exact recordRaw_faults s _
    · rfl
  unfold surrender demandReset
  show faultsFixed (releaseBetweenTicks _).faults = _
  rw [releaseBetweenTicks_faults, hbefore]

theorem directReact_faultsFixed (c : Nat) (bs : List Block) (s : State) : faultsFixed (directReact c bs s).faults = faultsFixed s.faults := by
  unfold directReact
  split
  · refine foldl_keeps (fun t => faultsFixed t.faults) (fun t b => ?_) bs s
    unfold resetAtRaise
    split
    · exact surrender_faultsFixed t
    · rfl
  · split
    · exact surrender_faultsFixed s
    · rfl

theorem raiseCore_faultsFixed (c : Nat) (o : Bool) (bs : List Block) (s : State) : faultsFixed (raiseCore c o bs s).faults = faultsFixed s.faults := by
  unfold raiseCore
  split
  · rfl
  · extract_lets s1 s2 s3
    have hs1 : s1.faults = s.faults := recordRaw_faults s _
    have hs2 : s2.faults = s.faults := by
      unfold s2
      split
      · exact (recordRaw_faults s1 _).trans hs1
      · exact hs1
    rw [directReact_faultsFixed, assertFlt_faults]
    show faultsFixed s2.faults = _
    rw [hs2]

theorem lossCheck_faultsFixed (n : Nat) (s : State) : faultsFixed (lossCheck n s).faults = faultsFixed s.faults := by
  unfold lossCheck
  split
  · exact raiseCore_faultsFixed _ _ _ s
  · rfl

theorem event_faultsFixed (c : Nat) (d : Bytes) (s : State) : faultsFixed (event c d s).faults = faultsFixed s.faults := by
  unfold event
  rw [lossCheck_faultsFixed]
  exact congrArg faultsFixed (recordRaw_faults s _)

theorem faultSet_faultsFixed (c : Nat) (on : Bool) (bs : List Block) (s : State) : faultsFixed (faultSet c on bs s).faults = faultsFixed s.faults := by
  unfold faultSet
  split
  · split
    · rfl
    · rw [lossCheck_faultsFixed, raiseCore_faultsFixed]
  · split <;> rfl

theorem faultSet_degraded (c : Nat) (on : Bool) (bs : List Block) (s : State) : (faultSet c on bs s).faults.degraded = s.faults.degraded := by
  have h := congrArg FaultsSt.degraded (faultSet_faultsFixed c on bs s)
  exact h

theorem faultCond_degraded (c : Nat) (on : Bool) (s : State) : (faultCond c on s).faults.degraded = s.faults.degraded := faultSet_degraded _ _ _ _

theorem event_degraded (c : Nat) (d : Bytes) (s : State) : (event c d s).faults.degraded = s.faults.degraded := by
  have h := congrArg FaultsSt.degraded (event_faultsFixed c d s)
  exact h

theorem degrade_degraded (bit : Nat) (s : State) : (degrade bit s).faults.degraded = true := by
  unfold degrade
  extract_lets seen faults field s1
  split
  · rfl
  · exact event_degraded _ _ s1

theorem degrade_keeps_active {bit c : Nat} {s : State} (h : faultActive s c = true) : faultActive (degrade bit s) c = true := by
  unfold degrade
  extract_lets seen faults field s1
  have hs1 : faultActive s1 c = true := h
  split
  · exact hs1
  · exact event_keeps_active hs1

/-! ### The field's inputs, outputs and supplies -/

theorem nth_mem {α : Type} (d : α) : ∀ (l : List α) (i : Nat), i < l.length → nth d l i ∈ l
  | [], _, h => absurd h (by simp)
  | x :: r, 0, _ => List.mem_cons_self ..
  | x :: r, i + 1, h => List.mem_cons_of_mem x (nth_mem d r i (Nat.lt_of_succ_lt_succ h))

/-- The state, time, the image, and the field's inputs, outputs and supplies: no raise writes them. -/
def fieldPart (s : State) : (ModState × Clock × CfgSt) × List InSt × List DoSt × List SupplySt :=
  ((s.st, s.clk, s.cfg), s.field.di, s.field.dout, s.field.supply)

theorem fieldPart_of_rest {s t : State} (h : rest t = rest s) : fieldPart t = fieldPart s := by
  have e : fieldPart (rest t) = fieldPart (rest s) := congrArg fieldPart h
  exact e

theorem fieldPart_commitNative (e : Image.Entry) (v : Int) (stamp q : Nat) (s : State) : fieldPart (commitNative e v stamp q s) = fieldPart s := by
  unfold commitNative
  split
  · split <;> rfl
  · rfl

theorem fieldPart_commitInput (n : Nat) (s : State) : fieldPart (commitInput n s) = fieldPart s := by
  unfold commitInput
  extract_lets i
  split
  · rfl
  · split
    · exact foldl_keeps fieldPart (fun t e => fieldPart_commitNative _ _ _ _ t) _ s
    · rfl

/-- Every digital input at a window's end: its sample taken, or no level (R469, R473). -/
def windowedDi (w : WindowIn) (s : State) : List InSt := (enumFrom 1 s.field.di).map (fun p =>
  if diSampling s p.1 then window (diBlock s p.1) (nth 0 w.di (p.1 - 1)) p.2 else ({} : InSt))

theorem fieldPart_windowDi (w : WindowIn) (s : State) :
    fieldPart (windowDi w s) = ((s.st, s.clk, s.cfg), windowedDi w s, s.field.dout, s.field.supply) := by
  unfold windowDi
  extract_lets di field s1 s2
  rw [fieldPart_of_rest (faultCond_rest s2 _ _)]
  exact foldl_keeps fieldPart (fun t k => fieldPart_commitInput _ t) _ s1

theorem fieldPart_windowSx (w : WindowIn) (s : State) : fieldPart (windowSx w s) = fieldPart s := by
  unfold windowSx
  split
  · extract_lets sx pair s1
    exact (fieldPart_of_rest (faultCond_rest s1 _ _)).trans rfl
  · rfl

theorem supplyFaults_rest (s : State) : rest (supplyFaults s) = rest s := by
  unfold supplyFaults
  extract_lets any
  rw [faultCond_rest, faultCond_rest, faultCond_rest]

/-! ### A group's staged switch-off -/

/-- The group's latch closes (R481). -/
def latchedSupply (q : SupplySt) : SupplySt := { q with latched := true, armLow := false, armed := false }

/-- One channel's turn set. -/
def stageOne (s t : State) (c : Nat) : State := { t with field := { t.field with dout := upd (stageOff s c) t.field.dout c } }

theorem doOf_stageOne (s t : State) (c x : Nat) : doOf (stageOne s t c) x = if c = x then stageOff s c (doOf t x) else doOf t x := by
  split
  case isTrue h =>
    subst h
    by_cases hc : c < t.field.dout.length
    · exact nth_upd _ _ _ _ hc
    · have hold : doOf t c = {} := nth_beyond _ _ _ (Nat.le_of_not_lt hc)
      rw [hold]
      exact nth_beyond _ _ _ (by rw [stageOne]; simpa [upd_length] using hc)
  case isFalse h => exact nth_upd_other _ _ _ _ _ h

theorem doOf_foldl_stageOne (s : State) (x : Nat) : ∀ (l : List Nat) (t : State), l.Nodup →
    doOf (l.foldl (stageOne s) t) x = if x ∈ l then stageOff s x (doOf t x) else doOf t x
  | [], _, _ => by simp
  | c :: r, t, hnodup => by
    obtain ⟨hc, hr⟩ := List.nodup_cons.mp hnodup
    rw [List.foldl_cons, doOf_foldl_stageOne s x r _ hr, doOf_stageOne]
    by_cases hx : c = x
    · subst hx
      rw [if_neg hc, if_pos rfl, if_pos (List.mem_cons_self ..)]
    · rw [if_neg hx]
      simp only [List.mem_cons, Ne.symm hx, false_or]

theorem mem_groupChans (g c : Nat) : c ∈ groupChans g ↔ ∃ k, k < 12 ∧ k + 12 * g = c := by simp [groupChans]

theorem groupChans_nodup (g : Nat) : (groupChans g).Nodup := List.nodup_range.map (fun a b h => by simpa using h)

/-- A group switched off, before its event and its fault. -/
def groupStaged (g : Nat) (s : State) : State := (groupChans g).foldl (stageOne s) (setSupply g latchedSupply s)

theorem groupOff_eq (g : Nat) (s : State) : groupOff g s = degrade 3 (faultCond 0x1216 true
    (event 0x1201 (u8 1 ++ u8 (g + 1) ++ u16 (Nat.min 0xFFFF (supplyOf s g).mv)) (groupStaged g s))) := rfl

theorem fieldPart_groupOff (g : Nat) (s : State) : fieldPart (groupOff g s) = fieldPart (groupStaged g s) := by
  rw [groupOff_eq]
  exact fieldPart_of_rest (by rw [degrade_rest, faultCond_rest, event_rest])

/-- What the staging of a group leaves alone. -/
def stagePart (s : State) : (ModState × Clock × CfgSt) × List InSt × List SupplySt := ((s.st, s.clk, s.cfg), s.field.di, s.field.supply)

theorem stagePart_groupStaged (g : Nat) (s : State) :
    stagePart (groupStaged g s) = ((s.st, s.clk, s.cfg), s.field.di, upd latchedSupply s.field.supply g) := by
  refine foldl_keeps stagePart (fun t c => ?_) (groupChans g) (setSupply g latchedSupply s)
  rfl

theorem doOf_congr {s t : State} (h : fieldPart t = fieldPart s) (c : Nat) : doOf t c = doOf s c :=
  congrArg (fun p : (ModState × Clock × CfgSt) × List InSt × List DoSt × List SupplySt => nth ({} : DoSt) p.2.2.1 c) h

theorem supplyOf_congr {s t : State} (h : fieldPart t = fieldPart s) (i : Nat) : supplyOf t i = supplyOf s i :=
  congrArg (fun p : (ModState × Clock × CfgSt) × List InSt × List DoSt × List SupplySt => nth ({} : SupplySt) p.2.2.2 i) h

/-- A group's channels take their turns; the other group's stay. -/
theorem doOf_groupOff (g c : Nat) (s : State) : doOf (groupOff g s) c = if c ∈ groupChans g then stageOff s c (doOf s c) else doOf s c := by
  rw [doOf_congr (fieldPart_groupOff g s), groupStaged, doOf_foldl_stageOne _ _ _ _ (groupChans_nodup g)]
  rfl

theorem groupOff_parts (g : Nat) (s : State) : (groupOff g s).st = s.st ∧ (groupOff g s).clk = s.clk ∧ (groupOff g s).cfg = s.cfg ∧
    (groupOff g s).field.di = s.field.di ∧ (groupOff g s).field.supply = upd latchedSupply s.field.supply g := by
  have hfield := fieldPart_groupOff g s
  have hstage := stagePart_groupStaged g s
  simp only [fieldPart, stagePart, Prod.mk.injEq] at hfield hstage
  obtain ⟨⟨hst, hclk, hcfg⟩, hdi, -, hsupply⟩ := hfield
  obtain ⟨⟨hst', hclk', hcfg'⟩, hdi', hsupply'⟩ := hstage
  exact ⟨hst.trans hst', hclk.trans hclk', hcfg.trans hcfg', hdi.trans hdi', hsupply.trans hsupply'⟩

/-- A group whose supply is below 12.0 V is switched off, once (R481). -/
def offBelow (g : Nat) (t : State) : State := if nth false (supplyOf t g).cond 2 ∧ (supplyOf t g).latched = false then groupOff g t else t

theorem offBelow_parts (g : Nat) (s : State) : (offBelow g s).st = s.st ∧ (offBelow g s).clk = s.clk ∧ (offBelow g s).cfg = s.cfg ∧
    (offBelow g s).field.di = s.field.di ∧ (offBelow g s).field.supply.length = s.field.supply.length := by
  unfold offBelow
  split
  · obtain ⟨hst, hclk, hcfg, hdi, hsupply⟩ := groupOff_parts g s
    exact ⟨hst, hclk, hcfg, hdi, by rw [hsupply, upd_length]⟩
  · exact ⟨rfl, rfl, rfl, rfl, rfl⟩

theorem offBelow_supply_other {g i : Nat} (s : State) (h : g ≠ i) : supplyOf (offBelow g s) i = supplyOf s i := by
  unfold offBelow
  split
  · unfold supplyOf
    rw [(groupOff_parts g s).2.2.2.2]
    exact nth_upd_other _ _ _ _ _ h
  · rfl

theorem offBelow_do_other {g i k : Nat} (s : State) (h : g ≠ i) (hk : k < 12) : doOf (offBelow g s) (k + 12 * i) = doOf s (k + 12 * i) := by
  unfold offBelow
  split
  · rw [doOf_groupOff, if_neg]
    rw [mem_groupChans]
    rintro ⟨j, hj, heq⟩
    omega
  · rfl

/-- A measurement of the group's own supply stands through its switch-off. -/
theorem offBelow_measured {g : Nat} (s : State) (hg : g < s.field.supply.length) :
    (supplyOf (offBelow g s) g).mv = (supplyOf s g).mv ∧ (supplyOf (offBelow g s) g).below = (supplyOf s g).below := by
  unfold offBelow
  split
  · unfold supplyOf
    rw [(groupOff_parts g s).2.2.2.2, nth_upd _ _ _ _ hg]
    exact ⟨rfl, rfl⟩
  · exact ⟨rfl, rfl⟩

section
variable {g : Nat} {s : State} (hlow : nth false (supplyOf s g).cond 2 = true) (hunlatched : (supplyOf s g).latched = false)
include hlow hunlatched

theorem offBelow_off : offBelow g s = groupOff g s := if_pos ⟨hlow, hunlatched⟩

theorem offBelow_latches (hg : g < s.field.supply.length) : (supplyOf (offBelow g s) g).latched = true := by
  unfold supplyOf
  rw [offBelow_off hlow hunlatched, (groupOff_parts g s).2.2.2.2, nth_upd _ _ _ _ hg]
  rfl

theorem offBelow_stages {k : Nat} (hk : k < 12) : doOf (offBelow g s) (k + 12 * g) = stageOff s (k + 12 * g) (doOf s (k + 12 * g)) := by
  rw [offBelow_off hlow hunlatched, doOf_groupOff, if_pos ((mem_groupChans _ _).mpr ⟨k, hk, rfl⟩)]

theorem offBelow_degrades : (offBelow g s).faults.degraded = true := by
  rw [offBelow_off hlow hunlatched, groupOff_eq]
  exact degrade_degraded _ _

end

theorem offBelow_degraded {g : Nat} {s : State} (h : s.faults.degraded = true) : (offBelow g s).faults.degraded = true := by
  unfold offBelow
  split
  · rw [groupOff_eq]
    exact degrade_degraded _ _
  · exact h

theorem supplyFaults_degraded (s : State) : (supplyFaults s).faults.degraded = s.faults.degraded := by
  unfold supplyFaults
  extract_lets any
  rw [faultCond_degraded, faultCond_degraded, faultCond_degraded]

theorem linkFaults_degraded (s : State) : (linkFaults s).faults.degraded = s.faults.degraded := by
  unfold linkFaults
  rw [faultCond_degraded, faultCond_degraded, faultCond_degraded]

/-- A latched group makes 0x1216 active (Table 18-7). -/
theorem supplyFaults_latched {s : State} {i : Nat} (hon : s.st ≠ .off) (hi : i < s.field.supply.length) (h : (supplyOf s i).latched = true) :
    faultActive (supplyFaults s) 0x1216 = true := by
  have hany : s.field.supply.any (·.latched) = true :=
    List.any_eq_true.mpr ⟨supplyOf s i, nth_mem _ _ _ hi, h⟩
  unfold supplyFaults
  extract_lets any
  rw [show any (·.latched) = true from hany]
  exact faultCond_active _ _ (by rwa [faultCond_st, faultCond_st])

theorem linkFaults_keeps_1216 {s : State} (h : faultActive s 0x1216 = true) : faultActive (linkFaults s) 0x1216 = true := by
  unfold linkFaults faultCond
  exact faultSet_keeps_other (by decide) (faultSet_keeps_other (by decide) (faultSet_keeps_other (by decide) h))

/-! ### The window's end -/

/-- Both supplies measured (R480). -/
def supplyMeasured (w : WindowIn) (s : State) : State :=
  setSupply 1 (measureSupply (elNs s) w.fs2Mv) (setSupply 0 (measureSupply (elNs s) w.fs1Mv) s)

theorem windowSupply_powered {w : WindowIn} {s : State} (h : ioPowered s.st = true) :
    windowSupply w s = supplyFaults (offBelow 1 (offBelow 0 (supplyMeasured w s))) := if_pos h

theorem windowSupply_unpowered {w : WindowIn} {s : State} (h : ioPowered s.st = false) : windowSupply w s = s := if_neg (by simp [h])

theorem supplyOf_measured {w : WindowIn} {s : State} {i : Nat} (h2 : i < 2) (hi : i < s.field.supply.length) :
    supplyOf (supplyMeasured w s) i = measureSupply (elNs s) (if i = 0 then w.fs1Mv else w.fs2Mv) (supplyOf s i) := by
  have hcase : i = 0 ∨ i = 1 := by omega
  unfold supplyOf supplyMeasured setSupply
  rcases hcase with rfl | rfl
  · rw [if_pos rfl]
    exact (nth_upd_other _ _ _ _ _ (by decide)).trans (nth_upd _ _ _ _ hi)
  · rw [if_neg (by decide)]
    refine (nth_upd _ _ _ _ (by rw [upd_length]; exact hi)).trans (congrArg _ ?_)
    exact nth_upd_other _ _ _ _ _ (by decide)

theorem inputWindow_on {w : WindowIn} {s : State} (h : s.st ≠ .off) :
    inputWindow w s = linkFaults (windowSupply w (windowSx w (windowDi w s))) := by
  unfold inputWindow
  split
  · rename_i hoff
    exact absurd hoff h
  · rfl

theorem inputWindow_off {w : WindowIn} {s : State} (h : s.st = .off) : inputWindow w s = s := by
  unfold inputWindow
  rw [h]

theorem windowSupply_parts (w : WindowIn) (s : State) : (windowSupply w s).st = s.st ∧ (windowSupply w s).field.di = s.field.di := by
  cases h : ioPowered s.st with
  | false =>
    rw [windowSupply_unpowered h]
    exact ⟨rfl, rfl⟩
  | true =>
    have hparts := fieldPart_of_rest (supplyFaults_rest (offBelow 1 (offBelow 0 (supplyMeasured w s))))
    simp only [fieldPart, Prod.mk.injEq] at hparts
    obtain ⟨⟨hst, -, -⟩, hdi, -, -⟩ := hparts
    obtain ⟨hst0, -, -, hdi0, -⟩ := offBelow_parts 0 (supplyMeasured w s)
    obtain ⟨hst1, -, -, hdi1, -⟩ := offBelow_parts 1 (offBelow 0 (supplyMeasured w s))
    rw [windowSupply_powered h]
    exact ⟨(hst.trans hst1).trans hst0, (hdi.trans hdi1).trans hdi0⟩

/-- The state whose supplies a window measures, its inputs taken. -/
theorem window_before (w : WindowIn) (s : State) : (windowSx w (windowDi w s)).st = s.st ∧ (windowSx w (windowDi w s)).clk = s.clk ∧
    (windowSx w (windowDi w s)).cfg = s.cfg ∧ (windowSx w (windowDi w s)).field.di = windowedDi w s ∧
    (windowSx w (windowDi w s)).field.dout = s.field.dout ∧ (windowSx w (windowDi w s)).field.supply = s.field.supply := by
  have h := (fieldPart_windowSx w (windowDi w s)).trans (fieldPart_windowDi w s)
  simp only [fieldPart, Prod.mk.injEq] at h
  obtain ⟨⟨hst, hclk, hcfg⟩, hdi, hdout, hsupply⟩ := h
  exact ⟨hst, hclk, hcfg, hdi, hdout, hsupply⟩

theorem inputWindow_parts {w : WindowIn} {s : State} (h : s.st ≠ .off) :
    (inputWindow w s).st = s.st ∧ (inputWindow w s).field.di = windowedDi w s := by
  have hparts := fieldPart_of_rest (linkFaults_rest (windowSupply w (windowSx w (windowDi w s))))
  simp only [fieldPart, Prod.mk.injEq] at hparts
  obtain ⟨⟨hst, -, -⟩, hdi, -, -⟩ := hparts
  obtain ⟨hstw, hdiw⟩ := windowSupply_parts w (windowSx w (windowDi w s))
  obtain ⟨hst0, -, -, hdi0, -, -⟩ := window_before w s
  rw [inputWindow_on h]
  exact ⟨(hst.trans hstw).trans hst0, (hdi.trans hdiw).trans hdi0⟩

/-- One input at a window's end. -/
theorem inputWindow_di {w : WindowIn} {s : State} {n : Nat} (h : s.st ≠ .off) (h1 : 1 ≤ n) (hn : n ≤ s.field.di.length) :
    nth {} (inputWindow w s).field.di (n - 1) =
      if diSampling s n then window (diBlock s n) (nth 0 w.di (n - 1)) (nth {} s.field.di (n - 1)) else ({} : InSt) := by
  have hmap := nth_map_enumFrom ({} : InSt) ({} : InSt)
    (fun p => if diSampling s p.1 then window (diBlock s p.1) (nth 0 w.di (p.1 - 1)) p.2 else ({} : InSt)) s.field.di 1 (n - 1) (by omega)
  rw [show 1 + (n - 1) = n by omega] at hmap
  rw [(inputWindow_parts h).2]
  exact hmap

/-- The supplies and outputs of an unpowered field stand (R480). -/
theorem inputWindow_unpowered {w : WindowIn} {s : State} (h : s.st ≠ .off) (hio : ioPowered s.st = false) :
    (inputWindow w s).field.supply = s.field.supply ∧ (inputWindow w s).field.dout = s.field.dout := by
  have hparts := fieldPart_of_rest (linkFaults_rest (windowSx w (windowDi w s)))
  simp only [fieldPart, Prod.mk.injEq] at hparts
  obtain ⟨-, -, hdout, hsupply⟩ := hparts
  obtain ⟨hst, -, -, -, hdout0, hsupply0⟩ := window_before w s
  have hio' : ioPowered (windowSx w (windowDi w s)).st = false := by rw [hst, hio]
  rw [inputWindow_on h, windowSupply_unpowered hio']
  exact ⟨hsupply.trans hsupply0, hdout.trans hdout0⟩

/-- The faults of supplies and links at a window's end write nothing else. -/
theorem windowFaults_rest (s : State) : rest (linkFaults (supplyFaults s)) = rest s := by rw [linkFaults_rest, supplyFaults_rest]

/-- The window's supplies, before the faults that follow. -/
def windowMeasured (w : WindowIn) (s : State) : State := supplyMeasured w (windowSx w (windowDi w s))

theorem inputWindow_powered {w : WindowIn} {s : State} (h : s.st ≠ .off) (hio : ioPowered s.st = true) :
    inputWindow w s = linkFaults (supplyFaults (offBelow 1 (offBelow 0 (windowMeasured w s)))) := by
  have hio' : ioPowered (windowSx w (windowDi w s)).st = true := by rw [(window_before w s).1, hio]
  rw [inputWindow_on h, windowSupply_powered hio', windowMeasured]

/-- A supply after a window: the measurement, through both groups' switch-off. -/
theorem supplyOf_inputWindow {w : WindowIn} {s : State} (h : s.st ≠ .off) (hio : ioPowered s.st = true) (i : Nat) :
    supplyOf (inputWindow w s) i = supplyOf (offBelow 1 (offBelow 0 (windowMeasured w s))) i := by
  rw [inputWindow_powered h hio]
  exact supplyOf_congr (fieldPart_of_rest (windowFaults_rest _)) i

theorem doOf_inputWindow {w : WindowIn} {s : State} (h : s.st ≠ .off) (hio : ioPowered s.st = true) (c : Nat) :
    doOf (inputWindow w s) c = doOf (offBelow 1 (offBelow 0 (windowMeasured w s))) c := by
  rw [inputWindow_powered h hio]
  exact doOf_congr (fieldPart_of_rest (windowFaults_rest _)) c

/-- What the two groups' switch-offs leave of group `i`: its own alone writes it. -/
theorem offBelow_both {s : State} {i : Nat} (h : i < 2) : ∃ v, supplyOf v i = supplyOf s i ∧ v.field.supply.length = s.field.supply.length ∧
    v.clk = s.clk ∧ v.cfg = s.cfg ∧ v.st = s.st ∧ (∀ k, k < 12 → doOf v (k + 12 * i) = doOf s (k + 12 * i)) ∧
    supplyOf (offBelow 1 (offBelow 0 s)) i = supplyOf (offBelow i v) i ∧
    (∀ k, k < 12 → doOf (offBelow 1 (offBelow 0 s)) (k + 12 * i) = doOf (offBelow i v) (k + 12 * i)) ∧
    ((offBelow i v).faults.degraded = true → (offBelow 1 (offBelow 0 s)).faults.degraded = true) := by
  have hcase : i = 0 ∨ i = 1 := by omega
  rcases hcase with rfl | rfl
  · exact ⟨s, rfl, rfl, rfl, rfl, rfl, fun k _ => rfl, offBelow_supply_other _ (by decide), fun k hk => offBelow_do_other _ (by decide) hk,
      offBelow_degraded⟩
  · obtain ⟨hst, hclk, hcfg, -, hlen⟩ := offBelow_parts 0 s
    exact ⟨offBelow 0 s, offBelow_supply_other _ (by decide), hlen, hclk, hcfg, hst, fun k hk => offBelow_do_other _ (by decide) hk, rfl,
      fun k _ => rfl, id⟩

/-- The state in which a window has measured the supplies. -/
theorem windowMeasured_parts (w : WindowIn) (s : State) : (windowMeasured w s).st = s.st ∧ (windowMeasured w s).clk = s.clk ∧
    (windowMeasured w s).cfg = s.cfg ∧ (windowMeasured w s).field.dout = s.field.dout ∧
    (windowMeasured w s).field.supply.length = s.field.supply.length := by
  obtain ⟨hst, hclk, hcfg, -, hdout, hsupply⟩ := window_before w s
  obtain ⟨v, hv⟩ : ∃ v, v = windowSx w (windowDi w s) := ⟨_, rfl⟩
  unfold windowMeasured
  rw [← hv] at hst hclk hcfg hdout hsupply ⊢
  refine ⟨hst, hclk, hcfg, hdout, ?_⟩
  rw [← hsupply]
  simp [supplyMeasured, upd_length]

theorem supplyOf_windowMeasured {w : WindowIn} {s : State} {i : Nat} (h2 : i < 2) (hi : i < s.field.supply.length) :
    supplyOf (windowMeasured w s) i = measureSupply (elNs s) (if i = 0 then w.fs1Mv else w.fs2Mv) (supplyOf s i) := by
  obtain ⟨-, hclk, -, -, -, hsupply⟩ := window_before w s
  obtain ⟨v, hv⟩ : ∃ v, v = windowSx w (windowDi w s) := ⟨_, rfl⟩
  unfold windowMeasured
  rw [← hv] at hclk hsupply ⊢
  have hel : elNs v = elNs s := congrArg Clock.el hclk
  rw [supplyOf_measured h2 (by rw [hsupply]; exact hi), hel]
  unfold supplyOf
  rw [hsupply]

/-- A supply that a window finds below 12.0 V for the second time: its group is latched and goes off channel by channel (R481). -/
theorem inputWindow_latches {w : WindowIn} {s : State} {i : Nat} (h : s.st ≠ .off) (hio : ioPowered s.st = true) (h2 : i < 2)
    (hi : i < s.field.supply.length)
    (hlow : nth false (measureSupply (elNs s) (if i = 0 then w.fs1Mv else w.fs2Mv) (supplyOf s i)).cond 2 = true)
    (hunlatched : (supplyOf s i).latched = false) :
    (supplyOf (inputWindow w s) i).latched = true ∧ faultActive (inputWindow w s) 0x1216 = true ∧ (inputWindow w s).faults.degraded = true ∧
      ∀ k, k < 12 → doOf (inputWindow w s) (k + 12 * i) = stageOff s (k + 12 * i) (doOf s (k + 12 * i)) := by
  obtain ⟨hst, hclk, hcfg, hdout, hlen⟩ := windowMeasured_parts w s
  obtain ⟨v, hsupply, hlenv, hclkv, hcfgv, hstv, hdov, hboth, hbothDo, hdegraded⟩ := offBelow_both (s := windowMeasured w s) h2
  rw [supplyOf_windowMeasured h2 hi] at hsupply
  rw [← hsupply] at hlow
  have hunlatched' : (supplyOf v i).latched = false := by rw [hsupply]; exact hunlatched
  have hiv : i < v.field.supply.length := by rw [hlenv, hlen]; exact hi
  have hlatched := offBelow_latches hlow hunlatched' hiv
  obtain ⟨hst0, -, -, -, hlen0⟩ := offBelow_parts 0 (windowMeasured w s)
  obtain ⟨hst1, -, -, -, hlen1⟩ := offBelow_parts 1 (offBelow 0 (windowMeasured w s))
  refine ⟨?_, ?_, ?_, fun k hk => ?_⟩
  · rw [supplyOf_inputWindow h hio, hboth, hlatched]
  · rw [inputWindow_powered h hio]
    refine linkFaults_keeps_1216 (supplyFaults_latched (i := i) ?_ ?_ ?_)
    · rw [hst1, hst0, hst]
      exact h
    · rw [hlen1, hlen0, hlen]
      exact hi
    · rw [hboth, hlatched]
  · rw [inputWindow_powered h hio, linkFaults_degraded, supplyFaults_degraded]
    exact hdegraded (offBelow_degrades hlow hunlatched')
  · have hdo : doOf (windowMeasured w s) (k + 12 * i) = doOf s (k + 12 * i) := by
      unfold doOf
      rw [hdout]
    have hel : elNs v = elNs s := congrArg Clock.el (hclkv.trans hclk)
    rw [doOf_inputWindow h hio, hbothDo k hk, offBelow_stages hlow hunlatched' hk, hdov k hk, hdo]
    unfold stageOff
    rw [hel, hcfgv, hcfg]

theorem inputWindow_measures {w : WindowIn} {s : State} {i : Nat} (h : s.st ≠ .off) (hio : ioPowered s.st = true) (h2 : i < 2)
    (hi : i < s.field.supply.length) :
    (supplyOf (inputWindow w s) i).mv = (measureSupply (elNs s) (if i = 0 then w.fs1Mv else w.fs2Mv) (supplyOf s i)).mv ∧
    (supplyOf (inputWindow w s) i).below = (measureSupply (elNs s) (if i = 0 then w.fs1Mv else w.fs2Mv) (supplyOf s i)).below := by
  obtain ⟨v, hsupply, hlenv, -, -, -, -, hboth, -, -⟩ := offBelow_both (s := windowMeasured w s) h2
  have hlen := (windowMeasured_parts w s).2.2.2.2
  obtain ⟨hmv, hbelow⟩ := offBelow_measured (g := i) v (by rw [hlenv, hlen]; exact hi)
  rw [supplyOf_inputWindow h hio, hboth, hmv, hbelow, hsupply, supplyOf_windowMeasured h2 hi]
  exact ⟨rfl, rfl⟩

/-! ### Supplies recover -/

theorem groupRelease_rest (g : Nat) (s : State) : rest (groupRelease g s) = rest (setSupply g (fun q => { q with
    latched := false, armLow := false, armed := false, cond := upd (fun _ => false) q.cond 2 }) s) := by
  unfold groupRelease
  extract_lets s1
  rw [supplyFaults_rest, event_rest]

theorem tryRelease_idle {g : Nat} {s : State}
    (h : (supplyOf s g).latched = false ∨ (supplyOf s g).armed = false ∨ supplyOk100 s g = false) : tryRelease g s = s := by
  refine if_neg (fun hd => ?_)
  obtain ⟨hlatched, harmed, hok⟩ := hd
  rcases h with h | h | h
  · simp [h] at hlatched
  · simp [h] at harmed
  · simp [h] at hok

/-- A supply's condition ends. -/
def condEnded (k g : Nat) (s : State) : State := setSupply g (fun q => { q with cond := upd (fun _ => false) q.cond k }) s

theorem supplyRecovered_192 {g : Nat} {s : State} (h : 4 ≤ (supplyOf s g).goodRun) : supplyRecovered g .below192 s = supplyFaults (condEnded 0 g s) :=
  if_pos h

theorem supplyRecovered_160 {g : Nat} {s : State} (h : supplyOk100 s g = true) : supplyRecovered g .below160 s =
    supplyFaults { condEnded 1 g s with safety := { s.safety with supply := upd (fun _ => false) s.safety.supply g } } := if_pos h

theorem supplyRecovered_160_idle {g : Nat} {s : State} (h : supplyOk100 s g = false) : supplyRecovered g .below160 s = s := if_neg (by simp [h])

theorem tryRelease_releases {g : Nat} {s : State} (hlatched : (supplyOf s g).latched = true) (harmed : (supplyOf s g).armed = true)
    (hok : supplyOk100 s g = true) : tryRelease g s = groupRelease g s := if_pos ⟨hlatched, harmed, hok⟩

/-- A group's overcurrent noted (R479). -/
def overNoted (g : Nat) (still : Bool) (s : State) : State := setSupply g (fun q => { q with over_ := still }) s

theorem groupOvercurrent_powered {g : Nat} {still : Bool} {s : State} (h : ioPowered s.st = true) :
    groupOvercurrent g still s = faultCond 0x1213 ((overNoted g still s).field.supply.any (·.over_)) (overNoted g still s) := if_pos h

theorem groupOvercurrent_unpowered {g : Nat} {still : Bool} {s : State} (h : ioPowered s.st = false) : groupOvercurrent g still s = s :=
  if_neg (by simp [h])

/-- A condition source of the host has the truth of its condition. -/
theorem faultCond_eq (c : Nat) (on : Bool) {s : State} (h : s.st ≠ .off) : faultActive (faultCond c on s) c = on := by
  cases on with
  | true => exact faultCond_active _ _ h
  | false => exact faultCond_inactive _ _

/-! ### Outputs latch -/

theorem doLevel_lt {s : State} {c : Nat} (h : doLevel s c = true) : c < s.field.dout.length :=
  lt_length_of_nth_ne (d := ({} : DoSt)) (fun he => by
    unfold doLevel doOf at h
    rw [he] at h
    exact Bool.false_ne_true h)

/-- A channel latched off by a kind of fault (R476). -/
def latchedDo (c kind : Nat) (s : State) : State := setDo c (fun d => { d with pin := false, latch := kind }) s

theorem latchDo_on {c kind : Nat} {s : State} (h : doLevel s c = true) :
    latchDo c kind s = latchFaults (event 0x1202 (latchData true c kind) (latchedDo c kind s)) := if_pos h

theorem latchDo_off {c kind : Nat} {s : State} (h : doLevel s c = false) : latchDo c kind s = s := if_neg (by simp [h])

theorem latchFaults_rest (s : State) : rest (latchFaults s) = rest s := by
  unfold latchFaults
  rw [faultCond_rest, faultCond_rest]

theorem latchDo_rest {c kind : Nat} {s : State} (h : doLevel s c = true) : rest (latchDo c kind s) = rest (latchedDo c kind s) := by
  rw [latchDo_on h, latchFaults_rest, event_rest]

/-- Some channel is latched by the kind. -/
theorem latchedDo_any {c kind : Nat} {s : State} (h : doLevel s c = true) :
    (event 0x1202 (latchData true c kind) (latchedDo c kind s)).field.dout.any (fun d => d.latch == kind) = true := by
  have hparts := fieldPart_of_rest (event_rest (latchedDo c kind s) 0x1202 (latchData true c kind))
  simp only [fieldPart, Prod.mk.injEq] at hparts
  obtain ⟨-, -, hdout, -⟩ := hparts
  have hc : c < (latchedDo c kind s).field.dout.length := by
    show c < (upd _ s.field.dout c).length
    rw [upd_length]
    exact doLevel_lt h
  have hone : nth {} (latchedDo c kind s).field.dout c = { doOf s c with pin := false, latch := kind } := nth_upd _ _ _ _ (doLevel_lt h)
  rw [hdout]
  refine List.any_eq_true.mpr ⟨_, nth_mem {} _ _ hc, ?_⟩
  rw [hone]
  exact beq_self_eq_true kind

theorem latchDo_overload {c : Nat} {s : State} (h : doLevel s c = true) (hon : s.st ≠ .off) : faultActive (latchDo c 1 s) 0x1211 = true := by
  rw [latchDo_on h]
  unfold latchFaults
  rw [latchedDo_any h]
  refine faultSet_keeps_other (by decide) (faultCond_active _ _ ?_)
  rw [event_st]
  exact hon

theorem latchDo_overheat {c : Nat} {s : State} (h : doLevel s c = true) (hon : s.st ≠ .off) : faultActive (latchDo c 2 s) 0x1212 = true := by
  rw [latchDo_on h]
  unfold latchFaults
  have hany := latchedDo_any (kind := 2) h
  obtain ⟨v, hv⟩ : ∃ v, v = event 0x1202 (latchData true c 2) (latchedDo c 2 s) := ⟨_, rfl⟩
  have hst : v.st = s.st := by rw [hv, event_st]; rfl
  rw [← hv] at hany ⊢
  rw [hany]
  exact faultCond_active _ _ (by rwa [faultCond_st, hst])

theorem ne_off_of_powered {m : ModState} (h : ioPowered m = true) : m ≠ .off := fun hoff => by
  rw [hoff] at h
  exact absurd h (by decide)

theorem supplyOf_settle (s : State) (i : Nat) : supplyOf (settle s) i = supplyOf s i := supplyOf_congr (fieldPart_of_rest (settle_rest s)) i

theorem doOf_settle (s : State) (c : Nat) : doOf (settle s) c = doOf s c := doOf_congr (fieldPart_of_rest (settle_rest s)) c

theorem settle_field (s : State) : (settle s).field.di = s.field.di ∧ (settle s).field.dout = s.field.dout ∧
    (settle s).field.supply = s.field.supply := by
  have h := fieldPart_of_rest (settle_rest s)
  simp only [fieldPart, Prod.mk.injEq] at h
  exact h.2

/-- Settles O57: the window by what it leaves of each input and supply, the others by their equations. -/
theorem fieldInputsSuppliesAndOutputs : Obligations.FieldInputsSuppliesAndOutputs := by
  intro dt g ch still w s u sup meas c latched
  refine ⟨fun hon => ⟨_, rfl, ?window⟩, fun h => gives_of_settle rfl (inputWindow_off h), fun h => givesRest_of_settle rfl ?good,
    fun h => gives_of_settle rfl (if_neg (Nat.not_le_of_lt h)), fun h => givesRest_of_settle rfl ?ok,
    fun h => ⟨gives_of_settle rfl (supplyRecovered_160_idle h), gives_of_settle rfl (tryRelease_idle (.inr (.inr h)))⟩,
    fun hok hlatched harmed => givesRest_of_settle rfl ?release,
    fun h => gives_of_settle rfl (tryRelease_idle (h.imp id .inl)), fun h hon => ⟨⟨_, rfl, ?overload⟩, _, rfl, ?overheat⟩,
    fun h => ⟨gives_of_settle rfl (latchDo_off h), gives_of_settle rfl (latchDo_off h)⟩, fun h hg => ⟨_, rfl, ?overcurrent⟩,
    fun h => gives_of_settle rfl (groupOvercurrent_unpowered h)⟩
  case window =>
    obtain ⟨hdi, hdout, hsupply⟩ := settle_field (inputWindow w (advance s dt))
    simp only [settle_st, settle_faults, settle_active, supplyOf_settle, doOf_settle]
    rw [hdi, hdout, hsupply]
    refine ⟨(inputWindow_parts hon).1, fun n h1 hn => inputWindow_di hon h1 hn, fun hio i h2 hi => ?_, fun hio => inputWindow_unpowered hon hio⟩
    obtain ⟨hmv, hbelow⟩ := inputWindow_measures (w := w) hon hio h2 hi
    exact ⟨hmv, hbelow, fun hlow hunlatched => inputWindow_latches hon hio h2 hi hlow hunlatched⟩
  case good => rw [supplyRecovered_192 h, supplyFaults_rest]; rfl
  case ok => rw [supplyRecovered_160 h, supplyFaults_rest]; rfl
  case release =>
    show rest (tryRelease g u) = _
    rw [tryRelease_releases hlatched harmed hok, groupRelease_rest]
    rfl
  case overload =>
    rw [settle_active, settle_rest, latchDo_rest h]
    exact ⟨latchDo_overload h hon, rfl⟩
  case overheat =>
    rw [settle_active, settle_rest, latchDo_rest h]
    exact ⟨latchDo_overheat h hon, rfl⟩
  case overcurrent =>
    rw [groupOvercurrent_powered h, settle_active, settle_rest, faultCond_rest]
    exact ⟨rfl, faultCond_eq _ _ (ne_off_of_powered (m := u.st) h)⟩

/-! ### Limits of a sample and of the hour's words -/

theorem window_sample (blk : Image.DiBlk) (ua : Nat) (i : InSt) :
    (window blk ua i).prev = (classify blk.wbEn ua { hi := i.prev, br := i.prevBr }).hi ∧
    (window blk ua i).prevBr = (classify blk.wbEn ua { hi := i.prev, br := i.prevBr }).br := by
  unfold window takeSample
  split
  · split
    · exact ⟨rfl, rfl⟩
    · exact ⟨rfl, rfl⟩
  · exact ⟨rfl, rfl⟩

theorem eccRate_on {s : State} (h : s.st ≠ .off) (on : Bool) (hon : on = decide (s.cfg.img.faultMap.eccRate < eccHour s.ledger.opS s.faults.ecc)) :
    eccRate s = if on then degrade 0 (faultCond 0x1310 on s) else faultCond 0x1310 on s := by
  unfold eccRate
  rw [← hon]
  dsimp only
  split
  · rename_i hoff
    exact absurd hoff h
  · rfl

/-- The source has the truth of its condition, whether or not the module is then degraded (R502). -/
theorem eccRate_active {s : State} (h : s.st ≠ .off) :
    faultActive (eccRate s) 0x1310 = decide (s.cfg.img.faultMap.eccRate < eccHour s.ledger.opS s.faults.ecc) := by
  obtain ⟨on, hon⟩ : ∃ on, on = decide (s.cfg.img.faultMap.eccRate < eccHour s.ledger.opS s.faults.ecc) := ⟨_, rfl⟩
  have hcond := faultCond_eq 0x1310 on h
  rw [eccRate_on h on hon, ← hon]
  cases on with
  | true => exact degrade_keeps_active hcond
  | false => exact hcond

/-- Settles O58: by the bands of R470, and by the truth of the condition of 0x1310. -/
theorem samplesAndWordsAreJudgedAtTheirLimits : Obligations.SamplesAndWordsAreJudgedAtTheirLimits := by
  intro dt n w s u ua old
  refine ⟨fun hon h1 hn hsamples => ⟨_, rfl, ?_⟩, fun hon => ⟨_, rfl, ?_⟩⟩
  · intro i
    have hi : i = window (diBlock u n) ua old := by
      unfold i
      rw [(settle_field (inputWindow w (advance s dt))).1, inputWindow_di hon h1 hn, if_pos hsamples]
    obtain ⟨hprev, hbr⟩ := window_sample (diBlock u n) ua old
    rw [hi, hprev, hbr]
    unfold classify
    refine ⟨fun h => ?high, fun h h' => ?low, fun h h' => ?between, fun h => ?broken⟩
    case high =>
      rw [if_pos h]
      exact ⟨rfl, rfl⟩
    case low =>
      rw [if_neg (by omega), if_neg (by omega), if_pos h]
      exact ⟨rfl, rfl⟩
    case between =>
      rw [if_neg (by omega), if_pos h]
      exact ⟨rfl, rfl⟩
    case broken =>
      rw [if_neg (by omega), if_neg (by omega), if_neg (by omega)]
      exact ⟨rfl, rfl⟩
  · rw [settle_active, eccRate_active hon, decide_eq_true_eq]
    rfl

end Sys2Proof.Machine
end

section
/-! PROPERTY. FAULT.READ, FAULT.ACK, FIRMWARE_ACK, SLUICE_EXPIRY and CLASS_RECOVERY (19_faults R491 to R495, R499, R506, R507;
notes/assumptions/32.md). -/

namespace Sys2Proof.Machine

open Sys2Proof.Safety

/-! ### An event in the fault state -/

/-- The fault state without its sources, its classes and the demand for a reset: what no event writes. -/
def eventFixed (f : FaultsSt) : FaultsSt := { f with src := [], cls := [], mustReset := false }

theorem surrender_eventFixed (s : State) : eventFixed (surrender s).faults = eventFixed s.faults := by
  have hbefore : (if s.lock.held then evRaw 0x0C03 (u8 0) s else s).faults = s.faults := by
    split
    · exact recordRaw_faults s _
    · rfl
  unfold surrender demandReset
  show eventFixed (releaseBetweenTicks _).faults = _
  rw [releaseBetweenTicks_faults, hbefore]

/-- A raise that names the host alone holds no block in reset. -/
theorem raiseCore_host_eventFixed (c : Nat) (o : Bool) (s : State) : eventFixed (raiseCore c o [.host] s).faults = eventFixed s.faults := by
  have hreact (t : State) : eventFixed (directReact c [.host] t).faults = eventFixed t.faults := by
    unfold directReact
    split
    · exact surrender_eventFixed t
    · split
      · exact surrender_eventFixed t
      · rfl
  unfold raiseCore
  split
  · rfl
  · extract_lets s1 s2 s3
    have hs1 : s1.faults = s.faults := recordRaw_faults s _
    have hs2 : s2.faults = s.faults := by
      unfold s2
      split
      · exact (recordRaw_faults s1 _).trans hs1
      · exact hs1
    rw [hreact, assertFlt_faults]
    show eventFixed s2.faults = _
    rw [hs2]

theorem event_eventFixed (c : Nat) (d : Bytes) (s : State) : eventFixed (event c d s).faults = eventFixed s.faults := by
  unfold event lossCheck
  have hrecorded : (evRaw c d s).faults = s.faults := recordRaw_faults s _
  split
  · rw [raiseCore_host_eventFixed, hrecorded]
  · rw [hrecorded]

theorem event_blkReset (c : Nat) (d : Bytes) (s : State) : (event c d s).faults.blkReset = s.faults.blkReset := by
  have h := congrArg FaultsSt.blkReset (event_eventFixed c d s)
  exact h

theorem event_blkBy (c : Nat) (d : Bytes) (s : State) : (event c d s).faults.blkBy = s.faults.blkBy := by
  have h := congrArg FaultsSt.blkBy (event_eventFixed c d s)
  exact h

/-- An event writes no source but the loss of records (20 R518). -/
theorem srcOf_event {c code : Nat} (d : Bytes) (s : State) (h : faultIndex code ≠ faultIndex 0x1410) : srcOf (event c d s) code = srcOf s code := by
  unfold srcOf event
  rw [lossCheck_src _ _ _ h]
  exact congrArg (fun f : FaultsSt => Table.get {} f.src (faultIndex code)) (recordRaw_faults s _)

/-- An event that finds room in the write queue is recorded, and nothing else happens (20 R517). -/
theorem event_room {c : Nat} {d : Bytes} {s : State} (hr : queueSize s.ledger.queue + Rec.size { code := c, data := d } ≤ queueCap) :
    event c d s = { s with ledger := { s.ledger with
      queue := if s.st = .off then s.ledger.queue else s.ledger.queue ++ [stampRec s { code := c, data := d }] } } := by
  by_cases hoff : s.st = .off
  · have hraw : evRaw c d s = s := by
      unfold evRaw recordRaw
      rw [hoff]
    unfold event lossCheck
    rw [hraw, if_neg (fun h => Nat.lt_irrefl _ h.1), if_pos hoff]
  · have hraw : evRaw c d s = { s with ledger := { s.ledger with queue := s.ledger.queue ++ [stampRec s { code := c, data := d }] } } := by
      unfold evRaw recordRaw
      split
      · rename_i h0
        exact absurd h0 hoff
      · have hsize : (stampRec s { code := c, data := d }).size = Rec.size { code := c, data := d } := rfl
        unfold LedgerSt.enqueue
        rw [hsize, if_pos hr]
    unfold event lossCheck
    rw [hraw, if_neg (fun h => Nat.lt_irrefl _ h.1), if_neg hoff]

/-- An event of few bytes takes one place of the queue. -/
theorem room_of_lt {q : List Rec} {c : Nat} {d : Bytes} (h : queueSize q < queueCap) (hd : d.length ≤ 8) :
    queueSize q + Rec.size { code := c, data := d } ≤ queueCap := by
  have hsize : Rec.size { code := c, data := d } = 1 := if_pos hd
  rw [hsize]
  exact h

/-! ### FAULT.READ -/

theorem faultReadCmd_first {r : Request} (s : State) (h : 511 < fld r.payload 0 2) : faultReadCmd r s = .refuse (errRange 0) := if_pos h

theorem faultReadCmd_count {r : Request} (s : State) (h : fld r.payload 0 2 ≤ 511) (hc : 128 < fld r.payload 2 2) :
    faultReadCmd r s = .refuse (errRange 2) := by
  refine (if_neg (Nat.not_lt_of_le h)).trans (if_pos ?_)
  split <;> omega

/-- What FAULT.READ answers of the faults, the pin and the instant of a view (Tables 19-6 and 19-7). -/
def faultReply (first count : Nat) (f : FaultsSt) (flt : Bool) (el : Nat) (s : State) : Bytes :=
  let n := Nat.min count (512 - first)
  u16 first ++ u16 n ++ u32 (classFaultBits f) ++ u32 (classPendBits s f) ++ u8 f.degrCause ++ u8 (outsByte f flt f.degraded) ++
    u8 (sevMax f) ++ u8 0 ++ u32 (eccHour s.ledger.opS f.ecc) ++ u32 f.eccTotal ++ zeros 8 ++
    (List.range 32).flatMap (fun c => u16 (Table.get {} f.cls c).recovery) ++
    (List.range n).flatMap (fun i => sourceRecord s f el (first + i))

theorem faultReadCmd_answers {r : Request} {v : View} {s : State} (h : fld r.payload 0 2 ≤ 511) (hc : fld r.payload 2 2 ≤ 116)
    (hview : s.view = some v) :
    faultReadCmd r s = .ok s (faultReply (fld r.payload 0 2) (fld r.payload 2 2) v.faults v.fltN v.el s) := by
  have hcount : ¬(if r.version = 1 then 116 else 128) < fld r.payload 2 2 := by
    split <;> omega
  refine (if_neg (Nat.not_lt_of_le h)).trans ((if_neg hcount).trans ?_)
  unfold faultView
  rw [hview]
  rfl

/-! ### FAULT.ACK -/

/-- LATCHED cleared of the source named, or of all (R507). -/
def ackedSrc (code : Nat) (src : Table FaultSt) : Table FaultSt :=
  src.map (fun p => if code = 0xFFFF ∨ indexCode p.1 = code then (p.1, { p.2 with latched := false }) else p)

/-- The module after an acknowledgement for which the write queue has room, before FLT_N is judged. -/
def faultAcked (code : Nat) (s : State) : State :=
  { s with
    faults := { s.faults with src := ackedSrc code s.faults.src }
    ledger := { s.ledger with queue := if s.st = .off then s.ledger.queue else s.ledger.queue ++ [stampRec s { code := 0x1305, data := u16 code }] } }

theorem faultAckCmd_refuses {r : Request} (s : State) (h : fld r.payload 0 2 ≠ 0xFFFF) (hsev : defaultSev (fld r.payload 0 2) = none) :
    faultAckCmd r s = .refuse (errRange 0) := by
  refine if_pos ⟨h, ?_⟩
  rw [hsev]
  rfl

theorem faultAckCmd_acks {r : Request} {s : State} (h : fld r.payload 0 2 = 0xFFFF ∨ defaultSev (fld r.payload 0 2) ≠ none)
    (hroom : queueSize s.ledger.queue < queueCap) : faultAckCmd r s =
      .ok (updateFlt (faultAcked (fld r.payload 0 2) s)) (u16 ((ackedSrc (fld r.payload 0 2) s.faults.src).filter (fun p => p.2.latched)).length ++
        flag (fltPin (updateFlt (faultAcked (fld r.payload 0 2) s))) ++ u8 0) := by
  have hevent : event 0x1305 (u16 (fld r.payload 0 2)) { s with faults := { s.faults with src := ackedSrc (fld r.payload 0 2) s.faults.src } } =
      faultAcked (fld r.payload 0 2) s := event_room (room_of_lt hroom (Nat.le_of_ble_eq_true rfl))
  have hfaults : (updateFlt (faultAcked (fld r.payload 0 2) s)).faults.src = ackedSrc (fld r.payload 0 2) s.faults.src :=
    congrArg FaultsSt.src (updateFlt_fields (faultAcked (fld r.payload 0 2) s)).2.2.2.1
  rw [← hfaults, ← hevent]
  refine if_neg (fun hd => ?_)
  rcases h with h | h
  · exact hd.1 h
  · rw [Option.isNone_iff_eq_none] at hd
    exact h hd.2

/-! ### FLT_N once judged -/

/-- FLT_N stays while its 10 ms run or something holds it (R500). -/
theorem updateFlt_fltN (s : State) :
    (updateFlt s).field.fltN = (s.field.fltN && !(decide (s.field.fltEl + 10000000 ≤ elNs s) && !fltHeld s)) := by
  unfold updateFlt
  by_cases hflt : s.field.fltN = true
  · by_cases hel : s.field.fltEl + 10000000 ≤ elNs s
    · cases hheld : fltHeld s with
      | false => simp [hflt, hel]
      | true => simp [hflt, hel]
    · simp [hflt, hel]
  · simp [hflt]

theorem updateFlt_clk (s : State) : (updateFlt s).clk = s.clk := by have h := congrArg State.clk (updateFlt_rest s); exact h
theorem updateFlt_st (s : State) : (updateFlt s).st = s.st := by have h := congrArg State.st (updateFlt_rest s); exact h
theorem updateFlt_cfg (s : State) : (updateFlt s).cfg = s.cfg := by have h := congrArg State.cfg (updateFlt_rest s); exact h

/-- What the judgement of FLT_N reads. -/
def fltPart (s : State) : Nat × FaultsSt × CfgSt × FieldSt := (elNs s, s.faults, s.cfg, s.field)

theorem cfgClass_congr {s t : State} (hcfg : t.cfg = s.cfg) : cfgClass t = cfgClass s := by
  funext code
  unfold cfgClass mapEntry
  rw [hcfg]

theorem fltHeld_congr {s t : State} (hfaults : t.faults = s.faults) (hcfg : t.cfg = s.cfg) : fltHeld t = fltHeld s := by
  unfold fltHeld
  rw [hfaults, hcfg, cfgClass_congr hcfg]

/-- FLT_N judged twice is FLT_N judged once. -/
theorem updateFlt_again {s t : State} (h : fltPart t = fltPart (updateFlt s)) : (updateFlt t).field.fltN = (updateFlt s).field.fltN := by
  simp only [fltPart, Prod.mk.injEq] at h
  obtain ⟨hel, hfaults, hcfg, hfield⟩ := h
  obtain ⟨-, -, -, hfaults', -, -, hfltEl, -⟩ := updateFlt_fields s
  have hel' : elNs (updateFlt s) = elNs s := congrArg Clock.el (updateFlt_clk s)
  rw [updateFlt_fltN t, hel, fltHeld_congr (hfaults.trans hfaults') (hcfg.trans (updateFlt_cfg s)), hfield, hfltEl, hel', updateFlt_fltN s]
  cases decide (s.field.fltEl + 10000000 ≤ elNs s) <;> cases fltHeld s <;> simp

theorem settle_fltN (s : State) : (settle s).field.fltN = (updateFlt s).field.fltN := rfl

theorem fltPin_congr {s t : State} (hst : t.st = s.st) (hflt : t.field.fltN = s.field.fltN) : fltPin t = fltPin s := by
  unfold fltPin fltLevel
  rw [hst, hflt]

/-! ### A served mailbox leaves the field -/

theorem flushBox_field (m : Nat) (s : State) : (flushBox m s).field = s.field := by
  unfold flushBox
  dsimp only
  refine foldl_keeps State.field (fun t r => ?_) _ _
  rfl

theorem pump_field : ∀ (n m : Nat) (s : State), (pump n m s).field = s.field
  | 0, _, _ => rfl
  | n + 1, m, s => by
    unfold pump
    dsimp only
    split
    · rfl
    · split
      · rfl
      · rw [pump_field n m]
        rfl

theorem serve_field (m : Nat) (s : State) : (serve m s).field = s.field := by
  unfold serve
  rw [flushBox_field, pump_field]

/-- An accepted immediate command leaves what its own effect leaves of what FLT_N is judged by. -/
theorem runImmediate_fltPart {u t : State} {m word : Nat} {r : Request} {q : List Request} {f : Request → State → Reply} {p : Bytes}
    (h : Turn u m word r q) (hf : f r u = .ok t p) : fltPart (runImmediate word f m u) = fltPart t := by
  have hquiet := runImmediate_quiet h hf
  have hclk : (runImmediate word f m u).clk = t.clk := by have e := congrArg State.clk hquiet; exact e
  have hfaults : (runImmediate word f m u).faults = t.faults := by have e := congrArg State.faults hquiet; exact e
  have hcfg : (runImmediate word f m u).cfg = t.cfg := by have e := congrArg State.cfg hquiet; exact e
  have hfield : (runImmediate word f m u).field = t.field := by
    rw [runImmediate_ok h hf, serve_field]
    rfl
  unfold fltPart elNs
  rw [hclk, hfaults, hcfg, hfield]

theorem runImmediate_st {u t : State} {m word : Nat} {r : Request} {q : List Request} {f : Request → State → Reply} {p : Bytes}
    (h : Turn u m word r q) (hf : f r u = .ok t p) : (runImmediate word f m u).st = t.st := by
  have e := congrArg State.st (runImmediate_quiet h hf)
  exact e

/-- FAULT.ACK answered: the sources acknowledged, their number and the pin as they then are (R507). -/
theorem faultAck_answers {dt m : Nat} {r : Request} {q : List Request} {s : State} (h : Turn (advance s dt) m wFaultAck r q)
    (hcode : fld r.payload 0 2 = 0xFFFF ∨ defaultSev (fld r.payload 0 2) ≠ none) (hroom : queueSize (advance s dt).ledger.queue < queueCap) :
    ∃ t, exec (.faultAck dt m) s = .next t ∧
      t.faults = { (advance s dt).faults with src := ackedSrc (fld r.payload 0 2) (advance s dt).faults.src } ∧
      Out.msg r.port r.src (respond r (u16 ((ackedSrc (fld r.payload 0 2) (advance s dt).faults.src).filter (fun p => p.2.latched)).length ++
        flag (fltPin t) ++ u8 0) none) ∈ t.out ∧ quiet (rest t) = quiet (rest (advance s dt)) := by
  have hf := faultAckCmd_acks hcode hroom
  have hmb : (updateFlt (faultAcked (fld r.payload 0 2) (advance s dt))).mb = (advance s dt).mb := by
    have e := congrArg State.mb (updateFlt_rest (faultAcked (fld r.payload 0 2) (advance s dt)))
    exact e
  have hrest : rest (updateFlt (faultAcked (fld r.payload 0 2) (advance s dt))) = rest (advance s dt) := updateFlt_rest _
  obtain ⟨t, hexec, hsent, hquiet⟩ := answeredRest_of_ok (c := .faultAck dt m) (s := s) rfl h hf hmb hrest
  have ht : settle (runImmediate wFaultAck faultAckCmd m (advance s dt)) = t := by
    injection hexec
  have hfaults := congrArg (fun p => p.2.1) (runImmediate_fltPart h hf)
  have hpin : fltPin t = fltPin (updateFlt (faultAcked (fld r.payload 0 2) (advance s dt))) := by
    rw [← ht]
    exact fltPin_congr (by rw [settle_st, runImmediate_st h hf]) (updateFlt_again (runImmediate_fltPart h hf))
  refine ⟨t, hexec, ?_, ?_, hquiet⟩
  · rw [← ht, settle_faults, show (runImmediate wFaultAck faultAckCmd m (advance s dt)).faults = _ from hfaults]
    exact (updateFlt_fields (faultAcked (fld r.payload 0 2) (advance s dt))).2.2.2.1
  · rw [hpin]
    exact hsent

/-! ### FIRMWARE_ACK, SLUICE_EXPIRY and CLASS_RECOVERY -/

/-- A source no longer PENDING, its sluice ended. -/
def unpended (code : Nat) (s : State) : State := modSrc code (fun x => { x with pending := false, sluiceTick := none }) s

theorem srcOf_unpended (code : Nat) (s : State) : srcOf (unpended code s) code = { srcOf s code with pending := false, sluiceTick := none } := by
  unfold unpended modSrc setSrc srcOf
  rw [Table.get_set, if_pos rfl]

theorem firmwareAck_acks {code : Nat} {s : State} (hpending : (srcOf s code).pending = true) (hwithheld : (srcOf s code).withheld = false)
    (hruns : s.faults.hostStop = false) : firmwareAck code s = unpended code s := if_pos ⟨hpending, hwithheld, hruns⟩

theorem firmwareAck_idle {code : Nat} {s : State}
    (h : (srcOf s code).pending = false ∨ (srcOf s code).withheld = true ∨ s.faults.hostStop = true) : firmwareAck code s = s := by
  refine if_neg (fun hd => ?_)
  obtain ⟨hpending, hwithheld, hruns⟩ := hd
  rcases h with h | h | h
  · simp [h] at hpending
  · simp [h] at hwithheld
  · simp [h] at hruns

/-- The reaction taken at an expiry: none beside a Critical one of the same tick (R494). -/
def reactionTaken (code : Nat) (s : State) : Nat :=
  if sluiceReaction code (srcOf s code) = 1 ∧ (criticalDue s || decide (s.faults.criticalAt = some (frameIndex s))) = true then 0
  else sluiceReaction code (srcOf s code)

/-- The expiry recorded, before its reaction. -/
def sluiceEnded (code : Nat) (s : State) : State := event 0x1301 (u16 code ++ u8 (reactionTaken code s)) (unpended code s)

theorem sluiceExpiry_due {code : Nat} {s : State} (h : atTick s = true ∧ sluiceDue s (srcOf s code) = true) : sluiceExpiry code s =
    if reactionTaken code s = 2 then criticalReaction (sluiceEnded code s)
    else if reactionTaken code s = 1 then (srcOf s code).blocks.foldl (fun t b => holdBlock code b t) (sluiceEnded code s)
    else sluiceEnded code s := if_pos h

theorem sluiceExpiry_idle {code : Nat} {s : State} (h : ¬(atTick s = true ∧ sluiceDue s (srcOf s code) = true)) : sluiceExpiry code s = s := if_neg h

theorem srcOf_sluiceEnded {code : Nat} (s : State) (h : faultIndex code ≠ faultIndex 0x1410) :
    srcOf (sluiceEnded code s) code = { srcOf s code with pending := false, sluiceTick := none } := by
  unfold sluiceEnded
  rw [srcOf_event _ _ h, srcOf_unpended]

theorem releaseAtTick_faults (s : State) : (releaseAtTick s).faults = s.faults := by
  unfold releaseAtTick
  split <;> rfl

theorem releaseAtTick_held (s : State) : (releaseAtTick s).lock.held = false := by
  unfold releaseAtTick
  split
  · rfl
  · rename_i h
    exact Bool.eq_false_of_not_eq_true h

theorem criticalReaction_parts (s : State) : (criticalReaction s).faults.mustReset = true ∧ (criticalReaction s).lock.held = false ∧
    (criticalReaction s).faults.criticalAt = some (frameIndex s) := ⟨rfl, releaseAtTick_held _, rfl⟩

theorem srcOf_criticalReaction {code : Nat} (s : State) (h : faultIndex code ≠ faultIndex 0x1410) :
    srcOf (criticalReaction s) code = srcOf s code := by
  have hsrc : (criticalReaction s).faults.src = (if s.lock.held then event 0x0C03 (u8 0) s else s).faults.src := by
    show (releaseAtTick _).faults.src = _
    rw [releaseAtTick_faults]
  unfold srcOf
  rw [hsrc]
  split
  · exact srcOf_event _ s h
  · rfl

/-- Blocks held in reset: of the fault state only the blocks' marks change. -/
theorem srcOf_holdBlocks (code c : Nat) (bs : List Block) (s : State) : srcOf (bs.foldl (fun t b => holdBlock code b t) s) c = srcOf s c := by
  refine foldl_keeps (fun t => srcOf t c) (fun t b => ?_) bs s
  rfl

theorem holdBlock_reset (code : Nat) (b : Block) (s : State) (k : Nat) : nth false (holdBlock code b s).faults.blkReset k =
    if blockNo b = k ∧ k < s.faults.blkReset.length then true else nth false s.faults.blkReset k := by
  show nth false (upd (fun _ => true) s.faults.blkReset (blockNo b)) k = _
  by_cases hk : blockNo b = k
  · subst hk
    by_cases hlen : blockNo b < s.faults.blkReset.length
    · rw [if_pos ⟨rfl, hlen⟩, nth_upd _ _ _ _ hlen]
    · rw [if_neg (fun h => hlen h.2), upd_ge _ _ _ (Nat.le_of_not_lt hlen)]
  · rw [if_neg (fun h => hk h.1), nth_upd_other _ _ _ _ _ hk]

theorem holdBlock_length (code : Nat) (b : Block) (s : State) : (holdBlock code b s).faults.blkReset.length = s.faults.blkReset.length :=
  upd_length _ _ _

/-- Every block of a list is in reset once all are held. -/
theorem holdBlocks_reset {code k : Nat} : ∀ (bs : List Block) (s : State), k < s.faults.blkReset.length →
    (∃ b ∈ bs, blockNo b = k) ∨ nth false s.faults.blkReset k = true →
    nth false (bs.foldl (fun t b => holdBlock code b t) s).faults.blkReset k = true
  | [], _, _, h => h.resolve_left (fun ⟨b, hb, _⟩ => absurd hb (List.not_mem_nil))
  | a :: r, s, hlen, h => by
    refine holdBlocks_reset r (holdBlock code a s) (by rwa [holdBlock_length]) ?_
    rw [holdBlock_reset]
    rcases h with ⟨b, hb, hk⟩ | hreset
    · rcases List.mem_cons.mp hb with rfl | hr
      · exact .inr (if_pos ⟨hk, hlen⟩)
      · exact .inl ⟨b, hr, hk⟩
    · refine .inr ?_
      split
      · rfl
      · exact hreset

theorem srcOf_sluiceExpiry {code : Nat} {s : State} (h : atTick s = true ∧ sluiceDue s (srcOf s code) = true)
    (hloss : faultIndex code ≠ faultIndex 0x1410) :
    srcOf (sluiceExpiry code s) code = { srcOf s code with pending := false, sluiceTick := none } := by
  rw [sluiceExpiry_due h]
  split
  · rw [srcOf_criticalReaction _ hloss, srcOf_sluiceEnded _ hloss]
  · split
    · rw [srcOf_holdBlocks, srcOf_sluiceEnded _ hloss]
    · exact srcOf_sluiceEnded _ hloss

theorem srcOf_settle (s : State) (code : Nat) : srcOf (settle s) code = srcOf s code := by
  unfold srcOf
  rw [settle_faults]

theorem sluiceEnded_frameIndex (code : Nat) (s : State) : frameIndex (sluiceEnded code s) = frameIndex s := by
  unfold frameIndex sluiceEnded
  rw [event_frame_index]
  rfl

theorem sluiceEnded_blkReset (code : Nat) (s : State) : (sluiceEnded code s).faults.blkReset = s.faults.blkReset := event_blkReset _ _ _

section
variable {code : Nat} {s : State} (h : atTick s = true ∧ sluiceDue s (srcOf s code) = true)
include h

theorem sluiceExpiry_critical (hreaction : sluiceReaction code (srcOf s code) = 2) :
    sluiceExpiry code s = criticalReaction (sluiceEnded code s) := by
  have htaken : reactionTaken code s = 2 := by
    unfold reactionTaken
    rw [hreaction]
    exact if_neg (fun hd => absurd hd.1 (by decide))
  rw [sluiceExpiry_due h, if_pos htaken]

theorem sluiceExpiry_resets (hreaction : sluiceReaction code (srcOf s code) = 1)
    (hcrit : (criticalDue s || decide (s.faults.criticalAt = some (frameIndex s))) = false) :
    sluiceExpiry code s = (srcOf s code).blocks.foldl (fun t b => holdBlock code b t) (sluiceEnded code s) := by
  have htaken : reactionTaken code s = 1 := by
    unfold reactionTaken
    rw [hreaction, hcrit]
    rfl
  rw [sluiceExpiry_due h, htaken]
  rfl

theorem sluiceExpiry_spared (hreaction : sluiceReaction code (srcOf s code) = 1)
    (hcrit : (criticalDue s || decide (s.faults.criticalAt = some (frameIndex s))) = true) : sluiceExpiry code s = sluiceEnded code s := by
  have htaken : reactionTaken code s = 0 := by
    unfold reactionTaken
    rw [hreaction, hcrit]
    rfl
  rw [sluiceExpiry_due h, htaken]
  rfl

end

/-- A class in the fault state has been quiet for QUIET_MS at a tick (R499). -/
def quietClass (c : Nat) (s : State) : Prop := atTick s = true ∧ (Table.get {} s.faults.cls c).inFault = true ∧ classBusy s c = false ∧
  (Table.get {} s.faults.cls c).lastEl + s.cfg.img.faultMap.quietMs * 1000000 ≤ elNs s

theorem classRecovery_recovers {c : Nat} {s : State} (h : quietClass c s) (hroom : queueSize s.ledger.queue < queueCap) :
    let up := Nat.min 0xFFFF ((Table.get {} s.faults.cls c).recovery + 1)
    classRecovery c s = { s with
      faults := { s.faults with cls := Table.set s.faults.cls c { Table.get {} s.faults.cls c with inFault := false, recovery := up } }
      ledger := { s.ledger with queue := if s.st = .off then s.ledger.queue else
        s.ledger.queue ++ [stampRec s { code := 0x1303, data := u8 c ++ u16 up }] } } := by
  intro up
  refine (if_pos h).trans ?_
  exact event_room (room_of_lt hroom (Nat.le_of_ble_eq_true rfl))

theorem classRecovery_idle {c : Nat} {s : State} (h : ¬quietClass c s) : classRecovery c s = s := if_neg h

/-- Settles O59: a command by its reply, a sluice by the reaction taken. -/
theorem faultsAreReadAcknowledgedAndReacted : Obligations.FaultsAreReadAcknowledgedAndReacted := by
  intro dt m code c v r q s u first count ack n src f crit due k quietFor up
  refine ⟨fun h => ⟨fun hfirst => refused_of_refuse rfl h (faultReadCmd_first u hfirst),
      fun hfirst hcount => refused_of_refuse rfl h (faultReadCmd_count u hfirst hcount),
      fun hfirst hcount hview => answered_of_mb rfl h (faultReadCmd_answers hfirst hcount hview) rfl⟩,
    fun h => ⟨fun hne hsev => refused_of_refuse rfl h (faultAckCmd_refuses u hne hsev), fun hcode hroom => faultAck_answers h hcode hroom⟩,
    fun hpending hwithheld hruns => gives_of_settle rfl (firmwareAck_acks hpending hwithheld hruns),
    fun h => gives_of_settle rfl (firmwareAck_idle h), ?sluice, fun h => gives_of_settle rfl (sluiceExpiry_idle h),
    fun h hroom => gives_of_settle rfl (classRecovery_recovers h hroom), fun h => gives_of_settle rfl (classRecovery_idle h)⟩
  case sluice =>
    intro hdue hloss
    have hsrc := srcOf_sluiceExpiry hdue hloss
    refine ⟨_, rfl, ?_⟩
    rw [srcOf_settle, hsrc, settle_faults, settle_lock]
    refine ⟨rfl, rfl, fun hcritical => ?_, fun hreset hcrit b hb hlen => ?_, fun hreset hcrit _ => ?_⟩
    · obtain ⟨hmust, hheld, hat⟩ := criticalReaction_parts (sluiceEnded code u)
      rw [sluiceExpiry_critical hdue hcritical, hmust, hheld, hat, sluiceEnded_frameIndex]
      exact ⟨rfl, rfl, rfl⟩
    · rw [sluiceExpiry_resets hdue hreset hcrit]
      exact holdBlocks_reset _ _ (by rw [sluiceEnded_blkReset]; exact hlen) (.inl ⟨b, hb, rfl⟩)
    · rw [sluiceExpiry_spared hdue hreset hcrit, sluiceEnded_blkReset]

end Sys2Proof.Machine
end

section
/-! PROPERTY. BLOCK_RESET_COMPLETE, FLT_N_HOLD_EXPIRY, SRAM_SCRUB and ECC_RATE_WINDOW (19_faults R495, R500 to R505, Table 19-4;
notes/assumptions/4.md, 32.md). -/

namespace Sys2Proof.Machine

open Sys2Proof.Safety

/-! ### The reset of an array -/

theorem faultShot_faultsFixed (c : Nat) (bs : List Block) (s : State) : faultsFixed (faultShot c bs s).faults = faultsFixed s.faults := by
  unfold faultShot
  split
  · rfl
  · rw [lossCheck_faultsFixed, raiseCore_faultsFixed]

/-- The fault state without what raises and degrading write. -/
def resetFixed (f : FaultsSt) : FaultsSt := { faultsFixed f with degraded := false, degrCause := 0 }

theorem degrade_resetFixed (bit : Nat) (s : State) : resetFixed (degrade bit s).faults = resetFixed s.faults := by
  unfold degrade
  extract_lets seen faults field s1
  split
  · rfl
  · exact congrArg (fun f : FaultsSt => { f with degraded := false, degrCause := 0 }) (event_faultsFixed _ _ s1)

/-- The event of a block's reset (R495). -/
def resetNoted (b : Block) (pass : Bool) (s : State) : State := event 0x1307 (u8 (blockNo b) ++ u8 (if pass then 0 else 1)) s

/-- The lost array's mark. -/
def arrayMarked (a : Arr) (s : State) : State := setCh (fun c => match a with | .A => { c with lostA := true } | .B => { c with lostB := true }) s

theorem loseArray_eq (a : Arr) (s : State) : loseArray a s = degrade 1 (faultCond 0x1316 true (arrayMarked a s)) := rfl

theorem loseArray_parts (a : Arr) (s : State) : (loseArray a s).chandler = (arrayMarked a s).chandler ∧ (loseArray a s).st = s.st ∧
    (loseArray a s).faults.degraded = true ∧ resetFixed (loseArray a s).faults = resetFixed s.faults ∧
    (s.st ≠ .off → faultActive (loseArray a s) 0x1316 = true) := by
  rw [loseArray_eq]
  refine ⟨?_, ?_, degrade_degraded _ _, ?_, fun hon => degrade_keeps_active (faultCond_active _ _ hon)⟩
  · rw [degrade_chandler, faultCond_chandler]
  · rw [degrade_st, faultCond_st]
    rfl
  · rw [degrade_resetFixed]
    exact congrArg (fun f : FaultsSt => { f with degraded := false, degrCause := 0 }) (faultSet_faultsFixed _ _ _ (arrayMarked a s))

/-- An array was reset within the last 600 s. -/
def resetAgain (last : Option Nat) (el : Nat) : Bool := match last with | some t => decide (el ≤ t + 600000000000) | none => false

/-- The instant of an array's last reset, and the array's loss. -/
def lastResetOf (a : Arr) (s : State) : Option Nat := match a with | .A => s.faults.lastResetA | .B => s.faults.lastResetB
def arrayLost (a : Arr) (s : State) : Bool := match a with | .A => s.chandler.lostA | .B => s.chandler.lostB

theorem arrayReset_eq (a : Arr) (b : Block) (pass : Bool) (s : State) : arrayReset a b pass s =
    if pass = false ∨ resetAgain (lastResetOf a s) (elNs s) = true then loseArray a (noteReset a s).2 else releaseBlock b (noteReset a s).2 := by
  cases a <;> rfl

theorem noteReset_parts (a : Arr) (s : State) : lastResetOf a (noteReset a s).2 = some (elNs s) ∧ (noteReset a s).2.st = s.st ∧
    arrayLost a (noteReset a s).2 = arrayLost a s := by
  cases a <;> exact ⟨rfl, rfl, rfl⟩

theorem lastResetOf_congr {a : Arr} {s t : State} (h : resetFixed t.faults = resetFixed s.faults) : lastResetOf a t = lastResetOf a s := by
  cases a with
  | A =>
    have e := congrArg FaultsSt.lastResetA h
    exact e
  | B =>
    have e := congrArg FaultsSt.lastResetB h
    exact e

theorem nth_upd_const {α : Type} (d : α) (l : List α) (i : Nat) : nth d (upd (fun _ => d) l i) i = d := by
  by_cases h : i < l.length
  · exact nth_upd _ _ _ _ h
  · exact nth_beyond _ _ _ (by rw [upd_length]; exact Nat.le_of_not_lt h)

theorem releaseBlock_reset (b : Block) (s : State) : nth false (releaseBlock b s).faults.blkReset (blockNo b) = false := nth_upd_const _ _ _

/-- An array's reset that has ended: released, or lost with the module degraded (R495, R505). -/
theorem arrayReset_ends {a : Arr} {b : Block} {pass : Bool} {s : State} (hlost : arrayLost a s = false) :
    lastResetOf a (arrayReset a b pass s) = some (elNs s) ∧ (arrayReset a b pass s).st = s.st ∧
    (pass = true → resetAgain (lastResetOf a s) (elNs s) = false →
      nth false (arrayReset a b pass s).faults.blkReset (blockNo b) = false ∧ arrayLost a (arrayReset a b pass s) = false) ∧
    (pass = false ∨ resetAgain (lastResetOf a s) (elNs s) = true → arrayLost a (arrayReset a b pass s) = true ∧
      (arrayReset a b pass s).faults.degraded = true ∧ (s.st ≠ .off → faultActive (arrayReset a b pass s) 0x1316 = true)) := by
  obtain ⟨hlast, hst, hsame⟩ := noteReset_parts a s
  rw [arrayReset_eq]
  by_cases h : pass = false ∨ resetAgain (lastResetOf a s) (elNs s) = true
  · obtain ⟨hchandler, hst', hdegraded, hfixed, hactive⟩ := loseArray_parts a (noteReset a s).2
    rw [if_pos h]
    refine ⟨(lastResetOf_congr hfixed).trans hlast, hst'.trans hst, fun hpass hagain => ?_, fun _ => ⟨?_, hdegraded, fun hon => hactive (by rwa [hst])⟩⟩
    · rcases h with h | h
      · exact absurd (hpass.symm.trans h) (by decide)
      · exact absurd (hagain.symm.trans h) (by decide)
    · unfold arrayLost
      rw [hchandler]
      cases a <;> rfl
  · rw [if_neg h]
    refine ⟨?_, hst, fun _ _ => ⟨releaseBlock_reset b _, ?_⟩, fun h' => absurd h' h⟩
    · refine Eq.trans ?_ hlast
      cases a <;> rfl
    · refine Eq.trans ?_ (hsame.trans hlost)
      cases a <;> rfl

theorem resetNoted_parts (b : Block) (pass : Bool) (s : State) : (resetNoted b pass s).st = s.st ∧ elNs (resetNoted b pass s) = elNs s ∧
    (resetNoted b pass s).chandler = s.chandler ∧ resetFixed (resetNoted b pass s).faults = resetFixed s.faults ∧
    (resetNoted b pass s).faults.blkBy = s.faults.blkBy ∧ (resetNoted b pass s).cfg = s.cfg ∧ (resetNoted b pass s).can = s.can :=
  ⟨event_st _ _ _, congrArg Clock.el (event_clk _ _ _), event_chandler _ _ _,
    congrArg (fun f : FaultsSt => { f with degraded := false, degrCause := 0 }) (event_faultsFixed _ _ s), event_blkBy _ _ _, event_cfg _ _ _,
    event_can _ _ _⟩

theorem blockResetComplete_saA {pass : Bool} {s : State} (h : resetDue .saA s = true) :
    blockResetComplete .saA pass s = arrayReset .A .saA pass (resetNoted .saA pass s) := if_pos h

theorem blockResetComplete_saB {pass : Bool} {s : State} (h : resetDue .saB s = true) :
    blockResetComplete .saB pass s = arrayReset .B .saB pass (resetNoted .saB pass s) := if_pos h

theorem blockResetComplete_plain {b : Block} {pass : Bool} {s : State} (h : resetDue b s = true) (hA : b ≠ .saA) (hB : b ≠ .saB) :
    blockResetComplete b pass s = plainReset b pass (resetNoted b pass s) := by
  cases b with
  | saA => exact absurd rfl hA
  | saB => exact absurd rfl hB
  | _ => exact if_pos h

theorem blockResetComplete_idle {b : Block} {pass : Bool} {s : State} (h : resetDue b s = false) : blockResetComplete b pass s = s :=
  if_neg (by simp [h])

theorem resetDue_notLost {s : State} : (resetDue .saA s = true → arrayLost .A s = false) ∧ (resetDue .saB s = true → arrayLost .B s = false) := by
  simp only [resetDue, Bool.and_eq_true, Bool.not_eq_true']
  exact ⟨fun h => h.2, fun h => h.2⟩

/-- BLOCK_RESET_COMPLETE of an array. -/
theorem arrayBlock_ends {a : Arr} {b : Block} {pass : Bool} {s : State} (hlost : arrayLost a s = false)
    (heq : blockResetComplete b pass s = arrayReset a b pass (resetNoted b pass s)) :
    ∃ t, t = settle (blockResetComplete b pass s) ∧ lastResetOf a t = some (elNs s) ∧ t.st = s.st ∧
    (pass = true → resetAgain (lastResetOf a s) (elNs s) = false → nth false t.faults.blkReset (blockNo b) = false ∧ arrayLost a t = false) ∧
    (pass = false ∨ resetAgain (lastResetOf a s) (elNs s) = true → arrayLost a t = true ∧ t.faults.degraded = true ∧
      (s.st ≠ .off → faultActive t 0x1316 = true)) := by
  obtain ⟨hst, hel, hchandler, hfixed, -⟩ := resetNoted_parts b pass s
  have hlost' : arrayLost a (resetNoted b pass s) = false := by
    unfold arrayLost at hlost ⊢
    rw [hchandler]
    exact hlost
  have hends := arrayReset_ends (b := b) (pass := pass) hlost'
  rw [lastResetOf_congr hfixed, hel, hst] at hends
  refine ⟨_, rfl, ?_⟩
  have hlastS (t : State) : lastResetOf a (settle t) = lastResetOf a t := by
    unfold lastResetOf
    rw [settle_faults]
  have hlostS (t : State) : arrayLost a (settle t) = arrayLost a t := by
    unfold arrayLost
    rw [settle_chandler]
  rw [hlastS, settle_st, hlostS, settle_faults, settle_active, heq]
  exact hends

/-! ### The reset of another block -/

theorem OnlyRaised.blkReset {s t : State} (h : OnlyRaised s t) : t.faults.blkReset = s.faults.blkReset := by
  obtain ⟨l, x, y, f, rfl⟩ := h
  rfl

theorem calm_of_cfg {s t : State} (h : t.cfg = s.cfg) (hc : Calm s) : Calm t := fun code => by
  unfold cfgReact mapEntry
  rw [h]
  exact hc code

/-- `t` is `s` after a block started again: while no source reacts directly, no block's reset has changed. -/
structure RestartKept (s t : State) : Prop where
  st : t.st = s.st
  cfg : t.cfg = s.cfg
  chandler : t.chandler = s.chandler
  blkReset : Calm s → t.faults.blkReset = s.faults.blkReset

namespace RestartKept

theorem refl (s : State) : RestartKept s s := ⟨rfl, rfl, rfl, fun _ => rfl⟩

theorem trans {s t v : State} (h : RestartKept s t) (g : RestartKept t v) : RestartKept s v :=
  ⟨g.st.trans h.st, g.cfg.trans h.cfg, g.chandler.trans h.chandler, fun hc => (g.blkReset (calm_of_cfg h.cfg hc)).trans (h.blkReset hc)⟩

end RestartKept

theorem faultSet_restartKept (c : Nat) (on : Bool) (bs : List Block) (s : State) : RestartKept s (faultSet c on bs s) :=
  ⟨faultSet_st _ _ _ _, faultSet_cfg _ _ _ _, faultSet_chandler _ _ _ _, fun hc => (faultSet_calm hc).blkReset⟩

theorem endCond_restartKept (c : Nat) (on : Bool) (s : State) : RestartKept s (endCond c on s) := by
  unfold endCond
  split
  · exact .refl s
  · exact faultSet_restartKept _ _ _ _

theorem stopGroup_restartKept (g : Nat) (s : State) : RestartKept s (stopGroup g s) := by
  have hchans : RestartKept s ((chansOf g).foldl (fun t c => setChan c (fun _ => {}) t) (setGroup g (fun _ => {}) s)) := by
    refine List.foldlRecOn (motive := RestartKept s) _ _ ⟨rfl, rfl, rfl, fun _ => rfl⟩ (fun t ht c _ => ht.trans ?_)
    exact ⟨rfl, rfl, rfl, fun _ => rfl⟩
  exact ((hchans.trans (endCond_restartKept _ _ _)).trans (endCond_restartKept _ _ _)).trans (endCond_restartKept _ _ _)

theorem groupTick_restartKept (g : Nat) (s : State) : RestartKept s (groupTick s g) := by
  unfold groupTick
  extract_lets q
  split
  · exact ⟨rfl, rfl, rfl, fun _ => rfl⟩
  · exact .refl s

/-- A controller's slots as its reset leaves them, and the controller. -/
def canCleared (c : Nat) (s : State) : State :=
  let clear (m : SlotMsg) : SlotMsg := { m with content := none, st := 0, openMsg := none }
  setCan c (fun q => { cnt := q.cnt, last := q.last }) (setSafe c clear
    { s with slots := (enumFrom 0 s.slots).map (fun p => if (slotCfg s p.1).ctrl = c then clear p.2 else p.2) })

theorem canRestart_eq (c : Nat) (s : State) : canRestart c s = canFaults c (canCleared c s) := rfl

theorem canRestart_restartKept (c : Nat) (s : State) : RestartKept s (canRestart c s) := by
  have hcleared : RestartKept s (canCleared c s) := ⟨rfl, rfl, rfl, fun _ => rfl⟩
  exact (hcleared.trans (faultSet_restartKept _ _ _ _)).trans (faultSet_restartKept _ _ _ _)

theorem canOf_canRestart {s : State} {c : Nat} (h : c < s.can.length) :
    canOf (canRestart c s) c = { cnt := (canOf s c).cnt, last := (canOf s c).last } := by
  have hcan : (canRestart c s).can = (canCleared c s).can := congrArg Prod.fst (busPart_canFaults c (canCleared c s))
  unfold canOf
  rw [hcan]
  unfold canCleared setSafe
  dsimp only
  rw [setCan_setCan]
  exact nth_upd _ _ _ _ h

theorem blockRestart_restartKept (b : Block) (s : State) : RestartKept s (blockRestart b s) := by
  unfold blockRestart
  split
  · exact (stopGroup_restartKept _ _).trans (groupTick_restartKept _ _)
  · split
    · exact ⟨rfl, rfl, rfl, fun _ => rfl⟩
    · exact .refl s
  · exact canRestart_restartKept _ _
  · exact .refl s

/-- The source for which a block was held is raised again when the block's check fails (R495). -/
def raisedAgain (code : Nat) (f : FaultSt) (s : State) : State := lossCheck s.ledger.lost (raiseCore code f.oneShot f.blocks s)

theorem raisedAgain_rest (code : Nat) (f : FaultSt) (s : State) : rest (raisedAgain code f s) = rest s := by
  unfold raisedAgain
  rw [lossCheck_rest, raiseCore_rest]

theorem raisedAgain_active {code : Nat} {s : State} (f : FaultSt) (h : s.st ≠ .off) : faultActive (raisedAgain code f s) code = true := by
  refine lossCheck_active _ _ _ ?_
  obtain ⟨g, hg, -, -, hsrc⟩ := raiseCore_src s code f.oneShot f.blocks h
  unfold faultActive srcOf
  rw [hsrc, Table.get_set, if_pos rfl]
  exact hg

theorem plainReset_eq (b : Block) (pass : Bool) (s : State) : plainReset b pass s = if pass then blockRestart b (releaseBlock b s)
    else raisedAgain (nth 0 s.faults.blkBy (blockNo b)) (srcOf s (nth 0 s.faults.blkBy (blockNo b))) (blockRestart b (releaseBlock b s)) := rfl

theorem releaseBlock_parts (b : Block) (s : State) : (releaseBlock b s).st = s.st ∧ (releaseBlock b s).cfg = s.cfg ∧
    (releaseBlock b s).chandler = s.chandler ∧ (releaseBlock b s).can = s.can := ⟨rfl, rfl, rfl, rfl⟩

theorem plainReset_restarted (b : Block) (pass : Bool) (s : State) : ∃ t, t = blockRestart b (releaseBlock b s) ∧
    rest (plainReset b pass s) = rest t := by
  refine ⟨_, rfl, ?_⟩
  rw [plainReset_eq]
  split
  · rfl
  · rw [raisedAgain_rest]

/-- What a block's reset leaves of the controllers and of the allocator's arrays. -/
theorem plainReset_parts {b : Block} {pass : Bool} {s : State} : (plainReset b pass s).st = s.st ∧ (plainReset b pass s).chandler = s.chandler ∧
    (pass = true → Calm s → nth false (plainReset b pass s).faults.blkReset (blockNo b) = false) ∧
    (pass = false → s.st ≠ .off → faultActive (plainReset b pass s) (nth 0 s.faults.blkBy (blockNo b)) = true) ∧
    (∀ c, b = .can c → c < 4 → c < s.can.length →
      canOf (plainReset b pass s) c = { cnt := (canOf s c).cnt, last := (canOf s c).last }) := by
  have hkept := blockRestart_restartKept b (releaseBlock b s)
  obtain ⟨hst, hcfg, hchandler, hcan⟩ := releaseBlock_parts b s
  obtain ⟨t, ht, hrest⟩ := plainReset_restarted b pass s
  have hparts : (plainReset b pass s).st = t.st ∧ (plainReset b pass s).chandler = t.chandler ∧ (plainReset b pass s).can = t.can := by
    have hst' := congrArg State.st hrest
    have hchandler' := congrArg State.chandler hrest
    have hcan' := congrArg State.can hrest
    exact ⟨hst', hchandler', hcan'⟩
  obtain ⟨hst', hchandler', hcan'⟩ := hparts
  rw [← ht] at hkept
  refine ⟨hst'.trans (hkept.st.trans hst), hchandler'.trans (hkept.chandler.trans hchandler), fun hpass hcalm => ?_, fun hpass hon => ?_,
    fun c hb hc hlen => ?_⟩
  · rw [plainReset_eq, if_pos hpass, ← ht, hkept.blkReset (calm_of_cfg hcfg hcalm)]
    exact releaseBlock_reset b s
  · rw [plainReset_eq, hpass, ← ht]
    exact raisedAgain_active _ (by rw [hkept.st, hst]; exact hon)
  · have hctrl := canOf_canRestart (s := releaseBlock b s) (c := c) (by rw [hcan]; exact hlen)
    have hmod : c % 4 = c := Nat.mod_eq_of_lt hc
    have hrestart : t = canRestart c (releaseBlock b s) := by
      rw [ht, hb]
      show canRestart (c % 4) _ = _
      rw [hmod]
    unfold canOf at hctrl ⊢
    rw [hcan', hrestart, hctrl, hcan]

/-! ### Memory errors -/

theorem wordCorrected_parts (o : SramOwner) (s : State) : rest (wordCorrected o s) = rest s ∧
    (wordCorrected o s).faults.ecc = eccAdd s.ledger.opS s.faults.ecc ∧
    (wordCorrected o s).faults.eccTotal = Nat.min 0xFFFFFFFF (s.faults.eccTotal + 1) := by
  unfold wordCorrected
  obtain ⟨v, hv⟩ : ∃ v, v = { s with faults := { s.faults with
    ecc := eccAdd s.ledger.opS s.faults.ecc, eccTotal := Nat.min 0xFFFFFFFF (s.faults.eccTotal + 1) } } := ⟨_, rfl⟩
  have hfixed := event_faultsFixed 0x1306 (u8 (ownerIndex o)) v
  have hecc := congrArg FaultsSt.ecc hfixed
  have htotal := congrArg FaultsSt.eccTotal hfixed
  rw [← hv, event_rest]
  refine ⟨?_, Eq.trans hecc ?_, Eq.trans htotal ?_⟩
  · rw [hv]
    rfl
  · rw [hv]
    rfl
  · rw [hv]
    rfl

theorem sramScrub_idle {o : SramOwner} {bits : Nat} {s : State} (h : s.st = .off ∨ bits = 0) : sramScrub o bits s = s := by
  unfold sramScrub
  split
  · rfl
  · rename_i hon
    exact if_pos (h.resolve_left hon)

section
variable {s : State} (hon : s.st ≠ .off)
include hon

theorem sramScrub_on (o : SramOwner) (bits : Nat) : sramScrub o bits s =
    if bits = 0 then s
    else if bits ≤ 2 then wordCorrected o s
    else if bits = 3 then uncorrectable o s
    else if Config.eccWide s.nFree = 0 then uncorrectable o (nextFree s)
    else if Config.eccWide s.nFree = 1 then wordCorrected o (nextFree s)
    else nextFree s := by
  unfold sramScrub
  split
  · rename_i hoff
    exact absurd hoff hon
  · rfl

theorem sramScrub_corrects (o : SramOwner) {bits : Nat} (h : bits = 1 ∨ bits = 2) : sramScrub o bits s = wordCorrected o s := by
  rw [sramScrub_on hon, if_neg (by omega), if_pos (by omega)]

theorem sramScrub_three (o : SramOwner) : sramScrub o 3 s = uncorrectable o s := sramScrub_on hon o 3

end

/-- What a word's error leaves of the free values drawn: none is drawn for it. -/
theorem lockstep_nFree (s : State) : (lockstep s).nFree = s.nFree := by
  unfold lockstep
  split
  · extract_lets pair s1 s2
    rw [faultCond_nFree]
    refine foldl_keeps State.nFree (fun t c => ?_) _ s1
    rfl
  · rfl

theorem arrayWord_rest (a : Arr) (b : Block) (s : State) : rest (arrayWord a b s) = rest (setArr a none s) := by
  unfold arrayWord
  extract_lets faults s1
  have hs1 : rest s1 = rest (setArr a none s) := by cases a <;> rfl
  split
  · exact hs1
  · rw [faultShot_rest, hs1]

theorem arrayWord_active {a : Arr} {s : State} (b : Block) (hon : s.st ≠ .off) : faultActive (arrayWord a b s) 0x1311 = true := by
  unfold arrayWord
  extract_lets faults s1
  split
  case isTrue hactive =>
    unfold faultActive srcOf modSrc setSrc
    rw [Table.get_set, if_pos rfl]
    exact hactive
  case isFalse =>
    have hst : s1.st = s.st := by cases a <;> rfl
    exact faultShot_active _ _ _ (by rwa [hst])

theorem checkpointWord_nFree (s : State) : (checkpointWord s).nFree = s.nFree := by
  unfold checkpointWord
  rw [faultOnce_nFree]
  split <;> rfl

theorem uncorrectable_nFree (o : SramOwner) (s : State) : (uncorrectable o s).nFree = s.nFree := by
  have harray (a : Arr) (b : Block) : (arrayWord a b s).nFree = s.nFree := by
    have h := congrArg State.nFree (arrayWord_rest a b s)
    cases a <;> exact h
  unfold uncorrectable
  split
  · exact faultOnce_nFree _ _
  · exact faultOnce_nFree _ _
  · exact lockstep_nFree s
  · exact harray _ _
  · exact harray _ _
  · exact checkpointWord_nFree s
  · exact faultShot_nFree _ _ _

theorem wordCorrected_nFree (o : SramOwner) (s : State) : (wordCorrected o s).nFree = s.nFree := by
  have h := congrArg State.nFree (wordCorrected_parts o s).1
  exact h

/-- Four or more bit errors are taken as the code happens to take them: one free value is drawn (log entry 32). -/
theorem sramScrub_wide {o : SramOwner} {bits : Nat} {s : State} (hon : s.st ≠ .off) (h : 4 ≤ bits) : (sramScrub o bits s).nFree = s.nFree + 1 := by
  rw [sramScrub_on hon, if_neg (by omega), if_neg (by omega), if_neg (by omega)]
  split
  · exact uncorrectable_nFree _ _
  · split
    · exact wordCorrected_nFree _ _
    · rfl

/-! ### The hour's corrected words -/

theorem eccRate_rest (s : State) : rest (eccRate s) = rest s := by
  unfold eccRate
  extract_lets on s1
  split
  · rfl
  · have hs1 : rest s1 = rest s := faultCond_rest _ _ _
    split
    · rw [degrade_rest, hs1]
    · exact hs1

theorem eccRate_degraded {s : State} (h : s.st ≠ .off) : (eccRate s).faults.degraded =
    (decide (s.cfg.img.faultMap.eccRate < eccHour s.ledger.opS s.faults.ecc) || s.faults.degraded) := by
  obtain ⟨on, hon⟩ : ∃ on, on = decide (s.cfg.img.faultMap.eccRate < eccHour s.ledger.opS s.faults.ecc) := ⟨_, rfl⟩
  rw [eccRate_on h on hon, ← hon]
  cases on with
  | true => exact degrade_degraded _ _
  | false => exact faultCond_degraded _ _ _

theorem eccRate_off {s : State} (h : s.st = .off) : eccRate s = s := by
  unfold eccRate
  rw [h]

/-! ### FLT_N's hold -/

theorem fltExpired_fltN (s : State) : (settle (updateFlt s)).field.fltN =
    (s.field.fltN && !(decide (s.field.fltEl + 10000000 ≤ elNs s) && !fltHeld s)) :=
  (updateFlt_again rfl).trans (updateFlt_fltN s)

theorem updateFlt_noPins (s : State) : noPins (updateFlt s) = noPins s := by
  unfold updateFlt
  split <;> rfl

/-- Settles O60: an array and any other block by how a reset ends, a word by its bit errors and its owner. -/
theorem blocksRestartAndMemoryErrorsCount : Obligations.BlocksRestartAndMemoryErrorsCount := by
  intro dt c bits b pass o s u again plain high ends
  obtain ⟨hnotA, hnotB⟩ := resetDue_notLost (s := u)
  refine ⟨fun h => gives_of_settle rfl (blockResetComplete_idle h), fun h => ?saA, fun h => ?saB, fun h hplain => ⟨_, rfl, ?plain⟩,
    ⟨_, rfl, fltExpired_fltN u, (settle_noPins _).trans (updateFlt_noPins u)⟩, fun h => gives_of_settle rfl (sramScrub_idle h),
    fun hon h => ⟨_, rfl, ?corrected⟩, fun hon => ?three, fun hon => ⟨_, rfl, ?rate⟩, fun h => gives_of_settle rfl (eccRate_off h)⟩
  case saA =>
    obtain ⟨t, ht, hends⟩ := arrayBlock_ends (a := .A) (b := .saA) (pass := pass) (hnotA h) (blockResetComplete_saA h)
    exact ⟨t, congrArg Host.Outcome.next ht.symm, hends⟩
  case saB =>
    obtain ⟨t, ht, hends⟩ := arrayBlock_ends (a := .B) (b := .saB) (pass := pass) (hnotB h) (blockResetComplete_saB h)
    exact ⟨t, congrArg Host.Outcome.next ht.symm, hends⟩
  case plain =>
    obtain ⟨hst, -, hchandler, -, hblkBy, hcfg, hcan⟩ := resetNoted_parts b pass u
    obtain ⟨hst', hchandler', hreset, hactive, hctrl⟩ := plainReset_parts (b := b) (pass := pass) (s := resetNoted b pass u)
    rw [blockResetComplete_plain h hplain.1 hplain.2, settle_st, settle_chandler, settle_faults, canOf_settle, settle_active]
    refine ⟨hst'.trans hst, congrArg ChandlerSt.lostA (hchandler'.trans hchandler), fun hpass hcalm => hreset hpass (calm_of_cfg hcfg hcalm),
      fun hpass hon => ?_, fun hb hc hlen => ?_⟩
    · rw [hblkBy] at hactive
      exact hactive hpass (by rw [hst]; exact hon)
    · rw [hctrl c hb hc (by rw [hcan]; exact hlen)]
      exact ⟨rfl, rfl, rfl⟩
  case corrected =>
    obtain ⟨hrest, hecc, htotal⟩ := wordCorrected_parts o u
    rw [sramScrub_corrects hon o h, settle_rest, settle_faults]
    exact ⟨hrest, hecc, htotal⟩
  case three =>
    have hraises {w : SramOwner} {code : Nat} {v : State} (hactive : faultActive (uncorrectable w u) code = true)
        (hrest : rest (uncorrectable w u) = rest v) : Raises (.sramScrub dt w 3) s code v := by
      refine ⟨settle (sramScrub w 3 u), rfl, ?_, ?_⟩
      · rw [settle_active, sramScrub_three hon, hactive]
      · rw [settle_rest, sramScrub_three hon, hrest]
    refine ⟨hraises (faultOnce_active _ _ hon) (faultOnce_rest _ _), hraises (faultOnce_active _ _ hon) (faultOnce_rest _ _),
      hraises (faultShot_active _ _ _ hon) (faultShot_rest _ _ _), hraises (arrayWord_active .saA hon) (arrayWord_rest .A .saA u),
      hraises (arrayWord_active .saB hon) (arrayWord_rest .B .saB u), fun hduty => ?standby, fun hduty => ?onDuty, fun hrunning => ?safety,
      fun h => ⟨_, rfl, ?wide⟩⟩
    case standby =>
      refine hraises (faultOnce_active _ _ ?_) ((faultOnce_rest _ _).trans (congrArg rest (if_neg (by simp [hduty]))))
      split <;> exact hon
    case onDuty =>
      refine hraises (faultOnce_active _ _ ?_) ((faultOnce_rest _ _).trans (congrArg rest (if_pos hduty)))
      split <;> exact hon
    case safety =>
      refine ⟨_, rfl, ?_⟩
      rw [sramScrub_three hon, show uncorrectable .safety u = lockstep u from rfl, lockstep_runs hrunning, settle_safety, settle_active,
        faultCond_safety]
      exact ⟨rfl, faultCond_active _ _ hon⟩
    case wide =>
      rw [settle_nFree]
      exact sramScrub_wide hon h
  case rate =>
    rw [settle_rest, settle_active, settle_faults, eccRate_rest, eccRate_active hon, eccRate_degraded hon]
    refine ⟨rfl, fun h => ?_, fun h => ?_⟩
    · rw [show decide (u.cfg.img.faultMap.eccRate < eccHour u.ledger.opS u.faults.ecc) = true from decide_eq_true h]
      exact ⟨rfl, rfl⟩
    · rw [show decide (u.cfg.img.faultMap.eccRate < eccHour u.ledger.opS u.faults.ecc) = false from decide_eq_false h]
      exact ⟨rfl, rfl⟩

end Sys2Proof.Machine
end

section
/-! PROPERTY. SELFTEST_COMPLETE, TIME_LOCK_TIMEOUT, OSC_SETUP_TIMEOUT and BRINGUP_TIMEOUT (13_bringup R358, R362, R363, R366, R367, Table 13-2). -/

namespace Sys2Proof.Machine

open Sys2Proof.Safety

/-! ### What a domain that failed takes with it -/

theorem bringProgress_degraded (s : State) : (bringProgress s).faults.degraded = s.faults.degraded := by
  have hstep (n : Nat) (t : State) : (endStep n t).faults.degraded = t.faults.degraded := event_degraded _ _ _
  have h7 : (note7 s).faults.degraded = s.faults.degraded := by
    unfold note7
    split
    · exact event_degraded _ _ _
    · rfl
  have hlock (t : State) : (lockFault t).faults.degraded = t.faults.degraded := by
    unfold lockFault
    split
    · exact faultCond_degraded _ _ t
    · rfl
  have h5 (t : State) : (advance5 t).faults.degraded = t.faults.degraded := by
    unfold advance5
    split
    · exact hstep 5 t
    · rfl
  have h6 (t : State) : (advance6 t).faults.degraded = t.faults.degraded := by
    unfold advance6
    split
    · exact hstep 6 t
    · rfl
  have hlast (t : State) : (advance7 t).faults.degraded = t.faults.degraded := by
    unfold advance7
    split <;> rfl
  unfold bringProgress
  dsimp only
  split
  · rw [hlast, h6, h5, hlock, h7]
  · exact h7

/-- The arrays, the receiver and PD-AN as lost or not, with the state, time and identity of the module. -/
def lossPart (s : State) : (ModState × Clock × UnitId) × ChandlerSt × GnssSt × Bool × Bool :=
  ((s.st, s.clk, s.unit), s.chandler, s.gnss, s.analog.failed, s.faults.degraded)

theorem lossPart_of_restNoBring {s t : State} (h : restNoBring t = restNoBring s) (hd : t.faults.degraded = s.faults.degraded) :
    lossPart t = lossPart s := by
  have hid : (t.st, t.clk, t.unit) = (s.st, s.clk, s.unit) := by have e := congrArg (fun x : State => (x.st, x.clk, x.unit)) h; exact e
  have hlost : (t.chandler, t.gnss) = (s.chandler, s.gnss) := by have e := congrArg (fun x : State => (x.chandler, x.gnss)) h; exact e
  obtain ⟨hchandler, hgnss⟩ := Prod.mk.inj hlost
  unfold lossPart
  rw [hid, hchandler, hgnss, analog_of_restNoBring h, hd]

theorem lossPart_faultCond (c : Nat) (on : Bool) (s : State) : lossPart (faultCond c on s) = lossPart s :=
  lossPart_of_restNoBring (restNoBring_of_rest (faultCond_rest s c on)) (faultCond_degraded c on s)

theorem lossPart_event (c : Nat) (d : Bytes) (s : State) : lossPart (event c d s) = lossPart s :=
  lossPart_of_restNoBring (restNoBring_of_rest (event_rest s c d)) (event_degraded c d s)

theorem lossPart_endCond (c : Nat) (on : Bool) (s : State) : lossPart (endCond c on s) = lossPart s := by
  unfold endCond
  split
  · rfl
  · exact lossPart_faultCond c false s

theorem lossPart_stopGroup (g : Nat) (s : State) : lossPart (stopGroup g s) = lossPart s := by
  unfold stopGroup endChanFaults
  rw [lossPart_endCond, lossPart_endCond, lossPart_endCond]
  exact foldl_keeps lossPart (f := fun t c => setChan c (fun _ => {}) t) (fun _ _ => rfl) _ _

theorem lossPart_analogOff (s : State) : lossPart (analogOff s) = lossPart s := by
  have hoff (t : State) : lossPart { t with analog := { t.analog with powered := false } } = lossPart t := rfl
  unfold analogOff
  exact (hoff _).trans (foldl_keeps lossPart (fun t g => lossPart_stopGroup g t) _ s)

theorem lossPart_noteSettled (s : State) : lossPart (noteSettled s) = lossPart s := by
  refine lossPart_of_restNoBring noteSettled_restNoBring ?_
  unfold noteSettled
  split
  · exact bringProgress_degraded _
  · rfl

theorem lossPart_degrade (bit : Nat) (s : State) :
    lossPart (degrade bit s) = ((s.st, s.clk, s.unit), s.chandler, s.gnss, s.analog.failed, true) := by
  unfold lossPart
  rw [degrade_st, degrade_clk, degrade_unit, degrade_chandler, degrade_gnss, degrade_analog, degrade_degraded]

theorem lossPart_parts {t : State} {x : (ModState × Clock × UnitId) × ChandlerSt × GnssSt × Bool × Bool} (h : lossPart t = x) :
    (t.st, t.clk, t.unit) = x.1 ∧ t.chandler = x.2.1 ∧ t.gnss = x.2.2.1 ∧ t.analog.failed = x.2.2.2.1 ∧ t.faults.degraded = x.2.2.2.2 := by
  subst h
  exact ⟨rfl, rfl, rfl, rfl, rfl⟩

/-- What the losses of Table 13-2 leave: each domain that failed is lost, and an array or the receiver lost leaves the module degraded. -/
theorem lossPart_domainLosses (failed : Nat) (s : State) : lossPart (domainLosses failed s) =
    ((s.st, s.clk, s.unit), { s.chandler with lostA := s.chandler.lostA || failed.testBit dSA, lostB := s.chandler.lostB || failed.testBit dSB },
      { s.gnss with failed := s.gnss.failed || (failed.testBit dGN && !s.unit.variantN) }, s.analog.failed || failed.testBit dAN,
      s.faults.degraded || failed.testBit dSA || failed.testBit dSB || (failed.testBit dGN && !s.unit.variantN)) := by
  unfold domainLosses
  extract_lets s1 s2 s3
  have h1 : lossPart s1 = ((s.st, s.clk, s.unit), { s.chandler with lostA := s.chandler.lostA || failed.testBit dSA }, s.gnss, s.analog.failed,
      s.faults.degraded || failed.testBit dSA) := by
    unfold s1
    cases failed.testBit dSA with
    | true => rw [if_pos rfl, lossPart_degrade, Bool.or_true, Bool.or_true]; rfl
    | false => rw [if_neg Bool.false_ne_true, Bool.or_false, Bool.or_false]; rfl
  have h2 : lossPart s2 = ((s1.st, s1.clk, s1.unit), { s1.chandler with lostB := s1.chandler.lostB || failed.testBit dSB }, s1.gnss,
      s1.analog.failed, s1.faults.degraded || failed.testBit dSB) := by
    unfold s2
    cases failed.testBit dSB with
    | true => rw [if_pos rfl, lossPart_degrade, Bool.or_true, Bool.or_true]; rfl
    | false => rw [if_neg Bool.false_ne_true, Bool.or_false, Bool.or_false]; rfl
  have h3 : lossPart s3 = ((s2.st, s2.clk, s2.unit), s2.chandler,
      { s2.gnss with failed := s2.gnss.failed || (failed.testBit dGN && !s2.unit.variantN) }, s2.analog.failed,
      s2.faults.degraded || (failed.testBit dGN && !s2.unit.variantN)) := by
    unfold s3
    cases failed.testBit dGN with
    | true =>
      cases hn : s2.unit.variantN with
      | true =>
        rw [if_neg (by simp)]
        simp only [lossPart, Bool.not_true, Bool.and_false, Bool.or_false]
      | false =>
        rw [if_pos ⟨rfl, rfl⟩, lossPart_degrade, Bool.not_false, Bool.and_true, Bool.or_true, Bool.or_true]
        rfl
    | false =>
      rw [if_neg fun h => Bool.false_ne_true h.1, Bool.false_and, Bool.or_false, Bool.or_false]
      rfl
  have h4 : lossPart (if failed.testBit dAN then noteSettled (analogOff { s3 with analog := { s3.analog with failed := true } }) else s3) =
      ((s3.st, s3.clk, s3.unit), s3.chandler, s3.gnss, s3.analog.failed || failed.testBit dAN, s3.faults.degraded) := by
    cases failed.testBit dAN with
    | true => rw [if_pos rfl, lossPart_noteSettled, lossPart_analogOff, Bool.or_true]; rfl
    | false => rw [if_neg Bool.false_ne_true, Bool.or_false]; rfl
  obtain ⟨hid1, hch1, hg1, ha1, hd1⟩ := lossPart_parts h1
  obtain ⟨hid2, hch2, hg2, ha2, hd2⟩ := lossPart_parts h2
  obtain ⟨hid3, hch3, hg3, ha3, hd3⟩ := lossPart_parts h3
  have hunit : s2.unit = s.unit := congrArg (fun x => x.2.2) (hid2.trans hid1)
  rw [h4, hid3, hid2, hid1, hch3, hch2, hch1, hg3, hg2, hg1, ha3, ha2, ha1, hd3, hd2, hd1, hunit]

/-! ### Self-test -/

theorem selftestComplete_not {failed : Nat} {s : State} (h : s.st ≠ .selftest ∨ s.bring.step ≠ 1) : selftestComplete failed s = s :=
  if_neg fun hc => h.elim (· hc.1) (· hc.2)

/-- Self-test as it ends: with its event, and where the module stays or step 1 ends (R366). -/
theorem selftestComplete_due {failed bad : Nat} {s : State} (hst : s.st = .selftest) (hstep : s.bring.step = 1)
    (hbad : bad = Nat.land failed (if s.unit.variantN then 0xDFF else 0xFFF)) : ∃ d, selftestComplete failed s =
      if staysInSelftest bad then { event 0x0D04 d s with
        bring := { (event 0x0D04 d s).bring with step := 0 }, field := { (event 0x0D04 d s).field with repl := true } }
      else endStep 1 (if bad.testBit dAN then faultCond 0x0D13 true (domainLosses bad (event 0x0D04 d s)) else domainLosses bad (event 0x0D04 d s)) := by
  subst hbad
  exact ⟨_, if_pos ⟨hst, hstep⟩⟩

theorem endStep_bring (n : Nat) (s : State) : (endStep n s).bring = { s.bring with step := n + 1, stepEl := elNs s } := event_bring _ _ _

theorem lossPart_endStep (n : Nat) (s : State) : lossPart (endStep n s) = lossPart s := (lossPart_event _ _ _).trans rfl

/-- Step 1's end keeps what was lost; PD-AN's loss is a fault (R366, Table 13-2). -/
theorem selftest_ends {bad : Nat} {s t : State} (hst : s.st ≠ .off)
    (ht : t = endStep 1 (if bad.testBit dAN then faultCond 0x0D13 true (domainLosses bad s) else domainLosses bad s)) :
    lossPart t = lossPart (domainLosses bad s) ∧ t.bring.step = 2 ∧ t.bring.stepEl = elNs s ∧
      (bad.testBit dAN = true → faultActive t 0x0D13 = true) := by
  obtain ⟨v, hv⟩ : ∃ v, v = domainLosses bad s := ⟨_, rfl⟩
  obtain ⟨w, hw⟩ : ∃ w, w = if bad.testBit dAN then faultCond 0x0D13 true v else v := ⟨_, rfl⟩
  have hloss := lossPart_domainLosses bad s
  rw [← hv] at ht hloss ⊢
  rw [← hw] at ht
  subst ht
  have hkept : lossPart w = lossPart v := by
    rw [hw]
    split
    · exact lossPart_faultCond _ _ v
    · rfl
  have hid : (w.st, w.clk, w.unit) = (s.st, s.clk, s.unit) := congrArg Prod.fst (hkept.trans hloss)
  obtain ⟨hwst, hwclk, -⟩ : w.st = s.st ∧ w.clk = s.clk ∧ w.unit = s.unit := by simpa only [Prod.mk.injEq] using hid
  have hvst : v.st = s.st := congrArg (fun x => x.1.1) hloss
  refine ⟨(lossPart_endStep 1 w).trans hkept, ?_, ?_, fun hfail => ?_⟩
  · rw [endStep_bring]
  · rw [endStep_bring]
    unfold elNs
    rw [hwclk]
  · refine event_keeps_active ?_
    show faultActive w _ = true
    rw [hw, if_pos hfail]
    exact faultCond_active v _ (by rw [hvst]; exact hst)

/-! ### Steps of bring-up beside duty -/

/-- Bring-up went from `s` to `t`: no step came back, what was done stays done, and the source `c` stays active. -/
structure Progressed (c : Nat) (s t : State) : Prop where
  timeDone : t.bring.timeDone = s.bring.timeDone
  oscDone : t.bring.oscDone = s.bring.oscDone
  step : s.bring.step ≤ t.bring.step
  active : faultActive s c = true → faultActive t c = true

namespace Progressed

variable {c : Nat} {s t v : State}

theorem refl (s : State) : Progressed c s s := ⟨rfl, rfl, Nat.le_refl _, id⟩

theorem trans (h : Progressed c s t) (g : Progressed c t v) : Progressed c s v :=
  ⟨g.timeDone.trans h.timeDone, g.oscDone.trans h.oscDone, Nat.le_trans h.step g.step, g.active ∘ h.active⟩

end Progressed

theorem endStep_progressed {c n : Nat} {s : State} (h : s.bring.step ≤ n + 1) : Progressed c s (endStep n s) := by
  refine ⟨?_, ?_, ?_, fun hc => event_keeps_active hc⟩
  · rw [endStep_bring]
  · rw [endStep_bring]
  · rw [endStep_bring]
    exact h

theorem note7_progressed (c : Nat) (s : State) : Progressed c s (note7 s) := by
  unfold note7
  split
  · refine ⟨?_, ?_, ?_, fun hc => event_keeps_active hc⟩
    · rw [event_bring]
    · rw [event_bring]
    · rw [event_bring]
  · exact .refl s

theorem lockFault_progressed {c : Nat} {s : State} (h : s.time.state = .locked → faultIndex 0x0D11 ≠ faultIndex c) : Progressed c s (lockFault s) := by
  unfold lockFault
  split
  case isTrue hlocked =>
    have hbring := faultCond_bring s 0x0D11 false
    exact ⟨by rw [hbring], by rw [hbring], by rw [hbring], faultSet_keeps_other (h hlocked)⟩
  case isFalse => exact .refl s

theorem advance5_progressed (c : Nat) (s : State) : Progressed c s (advance5 s) := by
  unfold advance5
  split
  case isTrue h => exact endStep_progressed (by omega)
  case isFalse => exact .refl s

theorem advance6_progressed (c : Nat) (s : State) : Progressed c s (advance6 s) := by
  unfold advance6
  split
  case isTrue h => exact endStep_progressed (by omega)
  case isFalse => exact .refl s

theorem advance7_progressed (c : Nat) (s : State) : Progressed c s (advance7 s) := by
  unfold advance7
  split
  case isTrue h => exact ⟨rfl, rfl, show s.bring.step ≤ 8 by omega, id⟩
  case isFalse => exact .refl s

theorem advance5_done {s : State} (hstep : 5 ≤ s.bring.step) (h : s.bring.timeDone = true) : 6 ≤ (advance5 s).bring.step := by
  unfold advance5
  split
  case isTrue => rw [endStep_bring]
  case isFalse hn =>
    have hne : s.bring.step ≠ 5 := fun he => hn ⟨he, .inr h⟩
    omega

theorem advance6_done {s : State} (hstep : 6 ≤ s.bring.step) (h : s.bring.oscDone = true) : 7 ≤ (advance6 s).bring.step := by
  unfold advance6
  split
  case isTrue => rw [endStep_bring]
  case isFalse hn =>
    have hne : s.bring.step ≠ 6 := fun he => hn ⟨he, .inr h⟩
    omega

/-- On duty bring-up passes step 5 with the timebase done and step 6 with the connections done; a source other than the lock's stays. -/
theorem bringProgress_progressed {c : Nat} {s : State} (hduty : onDuty s.st = true) (hc : s.time.state = .locked → faultIndex 0x0D11 ≠ faultIndex c) :
    Progressed c s (bringProgress s) ∧ (5 ≤ s.bring.step → s.bring.timeDone = true → 6 ≤ (bringProgress s).bring.step) ∧
      (6 ≤ s.bring.step → s.bring.oscDone = true → 7 ≤ (bringProgress s).bring.step) := by
  have hnote : (note7 s).st = s.st ∧ (note7 s).time = s.time :=
    ⟨by have h := congrArg State.st (note7_restNoBring (s := s)); exact h, by have h := congrArg State.time (note7_restNoBring (s := s)); exact h⟩
  obtain ⟨a, ha⟩ : ∃ a, a = lockFault (note7 s) := ⟨_, rfl⟩
  have h4 : Progressed c s a := ha ▸ (note7_progressed c s).trans (lockFault_progressed (hnote.2 ▸ hc))
  have h5 := h4.trans (advance5_progressed c a)
  have h6 := h5.trans (advance6_progressed c (advance5 a))
  have hlast := advance7_progressed c (advance6 (advance5 a))
  have heq : bringProgress s = advance7 (advance6 (advance5 a)) := by
    unfold bringProgress
    dsimp only
    rw [hnote.1, if_pos hduty, ha]
  rw [heq]
  refine ⟨h6.trans hlast, fun hstep hdone => ?_, fun hstep hdone => ?_⟩
  · have h := advance5_done (hstep.trans h4.step) (h4.timeDone.trans hdone)
    exact h.trans ((advance6_progressed c _).step.trans hlast.step)
  · have h := advance6_done (hstep.trans h5.step) (h5.oscDone.trans hdone)
    exact h.trans hlast.step

theorem notOff_of_onDuty {s : State} (h : onDuty s.st = true) : s.st ≠ .off := fun he => Bool.false_ne_true (by rw [he] at h; exact h)

/-- A step whose bound has run out ends with its fault on duty (R362, R363). -/
theorem bringProgress_fault {c : Nat} {s : State} (hduty : onDuty s.st = true) (hc : s.time.state = .locked → faultIndex 0x0D11 ≠ faultIndex c) :
    let t := settle (bringProgress (faultCond c true s))
    faultActive t c = true ∧ t.bring.timeDone = s.bring.timeDone ∧ t.bring.oscDone = s.bring.oscDone ∧
      (5 ≤ s.bring.step → s.bring.timeDone = true → 6 ≤ t.bring.step) ∧ (6 ≤ s.bring.step → s.bring.oscDone = true → 7 ≤ t.bring.step) ∧
      t.time = s.time ∧ t.osc = s.osc ∧ t.st = s.st := by
  have hst := notOff_of_onDuty hduty
  have hactive := faultCond_active s c hst
  have hbring := faultCond_bring s c true
  obtain ⟨hkept, h6, h7⟩ := bringProgress_progressed (c := c) (s := faultCond c true s) (by rw [faultCond_st]; exact hduty) (by rw [faultCond_time]; exact hc)
  have hrest := bringProgress_restNoBring (s := faultCond c true s)
  have hstate : (bringProgress (faultCond c true s)).st = (faultCond c true s).st := by have h := congrArg State.st hrest; exact h
  dsimp only
  rw [settle_active, settle_bring, settle_time, settle_osc, settle_st, bringProgress_time, bringProgress_osc, hstate, faultCond_time, faultCond_osc,
    faultCond_st]
  rw [hbring] at h6 h7
  exact ⟨hkept.active hactive, by rw [hkept.timeDone, hbring], by rw [hkept.oscDone, hbring], h6, h7, rfl, rfl, rfl⟩

/-! ### Bounds of time -/

theorem timeLockTimeout_due {s : State} (hduty : onDuty s.st = true) (hstep : s.bring.step = 5) (hlock : s.time.state ≠ .locked)
    (htime : s.bring.stepEl + 8000000000 ≤ elNs s) :
    timeLockTimeout s = bringProgress (faultCond 0x0D11 true { s with bring := { s.bring with timeDone := true } }) :=
  if_pos ⟨hduty, hstep, hlock, htime⟩

theorem timeLockTimeout_not {s : State} (h : onDuty s.st = false ∨ s.bring.step ≠ 5 ∨ s.time.state = .locked ∨ elNs s < s.bring.stepEl + 8000000000) :
    timeLockTimeout s = s := by
  refine if_neg ?_
  rintro ⟨hduty, hstep, hlock, htime⟩
  rcases h with h | h | h | h
  · exact Bool.false_ne_true (h.symm.trans hduty)
  · exact h hstep
  · exact hlock h
  · exact Nat.not_le.mpr h htime

theorem oscSetupTimeout_due {s : State} (hduty : onDuty s.st = true) (hstep : s.bring.step = 6) (hopen : allConnsOpen s = false)
    (htime : s.bring.stepEl + 3000000000 ≤ elNs s) :
    oscSetupTimeout s = bringProgress (faultCond 0x0D12 true { s with bring := { s.bring with oscDone := true } }) :=
  if_pos ⟨hduty, hstep, hopen, htime⟩

theorem oscSetupTimeout_not {s : State} (h : onDuty s.st = false ∨ s.bring.step ≠ 6 ∨ allConnsOpen s = true ∨ elNs s < s.bring.stepEl + 3000000000) :
    oscSetupTimeout s = s := by
  refine if_neg ?_
  rintro ⟨hduty, hstep, hopen, htime⟩
  rcases h with h | h | h | h
  · exact Bool.false_ne_true (h.symm.trans hduty)
  · exact h hstep
  · exact Bool.false_ne_true (hopen.symm.trans h)
  · exact Nat.not_le.mpr h htime

theorem bringupTimeout_not {s : State} (h : onDuty s.st = false ∨ s.bring.complete = true ∨ elNs s < s.bring.boundFrom + bringBound s) :
    bringupTimeout s = s := by
  refine if_neg ?_
  rintro ⟨hduty, hcomplete, htime⟩
  rcases h with h | h | h
  · exact Bool.false_ne_true (h.symm.trans hduty)
  · exact Bool.false_ne_true (hcomplete.symm.trans h)
  · exact Nat.not_le.mpr h htime

/-- Settles O49: each bound of time ends its step through `bringProgress`, which keeps the fault that it made active. -/
theorem bringUpStepsEndAsTheirTableSays : Obligations.BringUpStepsEndAsTheirTableSays := by
  unfold Obligations.BringUpStepsEndAsTheirTableSays
  intro dt f s
  extract_lets u bad
  have htest : exec (.selftestComplete dt f) s = .next (settle (selftestComplete f u)) := rfl
  have htimeout : exec (.timeLockTimeout dt) s = .next (settle (timeLockTimeout u)) := rfl
  have hosc : exec (.oscSetupTimeout dt) s = .next (settle (oscSetupTimeout u)) := rfl
  have hlate : exec (.bringupTimeout dt) s = .next (settle (bringupTimeout u)) := rfl
  clear_value u
  refine ⟨fun hst hstep hstays => ?holds, fun hst hstep hgoes => ?ends, fun h => ?notTested, fun hduty hstep hlock htime => ?timeLock, fun h => ?noTimeLock,
    fun hduty hstep hopen htime => ?connections, fun h => ?noConnections, fun hduty hcomplete htime => ?late, fun h => ?notLate⟩
  case holds =>
    obtain ⟨d, hd⟩ := selftestComplete_due (bad := bad) hst hstep rfl
    rw [if_pos hstays] at hd
    refine ⟨_, htest, ?_, ?_, ?_⟩
    · rw [settle_st, hd]
      exact (event_st _ _ _).trans hst
    · rw [settle_bring, hd]
    · rw [settle_repl, hd]
  case ends =>
    obtain ⟨d, hd⟩ := selftestComplete_due (bad := bad) hst hstep rfl
    rw [hgoes, if_neg Bool.false_ne_true] at hd
    obtain ⟨v, hv⟩ : ∃ v, v = event 0x0D04 d u := ⟨_, rfl⟩
    have hvst : v.st = .selftest := by rw [hv, event_st, hst]
    have hclk : elNs v = elNs u := by rw [hv]; unfold elNs; rw [event_clk]
    rw [← hv] at hd
    obtain ⟨hlost, htwo, hel, hfault⟩ := selftest_ends (by rw [hvst]; decide) hd
    rw [lossPart_domainLosses, hv, event_st, event_clk, event_unit, event_chandler, event_gnss, event_analog, event_degraded] at hlost
    obtain ⟨hid, hchandler, hgnss, hanalog, hdegraded⟩ := lossPart_parts hlost
    refine ⟨_, htest, ?_, ?_, ?_, ?_, ?_, ?_, ?_, fun h => ?_, fun h => ?_⟩
    · rw [settle_st, (Prod.mk.inj hid).1, hst]
    · rw [settle_bring, htwo]
    · rw [settle_bring, hel, hclk]
    · rw [settle_chandler, hchandler, dSA]
    · rw [settle_chandler, hchandler, dSB]
    · rw [settle_gnss, hgnss, dGN]
    · rw [settle_analog, hanalog, dAN]
    · rw [settle_active]
      exact hfault h
    · rw [settle_faults, hdegraded, dSA, dSB]
      rcases h with h | h <;> simp [h]
  case notTested => exact gives_of_settle htest (selftestComplete_not h)
  case timeLock =>
    have heq := timeLockTimeout_due hduty hstep hlock htime
    obtain ⟨hfault, hdone, -, hsix, -, hT, -, hst⟩ := bringProgress_fault (c := 0x0D11) (s := { u with bring := { u.bring with timeDone := true } }) hduty
      (absurd · hlock)
    rw [← heq] at hfault hdone hsix hT hst
    exact ⟨_, htimeout, hdone, hsix (Nat.le_of_eq hstep.symm) rfl, hT, hst, hfault⟩
  case noTimeLock => exact gives_of_settle htimeout (timeLockTimeout_not h)
  case connections =>
    have heq := oscSetupTimeout_due hduty hstep hopen htime
    obtain ⟨hfault, -, hdone, -, hseven, -, hO, hst⟩ := bringProgress_fault (c := 0x0D12) (s := { u with bring := { u.bring with oscDone := true } }) hduty
      (fun _ => by decide)
    rw [← heq] at hfault hdone hseven hO hst
    exact ⟨_, hosc, hdone, hseven (Nat.le_of_eq hstep.symm) rfl, hO, hst, hfault⟩
  case noConnections => exact gives_of_settle hosc (oscSetupTimeout_not h)
  case late =>
    rw [bringupTimeout, if_pos ⟨hduty, hcomplete, htime⟩] at hlate
    obtain ⟨t, ht, hactive, hrest⟩ := raises_of_cond _ hlate (notOff_of_onDuty hduty) rfl
    exact ⟨t, ht, hactive, hrest⟩
  case notLate => exact gives_of_settle hlate (bringupTimeout_not h)

end Sys2Proof.Machine
end

section
/-! PROPERTY. POWER_GOOD, MODULE_RESET, POWER_FAIL and POWER_OFF (13_bringup R354 to R358; 19_faults R494; 20_ledger R514, R517, R519;
notes/assumptions/31.md). -/

namespace Sys2Proof.Machine

open Sys2Proof.Safety

/-! ### Starts -/

/-- `t` is where a start from `s`, by power-good or else by a reset, begins self-test. -/
structure StartedFrom (good : Bool) (s t : State) : Prop where
  st : t.st = .selftest
  clk : t.clk = { el := s.clk.el }
  time : t.time.state = .noTime
  rtc : t.rtc = if good then { s.rtc with alarms := [{}, {}, {}, {}] } else s.rtc
  frame : t.frame = {}
  unlock : t.mb.unlock = 0
  cfg : t.cfg = cfgAtStart s
  lock : t.lock = { drillOp := s.lock.drillOp }
  step : t.bring.step = 1
  goodEl : t.bring.goodEl = elNs s
  powerFailEl : t.bring.powerFailEl = if good then none else s.bring.powerFailEl
  gnss : t.gnss = { ret := if good then s.gnss.saved else s.gnss.ret, saved := s.gnss.saved }
  ledger : ∃ r, t.ledger = { ledgerAtStart good s.ledger with queue := [r] }

/-- A start's record finds its queue empty. -/
theorem startOver_started (good : Bool) (cause : Nat) (s : State) : StartedFrom good s (startOver good cause s) := by
  unfold startOver
  extract_lets rtc s1
  have hst : s1.st ≠ .off := ModState.noConfusion
  have hroom : queueSize s1.ledger.queue + Rec.size { code := 0x1403, data := u8 cause ++ u8 s.ledger.discarded } ≤ queueCap :=
    room_of_lt (q := []) (by decide) (Nat.le_of_ble_eq_true rfl)
  rw [event_room hroom, if_neg hst]
  exact ⟨rfl, rfl, rfl, rfl, rfl, rfl, rfl, rfl, rfl, rfl, rfl, rfl, _, rfl⟩

namespace StartedFrom

variable {good : Bool} {s t : State}

/-- The reset values and what a start keeps, each by its own name. -/
theorem begun (h : StartedFrom good s t) : t.st = .selftest ∧ t.bring.step = 1 ∧ t.bring.goodEl = elNs s ∧ t.clk.el = elNs s ∧ t.time.state = .noTime ∧
    t.frame.running = false ∧ t.lock.held = false ∧ t.lock.drillOp = s.lock.drillOp ∧ t.cfg.bank0 = s.cfg.bank0 ∧ t.cfg.bank1 = s.cfg.bank1 ∧
    t.cfg.owner = none ∧ t.mb.unlock = 0 ∧ t.ledger.boot = (s.ledger.boot + 1) % 2 ^ 32 ∧ t.ledger.queue.length = 1 ∧ t.gnss.saved = s.gnss.saved := by
  obtain ⟨r, hledger⟩ := h.ledger
  rw [h.st, h.step, h.goodEl, h.clk, h.time, h.frame, h.lock, h.cfg, h.unlock, hledger, h.gnss]
  exact ⟨rfl, rfl, rfl, rfl, rfl, rfl, rfl, rfl, rfl, rfl, rfl, rfl, rfl, rfl, rfl⟩

theorem settled (h : StartedFrom good s t) : StartedFrom good s (settle t) := by
  constructor
  · rw [settle_st, h.st]
  · rw [settle_clk, h.clk]
  · rw [settle_time, h.time]
  · rw [settle_rtc, h.rtc]
  · rw [settle_frame, h.frame]
  · rw [settle_mb, h.unlock]
  · rw [settle_cfg, h.cfg]
  · rw [settle_lock, h.lock]
  · rw [settle_bring, h.step]
  · rw [settle_bring, h.goodEl]
  · rw [settle_bring, h.powerFailEl]
  · rw [settle_gnss, h.gnss]
  · rw [settle_ledger]
    exact h.ledger

end StartedFrom

/-- What the writer and the queue's draining leave of the Ledger. -/
def drainFixed (l : LedgerSt) : LedgerSt := { l with recs := [], next := 0, total := 0, queue := [] }

theorem write_drainFixed (l : LedgerSt) (r : Rec) : drainFixed (l.write r) = drainFixed l := by
  unfold LedgerSt.write
  split
  · split <;> rfl
  · rfl

theorem drainQueue_drainFixed (s : State) : drainFixed (drainQueue s).ledger = drainFixed s.ledger := by
  have hwrites := List.foldlRecOn (motive := fun l => drainFixed l = drainFixed s.ledger) s.ledger.queue LedgerSt.write rfl
    (fun l hl r _ => (write_drainFixed l r).trans hl)
  exact hwrites

theorem powerGood_due {a b : Nat} {f1 f2 : Bool} {s : State} (hst : s.st = .off) (hgood : 17000 ≤ Nat.max a b) :
    powerGood a b f1 f2 s = { startOver true 0 s with
      bring := { (startOver true 0 s).bring with lvA := a, lvB := b }, time := { (startOver true 0 s).time with link100 := [f1, f2] } } :=
  if_pos ⟨hst, hgood⟩

/-- A start by power-good notes the supplies and the speeds of the links. -/
theorem powerGood_started {a b : Nat} {f1 f2 : Bool} {s : State} (hst : s.st = .off) (hgood : 17000 ≤ Nat.max a b) :
    StartedFrom true s (powerGood a b f1 f2 s) ∧ (powerGood a b f1 f2 s).bring.lvA = a ∧ (powerGood a b f1 f2 s).bring.lvB = b ∧
      (powerGood a b f1 f2 s).time.link100 = [f1, f2] := by
  have h := startOver_started true 0 s
  rw [powerGood_due hst hgood]
  exact ⟨⟨h.st, h.clk, h.time, h.rtc, h.frame, h.unlock, h.cfg, h.lock, h.step, h.goodEl, h.powerFailEl, h.gnss, h.ledger⟩, rfl, rfl, rfl⟩

theorem powerGood_not {a b : Nat} {f1 f2 : Bool} {s : State} (h : s.st ≠ .off ∨ Nat.max a b < 17000) : powerGood a b f1 f2 s = s :=
  if_neg fun hc => h.elim (· hc.1) (Nat.not_lt.mpr hc.2)

theorem moduleReset_due {s : State} (hon : s.st ≠ .off) (h : s.st ≠ .selftest ∨ s.bring.step ≠ 0) :
    moduleReset s = startOver false (if s.faults.mustReset then 1 else 2) (drainQueue s) := by
  unfold moduleReset
  split
  next hoff => exact absurd hoff hon
  next hself => exact if_neg (h.resolve_left (not_not_intro hself))
  next => rfl

theorem moduleReset_not {s : State} (h : s.st = .off ∨ (s.st = .selftest ∧ s.bring.step = 0)) : moduleReset s = s := by
  unfold moduleReset
  rcases h with h | ⟨h, hstep⟩
  · rw [h]
  · rw [h]
    exact if_pos hstep

/-! ### Power-fail -/

/-- A state but for the slots, the controllers and what was sent: what the suppression of slots never writes. -/
def slotsFixed (s : State) : State := { s with slots := [], can := [], out := [] }

theorem slotsFixed_suppressSlots (started : List Nat) (s : State) : slotsFixed (suppressSlots started s) = slotsFixed s := by
  refine foldl_keeps slotsFixed (fun t p => ?_) _ s
  extract_lets e refuse
  split
  · split
    · split <;> rfl
    · rfl
    · rfl
  · rfl

/-- What a beat on duty is composed from. -/
def beatFixed (s : State) : State := { slotsFixed s with bring := { step := s.bring.step } }

theorem beat_of_beatFixed {s t : State} (h : beatFixed t = beatFixed s) (type frame expiry : Nat)
    (prepare release claim held last : Bool) :
    rafMessage t type frame (beatBody t prepare release claim held expiry (succOrder t last)) =
      rafMessage s type frame (beatBody s prepare release claim held expiry (succOrder s last)) := by
  have hfixed (x : State) : rafMessage (beatFixed x) type frame (beatBody (beatFixed x) prepare release claim held expiry (succOrder (beatFixed x) last)) =
      rafMessage x type frame (beatBody x prepare release claim held expiry (succOrder x last)) := rfl
  rw [← hfixed t, h, hfixed s]

/-- A holder's release beat leaves between ticks (R346, R357). -/
theorem releaseBetweenTicks_sends {s : State} (hheld : s.lock.held = true) : Sends (releaseBetweenTicks s) s 1 (frameIndex s)
    (beatBody s false true false false (frameIndex s + 1) (succOrder s true)) := by
  unfold releaseBetweenTicks
  rw [if_pos hheld]
  exact sends_sendRaf 1 (frameIndex s) _ s

theorem releaseBetweenTicks_ledger (s : State) : (releaseBetweenTicks s).ledger = s.ledger := by
  unfold releaseBetweenTicks
  split <;> rfl

theorem releaseBetweenTicks_unheld (s : State) : (releaseBetweenTicks s).lock.held = false := by
  unfold releaseBetweenTicks
  split
  next => rfl
  next h => exact Bool.eq_false_of_not_eq_true h

/-- The lease given up at power-fail, with its event (R357). -/
def leaseGivenUp (s : State) : State := if s.lock.held then releaseBetweenTicks (event 0x0C03 (u8 3) s) else s

theorem leaseGivenUp_kept (s : State) : (leaseGivenUp s).st = s.st ∧ (leaseGivenUp s).bring = s.bring ∧ (leaseGivenUp s).ledger.opS = s.ledger.opS ∧
    (leaseGivenUp s).lock.held = false := by
  unfold leaseGivenUp
  split
  case isTrue =>
    have hrest := releaseBetweenTicks_rest (s := event 0x0C03 (u8 3) s)
    have hst := congrArg State.st hrest
    have hbring := congrArg State.bring hrest
    refine ⟨hst.trans (event_st _ _ _), hbring.trans (event_bring _ _ _), ?_, releaseBetweenTicks_unheld _⟩
    rw [releaseBetweenTicks_ledger, event_opS]
  case isFalse h => exact ⟨rfl, rfl, rfl, Bool.eq_false_of_not_eq_true h⟩

/-- What power-fail notes when it is detected, and the slots that it suppresses. -/
def failNoted (a b : Nat) (started : List Nat) (s : State) : State :=
  suppressSlots started { s with bring := { s.bring with powerFailEl := some (elNs s), lvA := a, lvB := b } }

/-- What power-fail leaves for OFF: nothing more is sent, the operating seconds are saved, the queue is drained. -/
def failDrained (s : State) : State :=
  drainQueue { s with frame := { s.frame with emitSuppressed := true }, ledger := { s.ledger with savedOp := s.ledger.opS } }

theorem powerFail_due {a b : Nat} {started : List Nat} {s : State} (hon : s.st ≠ .off) (hnone : s.bring.powerFailEl = none) (hlow : Nat.max a b < 16000) :
    ∃ d, powerFail a b started s = failDrained (leaseGivenUp (event 0x0D03 d (failNoted a b started s))) :=
  ⟨_, if_pos ⟨hon, hnone, hlow⟩⟩

theorem powerFail_not {a b : Nat} {started : List Nat} {s : State} (h : s.st = .off ∨ s.bring.powerFailEl ≠ none ∨ 16000 ≤ Nat.max a b) :
    powerFail a b started s = s := by
  refine if_neg ?_
  rintro ⟨hon, hnone, hlow⟩
  rcases h with h | h | h
  · exact hon h
  · exact h hnone
  · exact Nat.not_lt.mpr h hlow

theorem failDrained_ledger (s : State) : (failDrained s).ledger.queue = [] ∧ (failDrained s).ledger.savedOp = s.ledger.opS := by
  obtain ⟨v, hv⟩ : ∃ v : State, v = { s with frame := { s.frame with emitSuppressed := true }, ledger := { s.ledger with savedOp := s.ledger.opS } } :=
    ⟨_, rfl⟩
  have hsaved : v.ledger.savedOp = s.ledger.opS := by rw [hv]
  have hdrain := congrArg LedgerSt.savedOp (drainQueue_drainFixed v)
  unfold failDrained
  rw [← hv]
  exact ⟨rfl, Eq.trans hdrain hsaved⟩

/-- The release of a lease given up on duty has left (R357). -/
theorem failNoted_sends {a b : Nat} {started : List Nat} {d : Bytes} {s : State} (hheld : s.lock.held = true) (hduty : onDuty s.st = true)
    (hcalm : Calm s) : Sends (leaseGivenUp (event 0x0D03 d (failNoted a b started s))) s 1 (frameIndex s)
      (beatBody s false true false false (frameIndex s + 1) (succOrder s true)) := by
  obtain ⟨v, hv⟩ : ∃ v, v = failNoted a b started s := ⟨_, rfl⟩
  have hslots : slotsFixed v = slotsFixed { s with bring := { s.bring with powerFailEl := some (elNs s), lvA := a, lvB := b } } :=
    hv ▸ slotsFixed_suppressSlots _ _
  have hbeat : beatFixed v = beatFixed s := by
    have h := congrArg (fun x : State => { x with bring := { step := x.bring.step } }) hslots
    exact h
  have hst : v.st = s.st := by have h := congrArg State.st hbeat; exact h
  have hcfg : v.cfg = s.cfg := by have h := congrArg State.cfg hbeat; exact h
  have hlock : v.lock = s.lock := by have h := congrArg State.lock hbeat; exact h
  have hframe : v.frame = s.frame := by have h := congrArg State.frame hbeat; exact h
  have hvcalm := calm_of_cfg hcfg hcalm
  have hfail : OnlyRaised v (event 0x0D03 d v) := event_calm hvcalm
  have hraised : OnlyRaised v (event 0x0C03 (u8 3) (event 0x0D03 d v)) := hfail.trans (event_calm (hfail.calm hvcalm))
  have hvheld : v.lock.held = true := by rw [hlock, hheld]
  have hlease : (event 0x0D03 d v).lock.held = true := (congrArg Prod.fst hfail.lent_eq).trans hvheld
  have hindex : frameIndex (event 0x0C03 (u8 3) (event 0x0D03 d v)) = frameIndex s := by
    unfold frameIndex
    rw [event_frame_index, event_frame_index, hframe]
  rw [← hv]
  unfold leaseGivenUp
  rw [if_pos hlease]
  intro p hp
  have hsent := releaseBetweenTicks_sends ((congrArg Prod.fst hraised.lent_eq).trans hvheld) p hp
  rw [hindex, beat_of_onlyRaised hraised (hst ▸ hduty), beat_of_beatFixed hbeat] at hsent
  exact hsent

/-- What stands once power-fail has been noted and the lease given up. -/
theorem failNoted_parts (a b : Nat) (started : List Nat) (d : Bytes) (s : State) : ∃ v, v = leaseGivenUp (event 0x0D03 d (failNoted a b started s)) ∧
    v.st = s.st ∧ v.bring.powerFailEl = some (elNs s) ∧ v.ledger.opS = s.ledger.opS ∧ v.lock.held = false := by
  have hslots : slotsFixed (failNoted a b started s) = slotsFixed { s with bring := { s.bring with powerFailEl := some (elNs s), lvA := a, lvB := b } } :=
    slotsFixed_suppressSlots _ _
  have hnst : (failNoted a b started s).st = s.st := by have h := congrArg State.st hslots; exact h
  have hnfail : (failNoted a b started s).bring.powerFailEl = some (elNs s) := by have h := congrArg (fun x : State => x.bring.powerFailEl) hslots; exact h
  have hnop : (failNoted a b started s).ledger.opS = s.ledger.opS := by have h := congrArg (fun x : State => x.ledger.opS) hslots; exact h
  obtain ⟨hst, hbring, hopS, hheld⟩ := leaseGivenUp_kept (event 0x0D03 d (failNoted a b started s))
  exact ⟨_, rfl, by rw [hst, event_st, hnst], by rw [hbring, event_bring, hnfail], by rw [hopS, event_opS, hnop], hheld⟩

/-- MOK is low after a power-fail (R357). -/
theorem settle_mok_failed {t : Nat} {s : State} (h : s.bring.powerFailEl = some t) : (settle s).field.mok = false := by
  have hbring : (updateFlt s).bring = s.bring := by have hb := congrArg State.bring (updateFlt_rest s); exact hb
  have hcond : mokCond (updateFlt s) = false := by
    unfold mokCond
    rw [hbring, h]
    rfl
  have hmok : (settle s).field.mok = ((updateFlt s).field.mok && mokCond (updateFlt s)) := rfl
  rw [hmok, hcond, Bool.and_false]

/-! ### OFF -/

/-- A commit cut short writes a copy of the commit record alone (03 R92). -/
theorem commitCut_eq (cut : Bytes) (s : State) : ∃ x y, commitCut cut s = { s with cfg := { s.cfg with copy0 := x, copy1 := y } } := by
  unfold commitCut putCopy
  extract_lets writing
  split
  · split
    · exact ⟨s.cfg.copy0, _, rfl⟩
    · exact ⟨_, s.cfg.copy1, rfl⟩
  · exact ⟨s.cfg.copy0, s.cfg.copy1, rfl⟩

theorem powerOff_due {t0 : Nat} {vbak : Bool} {cut : Bytes} {s : State} (hfail : s.bring.powerFailEl = some t0) (htime : t0 + 2000000 ≤ elNs s) :
    powerOff vbak cut s = offState vbak (commitCut cut s) := by
  unfold powerOff
  rw [hfail]
  exact if_pos htime

theorem powerOff_not {t0 : Nat} {vbak : Bool} {cut : Bytes} {s : State}
    (h : s.bring.powerFailEl = none ∨ (s.bring.powerFailEl = some t0 ∧ elNs s < t0 + 2000000)) : powerOff vbak cut s = s := by
  unfold powerOff
  rcases h with h | ⟨h, htime⟩
  · rw [h]
  · rw [h]
    exact if_neg (Nat.not_le.mpr htime)

/-- Settles O48: a start leaves `StartedFrom`, power-fail drains what `leaseGivenUp` leaves, and OFF keeps what memory keeps. -/
theorem suppliesStartAndStopTheModule : Obligations.SuppliesStartAndStopTheModule := by
  unfold Obligations.SuppliesStartAndStopTheModule
  intro dt a b t0 f1 f2 vbak sl cut s
  extract_lets u k started
  have hgoodRun : exec (.powerGood dt a b f1 f2) s = .next (settle (powerGood a b f1 f2 u)) := rfl
  have hresetRun : exec (.moduleReset dt) s = .next (settle (moduleReset u)) := rfl
  have hfailRun : exec (.powerFail dt a b sl) s = .next (settle (powerFail a b sl u)) := rfl
  have hoffRun : exec (.powerOff dt ⟨vbak, cut⟩) s = .next (settle (powerOff vbak cut u)) := rfl
  clear_value u
  refine ⟨fun hoff hsupply => ?good, fun h => ?notGood, fun hon hfree => ?reset, fun h => ?notReset, fun hon hnone hlow => ?fail, fun h => ?notFail,
    fun hfailed htime => ?off, fun h => ?notOff⟩
  case good =>
    obtain ⟨hfrom, hlvA, hlvB, hlinks⟩ := powerGood_started (f1 := f1) (f2 := f2) hoff hsupply
    have hstart := hfrom.settled
    obtain ⟨r, hledger⟩ := hstart.ledger
    refine ⟨_, hgoodRun, hstart.begun, ?_, ?_, ?_, ?_, ?_, hstart.rtc⟩
    · rw [settle_bring, hlvA]
    · rw [settle_bring, hlvB]
    · rw [settle_time, hlinks]
    · exact (congrArg GnssSt.ret hstart.gnss).trans rfl
    · exact (congrArg LedgerSt.recs hledger).trans rfl
  case notGood => exact gives_of_settle hgoodRun (powerGood_not h)
  case reset =>
    have hstart := (startOver_started false (if u.faults.mustReset then 1 else 2) (drainQueue u)).settled
    rw [← moduleReset_due hon hfree] at hstart
    obtain ⟨r, hledger⟩ := hstart.ledger
    have hfixed := drainQueue_drainFixed u
    have hopS : (drainQueue u).ledger.opS = u.ledger.opS := by have h := congrArg LedgerSt.opS hfixed; exact h
    have hboot : (drainQueue u).ledger.boot = u.ledger.boot := by have h := congrArg LedgerSt.boot hfixed; exact h
    refine ⟨_, hresetRun, ?_, (congrArg GnssSt.ret hstart.gnss).trans rfl, hstart.rtc, hstart.powerFailEl, (congrArg LedgerSt.opS hledger).trans hopS,
      (congrArg LedgerSt.recs hledger).trans rfl⟩
    have hbegun := hstart.begun
    rw [hboot] at hbegun
    exact hbegun
  case notReset => exact gives_of_settle hresetRun (moduleReset_not h)
  case fail =>
    obtain ⟨d, heq⟩ := powerFail_due (started := sl) hon hnone hlow
    obtain ⟨v, hv, hst, hfailEl, hopS, hheld⟩ := failNoted_parts a b sl d u
    obtain ⟨hqueue, hsaved⟩ := failDrained_ledger v
    rw [← hv] at heq
    rw [heq] at hfailRun
    refine ⟨_, hfailRun, ?_, ?_, settle_mok_failed hfailEl, ?_, ?_, ?_, ?_, fun hlease hduty hcalm => ?_⟩
    · rw [settle_st]
      exact hst
    · rw [settle_bring]
      exact hfailEl
    · rw [settle_lock]
      exact hheld
    · rw [settle_frame]
      rfl
    · rw [settle_ledger, hqueue]
    · rw [settle_ledger, hsaved, hopS]
    · have hsends := failNoted_sends (a := a) (b := b) (started := sl) (d := d) hlease hduty hcalm
      rw [← hv] at hsends
      refine sends_of_sent hsends ?_
      rw [settle_out]
      exact List.Subset.refl v.out
  case notFail => exact gives_of_settle hfailRun (powerFail_not h)
  case off =>
    have heq := powerOff_due (vbak := vbak) (cut := cut) hfailed htime
    obtain ⟨x, y, hcut⟩ := commitCut_eq cut u
    rw [hcut] at heq
    refine ⟨_, hoffRun, ?_⟩
    rw [heq]
    refine ⟨rfl, rfl, rfl, rfl, rfl, rfl, rfl, rfl, rfl, rfl, rfl, rfl, rfl, rfl, rfl⟩
  case notOff => exact gives_of_settle hoffRun (powerOff_not h)

end Sys2Proof.Machine
end
